-- ==== Sys2Proof/Word.lean ====
section
/-! DEFINITION. The word types of the model and nothing else: registers, patterns and encoded fields are bit vectors (R7, R9). -/

namespace Sys2Proof

abbrev Byte := BitVec 8
abbrev W16 := BitVec 16
abbrev W32 := BitVec 32
abbrev W64 := BitVec 64

/-- A string of bytes, first byte first. -/
abbrev Bytes := List Byte

end Sys2Proof
end

