-- ==== Sys2Proof/Syntax.lean ====
section
/-! DEFINITION. The commands of the block: one constructor of `Instr` per row of spec/opcode_table.json, with the operands
the row's rule gives it.

The first operand `dt` of every command is the time in nanoseconds since the command before it (log entry 1): the device and
module clocks advance by `dt`, then the command's effect happens. Operands that carry a measurement, a signature verdict or a
placement chosen by the firmware stand for what the spec leaves outside the block (log entries 4 to 6). -/

namespace Sys2Proof

/-- Die index of R22: CD0-CD23 are 0-23, MD0-MD3 24-27, SD0-SD1 28-29, HD 30, LD 31. -/
abbrev DieIx := Fin 32
abbrev CoreDie := Fin 24
abbrev CoreIx := Fin 160
abbrev MemDie := Fin 4
abbrev StreamDie := Fin 2
/-- Master port of R326: 0 and 1 PCIe, 2 SMBus, 3 cascade. -/
abbrev Port := Fin 4
abbrev PciePort := Fin 2
abbrev Slot := Fin 64
abbrev SessionIx := Fin 256
abbrev Bank := Fin 8
abbrev QueueIx := Fin 64
abbrev LaneIx := Fin 32
abbrev EngineIx := Fin 24
abbrev GroupIx := Fin 64

/-- The four kinds of rail fault differ by whose rail it is: the 39 rails of R400 (the warmer's VDD_AON apart). -/
inductive Rail
  | v12 | fab | hub | ld | srds | g7vpp | g7vdd | g7vddq
  | md (n : MemDie) | sd (n : StreamDie) | cd (n : CoreDie)
  deriving DecidableEq, Repr

/-- The fields of one micro-program step other than its operation (R116). -/
structure StepOps where
  dst : Fin 32
  a : Fin 32
  b : Fin 32
  c : Fin 32
  imm : W32
  deriving DecidableEq, Repr

/-- A coded element of a unit: what one substream position carries (R216 to R218, R239, R240). -/
inductive Elem
  /-- a raw `k`-bit symbol (R218) -/
  | raw (k v : Nat)
  /-- a hyper-latent of channel `c` (R239) -/
  | hyper (c : Nat) (q : Int)
  /-- a latent coded with the table of sigma index `i` (R220) -/
  | latent (i : Nat) (q : Int)
  /-- a motion delta: horizontal from table MX, vertical from MY (R240) -/
  | motionX (d : Int)
  | motionY (d : Int)
  deriving DecidableEq, Repr

/-- One descriptor and its boundary entry, as the firmware's loader fills them (R84, R159), and whether the layer it belongs to
is on the encoder-only part of the program (R335). -/
structure QueueEntry where
  desc : Bytes
  boundary : Bytes
  encOnly : Bool
  deriving DecidableEq, Repr

/-- What the firmware loads into one core of a cut (R306): its descriptors and boundary entries, the bytes its feeder transfers
put into scratch first (address and bytes: home shards, micro-programs, constants; R143, R155), the owners its banks start
with, the core's home shard of every layer (address and length) and its travel bank in its pour ring (R155). -/
structure CoreLoad where
  die : CoreDie
  core : CoreIx
  entries : List QueueEntry
  fills : List (Nat × Bytes)
  owners : List (Bank × Fin 7)
  homes : List (Nat × Nat)
  travelBank : Option Bank
  deriving DecidableEq, Repr

/-- Where the firmware places a session's rings in its sub-pool, and what it loads (R306, R309, R333). -/
structure Placement where
  recBase : Nat
  outBase : Nat
  loads : List CoreLoad
  deriving DecidableEq, Repr

/-- How a GDDR7 access error ends (R370). -/
inductive GddrError
  /-- a write or read CRC report that a repeat corrects, or an on-die ECC correction -/
  | corrected
  /-- on-die ECC uncorrectable, or the fifth attempt fails CRC -/
  | uncorrectable
  /-- a read of a word already in the poison list -/
  | poisonedRead
  deriving DecidableEq, Repr

/-- A configuration write of R356 and R358. -/
inductive CfgWrite
  | busMaster (on : Bool)
  | relaxedOrdering (on : Bool)
  | maxPayload (bytes : Nat)
  | maxReadRequest (bytes : Nat)
  | bar2Size (gib : Nat)
  | tenBitTags (on : Bool)
  deriving DecidableEq, Repr

/-- Who issues a register write: a PCIe port through BAR0 (R447), the BMC by SMBus command code (R449), or the control
processor through a die's register window (R454). -/
inductive Writer
  | bar0 (p : PciePort)
  | smbus
  | firmware
  deriving DecidableEq, Repr

/-- One flit of the cascade link: the fields of R374 other than its type, and how many symbols of its codewords FEC corrected on
arrival (R387; log entry 4). -/
structure Flit where
  vc : Fin 4
  vcSet : Bool
  seq : Fin 4096
  ack : Fin 4096
  creditVc : Fin 4
  creditSet : Bool
  credit : Fin 8192
  srcRank : Fin 8
  dstRank : Fin 8
  target : Nat
  fec : Nat
  payload : Bytes
  deriving DecidableEq, Repr

/-- The commands: one constructor per row of spec/opcode_table.json. -/
inductive Instr
  -- supplies, resets and clocks (R15 to R18, R389 to R403, R424, R426)
  | auxPowerOn (dt : Nat)
  | auxPowerOff (dt : Nat)
  | supply54vRemoved (dt mv10 : Nat)
  | supply54vRestored (dt mv10 : Nat)
  | railSequence (dt : Nat) (failing : List Rail)
  | railFault (dt : Nat) (rail : Rail)
  | supplyWarn (dt mv10 : Nat)
  | supplyFault (dt mv10 : Nat)
  | moduleReset (dt : Nat)
  | boot (dt : Nat) (straps : BitVec 4)
  | pllStartTimeout (dt : Nat) (domain : Fin 60)
  | pllWindow (dt : Nat) (domain : Fin 60) (count256 : Nat)
  | perstAssert (dt : Nat) (p : PciePort)
  | perstRelease (dt : Nat) (p : PciePort)
  | refclkMissing (dt cycles : Nat)
  | refclkPresent (dt : Nat) (windows : List Nat)
  | tapReset (dt : Nat)
  | bypass (dt : Nat) (tdi : Bool)
  | idcode (dt : Nat)
  | samplePreload (dt : Nat) (preload : List Bool)
  | extest (dt : Nat)
  -- fabric and die faults (R26 to R31)
  | flitCrcFail (dt : Nat) (die : DieIx) (edge : Fin 4) (attempts : Fin 6)
  | sramUncorrectableEcc (dt : Nat) (die : DieIx) (core : Option CoreIx)
  | dieWatchdogExpiry (dt : Nat) (die : DieIx)
  | hubWatchdogExpiry (dt : Nat)
  -- core descriptors (R84 to R100, R114 to R134, R219)
  | conv (dt : Nat) (die : CoreDie) (core : CoreIx)
  | matmul (dt : Nat) (die : CoreDie) (core : CoreIx)
  | pool (dt : Nat) (die : CoreDie) (core : CoreIx)
  | elem (dt : Nat) (die : CoreDie) (core : CoreIx)
  | act (dt : Nat) (die : CoreDie) (core : CoreIx)
  | softmax (dt : Nat) (die : CoreDie) (core : CoreIx)
  | norm (dt : Nat) (die : CoreDie) (core : CoreIx)
  | sort (dt : Nat) (die : CoreDie) (core : CoreIx)
  | quant (dt : Nat) (die : CoreDie) (core : CoreIx)
  | micro (dt : Nat) (die : CoreDie) (core : CoreIx)
  | completionRecord (dt : Nat) (die : CoreDie) (core : CoreIx)
  -- micro-program steps (R118)
  | stepAdd (dt : Nat) (die : CoreDie) (core : CoreIx) (st : StepOps)
  | stepSub (dt : Nat) (die : CoreDie) (core : CoreIx) (st : StepOps)
  | stepMul (dt : Nat) (die : CoreDie) (core : CoreIx) (st : StepOps)
  | stepFma (dt : Nat) (die : CoreDie) (core : CoreIx) (st : StepOps)
  | stepMin (dt : Nat) (die : CoreDie) (core : CoreIx) (st : StepOps)
  | stepMax (dt : Nat) (die : CoreDie) (core : CoreIx) (st : StepOps)
  | stepDiv (dt : Nat) (die : CoreDie) (core : CoreIx) (st : StepOps)
  | stepSqrt (dt : Nat) (die : CoreDie) (core : CoreIx) (st : StepOps)
  | stepFloor (dt : Nat) (die : CoreDie) (core : CoreIx) (st : StepOps)
  | stepLdexp (dt : Nat) (die : CoreDie) (core : CoreIx) (st : StepOps)
  | stepSellt (dt : Nat) (die : CoreDie) (core : CoreIx) (st : StepOps)
  | stepLookup (dt : Nat) (die : CoreDie) (core : CoreIx) (st : StepOps)
  | stepLookup2 (dt : Nat) (die : CoreDie) (core : CoreIx) (st : StepOps)
  | stepCall (dt : Nat) (die : CoreDie) (core : CoreIx) (st : StepOps)
  -- scratch, tables and banks (R120 to R146)
  | scratchCorrectedError (dt : Nat) (die : CoreDie) (core : CoreIx) (bank : Bank) (word : Fin 8192)
  | shadowWrite (dt : Nat) (die : CoreDie) (core : CoreIx) (word : Fin 4096) (data : W32)
  | shadowValidSet (dt : Nat) (die : CoreDie) (core : CoreIx) (withWrite : Bool)
  | swapNow (dt : Nat) (die : CoreDie) (core : CoreIx)
  | explicitSwap (dt : Nat) (die : CoreDie) (core : CoreIx)
  | rowCancelRead (dt : Nat) (die : CoreDie) (core : CoreIx)
  | handoverRequest (dt : Nat) (die : CoreDie) (core : CoreIx) (bank : Bank) (req : Fin 8) (lostRace : Bool)
  | handoverEffect (dt : Nat) (die : CoreDie) (core : CoreIx) (bank : Bank)
  | bankOn (dt : Nat) (die : CoreDie) (core : CoreIx) (group : Fin 2)
  | bankRetain (dt : Nat) (die : CoreDie) (core : CoreIx) (group : Fin 2)
  | bankOff (dt : Nat) (die : CoreDie) (core : CoreIx) (group : Fin 2)
  | bankGroupReady (dt : Nat) (die : CoreDie) (core : CoreIx) (group : Fin 2)
  -- feeder queues (R147 to R154, R166 to R171)
  | queueEnable (dt : Nat) (md : MemDie) (q : QueueIx)
  | feederDescriptorFetch (dt : Nat) (md : MemDie) (q : QueueIx)
  | transferComplete (dt : Nat) (md : MemDie) (q : QueueIx) (stitch badRead : Bool) (landed : Nat)
  | queueCancel (dt : Nat) (md : MemDie) (q : QueueIx)
  | cancelDrained (dt : Nat) (md : MemDie) (q : QueueIx) (landed : Nat)
  -- pour ring, seams and cinches (R155 to R164)
  | pourStepAdvance (dt : Nat) (die : CoreDie) (core : CoreIx)
  | seamRowArrival (dt : Nat) (die : CoreDie) (core : CoreIx) (down : Bool)
  | creditReturn (dt : Nat) (die : CoreDie) (core : CoreIx) (down : Bool)
  | boundaryPre (dt : Nat) (die : CoreDie) (core : CoreIx)
  | copyIn (dt : Nat) (die : CoreDie) (core : CoreIx)
  | cinchArrive (dt : Nat) (die : CoreDie) (core : CoreIx)
  | cinchRelease (dt : Nat) (sess : SessionIx)
  | cinchTimeout (dt : Nat) (sess : SessionIx)
  -- the video pipeline (R172 to R211)
  | feederRowLanded (dt : Nat) (sess : SessionIx) (poc : W32)
  | searchRow (dt : Nat) (sess : SessionIx) (poc : W32)
  | predictRow (dt : Nat) (sess : SessionIx) (poc : W32)
  | librarySearch (dt : Nat) (sess : SessionIx) (poc : W32)
  | libraryStageComplete (dt : Nat) (sess : SessionIx) (index : Nat) (ecc : Bool)
  | phase1Start (dt : Nat) (sess : SessionIx) (poc : W32) (loads : List CoreLoad)
  | picCommit (dt : Nat) (sess : SessionIx) (poc : W32)
  | gainAllocation (dt : Nat) (sess : SessionIx) (poc : W32)
  | phase2Start (dt : Nat) (sess : SessionIx) (poc : W32) (loads : List CoreLoad)
  | rowCommit (dt : Nat) (sess : SessionIx) (poc : W32)
  | phase2Rerun (dt : Nat) (sess : SessionIx) (poc : W32) (loads : List CoreLoad)
  | phase2Done (dt : Nat) (sess : SessionIx) (poc : W32)
  | frameBufferRelease (dt : Nat) (sess : SessionIx) (poc : W32)
  | libraryWriteComplete (dt : Nat) (sess : SessionIx) (index : Nat) (ok : Bool)
  | poolGrant (dt : Nat) (md : MemDie)
  | substreamEncode (dt : Nat) (sess : SessionIx) (lane : LaneIx)
  | substreamDecode (dt : Nat) (sess : SessionIx) (lane : LaneIx)
  -- Tutik units at a decoder (R222 to R238, R251 to R273)
  | unitMdl (dt : Nat) (sess : SessionIx)
  | unitSeq (dt : Nat) (sess : SessionIx)
  | unitPic (dt : Nat) (sess : SessionIx)
  | unitRow (dt : Nat) (sess : SessionIx)
  | unitAud (dt : Nat) (sess : SessionIx)
  | unitLib (dt : Nat) (sess : SessionIx)
  | unitEnd (dt : Nat) (sess : SessionIx)
  | extensionUnit (dt : Nat) (sess : SessionIx)
  | pictureWatchdog (dt : Nat) (sess : SessionIx) (poc : W32)
  -- audio (R274 to R294)
  | audioFrameEncode (dt : Nat) (sess : SessionIx) (group : GroupIx)
  | audCommit (dt : Nat) (sess : SessionIx)
  | audioSynthesisDone (dt : Nat) (sess : SessionIx) (group : GroupIx)
  | audioWatchdog (dt : Nat) (sess : SessionIx) (group : GroupIx)
  -- session events (R305, R315, R316, R341)
  | outputStall (dt : Nat) (sess : SessionIx)
  | remapGraceExpiry (dt : Nat) (sess : SessionIx)
  | recutCoreRelease (dt : Nat) (sess : SessionIx)
  | drainComplete (dt : Nat) (sess : SessionIx)
  -- mailboxes (R326 to R336)
  | mailboxSeal (dt : Nat) (port : Port) (slot : Slot) (seq opcode : W16)
  | slotStateWrite (dt : Nat) (port : Port) (slot : Slot) (value : W32)
  | seqGap (dt : Nat) (port : Port)
  -- mailbox commands: the firmware accepts the sealed slot (R337)
  | ping (dt : Nat) (port : Port) (slot : Slot)
  | deviceInfo (dt : Nat) (port : Port) (slot : Slot)
  | claim (dt : Nat) (port : Port) (slot : Slot)
  | heartbeat (dt : Nat) (port : Port) (slot : Slot)
  | handover (dt : Nat) (port : Port) (slot : Slot)
  | accept (dt : Nat) (port : Port) (slot : Slot)
  | release (dt : Nat) (port : Port) (slot : Slot)
  | electionWindowClose (dt : Nat)
  | leaseExpired (dt : Nat)
  | handoverLapsed (dt : Nat)
  | eventRead (dt : Nat) (port : Port) (slot : Slot)
  | modelLoad (dt : Nat) (port : Port) (slot : Slot) (sigOk : Bool)
  | modelUnload (dt : Nat) (port : Port) (slot : Slot)
  | modelList (dt : Nat) (port : Port) (slot : Slot)
  | modelReload (dt : Nat) (model : Fin 32) (sigOk : Bool)
  | stage (dt : Nat) (port : Port) (slot : Slot) (sigOk : Bool)
  | activate (dt : Nat) (port : Port) (slot : Slot)
  | commitSvn (dt : Nat) (port : Port) (slot : Slot)
  | enrolModelKey (dt : Nat) (port : Port) (slot : Slot)
  | revokeKey (dt : Nat) (port : Port) (slot : Slot)
  | signQuote (dt : Nat) (port : Port) (slot : Slot)
  | readQuoteChunk (dt : Nat) (port : Port) (slot : Slot)
  | readLogChunk (dt : Nat) (port : Port) (slot : Slot)
  | readCertChunk (dt : Nat) (port : Port) (slot : Slot)
  | calRead (dt : Nat) (port : Port) (slot : Slot)
  | calWrite (dt : Nat) (port : Port) (slot : Slot) (presetsOk : Option (Fin 48))
  | setCap (dt : Nat) (port : Port) (slot : Slot)
  | diesOff (dt : Nat) (port : Port) (slot : Slot)
  | diesOn (dt : Nat) (port : Port) (slot : Slot)
  | diePowerOnComplete (dt : Nat) (die : DieIx) (mismatch : List CoreIx)
  | moduleStandby (dt : Nat) (port : Port) (slot : Slot)
  | standbyEntry (dt : Nat)
  | configure (dt : Nat) (port : Port) (slot : Slot)
  | bind (dt : Nat) (port : Port) (slot : Slot) (pl : Placement)
  | start (dt : Nat) (port : Port) (slot : Slot)
  | recut (dt : Nat) (port : Port) (slot : Slot) (pl : Placement) (mismatch : List (CoreDie × CoreIx))
  | drain (dt : Nat) (port : Port) (slot : Slot)
  | abort (dt : Nat) (port : Port) (slot : Slot)
  | unbind (dt : Nat) (port : Port) (slot : Slot)
  | close (dt : Nat) (port : Port) (slot : Slot)
  | sessionStatus (dt : Nat) (port : Port) (slot : Slot)
  | picture (dt : Nat) (port : Port) (slot : Slot)
  | streamSlot (dt : Nat) (port : Port) (slot : Slot)
  | outSlot (dt : Nat) (port : Port) (slot : Slot)
  | audioBlock (dt : Nat) (port : Port) (slot : Slot)
  | routeAdd (dt : Nat) (port : Port) (slot : Slot)
  | routeRemove (dt : Nat) (port : Port) (slot : Slot)
  -- SMBus (R331, R449, R458) and registers (R349, R351, R407, R411, R447)
  | mbxOffset (dt : Nat) (data : Bytes) (pecOk : Bool)
  | mbxWrite (dt : Nat) (data : Bytes) (pecOk : Bool)
  | mbxRead (dt : Nat)
  | alertResponse (dt : Nat)
  | wake (dt : Nat)
  | tripLatchedClear (dt : Nat) (w : Writer)
  | timeLoRead (dt : Nat)
  | logNextLoRead (dt : Nat)
  | registerWrite (dt : Nat) (w : Writer) (addr : Nat) (data : Bytes)
  -- the event log and housekeeping (R335, R350, R450, R453)
  | eventCommit (dt : Nat)
  | dieProgressReport (dt : Nat) (die : DieIx)
  | completionRingCollect (dt : Nat) (die : CoreDie) (core : CoreIx)
  | mirrorPush (dt : Nat) (die : DieIx)
  | counterWindowRefresh (dt : Nat) (sess : SessionIx)
  -- PCIe and CXL (R353 to R367)
  | pcieLinkUp (dt : Nat) (p : PciePort) (width : Fin 17) (rate : Fin 7) (flit : Bool)
  | flr (dt : Nat) (p : PciePort)
  | surpriseLinkDown (dt : Nat) (p : PciePort)
  | pmStateWrite (dt : Nat) (p : PciePort) (d3hot : Bool)
  | bar2Read (dt : Nat) (p : PciePort) (offset : Nat) (len : Fin 65)
  | bar2Write (dt : Nat) (p : PciePort) (offset : Nat) (data : Bytes)
  | cxlPortUp (dt : Nat) (x : Fin 2) (widthLog2 : Fin 4) (mode : Fin 3) (type3 : Bool) (capacity : Nat)
  | cxlDown (dt : Nat) (x : Fin 2)
  | cxlRetrain (dt : Nat) (x : Fin 2)
  -- GDDR7 (R368 to R371)
  | memoryTrained (dt : Nat) (seedFail trainFail : List (MemDie × Fin 8)) (mismatch : List (CoreDie × CoreIx))
  | gddr7Retrain (dt : Nat) (md : MemDie) (ch : Fin 8) (secondAttempt : Bool)
  | gddr7AccessError (dt : Nat) (md : MemDie) (addr : Nat) (err : GddrError)
  | patrolScrub (dt : Nat) (md : MemDie) (addr : Nat) (found : Option GddrError)
  -- the cascade (R372 to R388)
  | cascadeData (dt : Nat) (q : Fin 4) (f : Flit)
  | cascadeTime (dt : Nat) (q : Fin 4) (f : Flit)
  | cascadeRetry (dt : Nat) (q : Fin 4) (f : Flit)
  | cascadeId (dt : Nat) (q : Fin 4) (f : Flit) (rank : Fin 8) (peerPort : Fin 4)
  | cascadeIdle (dt : Nat) (q : Fin 4) (f : Flit)
  | cascadeCrcFail (dt : Nat) (q : Fin 4) (fecFailed : Bool)
  | cascadeMbxWrite (dt : Nat) (offset : Nat) (data : Bytes)
  | cascadeMbxRead (dt : Nat) (offset : Nat) (len : Nat)
  | mbxData (dt : Nat)
  | notice (dt : Nat)
  | timeRequest (dt : Nat)
  | timeUnlocked (dt : Nat)
  | cascadePortTrained (dt : Nat) (q : Fin 4) (rank : Fin 8) (peerPort : Fin 4)
  | linkLost (dt : Nat) (q : Fin 4)
  | linkRetrain (dt : Nat) (q : Fin 4) (ok : Bool)
  | masterLost (dt : Nat)
  | masterElection (dt : Nat) (reach : List (Fin 8 × List (Fin 8)))
  -- throttling and sensors (R406 to R412)
  | throttleLower (dt : Nat)
  | throttleFastDrop (dt : Nat) (watts1ms : Nat)
  | throttleRaise (dt : Nat)
  | junctionSensorRead (dt : Nat) (die : DieIx) (raw : List Int) (inputW inputMv10 : Nat)
  | gddr7TempRead (dt : Nat) (md : MemDie) (temps : List Int)
  | coolantSensorRead (dt : Nat) (inlet outlet : Option Int)
  -- boot, firmware and calibration completions (R415, R423, R424, R440, R441)
  | imageVerified (dt : Nat) (sigOk : Bool)
  | mailboxServiceStart (dt : Nat)
  | stageComplete (dt : Nat)
  | calWriteComplete (dt : Nat)
  | quoteSigned (dt : Nat) (signature : Bytes)
  | sessionVectorCoalesce (dt : Nat) (sess : SessionIx)
  | railSequenceRetry (dt : Nat) (failing : List Rail)
  | pcieControllersReady (dt : Nat)
  | reservedUnitType (dt : Nat) (sess : SessionIx)
  | configurationWrite (dt : Nat) (p : PciePort) (w : CfgWrite)
  deriving DecidableEq, Repr

end Sys2Proof
end

