-- ==== Sys2Proof/Config.lean ====
section
/-! DEFINITION. What the spec leaves open, as constants without a body: nothing in Lean can evaluate them or prove a value of
them, so a claim holds whatever they are. Each is applied to the plain counter `State.freeTick`, which the command that draws
the value advances (log entry 7). -/

namespace Sys2Proof

/-- The measured `cycles` of a completion record (R98): it varies with timing (R66) and no rule fixes it. -/
opaque Config.freeCycles : Nat → BitVec 32

/-- What a byte of an ACCEPTED slot's payload area reads as (R328): 0 the request byte, 1 zero, otherwise a byte, which stands for
the response byte not yet written. -/
opaque Config.freeAcceptedByte : Nat → Nat

/-- The module's SMBus address, which an Alert Response answer carries and the spec does not state (R458). -/
opaque Config.smbusAddress : Nat → Byte

/-- The boot ROM's version, which MR0 measures and the spec does not state (R435). -/
opaque Config.romVersion : Nat → W32

/-- The bytes of a seam row beyond the row of Z that it carries, which the spec does not state (R159). -/
opaque Config.freeSeamByte : Nat → Byte

/-- The core status that BIND returns for a layer program refused under R161, for which R100 has no code (R337). -/
opaque Config.freeLoadStatus : Nat → Nat

/-- A byte of the expansion bank after an expanded CONV on FP32 operands: 512 terms of four bytes do not fit the rows of 1 KiB that
R79 lays out, and the spec states no other layout (R79). -/
opaque Config.freeExpandByte : Nat → Nat → Byte

/-- How many of a descriptor's elements were written before its cancellation drained (R99), and how many of its flushed operands
those elements read: they vary with timing (R66). -/
opaque Config.freeDrained : Nat → Nat
opaque Config.freeFlushed : Nat → Nat

/-- A byte of the rest of Z after a cancellation, which R99 leaves unspecified: by the counter and the address. -/
opaque Config.freeScratchByte : Nat → Nat → Byte

/-- An element of a quantity that a model package's program does not form: by its binding (R432) and its place. -/
opaque Config.freeQuantity : Nat → Nat → W32

/-- The stream rate in bit/s that the device takes a session to have, and its mean pictures in flight in thousandths, by session slot and
luma samples per picture: no command states the one (R6, R209), and timing decides the other (R210). -/
opaque Config.freeStreamRate : Nat → Nat → Nat
opaque Config.freeOccupancy : Nat → Nat → Nat

/-- The nonce of the master's claim on a member, which R380 does not give. -/
opaque Config.masterNonce : Nat → W32

end Sys2Proof
end

