-- ==== Sys2Proof/Machine/State.lean ====
section
/-! DEFINITION. The state of the module as plain data: every register, memory, queue, counter and mode the spec gives the
block, and the queue of waiting commands; and the state right after reset. A collection indexed by die, core, slot or session
is a sparse table in canonical form (`Tab`): keys strictly rising, no entry equal to the element an unlisted key reads as. -/

namespace Sys2Proof.Machine

/-- A sparse table: pairs of key and element, keys strictly rising, no entry equal to the table's default element. -/
abbrev Tab (α : Type) := List (Nat × α)

/-- Byte-addressed memory: a sparse table of bytes (Host.Cell) whose unlisted addresses read 0 (log entry 10). -/
abbrev Mem := List Host.Cell

/-- A write-1-to-clear flag: whether it is set, and the instant of its last set, since a hardware set in the clock of a clear
wins (R10, R347; log entry 66). -/
structure Flag where
  isSet : Bool := false
  setAt : Nat := 0
  deriving DecidableEq, Repr

/-! ## Stops -/

/-- Why the machine stops with a fault: it never does. The block has no command whose effect the spec leaves out, and what fails
inside it (a die, a lane, a link, the module) is state, from which it goes on. -/
inductive Fault
  deriving DecidableEq, Repr

/-- Why a command has no meaning. -/
inductive Refusal
  /-- Raised by an arm of `exec` whose command has no meaning yet. Safe: the machine stops. -/
  | notModelled (mnemonic : String)
  deriving DecidableEq, Repr

/-! ## Board, power, clocks, temperature -/

/-- What the board applies to the low-speed pins (R15, R17, R18, R20) and supplies (R399). -/
structure Board where
  aux : Bool := false
  v54 : Nat := 0               -- 54 V input in units of 10 mV
  v54Removed : Bool := true    -- R403
  modResetN : Bool := false
  perst0N : Bool := false
  perst1N : Bool := false
  trstN : Bool := false
  straps : BitVec 4 := 0
  deriving DecidableEq, Repr

/-- The TAP of the warmer domain (R20, R443): the instruction in force and the data register it selects. -/
inductive TapInstr | idcode | bypass | samplePreload | extest
  deriving DecidableEq, Repr

structure Tap where
  inReset : Bool := true
  instr : TapInstr := .idcode
  dr : List Bool := []           -- the selected data register, least significant bit first
  boundary : List Bool := []     -- what SAMPLE/PRELOAD loaded for the output cells
  driving : Bool := false        -- EXTEST drives the low-speed output pins from `boundary`
  deriving DecidableEq, Repr

/-- Rails and power states (R400 to R407). -/
structure Power where
  railsOn : Bool := false        -- every shared rail in regulation
  dieRailOff : List Nat := []    -- die indices whose own rail is off (R402, R405)
  pwrGood : Bool := false
  standby : Bool := false        -- module standby was commanded (R404)
  standbyAt : Option Nat := none -- wall time at which a commanded standby is entered (R404)
  railTry : Nat := 0             -- failed rail sequences since auxiliary or wake: 2 means the rails stay off (R402)
  railRetryAt : Nat := 0         -- wall time from which the one retry is due
  running : Bool := false        -- MOD_RESET_N released and the module not stopped
  capW : Nat := 2400
  inputW : Nat := 0
  inputMv10 : Nat := 0
  deriving DecidableEq, Repr

/-- One PLL (R392 to R395). -/
structure Pll where
  running : Bool := false
  stable : Bool := false
  good : Nat := 0                -- consecutive windows within the stable limits
  starts : Nat := 0
  lost : Bool := false           -- judged lost or failed: gated until the next module reset
  startedAt : Nat := 0           -- device time of the start in force
  deriving DecidableEq, Repr

/-- Clock state: HUB_CLK_STATUS and the PLLs (R396). -/
structure Clocks where
  refclkOk : Bool := false
  missing : Bool := false        -- REFCLK stands declared missing (R390)
  refclkLost : Flag := {}
  pllLost : Flag := {}
  lostDomain : Nat := 0
  clockEvents : Nat := 0
  plls : Tab Pll := []
  deriving DecidableEq, Repr

/-- Throttle, temperatures and trips (R406 to R412). Temperatures are in 1/16 degree Celsius; -32768 is pattern 0x8000. -/
structure Thermal where
  k : Nat := 16
  demandPower : Bool := false
  demandOutlet : Bool := false
  demandJunction : Bool := false
  demandGddr : Bool := false
  tripLatched : Flag := {}
  coolantWarn : Flag := {}
  steps : Nat := 0
  inlet : Int := -32768
  outlet : Int := -32768
  dieTemp : Tab Int := []        -- default -32768
  gddrTemp : Tab Int := []       -- by memory die × 8 + device; default -32768
  lastLower : Option Nat := none -- device time of the last lowering while a demand has been present
  releaseSince : Option Nat := none -- device time since which every release condition has held, or of the last raise
  deriving DecidableEq, Repr

/-! ## Boot, flash, fuses, attestation -/

/-- Boot progress: HUB_BOOT_STATUS, HUB_RESET_REASON (R427, R444) and the boot ROM's own progress (R423). -/
structure Boot where
  stage : Nat := 0
  slot : Nat := 0
  trial : Bool := false
  fellBack : Bool := false
  svnRunning : Nat := 0
  fwVersion : W32 := 0
  keySlot : Nat := 0             -- firmware key slot that signed the running image
  trying : Option Nat := none    -- slot the ROM is verifying
  calInvalid : Bool := false     -- the record failed its check at auxiliary power-up or at the last boot (R416)
  cal : Mem := []                -- the record's values in effect: as stored at the last boot (R415)
  pcieReady : Bool := false      -- R353
  lastStop : Nat := 0
  hubCause : Nat := 0
  boots : Nat := 0
  deriving DecidableEq, Repr

/-- A firmware slot of the flash (R418). -/
structure FwSlot where
  valid : Bool := false
  image : Mem := []
  deriving DecidableEq, Repr

/-- An entry of the model store index (R434); the package's bytes lie in the flash model store. -/
structure ModelIndex where
  used : Bool := false
  hash : Bytes := []
  offset : Nat := 0
  length : Nat := 0
  package : Bytes := []
  deriving DecidableEq, Repr

/-- The serial flash (R418). -/
structure Flash where
  preferred : Nat := 0
  trial : Bool := false
  slots : Tab FwSlot := []
  cal : Mem := []                -- the calibration record, 3,520 bytes (R414)
  calTorn : Bool := false        -- its programming was interrupted: the record is invalid (R415)
  models : Tab ModelIndex := []
  cert : Bytes := []             -- the identity certificate (R438)
  deriving DecidableEq, Repr

/-- The one-time fuses (R419). A key slot without an entry is blank. -/
structure Fuses where
  fwKeys : Tab Bytes := []
  modelKeys : Tab Bytes := []
  fwRevoked : BitVec 4 := 0
  modelRevoked : BitVec 8 := 0
  svnFused : Nat := 0
  debugLocked : Bool := true
  secret : Bytes := []
  identityPub : Bytes := []      -- public half of the identity key (R437)
  deriving DecidableEq, Repr

/-- A measurement log entry (R436). -/
structure MeasEntry where
  mr : Nat
  source : Nat
  index : Nat
  info : W64
  v : Bytes
  deriving DecidableEq, Repr

/-- A quote being signed (R440): the first 0x280 bytes are fixed when signing starts. -/
structure SignJob where
  port : Nat
  slot : Nat
  message : Bytes
  dest : W64
  deriving DecidableEq, Repr

/-- An image being staged (R441). -/
structure StageJob where
  port : Nat
  slot : Nat
  target : Nat
  image : Bytes
  deriving DecidableEq, Repr

/-- A calibration record being programmed (R415). -/
structure CalJob where
  port : Nat
  slot : Nat
  record : Bytes
  deriving DecidableEq, Repr

/-- Measurement registers, log, quotes and the long-running jobs of the security engine and the flash. -/
structure Security where
  mrs : Tab Bytes := []          -- default 64 zero bytes
  log : List MeasEntry := []
  extended : Nat := 0            -- extends since module reset
  quotes : Tab Bytes := []       -- by port; default empty
  signing : Option SignJob := none
  staging : Option StageJob := none
  calJob : Option CalJob := none
  reloading : List Nat := []     -- model slots whose persisted package still reloads (R434)
  deriving DecidableEq, Repr

/-- A model store slot (R434): empty when `package` is empty. -/
structure ModelSlot where
  package : Bytes := []
  hash : Bytes := []
  kind : Nat := 0
  recipe : Nat := 0
  deriving DecidableEq, Repr

/-! ## Dies and fabric -/

/-- A die's status mirror at the hub (R450 to R452): the body is frozen between pushes. -/
structure Mirror where
  pushed : Bool := false         -- a first push has come since module reset
  snapTime : Nat := 0
  body : Tab W32 := []           -- by byte offset; default 0
  crc : List Nat := []           -- the four edge counters as last pushed
  deriving DecidableEq, Repr

/-- One die (R22, R28). `fenced` holds the FENCE cause, 0 when not fenced. -/
structure Die where
  fenced : Nat := 0
  off : Bool := false            -- powered off by POWER (R405)
  poweringOn : List (Nat × Nat) := []   -- mailbox slots (port, slot) whose DIES_ON waits for the die
  edgeCrc : Tab Nat := []        -- retries per edge (R451)
  crcTimes : List Nat := []      -- device times of retries in the last 1 ms window (R28)
  eccTimes : List Nat := []      -- device times of uncorrectable GDDR7 events in the last 60 s (R28)
  retired : List Nat := []       -- retired cores (R142)
  progress : Nat := 0            -- device time up to which the die has reported progress (R350)
  events : Nat := 0              -- the die's own order of events
  mirror : Mirror := {}
  deriving DecidableEq, Repr

/-! ## Cores -/

/-- What writing one output element counted (R62), and whether QUANT clipped it (R63). -/
structure ElemCount where
  saturated : Bool := false
  flushedOut : Bool := false
  nan : Bool := false
  inf : Bool := false
  clipped : Bool := false
  deriving DecidableEq, Repr

/-- The descriptor between validation and its record (R88, R99): the banks it uses, where its elements of Z lie (first address,
elements in a row, bytes from row to row, bytes of an element), and what each element counted, in the order written. -/
structure Running where
  banks : List Nat := []
  zBase : Nat := 0
  zRow : Nat := 1
  zRowBytes : Nat := 0
  zSize : Nat := 0
  counts : List ElemCount := []
  deriving DecidableEq, Repr

/-- Counters and fields of a completion record (R62, R98). -/
structure Record where
  tag : W32 := 0
  status : Nat := 0
  opcode : Nat := 0
  recipe : Nat := 0
  cycles : W32 := 0
  elements : Nat := 0
  saturated : Nat := 0
  flushedIn : Nat := 0
  flushedOut : Nat := 0
  nan : Nat := 0
  inf : Nat := 0
  quantClipped : Nat := 0
  clipShare : Nat := 0
  detail : Nat := 0
  tDone : Nat := 0
  cinchAfter : Bool := false
  ran : Bool := true             -- the descriptor completed (R99): false for a refused or cancelled one
  encOnly : Bool := false        -- the descriptor belongs to the encoder-only part of the program (R335)
  sess : Option Nat := none      -- the session it was cancelled from (R99)
  deriving DecidableEq, Repr

/-- CD_BANK_OWN (R140): `reqOwner` is the last request, `next` the owner a pending handover goes to (R141). -/
structure BankOwn where
  owner : Nat := 0
  reqOwner : Nat := 0
  next : Nat := 0
  pending : Bool := false
  refused : Flag := {}
  handovers : Nat := 0
  deriving DecidableEq, Repr

/-- One bank group of CD_BANK_PWR (R144, R145): `from` is the mode being left while `ready` has not risen. -/
structure BankGroup where
  mode : Nat := 2
  ready : Bool := false
  moving : Bool := false
  leftOff : Bool := true         -- the pending transition leaves OFF and clears the group
  deriving DecidableEq, Repr

/-- The SFU's user tables and CD_SFU_CTRL (R120 to R123). -/
structure Sfu where
  copies : Tab Mem := []         -- copies 0 and 1, 16 KiB each
  shadowValid : Bool := false
  active : Nat := 0
  swapPending : Bool := false
  swapRefused : Flag := {}
  swapDeferred : Flag := {}
  tableGen : Nat := 0
  held : List (Nat × W32) := []  -- shadow writes held while a swap is pending (R122)
  deriving DecidableEq, Repr

/-- A seam port (R158). Receive side: the rows, and the credits this port grants its sender. Send side: the captured rows, and
how far they have gone; to a core of another device, the credits its port has granted. -/
structure Seam where
  rowsIn : Nat := 0
  copied : Nat := 0              -- rows of `rowsIn` already copied in
  credits : Nat := 512
  part : Bytes := []             -- bytes of a row that has not arrived whole, over a cascade link
  buffer : List Bytes := []      -- rows received and not yet copied in
  freed : Nat := 0               -- credits of copied-out bytes not yet returned
  out : List Bytes := []         -- tee rows captured and not yet counted by the receiving port
  sent : Nat := 0                -- 64-byte units of `out` that have left, a credit each
  order : List Nat := []         -- place on the fabric of each row of `out` that has left whole (R25)
  grant : Nat := 512             -- credits left from a receiving port on another device
  flying : Nat := 0              -- rows that have left whole for another device and are not yet counted there
  deriving DecidableEq, Repr

/-- A core's part in its pour ring (R155 to R157): `homes` gives the core's home shard of each layer, as address and length. -/
structure Pour where
  ringSize : Nat := 0            -- 0: not in a ring
  index : Nat := 0
  step : Nat := 0
  layer : Nat := 0
  homes : List (Nat × Nat) := []
  travelBank : Option Nat := none
  deriving DecidableEq, Repr

/-- An FP32 value of a lane with the two sticky bits of R62: a NaN appeared, or an infinity arose from finite operands, in
what it depends on. -/
structure LaneVal where
  v : W32 := 0
  nan : Bool := false
  inf : Bool := false
  deriving DecidableEq, Repr

/-- What one lane holds while a micro-program runs (R116, R117): the temporaries t0 to t15, the operand elements and Z. -/
structure LaneRegs where
  temps : List LaneVal := []
  x : LaneVal := {}
  y : LaneVal := {}
  aux0 : LaneVal := {}
  aux1 : LaneVal := {}
  z : LaneVal := {}
  deriving DecidableEq, Repr

/-- One core. -/
structure Core where
  queue : List QueueEntry := []
  backlog : List QueueEntry := []  -- descriptors of the loaded program that wait for a place in the queue (R84)
  phase : Nat := 0               -- boundary of the head: 0 not begun, 1 `pre` applied, 2 copied in; 3 a cinch is due (R160, R163)
  upCopied : Bool := false       -- phase 2 has copied the up seam's rows (R160)
  waitFrom : Option Nat := none  -- device time since which phase 2 of a boundary has waited (R164)
  finishing : Option Record := none
  running : Running := {}        -- of the descriptor whose record is `finishing`
  draining : List Record := []   -- records of cancelled descriptors that wait for the feeder's drain (R99, R154)
  ring : List Record := []
  stopped : Bool := false
  lastStatus : Nat := 0
  retiredCount : Nat := 0
  scratch : Mem := []
  banks : Tab BankOwn := []
  groups : Tab BankGroup := []
  modeRefused : Flag := {}
  sfu : Sfu := {}
  cancelRows : Nat := 0
  seamUp : Seam := {}
  seamDown : Seam := {}
  pour : Pour := {}
  lanes : List LaneRegs := []    -- the sixteen micro-program lanes; a lane not listed holds +0 everywhere
  errCount : Tab Nat := []       -- corrected errors per bank, as the mirror holds them
  errTimes : List (Nat × Nat) := []  -- (bank, device time) in the last 1 s
  errWords : List Nat := []      -- words (bank × 8192 + word) that had a corrected error
  atCinch : Bool := false
  session : Option Nat := none   -- session whose cut holds the core
  pleat : Nat × Nat := (0, 0)    -- its pleat: first latent row or time step, and how many (R175, R281, R298)
  recipe : Nat := 0              -- recipe of that session (R34)
  deriving DecidableEq, Repr

/-! ## Feeder queues -/

/-- A transfer descriptor (R148). -/
structure TransferDesc where
  src : W64
  dst : W64
  counts : List Nat              -- count0 to count4
  fence : Bool
  notify : Bool
  press : Nat
  tag : W16
  reserved : Bool                -- some reserved bit is set
  srcStrides : List Int
  dstStrides : List Int
  deriving DecidableEq, Repr

/-- A fetched transfer with the status its checks gave when it started (R148, R150). -/
structure Transfer where
  desc : TransferDesc
  status : Nat
  started : Bool
  entry : Option Bytes := none   -- the completion entry it will write: its data has landed ahead of its turn (R152)
  holders : List (Option Nat) := []  -- sessions of the cores it reaches, when it started
  deriving DecidableEq, Repr

/-- A feeder queue (R151). -/
structure FeederQueue where
  priority : Nat := 0
  maxOut : Nat := 0
  enable : Bool := false
  cancelDone : Flag := {}
  done : Nat := 0
  ringLo : W32 := 0
  ringHi : W32 := 0
  tail : Nat := 0
  head : Nat := 0
  cplLo : W32 := 0
  cplHi : W32 := 0
  cplIndex : Nat := 0            -- next entry of the completion ring
  inFlight : List Transfer := []
  cancelling : Bool := false
  granted : Nat := 0             -- number, among its die's grants, of the queue's last grant (R151)
  askedAt : Nat := 0             -- device time since which its next request has waited
  deriving DecidableEq, Repr

/-! ## Memory -/

/-- A GDDR7 channel (R371). -/
structure GddrChannel where
  trained : Bool := false
  seeded : Bool := false
  retrainFail : Flag := {}
  retrains : Nat := 0
  corrected : Nat := 0
  uncorrectable : Nat := 0
  deriving DecidableEq, Repr

/-- The memories: GDDR7 (R368), host memory reached through the two ports, and the two CXL expanders (R149). -/
structure Memory where
  gddr : Mem := []
  host0 : Mem := []
  host1 : Mem := []
  cxlA : Mem := []
  cxlB : Mem := []
  channels : Tab GddrChannel := []   -- by memory die × 8 + channel
  poison : Tab (List Nat) := []      -- by memory die: 64-byte words in the poison list (R370)
  trained : Bool := false            -- boot training has completed
  deriving DecidableEq, Repr

/-! ## Stream dies -/

/-- SD_LANE_STATUS (R245). -/
structure LaneStatus where
  encode : Bool := false
  endErr : Flag := {}
  overrun : Flag := {}
  session : Nat := 0
  substreams : Nat := 0
  deriving DecidableEq, Repr

/-! ## Mailboxes and ownership -/

/-- A mailbox slot (R327). -/
structure MbxSlot where
  st : Nat := 0                  -- 0 EMPTY, 1 SEALED, 2 ACCEPTED, 3 DONE
  seq : W16 := 0
  opcode : W16 := 0
  reqLen : Nat := 0
  payload : Mem := []            -- 4,032 bytes
  request : Bytes := []          -- what the firmware copied at acceptance
  status : Nat := 0
  stateNow : Nat := 0
  genNow : Nat := 0
  seqEcho : W16 := 0
  opEcho : W16 := 0
  respLen : Nat := 0
  detail : Nat := 0
  tAccept : Nat := 0
  tDone : Nat := 0
  signal : Bool := true          -- false after the port was reset: completion is not signalled (R330)
  deriving DecidableEq, Repr

/-- A port's sequence state and flags (R329, R348). -/
structure MbxPort where
  nextSeq : W16 := 0
  consumed : List W16 := []      -- numbers consumed ahead of `nextSeq` by withdrawal
  sealDropped : Flag := {}
  writeDropped : Flag := {}
  seqGap : Flag := {}
  foreignWrite : Flag := {}
  smbPec : Flag := {}
  sealDroppedN : Nat := 0
  writeDroppedN : Nat := 0
  seqGapN : Nat := 0
  foreignN : Nat := 0
  gapSince : Option Nat := none  -- device time since which a later number has waited
  deriving DecidableEq, Repr

/-- A CLAIM waiting in the election window (R343). -/
structure Claim where
  port : Nat
  slot : Nat
  priority : Nat
  nonce : W32
  deriving DecidableEq, Repr

/-- Ownership (R342 to R346). -/
structure Owner where
  owned : Bool := false
  port : Nat := 0
  nonce : W32 := 0
  priority : Nat := 0
  deadline : Nat := 0
  lastRenewal : Nat := 0
  window : Option Nat := none    -- device time at which the election window closes
  claims : List Claim := []      -- in acceptance order
  successor : Option Nat := none -- port named by the pending handover
  handoverBy : Nat := 0
  changes : Nat := 0
  changedAt : Option Nat := none -- warmer time of the last change of owner, and the port that owned the device before it (R447)
  before : Option Nat := none
  deriving DecidableEq, Repr

/-! ## The event log -/

/-- An event (R350, R351): before commit `index` is the die's own order, after it the log index. -/
structure LogEntry where
  t : Nat
  index : Nat
  die : Nat
  severity : Nat
  code : Nat
  arg : W32
  info : W64
  deriving DecidableEq, Repr

structure EventLog where
  pending : List LogEntry := []
  entries : List LogEntry := []  -- the last 65,536, oldest first
  next : Nat := 0
  nextHi : W32 := 0              -- latched HUB_LOG_NEXT_HI
  timeHi : W32 := 0              -- latched HUB_TIME_HI
  deriving DecidableEq, Repr

/-! ## PCIe, CXL, cascade -/

/-- A PCIe port (R353 to R362). -/
structure PcieState where
  linkUp : Bool := false
  width : Nat := 0
  rate : Nat := 0
  flit : Bool := false
  busMaster : Bool := false
  d3hot : Bool := false
  linkLost : Flag := {}
  bar2Hole : Flag := {}
  linkResets : Nat := 0
  winGib : Nat := 0
  relaxed : Bool := false
  maxPayload : Nat := 128
  maxReadRequest : Nat := 512
  tenBitTags : Bool := false
  bar2Gib : Nat := 128
  training : Bool := false
  msixTable : Mem := []          -- 2,048 entries of 16 bytes, as differences from the reset image
  pending : List Nat := []       -- vectors whose pending bit is set, rising
  sent : Tab Nat := []           -- vectors raised on the port since reset, per vector
  deriving DecidableEq, Repr

/-- A CXL port (R363 to R367). -/
structure CxlState where
  linkUp : Bool := false
  widthLog2 : Nat := 0
  mode : Nat := 0
  expanderOk : Bool := false
  portLost : Flag := {}
  capacityGib : Nat := 0
  capacity : Nat := 0            -- bytes mapped by HDM decoder 0
  poisoned : Nat := 0
  tries : Nat := 0               -- retrainings since the loss
  downAt : Nat := 0
  deriving DecidableEq, Repr

/-- A cascade port (R374 to R387). -/
structure CascadePort where
  up : Bool := false
  peerRank : Nat := 0
  peerPort : Nat := 0
  miswired : Bool := false
  rankConflict : Bool := false
  lost : Flag := {}
  replays : Nat := 0
  fecSymbols : Nat := 0
  fecUncorrectable : Nat := 0
  rxSeq : Nat := 4095            -- last sequence received in order
  txSeq : Nat := 0               -- next sequence to send
  replayBuf : List (Nat × Nat × Flit) := []   -- (type, replays, flit) not yet acknowledged, oldest first
  outQ : List (Nat × Flit) := []  -- flits to send, with their type, oldest first
  waiting : List (Nat × Flit) := [] -- flits that wait for a credit or a place in the replay buffer, with their type, oldest first
  credits : Tab Nat := []        -- send credits by VC set × 4 + VC; default 64
  replayTimes : List Nat := []
  attempts : Nat := 0            -- retrainings since the loss
  lostAt : Nat := 0
  deriving DecidableEq, Repr

/-- A deepen route held by the cascade master (R323). -/
structure Route where
  used : Bool := false
  srcRank : Nat := 0
  srcSession : Nat := 0
  sinkRank : Nat := 0
  sinkSession : Nat := 0
  what : Nat := 0
  deriving DecidableEq, Repr

/-- The link die and the cascade (R378 to R387). -/
structure Cascade where
  masterRank : Nat := 0
  formed : Bool := false
  cube : Bool := false
  members : BitVec 8 := 0
  timeLocked : Bool := false
  timeUnlocked : Flag := {}
  stepped : Bool := false        -- the one TIME_STEP at the join has happened
  goodExchanges : Nat := 0
  requestT1 : Option Nat := none -- send time of the outstanding TIME request, in 1/256 ns
  lastReply : Nat := 0
  slew : Int := 0                -- offset being slewed out, in 1/256 ns
  heardMaster : Nat := 0         -- device time of the last flit from the master
  masterLost : Bool := false
  electing : Option Nat := none  -- device time since which the survivors' view has not changed
  ports : Tab CascadePort := []
  routes : Tab Route := []
  notices : List (Nat × Nat) := []   -- NOTICE messages waiting to be sent: code and index
  readAsked : Option (Nat × Nat) := none -- MBX_READ offset and length waiting for MBX_DATA
  sealed : Tab Nat := []         -- by rank: commands that this device, as master, has sealed in the member's bank (R320)
  deriving DecidableEq, Repr

/-! ## Sessions -/

inductive SessState | idle | configured | bound | running | draining | faulted
  deriving DecidableEq, Repr

/-- The fields of a sequence header (R231). -/
structure SeqFmt where
  mdlId : Nat := 0
  profile : Nat := 0
  chroma : Nat := 0
  bitDepth : Nat := 0
  width : Nat := 0
  height : Nat := 0
  rateNum : Nat := 0
  rateDen : Nat := 0
  maxShort : Nat := 0
  press : Nat := 0
  libSize : Nat := 0
  deriving DecidableEq, Repr

/-- A channel group as configured (R338). -/
structure GroupCfg where
  group : Nat
  channels : Nat
  layout : Nat
  pcmBits : Nat
  frame : W32
  deriving DecidableEq, Repr

/-- CONFIGURE's parameters (R338). -/
structure SessionCfg where
  kind : Nat := 0                -- 1 video encode, 2 video decode, 3 audio encode, 4 audio decode
  notifyPort : Nat := 0
  fmt : SeqFmt := {}
  wdPeriods : Nat := 8
  lambda : Nat := 0
  libSearch : Bool := false
  resetInterval : Nat := 50
  outRingKib : Nat := 0
  groups : List GroupCfg := []
  attach : Option Nat := none
  deriving DecidableEq, Repr

/-- A cut plan (R297). A core is (cascade rank, die, core). -/
structure CutPlan where
  session : Nat := 0
  kind : Nat := 0
  recipe : Nat := 0
  generation : Nat := 0
  guard : Bool := false
  now : Bool := false
  maxRefs : Nat := 0
  modelSlot : Nat := 0
  streamDie : Nat := 0
  memDie : Nat := 0
  drainBoundMs : Nat := 0
  searchers : BitVec 24 := 0
  predictors : BitVec 24 := 0
  lanes : BitVec 32 := 0
  remapGraceMs : Nat := 500
  homeRank : Nat := 0
  reserveBytes : Nat := 0
  minReserve : Nat := 0
  cxlBase : Nat := 0
  cxlPort : Nat := 0
  cxlSize : Nat := 0
  cores : List (Nat × Nat × Nat) := []
  deriving DecidableEq, Repr

/-- A plane: its rows of samples. A sample outside the stored rows reads 0. -/
abbrev Plane := List (List Nat)

/-- A reference of a picture (R232): kind 0 POC, 1 library index, 2 the library candidate (command only). -/
structure Ref where
  kind : Nat
  id : W32
  off : Nat := 0                 -- stream byte offset of its field, at a decoder
  replaced : Option Nat := none  -- 0: replaced by grey; n + 1: by the held picture with POC n (R263, R264)
  deriving DecidableEq, Repr

structure Mark where
  op : Nat
  arg : W32
  off : Nat := 0                 -- stream byte offset of its field, at a decoder
  deriving DecidableEq, Repr

/-- A motion sub-block's vector in quarter samples and its reference index (R188). -/
structure MotionVec where
  x : Int := 0
  y : Int := 0
  ref : Nat := 0
  deriving DecidableEq, Repr

/-- A frame buffer (R190, R191): mark 0 UNUSED, 1 SHORT, 2 LONG, 3 LIBRARY (the write has not completed). -/
structure FrameBuf where
  poc : W32
  tag : W32                      -- of the picture's command or stream slot
  mark : Nat
  index : Nat                    -- long-term or library index
  order : Nat                    -- decode order
  recon : List Plane
  carry : List (List (List W16))
  levels : List Plane            -- pyramid levels 0, 1 and 2 (encoder)
  signature : List Nat           -- 64 means (encoder)
  tainted : Bool
  readers : List W32             -- in-flight pictures that list it
  markOff : Nat := 0             -- stream byte offset of its LIBRARY mark
  bytes : Nat                    -- FB, what it returns to the pool
  deriving DecidableEq, Repr

/-- A library entry (R195): missing when `held` is false. -/
structure LibEntry where
  held : Bool := false
  recon : List Plane := []
  carry : List (List (List W16)) := []
  thumbnail : Plane := []
  signature : List Nat := []
  tainted : Bool := false
  writing : Bool := false        -- a library write is in progress
  order : Nat := 0               -- acceptance order of the picture it holds
  deriving DecidableEq, Repr

/-- A substream waiting for a lane (R243, R244). -/
structure SubJob where
  index : Nat
  pos : Nat                      -- payload offset of its first byte
  bytes : Bytes
  deriving DecidableEq, Repr

/-- A unit whose substreams the lanes decode. -/
structure UnitJob where
  kind : Nat                     -- 0x50 PIC, 0x52 ROW, 0x41 AUD
  row : Nat                      -- ROW: the row; AUD: the group
  owner : Nat                    -- the session whose lanes decode it
  tag : W32
  map : List Nat                 -- stream byte offset of each payload byte, and of the unit's end (R223)
  specs : List Elem              -- the elements in order, values to be filled in
  sCount : Nat
  jobs : List SubJob             -- substreams not yet decoded
  all : List SubJob := []        -- every substream, as the unit came
  again : Bool := false          -- it has been decoded before, and its results stand (R318)
  done : List (Nat × List (Elem × Nat)) := []  -- by substream: decoded elements, each with the payload offset reached
  errors : List (Nat × Nat) := []  -- (class, payload offset) of what the lanes met
  deriving DecidableEq, Repr

/-- A picture between its command or PIC unit and its record. -/
structure Picture where
  poc : W32
  tag : W32 := 0
  order : Nat := 0               -- acceptance order
  target : Nat := 0
  cap : Nat := 0
  tCapture : Nat := 0
  rap : Bool := false
  nonref : Bool := false
  check : Bool := false
  endAfter : Bool := false
  refs : List Ref := []
  marks : List Mark := []
  addrs : List W64 := []         -- slot planes Y, Cb, Cr
  yPitch : Nat := 0
  cPitch : Nat := 0
  need : Nat := 0
  granted : Bool := false
  waiting : Bool := false        -- its grant request waits in the sub-pool's queue
  landed : Nat := 0              -- CB rows each stage has published (R179)
  searched : Nat := 0
  predicted : Nat := 0
  decoded : Nat := 0             -- rows decoded, placed or concealed (decoder)
  source : List Plane := []
  levels : List Plane := []
  sigDone : Bool := false        -- library search done (R196)
  motion : Tab MotionVec := []   -- by sub-block row × 4096 + column
  pred : List Plane := []
  carryGather : List (List (List W16)) := []
  phase1 : Bool := false
  phase2 : Nat := 0              -- 0 not started, 1 running, 2 cancelled and to be re-run, 3 running again
  tStart : Nat := 0
  scores : List W32 := []
  estimates : List (List Int) := []
  sigma : List Nat := []
  gains : List Nat := []
  gainsDone : Bool := false
  hyperFloor : Bool := false
  picDone : Bool := false        -- PIC unit committed (encoder) or hyper-latents decoded (decoder)
  hyperBytes : Nat := 0
  room : Int := 0                -- B of R203
  floored : Bool := false
  rowsCommitted : Nat := 0
  rowsFloor : List Nat := []
  concealed : List Nat := []     -- concealed rows (decoder)
  wholeConcealed : Bool := false
  greyRef : Bool := false
  bytes : Nat := 0
  began : Bool := false          -- its first byte has been committed
  outStart : Nat := 0            -- output ring position of the picture's first byte
  substreams : List (Nat × Bytes) := []  -- coded substreams of the unit being built, by index (encoder)
  head : Bytes := []             -- END, MDL and SEQ units written before the picture (encoder)
  written : Nat := 0             -- bytes committed from `outStart` on in the present run (R181)
  audPlaced : List (Nat × Bytes) := [] -- AUD units inside the picture group: after how many of its units, and wire bytes (R287)
  probRerun : Bool := false      -- a floored PIC waits for hyper-synthesis and the probability model again (R205)
  staged : List (Nat × LibEntry) := [] -- library entries staged for the picture (R197)
  hyper : List Int := []         -- symbols of its hyper-latents, by position and channel (R239)
  mu : List W32 := []            -- mean of each latent (R198)
  latents : Tab (List Int) := [] -- symbols of its latents, by CB row (R240)
  sCounts : List Nat := []       -- substreams of each unit as its first run coded it, which a re-run repeats (R250)
  hyperLost : Bool := false      -- its hyper-latents were damaged and taken as means (R260)
  synthRerun : Bool := false
  rerun : Bool := false
  wdUsed : Nat := 0              -- watchdog time counted so far
  wdFrom : Option Nat := none    -- device time from which it counts
  limited : Bool := false        -- the in-flight limit holds it back, which stops its watchdog (R253)
  reports : Nat := 0
  point : Nat := 0               -- acceptance order of the random-access point it follows (R248)
  kept : List UnitJob := []      -- its units that the lanes have decoded, whose substreams stay in the pool (R318)
  redoTo : Nat := 0              -- rows decoded before the lanes were lost: what `decoded` comes back to
  deriving DecidableEq, Repr

/-- A hunt (R256): units skipped so far, and the error that began it. -/
structure Hunt where
  skipped : Nat
  tag : W32
  cause : Nat
  cls : Nat
  unitType : Nat
  offset : Nat
  deriving DecidableEq, Repr

/-- A stream buffer handed over by STREAM_SLOT. -/
structure StreamBuf where
  tag : W32
  bytes : Bytes
  deriving DecidableEq, Repr

/-- A decode session's place in its stream (R222 to R273). -/
structure Decoder where
  input : List StreamBuf := []
  offset : Nat := 0              -- stream byte offset of the first byte of `input`
  mdls : List (Nat × Nat × Nat × Bytes) := []  -- id, recipe, kind, hash of the coded sequence's MDL units (an encoder's: written)
  seenMdl : Bool := false        -- an MDL has been met (R225)
  mdlAt : Nat × W32 := (0, 0)    -- offset and tag of the last MDL
  seq : Option SeqFmt := none
  lastSeq : Option (SeqFmt × Nat × Bytes) := none  -- last accepted SEQ with its video recipe and hash (R226)
  hunting : Option Hunt := none
  discarding : Bool := false     -- the rest of an oversized unit is discarded up to the next start code (R224)
  group : Option W32 := none     -- POC of the picture group being taken
  nextRow : Nat := 0
  lostPic : Bool := false        -- the last PIC was lost or its picture dropped: its rows are discarded (R255, R260)
  unit : Option UnitJob := none
  redo : List UnitJob := []      -- units that the lanes decode after it, a second time (R318)
  outSlots : List (W32 × List W64 × Nat × Nat) := []  -- tag, planes, luma pitch, chroma pitch
  deriving DecidableEq, Repr

/-- An audio block handed over by AUDIO_BLOCK (R276, R286): frames not yet taken, the address and first-sample time of the next
one, and the sync fields of each frame left. -/
structure AudioBlock where
  tag : W32
  addr : Nat
  left : Nat
  time : Nat
  syncs : List (W32 × W32)
  deriving DecidableEq, Repr

/-- One audio group of a session (R277 to R293). -/
structure AudioGroup where
  frame : W32 := 0               -- next (expected) frame index
  seen : Bool := false           -- some frame of the group has been taken since the session or a hunt began
  carryHeld : Bool := false
  carry : List W32 := []
  muted : Bool := false
  tainted : Bool := false
  qLevel : Nat := 0
  sinceReset : Nat := 0
  lostCarry : Bool := false
  target : Nat := 0
  cap : Nat := 0
  blocks : List AudioBlock := []
  -- the frame in work
  busy : Bool := false
  unitBytes : Bytes := []        -- its AUD unit on the wire (encoder)
  reset : Bool := false
  floor : Bool := false
  concealed : Bool := false
  overCap : Bool := false
  rerun : Bool := false
  bytes : Nat := 0
  tag : W32 := 0
  curFrame : W32 := 0
  curQ : Nat := 0                -- its operating point; `qLevel` is that of the last frame decoded or coded
  syncPoc : W32 := 0
  syncNs : W32 := 0
  parsedAt : Option Nat := none  -- device time its header was parsed, while its watchdog runs (R292)
  coded : Bool := false          -- its AUD is coded and waits for its commit (R287), or its latents are decoded
  toConceal : Nat := 0           -- missing frames still to be concealed before the frame in work (R290)
  lostWork : Bool := false       -- the frame in work was discarded: only the missing ones before it are concealed
  latents : List Int := []       -- the symbols of its coded AUD
  trouble : Bool := false        -- a decoder-path descriptor of its frame reported a counter (R293)
  kept : Option UnitJob := none  -- its AUD, once the lanes have decoded it (R318)
  deriving DecidableEq, Repr

/-- A record-ring entry (R334). -/
structure RingEntry where
  type : Nat
  record : Bytes
  t : Nat
  deriving DecidableEq, Repr

/-- A re-cut that takes effect later: its plan, the port and slot to answer, and the firmware's placement. -/
structure Recut where
  plan : CutPlan
  port : Nat
  slot : Nat
  place : Placement
  deriving DecidableEq, Repr

/-- An accepted command that waits for its session's running one (R303, R330); of a re-cut also what it asks for and whether it was
refused when accepted. -/
structure Parked where
  port : Nat
  slot : Nat
  recut : Option (Recut × Bool) := none
  deriving DecidableEq, Repr

/-- A session slot. -/
structure Session where
  st : SessState := .idle
  heldAtFault : SessState := .bound
  cfg : SessionCfg := {}
  gen : Nat := 0
  plan : CutPlan := {}
  charge : Nat := 0
  fixedCharge : Nat := 0
  faultedAt : Nat := 0
  abandoned : Bool := false      -- the grace expired in FAULTED (R316)
  poolLost : Bool := false       -- the sub-pool was fenced and no re-map has given another (R319)
  needRap : Bool := false        -- after such a re-map the first picture must be a random-access point (R319)
  parked : List Parked := []     -- accepted commands that wait for the session's running one (R303, R330)
  lastRecut : Option Nat := none -- device time of the last generation-advancing command
  recut : Option Recut := none   -- a re-cut whose resources are not yet free to move (R305)
  rerunning : Bool := false      -- a re-run caused by a `now` re-cut is in progress (R305)
  recBase : Nat := 0
  outBase : Nat := 0
  recProduced : Nat := 0
  recHeld : List RingEntry := [] -- entries a full record ring holds back (R333)
  recStalled : Bool := false
  outProduced : Nat := 0
  outHeld : List (Nat × Bytes) := []  -- committed units the full output ring holds back: position and bytes
  stallSince : Option Nat := none
  lastVector : Option Nat := none -- device time of the last raise of the session's vector (R332)
  vectorHeld : Bool := false
  pics : List Picture := []      -- accepted and not yet recorded, in acceptance order
  captures : List (Nat × W32) := []  -- t_capture and POC of the accepted pictures (R286)
  bufs : List FrameBuf := []
  lib : Tab LibEntry := []
  rapOrder : Nat := 0            -- acceptance order of the last random-access point written (R248)
  lostRefs : List W32 := []      -- POCs of the references that were lost with their sub-pool (R319)
  dec : Decoder := {}
  counters : List Nat := [0, 0, 0, 0, 0, 0, 0, 0, 0, 0, 0, 0]  -- R272
  trouble : List Nat := [0, 0, 0, 0, 0, 0]                      -- decoder-path totals (R335)
  troubleEnc : List Nat := [0, 0, 0, 0, 0, 0]                   -- encoder-only totals
  groups : Tab AudioGroup := []
  picTrouble : Bool := false     -- a decoder-path descriptor of the picture in the cores reported a counter (R208)
  cinch : List (Nat × Nat) := []         -- cores arrived at the cinch
  cinchAt : Option Nat := none           -- device time of its first arrival
  cinchUnready : Bool := false           -- a core that arrived on another device has no `shadow_valid` (R121)
  window : Bytes := []                   -- the 256-byte counter window as last refreshed (R453)
  deriving DecidableEq, Repr

/-- A grant request waiting for shared space (R310). -/
structure GrantReq where
  session : Nat
  order : Nat
  need : Nat
  deriving DecidableEq, Repr

/-- What the last read returned to its master, and whether an SMBus transaction was refused: the model's own observation of
a command's answer. -/
structure BusAnswer where
  data : Bytes := []
  poisoned : Bool := false
  nack : Bool := false
  deriving DecidableEq, Repr

/-! ## The whole state -/

structure State where
  /-- the commands that are waiting, first in, first out -/
  pending : List Instr := []
  /-- nanoseconds since 3.3 V auxiliary was first considered: the warmer's time base (log entry 1) -/
  wall : Nat := 0
  /-- device time (R349), in ns -/
  time : Nat := 0
  board : Board := {}
  tap : Tap := {}
  power : Power := {}
  clocks : Clocks := {}
  thermal : Thermal := {}
  straps : BitVec 4 := 0         -- HUB_MOD_STRAP as latched (R18, R19)
  boot : Boot := {}
  flash : Flash := {}
  fuses : Fuses := {}
  security : Security := {}
  models : Tab ModelSlot := []
  dies : Tab Die := []
  faultyEdges : List (Nat × Nat) := []   -- (die, edge) pairs implicated by a fabric edge fault (R29)
  cores : Tab Core := []                 -- by die × 160 + core
  feeders : Tab FeederQueue := []        -- by memory die × 64 + queue
  memory : Memory := {}
  lanes : Tab LaneStatus := []           -- by stream die × 32 + lane
  guards : Tab (Option Nat) := []        -- by stream die × 8 + engine: the session bound
  mbx : Tab MbxSlot := []                -- by port × 64 + slot
  ports : Tab MbxPort := []
  smbOffset : Nat := 0                   -- MBX_OFFSET (R331)
  alertPending : Bool := false           -- R458
  owner : Owner := {}
  log : EventLog := {}
  pcie : Tab PcieState := []
  cxl : Tab CxlState := []
  cascade : Cascade := {}
  sessions : Tab Session := []
  grants : Tab (List GrantReq) := []     -- by sub-pool
  fabricSeq : Nat := 0                   -- seam rows that have entered the fabric: their order on a pair of dies (R25)
  mbxTurn : Nat := 0                     -- port the firmware looks at next (R330)
  turns : Tab Nat := []                  -- by shared searcher, predictor and lane: the session whose turn is next (R186)
  accepted : Nat := 0                    -- pictures accepted by any session: their acceptance order (R211)
  bus : BusAnswer := {}
  /-- the model's own counter: every free value a command draws advances it (log entry 7) -/
  freeTick : Nat := 0
  deriving DecidableEq, Repr

/-- The machine right after reset: the widest reset of R426, 3.3 V auxiliary applied with no other supply and MOD_RESET_N
undriven; every register at the reset value its table gives and every other piece of state at the value the assumption log
names (log entries 8 to 12). The flash holds no valid calibration record, so R416's check has failed. -/
def State.reset : State := { board := { aux := true }, boot := { calInvalid := true } }

end Sys2Proof.Machine
end

