-- ==== Sys2Proof/Machine/Bits.lean ====
section
/-! DEFINITION. Bit fields, byte order, serial comparison, and the sparse tables and memories of the state. -/

namespace Sys2Proof.Machine

/-! ## Write-1-to-clear flags (R10, R347) -/

/-- The hardware sets the flag. -/
def Flag.raise (now : Nat) : Flag := { isSet := true, setAt := now }

/-- The hardware sets the flag where a condition holds. -/
def Flag.raiseIf (f : Flag) (c : Bool) (now : Nat) : Flag := if c then Flag.raise now else f

/-- Software writes `bit` to the flag: one clears it unless it was set in the same instant. -/
def Flag.clear (f : Flag) (bit : Bool) (now : Nat) : Flag := if bit && decide (f.setAt ≠ now) then { f with isSet := false } else f

/-! ## Numbers and bytes -/

/-- Bits [hi:lo] of a number (R9). -/
def bits (x hi lo : Nat) : Nat := (x >>> lo) % 2 ^ (hi + 1 - lo)

/-- Bit `i` of a number. -/
def bitAt (x i : Nat) : Bool := x.testBit i

/-- A Boolean as the value of a one-bit field. -/
def b2n (b : Bool) : Nat := if b then 1 else 0

/-- The number a little-endian byte string spells (R7). -/
def leNat : Bytes → Nat
  | [] => 0
  | b :: bs => b.toNat + 256 * leNat bs

/-- `n` bytes of a number, least significant first (R7). -/
def natLE : Nat → Nat → Bytes
  | 0, _ => []
  | n + 1, x => BitVec.ofNat 8 x :: natLE n (x / 256)

/-- The number a big-endian byte string spells (R212). -/
def beNat (bs : Bytes) : Nat := bs.foldl (fun acc b => acc * 256 + b.toNat) 0

/-- `n` bytes of a number, most significant first (R212). -/
def natBE (n x : Nat) : Bytes := (natLE n x).reverse

/-- `n` zero bytes. -/
def zeros (n : Nat) : Bytes := List.replicate n 0

/-- Two's-complement value of the low `n` bits of a number. -/
def signed (n x : Nat) : Int := (BitVec.ofNat n x).toInt

/-- The low `n` bits of an integer, as a number. -/
def unsigned (n : Nat) (x : Int) : Nat := (BitVec.ofInt n x).toNat

/-- The `n` bytes of a byte string from position `at`, zero where it is shorter. -/
def slice (bs : Bytes) (pos n : Nat) : Bytes :=
  let part := (bs.drop pos).take n
  part ++ zeros (n - part.length)

/-- Little-endian field of `n` bytes at position `at` of a byte string (R7). -/
def leAt (bs : Bytes) (pos n : Nat) : Nat := leNat (slice bs pos n)

/-- Every byte of the given range is zero. -/
def zeroAt (bs : Bytes) (pos n : Nat) : Bool := (slice bs pos n).all (· == 0)

/-- Serial comparison of `n`-bit counts (R352): a precedes b. -/
def precedes (n a b : Nat) : Bool :=
  let g := (b + 2 ^ n - a % 2 ^ n) % 2 ^ n
  decide (1 ≤ g) && decide (g ≤ 2 ^ (n - 1) - 1)

/-- Serial distance from a to b in n bits. -/
def serialGap (n a b : Nat) : Nat := (b + 2 ^ n - a % 2 ^ n) % 2 ^ n

/-- A count that stops at its maximum (R62, R352). -/
def satAdd (limit a b : Nat) : Nat := min limit (a + b)

/-- A generation after `g`: 0xFFFF is followed by 0x0001 (R301). -/
def nextGen (g : Nat) : Nat := if g ≥ 0xFFFF then 1 else g + 1

def ceilDiv (a b : Nat) : Nat := (a + b - 1) / b

/-! ## Sparse tables -/

/-- The element at a key: the table's default where no entry lists it. -/
def Tab.get {α : Type} (d : α) : Tab α → Nat → α
  | [], _ => d
  | (k, v) :: t, a => if k = a then v else Tab.get d t a

/-- Sets the element at a key; the canonical form lists no default element. -/
def Tab.set {α : Type} [DecidableEq α] (d : α) (t : Tab α) (k : Nat) (v : α) : Tab α :=
  t.filter (fun p => p.1 < k) ++ (if v = d then [] else [(k, v)]) ++ t.filter (fun p => k < p.1)

/-- Applies a function to the element at a key. -/
def Tab.upd {α : Type} [DecidableEq α] (d : α) (t : Tab α) (k : Nat) (f : α → α) : Tab α :=
  Tab.set d t k (f (Tab.get d t k))

/-- Applies a function to every listed element. -/
def Tab.mapAll {α : Type} [DecidableEq α] (d : α) (t : Tab α) (f : Nat → α → α) : Tab α :=
  t.filterMap (fun p => let v := f p.1 p.2; if v = d then none else some (p.1, v))

/-- Keys strictly rising from `lo` on, and no entry equal to the default. -/
def Tab.wfFrom {α : Type} [DecidableEq α] (d : α) : Nat → Tab α → Bool
  | _, [] => true
  | lo, (k, v) :: t => decide (lo ≤ k) && decide (v ≠ d) && Tab.wfFrom d (k + 1) t

/-- The canonical form of a table. -/
def Tab.wf {α : Type} [DecidableEq α] (d : α) (t : Tab α) : Bool := Tab.wfFrom d 0 t

/-! ## Memories -/

/-- One byte of memory. -/
def Mem.read (m : Mem) (a : Nat) : Byte := Tab.get 0 m a

/-- `n` bytes of memory from an address. -/
def Mem.readBytes (m : Mem) (a : Nat) : Nat → Bytes
  | 0 => []
  | n + 1 => Mem.read m a :: Mem.readBytes m (a + 1) n

/-- The canonical cells of a byte string at an address: zero bytes are not listed. -/
def Mem.cells : Nat → Bytes → Mem
  | _, [] => []
  | a, b :: bs => if b = 0 then Mem.cells (a + 1) bs else (a, b) :: Mem.cells (a + 1) bs

/-- Writes a byte string at an address, every other byte unchanged. -/
def Mem.writeBytes (m : Mem) (a : Nat) (bs : Bytes) : Mem :=
  m.filter (fun p => p.1 < a) ++ Mem.cells a bs ++ m.filter (fun p => decide (a + bs.length ≤ p.1))

/-- Clears a range of memory to zero. -/
def Mem.clear (m : Mem) (a n : Nat) : Mem := m.filter (fun p => p.1 < a) ++ m.filter (fun p => decide (a + n ≤ p.1))

/-- The canonical form of a memory. -/
def Mem.wf (m : Mem) : Bool := Tab.wf 0 m

/-- The canonical form of the byte memories: GDDR7, both hosts and both expanders. -/
def Memory.wf (m : Memory) : Bool := Mem.wf m.gddr && Mem.wf m.host0 && Mem.wf m.host1 && Mem.wf m.cxlA && Mem.wf m.cxlB

/-- Little-endian word of `n` bytes of memory. -/
def Mem.readLE (m : Mem) (a n : Nat) : Nat := leNat (Mem.readBytes m a n)

/-- Writes `n` bytes of a number, little-endian. -/
def Mem.writeLE (m : Mem) (a n x : Nat) : Mem := Mem.writeBytes m a (natLE n x)

/-- `m` with the nth element replaced; a list too short is left as it is. -/
def setNth {α : Type} (l : List α) (n : Nat) (v : α) : List α := l.set n v

/-- Adds `n` to the `i`th counter of a list of 32-bit counters that stop at their maximum (R272). -/
def bump (l : List Nat) (i n : Nat) : List Nat := l.set i (satAdd 0xFFFFFFFF (l.getD i 0) n)

end Sys2Proof.Machine
end

