-- ==== Sys2Proof/Machine/Float.lean ====
section
/-! DEFINITION. Number formats and the arithmetic a recipe fixes (R38 to R46, R104, R457): exact values, one rounding per
operation, and the conversion of results into the output formats. -/

namespace Sys2Proof.Machine

/-- The exact value of a float: (-1)^neg × m × 2^e when finite. -/
inductive Ext
  | nan
  | inf (neg : Bool)
  | fin (neg : Bool) (m : Nat) (e : Int)
  deriving DecidableEq, Repr

/-- A binary format: significand bits with the hidden one, the exponent of the least subnormal's unit, and the width. -/
structure FpFmt where
  prec : Nat
  qmin : Int
  width : Nat
  deriving DecidableEq, Repr

def bf16 : FpFmt := { prec := 8, qmin := -133, width := 16 }
def fp16 : FpFmt := { prec := 11, qmin := -24, width := 16 }
def fp32 : FpFmt := { prec := 24, qmin := -149, width := 32 }
def fp64 : FpFmt := { prec := 53, qmin := -1074, width := 64 }

/-- Largest exponent field: all ones. -/
def FpFmt.expMax (f : FpFmt) : Nat := 2 ^ (f.width - f.prec) - 1
/-- Patterns of +∞, of the sign bit and of the canonical NaN (R41, R42). -/
def FpFmt.infBits (f : FpFmt) : Nat := f.expMax * 2 ^ (f.prec - 1)
def FpFmt.signBit (f : FpFmt) : Nat := 2 ^ (f.width - 1)
def FpFmt.nanBits (f : FpFmt) : Nat := f.infBits + 2 ^ (f.prec - 2)

def Ext.isNaN : Ext → Bool
  | .nan => true
  | _ => false
def Ext.isInf : Ext → Bool
  | .inf _ => true
  | _ => false
def Ext.isFin : Ext → Bool
  | .fin _ _ _ => true
  | _ => false
def Ext.isZero : Ext → Bool
  | .fin _ m _ => m == 0
  | _ => false
def Ext.sign : Ext → Bool
  | .nan => false
  | .inf n => n
  | .fin n _ _ => n

def Ext.zero (neg : Bool) : Ext := .fin neg 0 0
/-- The exact value of an integer (R50). -/
def Ext.ofInt (x : Int) : Ext := .fin (decide (x < 0)) x.natAbs 0

/-- The exact value of a pattern (R38, R39, R42). -/
def FpFmt.decode (f : FpFmt) (b : Nat) : Ext :=
  let neg := b.testBit (f.width - 1)
  let frac := b % 2 ^ (f.prec - 1)
  let ex := (b / 2 ^ (f.prec - 1)) % 2 ^ (f.width - f.prec)
  if ex = f.expMax then (if frac = 0 then .inf neg else .nan)
  else if ex = 0 then .fin neg frac f.qmin
  else .fin neg (frac + 2 ^ (f.prec - 1)) (f.qmin + ex - 1)

/-- m ÷ 2^sh rounded to an integer: ties to even, or away from zero. -/
def shiftRound (even : Bool) (m sh : Nat) : Nat :=
  if sh = 0 then m
  else if Nat.log2 m + 1 < sh then 0
  else
    let q := m / 2 ^ sh
    let r := m % 2 ^ sh
    let half := 2 ^ (sh - 1)
    if half < r || (decide (r = half) && (!even || decide (q % 2 = 1))) then q + 1 else q

/-- m × 2^e at unit 2^u, rounded. -/
def atUnit (even : Bool) (m : Nat) (e u : Int) : Nat :=
  if u ≤ e then m * 2 ^ (e - u).toNat else shiftRound even m (u - e).toNat

/-- Rounds to a long format, ties to even, with gradual underflow and overflow to infinity, and encodes (R42). -/
def FpFmt.encode (f : FpFmt) : Ext → Nat
  | .nan => f.nanBits
  | .inf neg => f.infBits + (if neg then f.signBit else 0)
  | .fin neg m e =>
    let s := if neg then f.signBit else 0
    if m = 0 then s
    else
      let u := max (e + Nat.log2 m + 1 - f.prec) f.qmin
      min ((u - f.qmin).toNat * 2 ^ (f.prec - 1) + atUnit true m e u) f.infBits + s

/-- The value a long format holds after rounding. -/
def FpFmt.round (f : FpFmt) (x : Ext) : Ext := f.decode (f.encode x)

/-! ## Exact operations -/

def Ext.neg : Ext → Ext
  | .nan => .nan
  | .inf n => .inf (!n)
  | .fin n m e => .fin (!n) m e

/-- The signed integer of a finite value at unit 2^u, u ≤ e. -/
def signedAt (n : Bool) (m : Nat) (e u : Int) : Int :=
  let v : Int := (m * 2 ^ (e - u).toNat : Nat)
  if n then -v else v

/-- Exact sum; a zero is -0 only when both terms are -0 (R44). -/
def Ext.add : Ext → Ext → Ext
  | .nan, _ => .nan
  | _, .nan => .nan
  | .inf a, .inf b => if a = b then .inf a else .nan
  | .inf a, _ => .inf a
  | _, .inf b => .inf b
  | .fin na ma ea, .fin nb mb eb =>
    if ma = 0 && mb = 0 then .zero (na && nb)
    else if ma = 0 then .fin nb mb eb
    else if mb = 0 then .fin na ma ea
    else
      let u := min ea eb
      let v := signedAt na ma ea u + signedAt nb mb eb u
      .fin (decide (v < 0)) v.natAbs u

def Ext.sub (a b : Ext) : Ext := a.add b.neg

/-- Exact product. -/
def Ext.mul : Ext → Ext → Ext
  | .nan, _ => .nan
  | _, .nan => .nan
  | .inf a, b => if b.isZero then .nan else .inf (xor a b.sign)
  | a, .inf b => if a.isZero then .nan else .inf (xor a.sign b)
  | .fin na ma ea, .fin nb mb eb => .fin (xor na nb) (ma * mb) (ea + eb)

/-- Quotient with enough bits and a sticky bit that any later rounding to at most 60 bits is the exact quotient's. -/
def Ext.div : Ext → Ext → Ext
  | .nan, _ => .nan
  | _, .nan => .nan
  | .inf a, b => if b.isInf then .nan else .inf (xor a b.sign)
  | a, .inf b => .zero (xor a.sign b)
  | .fin na ma ea, .fin nb mb eb =>
    if mb = 0 then (if ma = 0 then .nan else .inf (xor na nb))
    else if ma = 0 then .zero (xor na nb)
    else
      let k := Nat.log2 mb + 64
      let n := ma * 2 ^ k
      .fin (xor na nb) (2 * (n / mb) + (if n % mb = 0 then 0 else 1)) (ea - eb - k - 1)

/-- ⌊√x⌋ bit by bit from bit `k` down. -/
def isqrt : Nat → Nat → Nat → Nat
  | 0, _, r => r
  | k + 1, x, r => isqrt k x (if (r + 2 ^ k) * (r + 2 ^ k) ≤ x then r + 2 ^ k else r)

/-- Square root with enough bits and a sticky bit. -/
def Ext.sqrt : Ext → Ext
  | .nan => .nan
  | .inf n => if n then .nan else .inf false
  | .fin n m e =>
    if m = 0 then .zero n
    else if n then .nan
    else
      let (m1, e1) := if e % 2 = 0 then (m, e) else (2 * m, e - 1)
      let x := m1 * 2 ^ 128
      let r := isqrt (Nat.log2 x / 2 + 1) x 0
      .fin false (2 * r + (if r * r = x then 0 else 1)) (e1 / 2 - 65)

/-- a < b by IEEE comparison: false with a NaN, and -0 equals +0. -/
def Ext.lt : Ext → Ext → Bool
  | .nan, _ => false
  | _, .nan => false
  | .inf a, .inf b => a && !b
  | .inf a, _ => a
  | _, .inf b => !b
  | .fin na ma ea, .fin nb mb eb =>
    let u := min ea eb
    decide (signedAt na ma ea u < signedAt nb mb eb u)

/-- R43 maximum and minimum: NaN if either is NaN, and -0 below +0. -/
def Ext.max (a b : Ext) : Ext :=
  if a.isNaN || b.isNaN then .nan else if a.lt b then b else if b.lt a then a else if a.sign then b else a
def Ext.min (a b : Ext) : Ext :=
  if a.isNaN || b.isNaN then .nan else if a.lt b then a else if b.lt a then b else if a.sign then a else b

/-- FLOOR of R104: exact, and floor(-0) = -0. -/
def Ext.floor : Ext → Ext
  | .fin n m e =>
    if 0 ≤ e || m = 0 then .fin n m e
    else
      let sh := (-e).toNat
      if Nat.log2 m + 1 < sh then (if n then .fin true 1 0 else .zero false)
      else .fin n (m / 2 ^ sh + (if n && m % 2 ^ sh ≠ 0 then 1 else 0)) 0
  | x => x

/-- The integer an integral value is, if it is one. -/
def Ext.toInt? : Ext → Option Int
  | .fin n m e =>
    if 0 ≤ e then some (signedAt n m e 0)
    else
      let sh := (-e).toNat
      if m = 0 then some 0
      else if Nat.log2 m < sh then none
      else if m % 2 ^ sh = 0 then some (if n then -(m / 2 ^ sh : Nat) else (m / 2 ^ sh : Nat)) else none
  | _ => none

/-- a × 2^n exactly. -/
def Ext.scale (n : Int) : Ext → Ext
  | .fin s m e => .fin s m (e + n)
  | x => x

/-- A finite value rounded to an integer, ties away from zero (R44, R219). -/
def Ext.roundAway : Ext → Int
  | .fin n m e => let v : Int := (atUnit false m e 0 : Nat); if n then -v else v
  | _ => 0

/-! ## Values with the sticky bits of R62 -/

/-- A value of an element's computation: what it is, whether a NaN appeared in what it depends on, and whether an infinity
arose there from finite operands. -/
structure Num where
  v : Ext
  nan : Bool := false
  inf : Bool := false
  deriving DecidableEq, Repr

/-- An operand as it is read: a NaN operand is a NaN in the computation. -/
def Num.ofExt (x : Ext) : Num := { v := x, nan := x.isNaN }

def Num.zero : Num := .ofExt (.zero false)

/-- The result of one operation on operands: sticky bits of the operands, and what arises here. -/
def Num.result (r : Ext) (ops : List Num) : Num :=
  { v := r, nan := r.isNaN || ops.any (·.nan), inf := (r.isInf && ops.all (·.v.isFin)) || ops.any (·.inf) }

/-- A value that also depends on others. -/
def Num.dep (a : Num) (ops : List Num) : Num := { a with nan := a.nan || ops.any (·.nan), inf := a.inf || ops.any (·.inf) }

def Num.add (f : FpFmt) (a b : Num) : Num := .result (f.round (a.v.add b.v)) [a, b]
def Num.sub (f : FpFmt) (a b : Num) : Num := .result (f.round (a.v.sub b.v)) [a, b]
def Num.mul (f : FpFmt) (a b : Num) : Num := .result (f.round (a.v.mul b.v)) [a, b]
def Num.div (f : FpFmt) (a b : Num) : Num := .result (f.round (a.v.div b.v)) [a, b]
def Num.fma (f : FpFmt) (a b c : Num) : Num := .result (f.round ((a.v.mul b.v).add c.v)) [a, b, c]
def Num.sqrt (f : FpFmt) (a : Num) : Num := .result (f.round a.v.sqrt) [a]
def Num.max (a b : Num) : Num := .result (a.v.max b.v) [a, b]
def Num.min (a b : Num) : Num := .result (a.v.min b.v) [a, b]
def Num.floor (a : Num) : Num := .result a.v.floor [a]
def Num.neg (a : Num) : Num := { a with v := a.v.neg }

/-- LDEXP of R104 and R118: a × 2^b for an integral b, else NaN. -/
def Num.ldexp (f : FpFmt) (a b : Num) : Num :=
  match b.v.toInt? with
  | some n => .result (f.round (a.v.scale n)) [a, b]
  | none => .result .nan [a, b]

/-! ## Element formats (R38, R87) -/

def fmtNone : Nat := 0
def fmtBF16 : Nat := 1
def fmtFP16 : Nat := 2
def fmtINT8 : Nat := 3
def fmtINT16 : Nat := 4
def fmtFP32 : Nat := 5
def fmtFP64 : Nat := 6
def fmtIDX16 : Nat := 7

def fmtSize (k : Nat) : Nat :=
  match k with
  | 3 => 1
  | 5 => 4
  | 6 => 8
  | _ => 2

def fmtIsInt (k : Nat) : Bool := decide (k = fmtINT8) || decide (k = fmtINT16)
def fmtIsShortFloat (k : Nat) : Bool := decide (k = fmtBF16) || decide (k = fmtFP16)

/-- The float format of a code. -/
def fmtFloat (k : Nat) : FpFmt :=
  match k with
  | 1 => bf16
  | 2 => fp16
  | 6 => fp64
  | _ => fp32

/-- The value of an element's pattern, and whether R40 flushed it. -/
def loadElem (k b : Nat) : Num × Bool :=
  if k = fmtINT8 then (.ofExt (.ofInt (signed 8 b)), false)
  else if k = fmtINT16 then (.ofExt (.ofInt (signed 16 b)), false)
  else if fmtIsShortFloat k then
    let f := fmtFloat k
    let ex := (b / 2 ^ (f.prec - 1)) % 2 ^ (f.width - f.prec)
    if ex = 0 then (.ofExt (.zero (b.testBit (f.width - 1))), b % 2 ^ (f.prec - 1) ≠ 0) else (.ofExt (f.decode b), false)
  else (.ofExt ((fmtFloat k).decode b), false)

/-! ## Conversion of results (R44, R45, R457) -/

/-- The conversion block's values. -/
structure Conv where
  scale : Ext
  bias : Ext
  lo : Ext
  hi : Ext
  deriving DecidableEq, Repr

/-- The pattern of a short float target, and whether it saturated or flushed (R44 steps 3 and 4, R45). -/
def FpFmt.narrow (f : FpFmt) : Ext → Nat × Bool × Bool
  | .nan => (f.nanBits, false, false)
  | .inf n => (f.infBits + (if n then f.signBit else 0), false, false)
  | .fin n m e =>
    let s := if n then f.signBit else 0
    if m = 0 then (s, false, false)
    else
      let u0 := e + Nat.log2 m + 1 - f.prec
      let q0 := atUnit false m e u0
      let (q, u) := if q0 = 2 ^ f.prec then (2 ^ (f.prec - 1), u0 + 1) else (q0, u0)
      if u < f.qmin then (s, false, true)
      else if f.qmin + f.expMax - 2 < u then (f.infBits - 1 + s, true, false)
      else ((u - f.qmin).toNat * 2 ^ (f.prec - 1) + q + s, false, false)

/-- The pattern of an integer target of `n` bits, and whether it saturated (R44, R45). -/
def narrowInt (n : Nat) (x : Ext) : Nat × Bool :=
  let top : Int := 2 ^ (n - 1) - 1
  let bot : Int := -(2 ^ (n - 1))
  match x with
  | .nan => (0, false)
  | .inf neg => (unsigned n (if neg then bot else top), true)
  | .fin _ _ _ =>
    let v := x.roundAway
    if top < v then (unsigned n top, true) else if v < bot then (unsigned n bot, true) else (unsigned n v, false)

/-- Clip of R44 step 2. -/
def Conv.clip (c : Conv) (v : Ext) : Ext := if c.hi.lt v then c.hi else if v.lt c.lo then c.lo else v

/-- An output element: its pattern and its counters (R44, R45, R457). -/
def Conv.write (c : Conv) (k : Nat) (a : Num) : Nat × ElemCount :=
  let raw := (a.v.mul c.scale).add c.bias
  let v := c.clip raw
  let nan := a.nan || raw.isNaN
  if fmtIsInt k then
    let (b, sat) := narrowInt (8 * fmtSize k) v
    (b, { saturated := sat, nan := nan, inf := a.inf })
  else if fmtIsShortFloat k then
    let (b, sat, fl) := (fmtFloat k).narrow v
    (b, { saturated := sat, flushedOut := fl, nan := nan, inf := a.inf })
  else
    let f := fmtFloat k
    (f.encode v, { nan := nan, inf := a.inf || (v.isFin && (f.round v).isInf) })

/-! ## Lanes and patterns -/

def LaneVal.num (x : LaneVal) : Num := { v := fp32.decode x.v.toNat, nan := x.nan, inf := x.inf }
def Num.lane (x : Num) : LaneVal := { v := BitVec.ofNat 32 (fp32.encode x.v), nan := x.nan, inf := x.inf }

/-- An FP32 pattern as an operand. -/
def fp32Num (b : Nat) : Num := .ofExt (fp32.decode b)

end Sys2Proof.Machine
end

