-- ==== Sys2Proof/Machine/Keccak.lean ====
section
/-! DEFINITION. SHAKE256 of FIPS 202, which the spec names for every measurement and hash (R5, R229, R237, R414, R435). The 1,600
bits are five planes of five 64-bit lanes, and every step maps plane to plane. -/

namespace Sys2Proof.Machine

namespace Keccak

/-- Five planes, y = 0 to 4, of five lanes, x = 0 to 4. -/
abbrev Planes := List (List W64)

/-- A plane with its lanes moved `n` places towards x = 0, around the end. -/
def turn (n : Nat) (p : List W64) : List W64 := p.drop n ++ p.take n

def mix (f : W64 → W64 → W64) (p q : List W64) : List W64 := List.zipWith f p q

/-- Theta: every lane takes in the parities of the columns beside it, the right-hand one rotated by one bit. -/
def columnMix (s : Planes) : Planes :=
  let sum := s.foldl (mix (· ^^^ ·)) [0, 0, 0, 0, 0]
  let d := mix (· ^^^ ·) (turn 4 sum) ((turn 1 sum).map (·.rotateLeft 1))
  s.map (mix (· ^^^ ·) d)

/-- Rho and pi together: for every lane of the result, plane by plane, the lane x + 5 y it comes from and its rotation. -/
def origin : List (List (Nat × Nat)) :=
  [[(0, 0), (6, 44), (12, 43), (18, 21), (24, 14)],
   [(3, 28), (9, 20), (10, 3), (16, 45), (22, 61)],
   [(1, 1), (7, 6), (13, 25), (19, 8), (20, 18)],
   [(4, 27), (5, 36), (11, 10), (17, 15), (23, 56)],
   [(2, 62), (8, 55), (14, 39), (15, 41), (21, 2)]]

def spread (s : Planes) : Planes :=
  let lanes := s.flatten
  origin.map (fun plane => plane.map (fun o => (lanes.getD o.1 0).rotateLeft o.2))

/-- Chi on one plane: a lane is flipped where the next one is 0 and the one after it is 1. -/
def chiPlane (p : List W64) : List W64 := mix (· ^^^ ·) p (mix (fun a b => ~~~a &&& b) (turn 1 p) (turn 2 p))

/-- Iota's constants: bit j of a round's code stands for bit 2^j - 1 of lane 0. -/
def roundCodes : List Nat :=
  [1, 26, 94, 112, 31, 33, 121, 85, 14, 12, 53, 38, 63, 79, 93, 83, 82, 72, 22, 102, 121, 88, 33, 116]

def roundConstant (code : Nat) : W64 :=
  BitVec.ofNat 64 (((List.range 7).map (fun j => if bitAt code j then 2 ^ (2 ^ j - 1) else 0)).sum)

/-- The constant enters the first lane of the first plane. -/
def addConstant (k : W64) : Planes → Planes
  | (l :: ls) :: ps => ((l ^^^ k) :: ls) :: ps
  | ps => ps

def keccakF (s : Planes) : Planes :=
  roundCodes.foldl (fun s code => addConstant (roundConstant code) ((spread (columnMix s)).map chiPlane)) s

/-- Bytes a block carries: 1,600 bits less twice the 256 bits of strength. -/
def rate : Nat := 136

/-- A byte string as lanes in planes of five, zero beyond its end. -/
def toPlanes (bs : Bytes) : Planes :=
  (List.range 5).map (fun y => (List.range 5).map (fun x => BitVec.ofNat 64 (leNat ((bs.drop (40 * y + 8 * x)).take 8))))

/-- The state after the message's blocks, each added in and permuted. -/
def takeIn : Nat → Bytes → Planes → Planes
  | 0, _, s => s
  | n + 1, m, s => takeIn n (m.drop rate) (keccakF (List.zipWith (mix (· ^^^ ·)) s (toPlanes (m.take rate))))

/-- The message with the suffix 1111 of SHAKE and the closing bit of its last block. -/
def framed (m : Bytes) : Bytes :=
  match rate - 1 - m.length % rate with
  | 0 => m ++ [0x9F]
  | k + 1 => m ++ 0x1F :: (zeros k ++ [0x80])

/-- Blocks of output, one permutation between two. -/
def giveOut : Nat → Planes → Bytes
  | 0, _ => []
  | n + 1, s => (s.flatten.flatMap (fun l => natLE 8 l.toNat)).take rate ++ giveOut n (keccakF s)

end Keccak

/-- `n` bytes of the SHAKE256 output over a message. -/
def shake256 (m : Bytes) (n : Nat) : Bytes :=
  let blocks := m.length / Keccak.rate + 1
  Keccak.giveOut (n / Keccak.rate + 1) (Keccak.takeIn blocks (Keccak.framed m) (Keccak.toPlanes [])) |>.take n

end Sys2Proof.Machine
end

