-- ==== Sys2Proof/Machine/Ops.lean ====
section
/-! DEFINITION. The named operations over the state that every family uses: time, dies and the fabric, the event log, vectors
and alerts, mailbox slots and their completion, GDDR7, and the stop and reset of the module. -/

namespace Sys2Proof.Machine

/-! ## Time (R349, log entry 1) -/

/-- The passage of `dt` nanoseconds before a command: the warmer's time base always runs, device time while the module runs. -/
def State.elapse (s : State) (dt : Nat) : State :=
  { s with wall := s.wall + dt, time := if s.power.running then s.time + dt else s.time }

/-- A fresh argument for a free value (log entry 7). -/
def State.draw (s : State) : State := { s with freeTick := s.freeTick + 1 }

/-! ## Tables of the state -/

def coreKey (d c : Nat) : Nat := d * 160 + c

def State.core (s : State) (d c : Nat) : Core := Tab.get {} s.cores (coreKey d c)
def State.updCore (s : State) (d c : Nat) (f : Core → Core) : State := { s with cores := Tab.upd {} s.cores (coreKey d c) f }

def State.die (s : State) (i : Nat) : Die := Tab.get {} s.dies i
def State.updDie (s : State) (i : Nat) (f : Die → Die) : State := { s with dies := Tab.upd {} s.dies i f }

def State.feeder (s : State) (md q : Nat) : FeederQueue := Tab.get {} s.feeders (md * 64 + q)
def State.updFeeder (s : State) (md q : Nat) (f : FeederQueue → FeederQueue) : State :=
  { s with feeders := Tab.upd {} s.feeders (md * 64 + q) f }

def State.lane (s : State) (sd l : Nat) : LaneStatus := Tab.get {} s.lanes (sd * 32 + l)
def State.updLane (s : State) (sd l : Nat) (f : LaneStatus → LaneStatus) : State :=
  { s with lanes := Tab.upd {} s.lanes (sd * 32 + l) f }

/-- The session a guard engine is bound to. -/
def State.guardOf (s : State) (sd e : Nat) : Option Nat := Tab.get none s.guards (sd * 8 + e)

def State.slot (s : State) (p k : Nat) : MbxSlot := Tab.get {} s.mbx (p * 64 + k)
def State.updSlot (s : State) (p k : Nat) (f : MbxSlot → MbxSlot) : State := { s with mbx := Tab.upd {} s.mbx (p * 64 + k) f }

def State.port (s : State) (p : Nat) : MbxPort := Tab.get {} s.ports p
def State.updPort (s : State) (p : Nat) (f : MbxPort → MbxPort) : State := { s with ports := Tab.upd {} s.ports p f }

def State.pciePort (s : State) (p : Nat) : PcieState := Tab.get {} s.pcie p
def State.updPcie (s : State) (p : Nat) (f : PcieState → PcieState) : State := { s with pcie := Tab.upd {} s.pcie p f }

def State.cxlPort (s : State) (x : Nat) : CxlState := Tab.get {} s.cxl x
def State.updCxl (s : State) (x : Nat) (f : CxlState → CxlState) : State := { s with cxl := Tab.upd {} s.cxl x f }

def State.cascadePort (s : State) (q : Nat) : CascadePort := Tab.get {} s.cascade.ports q
def State.updCascadePort (s : State) (q : Nat) (f : CascadePort → CascadePort) : State :=
  { s with cascade := { s.cascade with ports := Tab.upd {} s.cascade.ports q f } }

def State.session (s : State) (i : Nat) : Session := Tab.get {} s.sessions i
def State.updSession (s : State) (i : Nat) (f : Session → Session) : State := { s with sessions := Tab.upd {} s.sessions i f }

def State.pll (s : State) (d : Nat) : Pll := Tab.get {} s.clocks.plls d
def State.updPll (s : State) (d : Nat) (f : Pll → Pll) : State :=
  { s with clocks := { s.clocks with plls := Tab.upd {} s.clocks.plls d f } }

def State.channel (s : State) (md ch : Nat) : GddrChannel := Tab.get {} s.memory.channels (md * 8 + ch)
def State.updChannel (s : State) (md ch : Nat) (f : GddrChannel → GddrChannel) : State :=
  { s with memory := { s.memory with channels := Tab.upd {} s.memory.channels (md * 8 + ch) f } }

def State.poisonList (s : State) (md : Nat) : List Nat := Tab.get [] s.memory.poison md

/-- The temperature of a die, 0x8000 when it is off or fenced (R412). -/
def State.dieTemperature (s : State) (i : Nat) : Int := Tab.get (-32768) s.thermal.dieTemp i

/-! ## Dies and the package fabric (R22, R23, R27, R29) -/

def memDieIx (m : Nat) : Nat := 24 + m
def streamDieIx (k : Nat) : Nat := 28 + k
def hubDie : Nat := 30
def linkDie : Nat := 31

/-- Row and column of a die on the mesh (R23). -/
def meshPos (i : Nat) : Nat × Nat :=
  if i < 24 then (i / 6, i % 6 + 1)
  else match i with
    | 24 => (0, 0)
    | 25 => (0, 7)
    | 26 => (3, 0)
    | 27 => (3, 7)
    | 28 => (1, 0)
    | 29 => (2, 0)
    | 30 => (1, 7)
    | _ => (2, 7)

/-- The die at a position of the mesh. -/
def dieAtPos (row col : Nat) : Nat :=
  if 1 ≤ col ∧ col ≤ 6 then row * 6 + (col - 1)
  else match row, col with
    | 0, 0 => 24
    | 0, _ => 25
    | 1, 0 => 28
    | 1, _ => 30
    | 2, 0 => 29
    | 2, _ => 31
    | _, 0 => 26
    | _, _ => 27

/-- The neighbour of a die over an edge: 0 the row above, 1 the next column, 2 the row below, 3 the previous column (R451). -/
def neighbour (i e : Nat) : Option Nat :=
  let (r, c) := meshPos i
  match e with
  | 0 => if r = 0 then none else some (dieAtPos (r - 1) c)
  | 1 => if c = 7 then none else some (dieAtPos r (c + 1))
  | 2 => if r = 3 then none else some (dieAtPos (r + 1) c)
  | _ => if c = 0 then none else some (dieAtPos r (c - 1))

/-- The dies a straight run along one axis passes, from `a` to `b` inclusive. -/
def runBetween (a b : Nat) : List Nat :=
  if a ≤ b then (List.range (b + 1 - a)).map (fun k => a + k) else (List.range (a + 1 - b)).map (fun k => a - k)

/-- The dies a route passes from `a` to `b`, X first or Y first (R25). -/
def routeDies (xFirst : Bool) (a b : Nat) : List Nat :=
  let (ra, ca) := meshPos a
  let (rb, cb) := meshPos b
  if xFirst then (runBetween ca cb).map (dieAtPos ra) ++ ((runBetween ra rb).drop 1).map (fun r => dieAtPos r cb)
  else (runBetween ra rb).map (fun r => dieAtPos r ca) ++ ((runBetween ca cb).drop 1).map (dieAtPos rb)

/-- The edges of a route, each as a pair of dies with the lower index first. -/
def routeEdges (ds : List Nat) : List (Nat × Nat) := (ds.zip (ds.drop 1)).map (fun p => (min p.1 p.2, max p.1 p.2))

/-- Neither path of the pair avoids every faulty edge (R29). -/
def State.unreachable (s : State) (a b : Nat) : Bool :=
  let hit (x : Bool) := (routeEdges (routeDies x a b)).any (fun e => s.faultyEdges.contains e)
  hit true && hit false

/-- A pair's traffic has moved from the X-then-Y channel to the Y-then-X channel (R29). -/
def State.routedYX (s : State) (a b : Nat) : Bool := (routeEdges (routeDies true a b)).any (fun e => s.faultyEdges.contains e)

def State.dieFenced (s : State) (i : Nat) : Bool := decide ((s.die i).fenced ≠ 0)

/-- A bit of HUB_DIE_PWR (R407): own rail on and die not fenced. -/
def State.diePowered (s : State) (i : Nat) : Bool :=
  !(s.dieFenced i) && !(s.die i).off && !(s.power.dieRailOff.contains i)

/-- HUB_DIE_PWR (R407). -/
def State.hubDiePwr (s : State) : Nat := ((List.range 32).map (fun i => if s.diePowered i then 2 ^ i else 0)).sum

/-- Clock domains that a core, memory, stream or link die cannot work without (R393, R395). -/
def dieDomains (d : Nat) : List Nat :=
  if d < 24 then [d]
  else if d < 28 then [d + 6, d + 10, d + 14]
  else if d < 30 then [42 + 3 * (d - 28), 43 + 3 * (d - 28), 44 + 3 * (d - 28)]
  else if d = linkDie then [58]
  else []

/-- A die works: neither fenced nor without power, and none of its clocks was judged lost (R395). -/
def State.dieRuns (s : State) (d : Nat) : Bool := s.diePowered d && (dieDomains d).all (fun m => !(s.pll m).lost)

/-- A core that no fence, power-off, lost clock or retirement has taken away. -/
def State.coreUsable (s : State) (d c : Nat) : Bool := s.dieRuns d && !((s.die d).retired.contains c)

/-! ## Alerts, vectors and notices (R332, R385, R458, R459) -/

/-- An SMBus alert becomes pending (R458). -/
def State.alert (s : State) : State := { s with alertPending := true }

/-- Vector control word of an MSI-X table entry: bit 0 masks the vector, and the port's reset leaves every vector masked; the
table holds the complement of that bit, so an unlisted entry is masked. -/
def PcieState.vectorMasked (ps : PcieState) (v : Nat) : Bool := !bitAt (Mem.read ps.msixTable (v * 16 + 12)).toNat 0

/-- A port is in reset through PERST_N, or its link is down (R459). -/
def State.pcieDown (s : State) (p : Nat) : Bool := !(s.pciePort p).linkUp

/-- A vector event on a PCIe port: lost while the link is down (R459), held in the pending-bit array while masked, in D3hot
(R360) or with Bus Master Enable clear, else raised. -/
def State.raiseVector (s : State) (p v : Nat) : State :=
  if s.pcieDown p then s
  else s.updPcie p (fun ps =>
    if ps.vectorMasked v || ps.d3hot || !ps.busMaster then
      { ps with pending := ps.pending.filter (· < v) ++ [v] ++ ps.pending.filter (fun x => v < x) }
    else { ps with sent := Tab.upd 0 ps.sent v (· + 1) })

/-- A PCIe port decodes memory requests: its link is up and it is not in D3hot. -/
def State.pcieDecodes (s : State) (p : Nat) : Bool := (s.pciePort p).linkUp && !(s.pciePort p).d3hot

/-- This device's cascade rank, from its latched straps (R18). -/
def State.rank (s : State) : Nat := (s.straps.toNat / 2) % 8

/-- A NOTICE to the cascade master, when this device is a member of a formed cascade (R385). -/
def State.noticeMaster (s : State) (code index : Nat) : State :=
  if s.cascade.formed && s.cascade.masterRank != s.rank then
    { s with cascade := { s.cascade with notices := s.cascade.notices ++ [(code, index)] } }
  else s

/-- A vector 0 event: ownership changed (R332, R458). -/
def State.vector0 (s : State) : State := ((s.raiseVector 0 0).raiseVector 1 0).alert.noticeMaster 0 0

/-- A vector 1 event: an entry of severity 2 or above was committed (R332, R458). -/
def State.vector1 (s : State) : State := ((s.raiseVector 0 1).raiseVector 1 1).alert.noticeMaster 1 0

/-! ## The event log (R350, R351) -/

/-- A die stamps an event; it waits for its commit. -/
def State.dieEvent (s : State) (owner die severity code : Nat) (arg : W32) (info : Nat) : State :=
  let e : LogEntry := { t := s.time, index := (s.die owner).events, die := die, severity := severity, code := code, arg := arg,
                        info := BitVec.ofNat 64 info }
  { s.updDie owner (fun d => { d with events := d.events + 1 }) with log := { s.log with pending := s.log.pending ++ [e] } }

/-- An event of the module, stamped by the hub and logged under die 0xFF. -/
def State.moduleEvent (s : State) (severity code : Nat) (arg : W32) (info : Nat) : State :=
  s.dieEvent hubDie 0xFF severity code arg info

/-- `arg` with a port or core in [31:16] and a session in [15:0] (R351). -/
def logArg (hi lo : Nat) : W32 := BitVec.ofNat 32 (hi * 65536 + lo % 65536)

/-! ## GDDR7 (R357, R368) -/

def gib : Nat := 2 ^ 30

/-- The memory die that holds a GDDR7 offset (R368). -/
def gddrDie (a : Nat) : Nat := a / (24 * gib)

/-- The channel of a GDDR7 offset within its die (R368). -/
def gddrChannelOf (a : Nat) : Nat :=
  let r := a % (24 * gib)
  (bits r 10 8) ^^^ (bits r 13 11) ^^^ (bits r 16 14)

/-- An offset inside a sub-pool, not in the system region or beyond 96 GiB (R455). -/
def inSubPool (a : Nat) : Bool := decide (a < 96 * gib) && decide (a % (24 * gib) < 23 * gib)

/-- GDDR7 answers at an offset: trained, populated, its die working. -/
def State.gddrServes (s : State) (a : Nat) : Bool :=
  s.memory.trained && decide (a < 96 * gib) && s.dieRuns (memDieIx (gddrDie a))

/-- Writes GDDR7 bytes; a die that does not serve takes nothing. A write that covers a whole poisoned word removes it from the
poison list (R370). -/
def State.gddrWrite (s : State) (a : Nat) (bs : Bytes) : State :=
  if s.gddrServes a && decide (a + bs.length ≤ 96 * gib) then
    let md := gddrDie a
    let covers (w : Nat) := decide (a ≤ w * 64) && decide (w * 64 + 64 ≤ a + bs.length)
    { s with memory := { s.memory with
        gddr := Mem.writeBytes s.memory.gddr a bs
        poison := Tab.upd [] s.memory.poison md (fun l => l.filter (fun w => !covers w)) } }
  else s

/-- Reads GDDR7 bytes, zero where nothing serves. -/
def State.gddrRead (s : State) (a n : Nat) : Bytes :=
  if s.gddrServes a then Mem.readBytes s.memory.gddr a n else zeros n

/-! ## Mailbox slots (R326 to R336) -/

/-- An answer to a mailbox command (R327). -/
structure Answer where
  status : Nat := 0
  detail : Nat := 0
  stateNow : Nat := 0xFF
  genNow : Nat := 0
  resp : Bytes := []
  deriving DecidableEq, Repr

def stOK : Nat := 0
def stNotOwner : Nat := 1
def stBadState : Nat := 2
def stBadArg : Nat := 3
def stNoResource : Nat := 4
def stStale : Nat := 5
def stBusy : Nat := 6
def stFenced : Nat := 7
def stAuthFail : Nat := 8
def stUnsupportedRecipe : Nat := 9
def stModelUnknown : Nat := 0xA
def stUnknownOpcode : Nat := 0xB

/-- A refusal that names no session. -/
def refusal (status detail : Nat) : Answer := { status := status, detail := detail }

/-- A slot reaches DONE: its response header and payload are written, the rest of the payload area reads 0, and the slot's
signal is raised unless its port was reset meanwhile (R328, R330, R332). -/
def State.answer (s : State) (p k : Nat) (a : Answer) : State :=
  let sl := s.slot p k
  let s := s.updSlot p k (fun m => { m with
    st := 3, status := a.status, detail := a.detail, stateNow := a.stateNow, genNow := a.genNow, seqEcho := m.seq,
    opEcho := m.opcode, respLen := a.resp.length, payload := Mem.cells 0 a.resp, request := [], tDone := s.time, signal := true })
  if !sl.signal then s
  else if p < 2 then s.raiseVector p (2 + k)
  else if p = 2 then s.alert
  else s.noticeMaster 2 k

/-- The firmware serves the banks: mailbox service (R424), or the ROM's recovery for banks 0 to 2 (R425). -/
def State.serves (s : State) (p : Nat) : Bool :=
  s.power.running && (decide (s.boot.stage = 4) || (decide (s.boot.stage = 7) && decide (p ≤ 2)))

/-- Distance of a sequence number ahead of the port's next one (R329). -/
def State.seqGapOf (s : State) (p : Nat) (seq : W16) : Nat := (seq - (s.port p).nextSeq).toNat

/-- Advances `next_seq` over the numbers that withdrawals consumed ahead of it (R329). -/
def skipConsumed : Nat → MbxPort → MbxPort
  | 0, m => m
  | n + 1, m =>
    if m.consumed.contains m.nextSeq then
      skipConsumed n { m with consumed := m.consumed.filter (· ≠ m.nextSeq), nextSeq := m.nextSeq + 1 }
    else m

/-- `next_seq` advances by one, and over consumed numbers. -/
def MbxPort.advance (m : MbxPort) : MbxPort :=
  skipConsumed (m.consumed.length + 1) { m with nextSeq := m.nextSeq + 1, gapSince := none }

/-- Slots of a port in state SEALED, lowest first. -/
def State.sealedSlots (s : State) (p : Nat) : List Nat := (List.range 64).filter (fun k => decide ((s.slot p k).st = 1))

/-- A SEALED slot whose number is already used or too far ahead completes at once with BAD_ARG, consuming nothing (R329). -/
def State.settleSlot (p : Nat) (s : State) (k : Nat) : State :=
  if 64 ≤ s.seqGapOf p (s.slot p k).seq then (s.updSlot p k (fun m => { m with tAccept := s.time })).answer p k (refusal stBadArg 0)
  else s

/-- Notes since when a later number has waited behind an unsealed `next_seq` (R329). -/
def State.noteGap (s : State) (p : Nat) : State :=
  let sl := s.sealedSlots p
  let hasNext := sl.any (fun k => decide (s.seqGapOf p (s.slot p k).seq = 0))
  if sl.isEmpty || hasNext then s.updPort p (fun m => { m with gapSince := none })
  else s.updPort p (fun m => { m with gapSince := match m.gapSince with | some t => some t | none => some s.time })

/-- Applies R329 to every SEALED slot of a port. -/
def State.settleSeq (s : State) (p : Nat) : State :=
  if s.serves p then ((s.sealedSlots p).foldl (State.settleSlot p) s).noteGap p else s

/-- The firmware may accept this slot now: SEALED, its number is `next_seq`, no lower slot holds the same number (R329). -/
def State.eligible (s : State) (p k : Nat) : Bool :=
  s.serves p && decide ((s.slot p k).st = 1) && decide (s.seqGapOf p (s.slot p k).seq = 0) &&
    !((List.range k).any (fun j => decide ((s.slot p j).st = 1) && decide ((s.slot p j).seq = (s.slot p k).seq)))

/-- Some slot of the port holds a command that may be accepted. -/
def State.portReady (s : State) (p : Nat) : Bool := (List.range 64).any (s.eligible p)

/-- It is the port's turn: the firmware takes the ports in ascending index, one command at a time, from the one after the port it
served last (R330). -/
def State.turnOf (s : State) (p : Nat) : Bool :=
  (List.range 4).all (fun i => decide ((p + 4 - s.mbxTurn) % 4 ≤ i) || !s.portReady ((s.mbxTurn + i) % 4))

/-- Acceptance (R328, R329): the firmware copies `req_len` bytes (none above 4,032) and the slot reads ACCEPTED. -/
def State.accept (s : State) (p k : Nat) : State :=
  let s1 := s.updSlot p k (fun m => { m with
    st := 2, tAccept := s.time, request := if m.reqLen ≤ 4032 then Mem.readBytes m.payload 0 m.reqLen else [] })
  ({ s1.updPort p MbxPort.advance with mbxTurn := (p + 1) % 4 }).settleSeq p

/-- Opcodes listed in R337. -/
def opcodeListed (op : Nat) : Bool :=
  [0x01, 0x02, 0x03, 0x04, 0x05, 0x06, 0x07, 0x08, 0x10, 0x11, 0x12, 0x18, 0x19, 0x1A, 0x1B, 0x1C, 0x20, 0x21, 0x22, 0x23, 0x24,
   0x25, 0x26, 0x27, 0x28, 0x30, 0x31, 0x32, 0x33, 0x40, 0x41].contains op

/-- The commands that recovery accepts (R425). -/
def servedInRecovery (op : Nat) (req : Bytes) : Bool :=
  decide (1 ≤ op ∧ op ≤ 7) || (decide (op = 0x18) && decide (leAt req 0 1 ≤ 1))

/-- The frame of every mailbox command row: the firmware accepts the SEALED command of that slot when it is eligible, it is the port's turn
and the command is this row's (log entry 2). An unlisted opcode completes with UNKNOWN_OPCODE (R336), one that recovery does not serve with BUSY
(R425); a command of another row is left for its own row. -/
def State.command (s : State) (p k : Nat) (mine : Nat → Bytes → Bool) (body : State → Bytes → State) : State :=
  if !(s.eligible p k && s.turnOf p) then s
  else
    let op := (s.slot p k).opcode.toNat
    let a := s.accept p k
    let req := (a.slot p k).request
    if s.boot.stage = 7 && !servedInRecovery op req then a.answer p k (refusal stBusy 0)
    else if !opcodeListed op then a.answer p k (refusal stUnknownOpcode 0)
    else if mine op req then body a req
    else s

/-- The owner holds a live lease (R344). -/
def State.ownerLive (s : State) : Bool := s.owner.owned && decide (s.time ≤ s.owner.deadline)

/-- The sender is the owner (R342). -/
def State.isOwner (s : State) (p : Nat) : Bool := s.ownerLive && decide (s.owner.port = p)

/-- The port is the owner's for a register write: one in the same clock as a change of owner is judged against the owner before
the change (R447). -/
def State.ownerForWrite (s : State) (p : Nat) : Bool :=
  if s.owner.changedAt = some s.wall then decide (s.owner.before = some p) else s.isOwner p

/-- A HANDOVER is pending (R345). -/
def State.handoverPending (s : State) : Bool := s.owner.successor.isSome && decide (s.time ≤ s.owner.handoverBy)

/-- The first failing check of a list decides the answer. -/
def firstFail : List (Bool × Answer) → Option Answer
  | [] => none
  | (bad, a) :: rest => if bad then some a else firstFail rest

/-- Runs the checks in order; the command changes nothing unless all pass. -/
def State.checked (s : State) (p k : Nat) (checks : List (Bool × Answer)) (ok : State → State) : State :=
  match firstFail checks with
  | some a => s.answer p k a
  | none => ok s

/-- `req_len` is below the command's layout or above 4,032 (R328, R456). -/
def State.shortReq (s : State) (p k layout : Nat) : Bool :=
  decide ((s.slot p k).reqLen < layout) || decide (4032 < (s.slot p k).reqLen)

/-- Offset of the first non-zero byte from a position on: a reserved byte that is not 0. -/
def firstNonzero (bs : Bytes) (pos : Nat) : Option Nat :=
  ((List.range (bs.length - pos)).find? (fun i => (bs.getD (pos + i) 0) != 0)).map (pos + ·)

/-- A check that the bytes beyond a layout are 0 (R456). -/
def tailZero (req : Bytes) (layout : Nat) : Bool × Answer :=
  match firstNonzero req layout with
  | some o => (true, refusal stBadArg o)
  | none => (false, refusal stBadArg 0)

/-! ## Stops and resets (R21, R31, R426) -/

/-- `last_stop` values (R427). -/
def stopModuleReset : Nat := 1
def stopHubFault : Nat := 2
def stopClockLost : Nat := 3
def stopPllFail : Nat := 4
def stopRailFault : Nat := 5
def stopSupplyFault : Nat := 6
def stopThermalTrip : Nat := 7
def stopStandby : Nat := 8
def stopBootFail : Nat := 9

/-- Everything a module reset or a stop loses (R21, R426): what is left is the flash, the fuses, the warmer's sticky registers,
the coolant readings, the rails, the board's pins, host memory and the expanders' contents. An interrupted CAL_WRITE leaves the record invalid (R415). -/
def State.loseVolatile (s : State) : State :=
  { pending := s.pending
    wall := s.wall
    board := s.board
    tap := s.tap
    power := { s.power with capW := 2400, inputW := 0, inputMv10 := 0, running := false, standbyAt := none }
    clocks := { s.clocks with plls := [] }
    thermal := { tripLatched := s.thermal.tripLatched, coolantWarn := s.thermal.coolantWarn, inlet := s.thermal.inlet
                 outlet := s.thermal.outlet }
    straps := s.straps
    boot := { calInvalid := s.boot.calInvalid, cal := s.boot.cal, lastStop := s.boot.lastStop, hubCause := s.boot.hubCause, boots := s.boot.boots }
    flash := { s.flash with calTorn := s.flash.calTorn || s.security.calJob.isSome }
    fuses := s.fuses
    memory := { host0 := s.memory.host0, host1 := s.memory.host1, cxlA := s.memory.cxlA, cxlB := s.memory.cxlB }
    alertPending := s.alertPending
    bus := s.bus
    freeTick := s.freeTick }

/-- Records why the module stopped (R427). -/
def State.recordStop (s : State) (reason cause : Nat) : State :=
  { s with boot := { s.boot with lastStop := reason, hubCause := cause } }

/-- Every rail fed from 54 V is off: the module is in standby (R402, R403). -/
def State.railsOff (s : State) (reason : Nat) : State :=
  let s := s.loseVolatile.recordStop reason 0
  { s with power := { s.power with railsOn := false, pwrGood := false, dieRailOff := [] } }

/-- A hub fault (R31): the links drop, the cause is recorded, the alert is asserted and PWR_GOOD stays; sessions are lost and
nothing is served until a reset pulse. The boot status keeps what it showed. -/
def State.hubFault (s : State) (cause : Nat) : State :=
  let b := s.boot
  let t := s.loseVolatile.recordStop stopHubFault cause
  { t.alert with boot := { b with lastStop := stopHubFault, hubCause := cause, pcieReady := false, trying := none } }

end Sys2Proof.Machine
end

