-- ==== Sys2Proof/Machine/Format.lean ====
section
/-! DEFINITION. Picture formats and their sizes (R172 to R175, R190, R195, R309), audio layouts, and the parts of a model package
that the pipeline reads (R429 to R433, R246). -/

namespace Sys2Proof.Machine

/-! ## Pictures -/

/-- Coded luma width W_c (R173). -/
def SeqFmt.codedW (f : SeqFmt) : Nat := 64 * ceilDiv f.width 64
def SeqFmt.codedH (f : SeqFmt) : Nat := 64 * ceilDiv f.height 64

/-- Horizontal and vertical chroma subsampling (R231). -/
def SeqFmt.subX (f : SeqFmt) : Nat := if f.chroma = 2 then 1 else 2
def SeqFmt.subY (f : SeqFmt) : Nat := if f.chroma = 0 then 2 else 1

/-- Grids of R174. -/
def SeqFmt.cbCols (f : SeqFmt) : Nat := ceilDiv f.width 64
def SeqFmt.cbRows (f : SeqFmt) : Nat := ceilDiv f.height 64
def SeqFmt.latentRows (f : SeqFmt) : Nat := f.codedH / 16
def SeqFmt.latentCols (f : SeqFmt) : Nat := f.codedW / 16
/-- Sub-block columns and rows that hold an in-picture sample. -/
def SeqFmt.subCols (f : SeqFmt) : Nat := ceilDiv f.width 16
def SeqFmt.subRows (f : SeqFmt) : Nat := ceilDiv f.height 16

/-- Part `k` of `n` parts of some rows: its first row and its rows, which differ by at most one, the larger parts first (R175, R186, R281). -/
def evenShare (rows n k : Nat) : Nat × Nat :=
  ((List.range k).foldl (fun a j => a + rows / n + (if j < rows % n then 1 else 0)) 0, rows / n + (if k < rows % n then 1 else 0))

/-- The engines a mask names. -/
def engineList (m : BitVec 24) : List Nat := (List.range 24).filter (fun b => m.getLsbD b)

/-- The engine of a list that works CB row `r` (R186), and the rows it works: first and how many. -/
def engineFor (es : List Nat) (rows r : Nat) : Option (Nat × Nat × Nat) :=
  ((List.range es.length).find? (fun k => decide (r < (evenShare rows es.length k).1 + (evenShare rows es.length k).2))).map
    (fun k => (es.getD k 0, evenShare rows es.length k))

/-- Bytes of one sample (R173, R190). -/
def SeqFmt.sampleBytes (f : SeqFmt) : Nat := if f.bitDepth = 8 then 1 else 2

/-- Bytes of all planes of the coded area (R190). -/
def SeqFmt.planeBytes (f : SeqFmt) : Nat :=
  (f.codedW * f.codedH + 2 * ((f.codedW / f.subX) * (f.codedH / f.subY))) * f.sampleBytes

/-- The carry feature is pressed, and at 4:1 (R231). -/
def SeqFmt.pressed (f : SeqFmt) : Bool := bitAt f.press 0
def SeqFmt.press4 (f : SeqFmt) : Bool := bitAt f.press 1

/-- Bytes of the carry feature (R190). -/
def SeqFmt.carryBytes (f : SeqFmt) (channels : Nat) : Nat :=
  (f.codedW / 4) * (f.codedH / 4) * channels * 2 / (if f.pressed then (if f.press4 then 4 else 2) else 1)

/-- FB of R190: an encoder's frame buffer counts its source planes, pyramid and signature. -/
def SeqFmt.frameBytes (f : SeqFmt) (encode : Bool) (channels : Nat) : Nat :=
  f.planeBytes + f.carryBytes channels +
    (if encode then f.planeBytes + ((f.codedW / 4) * (f.codedH / 4) + (f.codedW / 16) * (f.codedH / 16)) * 2 + 64 else 0)

/-- Bytes of one library entry (R195). -/
def SeqFmt.libBytes (f : SeqFmt) (channels : Nat) : Nat :=
  f.planeBytes + f.carryBytes channels + (f.codedW / 16) * (f.codedH / 16) * 2 + 64

/-- A picture's need n (R309). -/
def SeqFmt.need (f : SeqFmt) (encode : Bool) (channels : Nat) : Nat := f.frameBytes encode channels + f.planeBytes

/-- The picture period in ns. -/
def SeqFmt.periodNs (f : SeqFmt) : Nat := if f.rateNum = 0 then 0 else f.rateDen * 1000000000 / f.rateNum

/-- The format lies within R172 and the ranges of R231. -/
def SeqFmt.inProfile (f : SeqFmt) : Bool :=
  (decide (f.profile = 1) || decide (f.profile = 2)) &&
  decide (f.chroma ≤ (if f.profile = 2 then 2 else 1)) &&
  (decide (f.bitDepth = 8) || decide (f.bitDepth = 10) || (decide (f.bitDepth = 12) && decide (f.profile = 2))) &&
  decide (64 ≤ f.width) && decide (f.width ≤ 4096) && decide (f.width % 2 = 0) &&
  decide (64 ≤ f.height) && decide (f.height ≤ 2176) && decide (f.height % 2 = 0) &&
  decide (f.rateNum ≠ 0) && decide (f.rateDen ≠ 0) && decide (f.rateNum ≤ 60 * f.rateDen) &&
  decide (1 ≤ f.maxShort) && decide (f.maxShort ≤ 8) && decide (f.press < 4) && decide (f.libSize ≤ 4096)

/-- A SEQ's 20 bytes read little-endian, as CONFIGURE carries them (R338). -/
def seqFmtLE (b : Bytes) (o : Nat) : SeqFmt :=
  { mdlId := leAt b o 1, profile := leAt b (o + 1) 1, chroma := leAt b (o + 2) 1, bitDepth := leAt b (o + 3) 1,
    width := leAt b (o + 4) 2, height := leAt b (o + 6) 2, rateNum := leAt b (o + 8) 4, rateDen := leAt b (o + 12) 4,
    maxShort := leAt b (o + 16) 1, press := leAt b (o + 17) 1, libSize := leAt b (o + 18) 2 }

/-- Bytes of a record ring and of an output ring, each with its control block (R333). -/
def recRingBytes : Nat := 64 + 1024 * 128
def outRingBytes (kib : Nat) : Nat := 64 + kib * 1024

/-- Bytes of a sub-pool, and where it lies in GDDR7 (R307, R455). -/
def subPoolBytes : Nat := 23 * gib
def subPoolStart (m : Nat) : Nat := m * (24 * gib)

/-- A region lies in a sub-pool, on a 64-byte boundary, and meets none of the used ones. -/
def regionFits (used : List (Nat × Nat)) (m base n : Nat) : Bool :=
  decide (base % 64 = 0) && decide (subPoolStart m ≤ base) && decide (base + n ≤ subPoolStart m + subPoolBytes) &&
    used.all (fun u => decide (base + n ≤ u.1) || decide (u.1 + u.2 ≤ base))

/-- The firmware's place for a ring in its sub-pool: the one given, when it is free, else the lowest free one (log entry 40). -/
def regionPlace (used : List (Nat × Nat)) (m given n : Nat) : Nat :=
  if regionFits used m given n then given
  else
    let starts := (subPoolStart m :: used.map (fun u => ceilDiv (u.1 + u.2) 64 * 64)).filter (fun b => regionFits used m b n)
    (starts.foldl (fun best b => match best with | none => some b | some a => some (min a b)) none).getD given

/-! ## Model packages (R429 to R433, R246) -/

/-- Offset of the signature's end: the first byte a section may hold. -/
def pkgBodyStart : Nat := 0x100 + 29792

/-- Offset and length of a section: 0 program, 1 user tables, 2 entropy, 3 known answers. -/
def pkgSection (pkg : Bytes) (i : Nat) : Nat × Nat := (leAt pkg (0x50 + 8 * i) 4, leAt pkg (0x54 + 8 * i) 4)

def pkgSectionBytes (pkg : Bytes) (i : Nat) : Bytes :=
  let (o, n) := pkgSection pkg i
  slice pkg o n

/-- A tensor table entry (R431). -/
structure TensorEntry where
  role : Nat
  fmt : Nat
  geom : Nat
  gflags : Nat
  c : Nat
  hFixed : Nat
  wFixed : Nat
  binding : Nat
  data : Nat
  deriving DecidableEq, Repr

def tensorEntry (sec : Bytes) (i : Nat) : TensorEntry :=
  let o := leAt sec 4 4 + 16 * i
  { role := leAt sec o 1, fmt := leAt sec (o + 1) 1, geom := leAt sec (o + 2) 1, gflags := leAt sec (o + 3) 1,
    c := leAt sec (o + 4) 2, hFixed := leAt sec (o + 6) 2, wFixed := leAt sec (o + 8) 2, binding := leAt sec (o + 10) 2,
    data := leAt sec (o + 12) 4 }

def tensorEntries (sec : Bytes) : List TensorEntry := (List.range (leAt sec 0 2)).map (tensorEntry sec)

/-- Channels of the tensor bound to a quantity (R432), 0 when none is. -/
def pkgBoundChannels (pkg : Bytes) (binding : Nat) : Nat :=
  (((tensorEntries (pkgSectionBytes pkg 0)).find? (fun e => decide (e.role ≠ 3) && decide (e.role ≠ 0) && decide (e.binding = binding))).map
    (·.c)).getD 0

/-- Carry-feature channels of a video model: those of its CARRY output. -/
def pkgCarryChannels (pkg : Bytes) : Nat := pkgBoundChannels pkg 0x16

/-- Latent channels of a video model: those of its MU output. -/
def pkgLatentChannels (pkg : Bytes) : Nat := pkgBoundChannels pkg 0x0E

/-- The frequency tables that follow at an offset of an entropy section: `n` of them, and the offset after the last. -/
def freqTables (sec : Bytes) : Nat → Nat → List (List Nat) × Nat
  | 0, o => ([], o)
  | n + 1, o =>
    let cnt := leAt sec o 2
    let t := (List.range cnt).map (fun k => leAt sec (o + 2 + 2 * k) 2)
    let (ts, e) := freqTables sec n (o + 2 + 2 * cnt)
    (t :: ts, e)

/-- The tables of an entropy section (R246). -/
structure EntropyTables where
  means : List W32
  latent : List (List Nat)
  hyper : List (List Nat)
  mx : List Nat
  my : List Nat
  length : Nat
  deriving DecidableEq, Repr

def entropyTables (pkg : Bytes) : EntropyTables :=
  let sec := pkgSectionBytes pkg 2
  let n := leAt sec 0 2
  let means := (List.range n).map (fun c => BitVec.ofNat 32 (leAt sec (4 + 4 * c) 4))
  let (lat, o1) := freqTables sec 64 (4 + 4 * n)
  let (hyp, o2) := freqTables sec n o1
  let (m, o3) := freqTables sec 2 o2
  { means := means, latent := lat, hyper := hyp, mx := m.getD 0 [], my := m.getD 1 [], length := o3 }

/-- A frequency table is legal (R216). -/
def tableLegal (t : List Nat) : Bool := t.all (fun f => decide (1 ≤ f)) && decide (t.sum = 65536)

/-- The entropy section keeps R216, R217 and R246: the offset of the first failing entry within the section, or none. -/
def entropyFault (pkg : Bytes) : Option Nat :=
  let sec := pkgSectionBytes pkg 2
  let n := leAt sec 0 2
  let t := entropyTables pkg
  let offs := (t.latent ++ t.hyper ++ [t.mx, t.my]).foldl (fun (p : Nat × List (Nat × List Nat)) f =>
    (p.1 + 2 + 2 * f.length, p.2 ++ [(p.1, f)])) (4 + 4 * n, [])
  let lh := 64 + n
  if n < 1 || 256 < n then some 0
  else if leAt sec 2 2 ≠ 0 then some 2
  else
    (((List.range offs.2.length).zip offs.2).find? (fun (i, (_, f)) =>
      !(tableLegal f) || (if i < lh then decide (f.length % 2 = 1) || decide (f.length < 2) || decide (256 < f.length)
                          else decide (f.length ≠ 64)))).map (fun x => x.2.1)
    |>.orElse (fun _ => if t.length = sec.length then none else some t.length)

/-- The model hash: SHAKE256 over the package except its signature (R229). -/
def modelHash (pkg : Bytes) : Bytes := shake256 (pkg.take 0x100 ++ pkg.drop pkgBodyStart) 64

/-- The package of a session's model. -/
def State.sessionModel (s : State) (ss : Session) : ModelSlot := Tab.get {} s.models ss.plan.modelSlot

/-! ## Audio layouts (R282) -/

/-- A channel count C fits a layout code. -/
def layoutFits (layout c : Nat) : Bool :=
  match layout with
  | 0 => decide (1 ≤ c) && decide (c ≤ 16)
  | 1 => decide (c = 1)
  | 2 => decide (c = 2)
  | 3 => decide (c = 6)
  | 4 => decide (c = 8)
  | 5 => decide (c = 12)
  | _ => false

/-! ## Session kinds (R297) -/

def isVideoKind (k : Nat) : Bool := decide (k = 1) || decide (k = 2)
def isAudioKind (k : Nat) : Bool := decide (k = 3) || decide (k = 4)
def isEncodeKind (k : Nat) : Bool := decide (k = 1) || decide (k = 3)

end Sys2Proof.Machine
end

