-- ==== Sys2Proof/Machine/Banks.lean ====
section
/-! DEFINITION. Addresses of the spaces of R149 and what a transfer reaches, scratch banks and their owners (R137 to R146), and the
drain that a change of owner waits for (R139, R154). -/

namespace Sys2Proof.Machine

/-! ## Addresses (R149) -/

/-- An address in R149 form: [63:60] space, [59:52] reserved, [51:0] address. -/
def addrSpace (a : Nat) : Nat := bits a 63 60
def addrOffset (a : Nat) : Nat := a % 2 ^ 52
def addrReserved (a : Nat) : Bool := decide (bits a 59 52 ≠ 0)

/-- An address a command may not carry: a reserved bit set or a reserved space. -/
def addrBad (a : Nat) : Bool := addrReserved a || decide (5 < addrSpace a)

/-- Fields of a SCRATCH address: die, core and byte. -/
def scratchDie (a : Nat) : Nat := bits a 31 27
def scratchCore (a : Nat) : Nat := bits a 26 19
def scratchByte (a : Nat) : Nat := bits a 18 0

def bankBytes : Nat := 65536

/-- A run of scratch addresses cut at bank boundaries: address and length of each piece. -/
def scratchPieces (a n : Nat) : List (Nat × Nat) :=
  if n = 0 then []
  else
    let first := a / bankBytes
    (List.range ((a + n - 1) / bankBytes + 1 - first)).map (fun i =>
      let lo := max a ((first + i) * bankBytes)
      (lo, min (a + n) ((first + i + 1) * bankBytes) - lo))

/-- The die, core and bank of a scratch address. -/
def bankOf (a : Nat) : Nat × Nat × Nat := (scratchDie a, scratchCore a, scratchByte a / bankBytes)

/-! ## What a transfer reaches (R148, R167) -/

/-- Magnitude bits of a rate: 6 at 2:1, 2 at 4:1 (R168). -/
def pressBits (rate4 : Bool) : Nat := if rate4 then 2 else 6
def pressBlockBytes (rate4 : Bool) : Nat := if rate4 then 32 else 64

/-- Bytes a transfer gathers. -/
def TransferDesc.total (d : TransferDesc) : Nat := d.counts.foldl (· * ·) 1

/-- Bytes of a press transfer's blocks. -/
def pressedLength (rate4 : Bool) (n : Nat) : Nat := ceilDiv (n / 2) 64 * pressBlockBytes rate4

def TransferDesc.presses (d : TransferDesc) : Bool := decide (d.press = 1) || decide (d.press = 2)
def TransferDesc.unpresses (d : TransferDesc) : Bool := decide (d.press = 3) || decide (d.press = 4)
def TransferDesc.rate4 (d : TransferDesc) : Bool := decide (d.press = 2) || decide (d.press = 4)

/-- The address form, strides and kind of one side: the blocks' side of a press or unpress is contiguous (R167). -/
def TransferDesc.form (d : TransferDesc) (source : Bool) : Nat := (if source then d.src else d.dst).toNat
def TransferDesc.strides (d : TransferDesc) (source : Bool) : List Int := if source then d.srcStrides else d.dstStrides
def TransferDesc.blocks (d : TransferDesc) (source : Bool) : Bool := if source then d.unpresses else d.presses

/-- Lowest and highest offset that strides and counts reach, relative to the base (R148). -/
def reachOf (counts : List Nat) (strides : List Int) : Int × Int :=
  let n0 : Int := (counts.headD 1 : Nat)
  ((counts.drop 1).zip strides).foldl (fun (p : Int × Int) x =>
    let span := ((x.1 : Int) - 1) * x.2
    (p.1 + min 0 span, p.2 + max 0 span)) (0, n0 - 1)

/-- Lowest and highest address of one side (R148). -/
def TransferDesc.reach (d : TransferDesc) (source : Bool) : Int × Int :=
  let a : Int := (addrOffset (d.form source) : Nat)
  if d.blocks source then (a, a + (pressedLength d.rate4 d.total : Nat) - 1)
  else
    let (lo, hi) := reachOf d.counts (d.strides source)
    (a + lo, a + hi)

/-- Offsets of the runs, i1 fastest (R148). -/
def runOffsets : List (Nat × Int) → List Int
  | [] => [0]
  | (n, st) :: rest => (runOffsets rest).flatMap (fun o => (List.range n).map (fun (i : Nat) => o + (i : Int) * st))

/-- Addresses of the runs of one side. -/
def TransferDesc.runs (d : TransferDesc) (source : Bool) : List Nat :=
  (runOffsets ((d.counts.drop 1).zip (d.strides source))).map (fun o => (((addrOffset (d.form source) : Nat) : Int) + o).toNat)

/-- The contiguous pieces of one side, each as address and length. -/
def TransferDesc.spans (d : TransferDesc) (source : Bool) : List (Nat × Nat) :=
  if d.blocks source then [(addrOffset (d.form source), pressedLength d.rate4 d.total)]
  else (d.runs source).map (fun a => (a, d.counts.headD 0))

/-- The scratch banks that one side reaches. -/
def TransferDesc.banks (d : TransferDesc) (source : Bool) : List (Nat × Nat × Nat) :=
  if addrSpace (d.form source) = 5 then
    (d.spans source).flatMap (fun p => (scratchPieces p.1 p.2).map (fun x => bankOf x.1))
  else []

/-- A transfer is at work on its data: started, past its checks, not landed ahead of its turn. -/
def Transfer.atWork (t : Transfer) : Bool := t.started && decide (t.status = 0) && t.entry.isNone

/-- A transfer at work reads or writes a bank of a core. -/
def Transfer.touches (t : Transfer) (d c b : Nat) : Bool :=
  t.atWork && ((t.desc.banks true).contains (d, c, b) || (t.desc.banks false).contains (d, c, b))

/-- A transfer at work fills some bank of a core. -/
def Transfer.fillsCore (t : Transfer) (d c : Nat) : Bool :=
  t.atWork && (t.desc.banks false).any (fun x => decide (x.1 = d) && decide (x.2.1 = c))

/-- Some feeder transfer at work reaches the bank: its owner FEEDER has not drained (R139, R154). -/
def State.feederBusy (s : State) (d c b : Nat) : Bool := s.feeders.any (fun e => e.2.inFlight.any (fun t => t.touches d c b))

/-- Some feeder transfer still fills a bank of the core (R154). -/
def State.feederFills (s : State) (d c : Nat) : Bool := s.feeders.any (fun e => e.2.inFlight.any (fun t => t.fillsCore d c))

/-! ## Banks and their owners (R138 to R141, R146) -/

/-- Owner codes of R138. -/
def ownMatrix : Nat := 1
def ownVector : Nat := 2
def ownFeeder : Nat := 3
def ownSeam : Nat := 4
def ownPour : Nat := 5
def ownExpand : Nat := 6

def Core.bank (c : Core) (b : Nat) : BankOwn := Tab.get {} c.banks b
def Core.updBank (c : Core) (b : Nat) (f : BankOwn → BankOwn) : Core := { c with banks := Tab.upd {} c.banks b f }
def Core.group (c : Core) (g : Nat) : BankGroup := Tab.get {} c.groups g
def Core.updGroup (c : Core) (g : Nat) (f : BankGroup → BankGroup) : Core := { c with groups := Tab.upd {} c.groups g f }

/-- A bank group is ON with `ready` set (R146). -/
def Core.bankReady (c : Core) (b : Nat) : Bool :=
  let g := c.group (b / 4)
  decide (g.mode = 0) && g.ready

/-- Owner of a bank; a bank whose group is not ready has none (R146). -/
def Core.bankOwner (c : Core) (b : Nat) : Nat := if c.bankReady b then (c.bank b).owner else 0

/-- A unit may issue a new access to a bank: it owns the bank and no handover of it is pending (R139). -/
def Core.bankFree (c : Core) (unit b : Nat) : Bool := decide (c.bankOwner b = unit) && !(c.bank b).pending

/-- A handover of the bank to a unit is pending: the unit's accesses are held (R139). -/
def Core.bankDue (c : Core) (unit b : Nat) : Bool := (c.bank b).pending && decide ((c.bank b).next = unit)

/-- A handover request, from the firmware or a boundary entry (R140, R141): code 7, or leaving NONE in a group that is not
ready, is ignored and sets `own_refused`; the current owner with nothing pending completes at once. `req_owner` shows the last
request, an ignored one included. -/
def Core.requestOwn (c : Core) (b req now : Nat) : Core :=
  if req = 7 || (!c.bankReady b && decide (req ≠ 0)) then c.updBank b (fun o => { o with reqOwner := req, refused := Flag.raise now })
  else if !(c.bank b).pending && decide (c.bankOwner b = req) then
    c.updBank b (fun o => { o with owner := req, reqOwner := req, next := req, handovers := (o.handovers + 1) % 65536 })
  else c.updBank b (fun o => { o with reqOwner := req, next := req, pending := true })

/-- A handover takes effect (R139). -/
def Core.takeOwn (c : Core) (b : Nat) : Core :=
  c.updBank b (fun o => { o with owner := o.next, pending := false, handovers := (o.handovers + 1) % 65536 })

/-- The running descriptor uses the bank (R88). -/
def Core.uses (c : Core) (b : Nat) : Bool := c.finishing.isSome && c.running.banks.contains b

/-- The old owner's accesses to a bank have completed: the feeder has drained it, and the running descriptor does not use it
(R88, R139, R154). -/
def State.bankDrained (s : State) (d c b : Nat) : Bool :=
  !(decide ((s.core d c).bankOwner b = ownFeeder) && s.feederBusy d c b) && !(s.core d c).uses b

/-- A pending handover that nothing holds takes effect. -/
def State.settleBank (s : State) (d c b : Nat) : State :=
  if ((s.core d c).bank b).pending && s.bankDrained d c b then s.updCore d c (fun k => k.takeOwn b) else s

/-- The firmware hands a bank over as it loads a core (R139, R306). -/
def State.giveBank (s : State) (d c b own : Nat) : State := (s.updCore d c (fun k => k.requestOwn b own s.wall)).settleBank d c b

end Sys2Proof.Machine
end

