-- ==== Sys2Proof/Machine/SessionOps.lean ====
section
/-! DEFINITION. The operations on sessions that several families share: the record and output rings, the pool's charges and
grants, the resources of a cut, abandonment, and what a fence or a retirement does (R295 to R319, R332 to R334). -/

namespace Sys2Proof.Machine

/-! ## Session vectors (R332) -/

/-- The signal of a session's ring writes, on its notify port. -/
def State.notify (s : State) (i : Nat) : State :=
  match (s.session i).cfg.notifyPort with
  | 0 => s.raiseVector 0 (66 + i)
  | 1 => s.raiseVector 1 (66 + i)
  | 2 => s.alert
  | _ => s.noticeMaster 3 i

/-- A ring write signals at once, or is held until 5 µs after the last raise. -/
def State.signalSession (s : State) (i : Nat) : State :=
  let recent := match (s.session i).lastVector with
    | some t => decide (s.time < t + 5000)
    | none => false
  if recent then s.updSession i (fun ss => { ss with vectorHeld := true })
  else (s.updSession i (fun ss => { ss with lastVector := some s.time, vectorHeld := false })).notify i

/-! ## The record ring (R333, R334) -/

/-- Bytes of a record-ring entry. -/
def ringEntryBytes (i : Nat) (t : Nat) (e : RingEntry) : Bytes :=
  natLE 1 e.type ++ [0] ++ natLE 2 i ++ natLE 4 e.record.length ++ natLE 8 t ++ slice e.record 0 64 ++ zeros 48

/-- The host's `consumed` count of a ring, from its control block. -/
def State.ringConsumed (s : State) (base : Nat) : Nat := leNat (s.gddrRead (base + 8) 8)

/-- The record ring has a free entry. -/
def State.recRoom (s : State) (i : Nat) : Bool :=
  let ss := s.session i
  decide (ss.recProduced < s.ringConsumed ss.recBase + 1024)

/-- Value of a session state (R340). -/
def SessState.code : SessState → Nat
  | .idle => 0
  | .configured => 1
  | .bound => 2
  | .running => 3
  | .draining => 4
  | .faulted => 5

/-- Pictures in flight: from the start of phase 1 to the record (R211); frames in work, for an audio session. -/
def Session.inFlight (ss : Session) : Nat := (ss.pics.filter (·.phase1)).length + (ss.groups.filter (fun e => e.2.busy)).length

/-- The 64-byte counter block of R272. -/
def Session.counterBytes (ss : Session) : Bytes := slice (ss.counters.flatMap (natLE 4)) 0 64

/-- Six totals of 8 bytes each (R335, R453). -/
def totalsBytes (l : List Nat) : Bytes := slice (l.flatMap (natLE 8)) 0 48

/-- A session's counter window (R453). -/
def Session.windowBytes (ss : Session) (t : Nat) : Bytes :=
  natLE 1 ss.st.code ++ natLE 1 ss.cfg.kind ++ natLE 2 ss.gen ++ natLE 4 ss.inFlight ++ natLE 8 ss.charge ++
    natLE 8 ss.plan.reserveBytes ++ natLE 8 t ++ ss.counterBytes ++ totalsBytes ss.trouble ++ totalsBytes ss.troubleEnc ++ zeros 64

/-- The firmware refreshes a session's counter window (R453). -/
def State.refreshWindow (s : State) (i : Nat) : State := s.updSession i (fun ss => { ss with window := ss.windowBytes s.time })

/-- Writes one entry, refreshes the counter window and signals. -/
def State.writeEntry (s : State) (i : Nat) (e : RingEntry) : State :=
  let ss := s.session i
  let s := s.gddrWrite (ss.recBase + 64 + (ss.recProduced % 1024) * 128) (ringEntryBytes i s.time e)
  let s := s.gddrWrite ss.recBase (natLE 8 (ss.recProduced + 1))
  ((s.updSession i (fun x => { x with recProduced := x.recProduced + 1 })).refreshWindow i).signalSession i

/-- A full ring first holds an entry: RECORD_STALL, once per stall. -/
def State.recordStall (s : State) (i : Nat) : State :=
  if (s.session i).recStalled then s
  else (s.updSession i (fun x => { x with recStalled := true })).moduleEvent 2 0x000A (logArg 0 i) 0

/-- Puts an entry into a session's record ring, in the order of its events; a full ring holds it back. A session whose
sub-pool was lost has no ring (R319). -/
def State.ringPut (s : State) (i type : Nat) (rec : Bytes) : State :=
  let ss := s.session i
  let e : RingEntry := { type := type, record := rec, t := s.time }
  if ss.poolLost then s
  else if ss.recHeld.isEmpty && s.recRoom i then s.writeEntry i e
  else (s.updSession i (fun x => { x with recHeld := x.recHeld ++ [e] })).recordStall i

/-- Writes held entries into the space that `consumed` has freed. -/
def State.flushRecords : Nat → Nat → State → State
  | 0, _, s => s
  | n + 1, i, s =>
    match (s.session i).recHeld with
    | [] => s
    | e :: rest =>
      if s.recRoom i then
        State.flushRecords n i ((s.updSession i (fun x => { x with recHeld := rest, recStalled := !rest.isEmpty })).writeEntry i e)
      else s

/-! ## The output ring (R333) -/

/-- Bytes of the output ring that `consumed` has freed. -/
def State.outRoom (s : State) (i : Nat) : Nat :=
  let ss := s.session i
  ss.cfg.outRingKib * 1024 - (ss.outProduced - s.ringConsumed ss.outBase)

/-- Position after the last committed byte, held bytes included. -/
def Session.outCursor (ss : Session) : Nat := ss.outProduced + (ss.outHeld.map (fun p => p.2.length)).sum

/-- Writes bytes into the ring from a position, wrapping at its size. -/
def State.outWriteBytes (s : State) (i pos : Nat) (bs : Bytes) : State :=
  let ss := s.session i
  let size := ss.cfg.outRingKib * 1024
  let off := pos % size
  let first := min bs.length (size - off)
  (s.gddrWrite (ss.outBase + 64 + off) (bs.take first)).gddrWrite (ss.outBase + 64) (bs.drop first)

/-- The ring is full from now on, if it was not already; or it is not (R315). -/
def State.watchRing (s : State) (i : Nat) : State :=
  let full := decide (0 < (s.session i).cfg.outRingKib) && decide (s.outRoom i = 0)
  s.updSession i (fun x => { x with stallSince := if !full then none else match x.stallSince with | some t => some t | none => some s.time })

/-- Writes held bytes while the ring has room; a ring that stays full stalls the session (R315). -/
def State.flushOutput : Nat → Nat → State → State
  | 0, _, s => s
  | n + 1, i, s =>
    match (s.session i).outHeld with
    | [] => s.watchRing i
    | (pos, bs) :: rest =>
      let room := min (s.outRoom i) bs.length
      if room = 0 then s.watchRing i
      else
        let s := s.outWriteBytes i pos (bs.take room)
        let s := s.updSession i (fun x => { x with
          outProduced := x.outProduced + room, stallSince := none
          outHeld := if room < bs.length then (pos + room, bs.drop room) :: rest else rest })
        let s := s.gddrWrite (s.session i).outBase (natLE 8 (s.session i).outProduced)
        State.flushOutput n i (s.signalSession i)

/-- Commits a unit at a ring position: bytes below the cursor were written by an earlier run and are identical (R181, R333). -/
def State.outPut (s : State) (i pos : Nat) (bs : Bytes) : State :=
  let cur := (s.session i).outCursor
  let fresh := bs.drop (cur - pos)
  if fresh.isEmpty || (s.session i).poolLost then s
  else
    let s := s.updSession i (fun x => { x with outHeld := x.outHeld ++ [(cur, fresh)] })
    State.flushOutput ((s.session i).outHeld.length + 1) i s

/-- Takes up the space that the hosts freed, in every bound session. -/
def State.flushRings (s : State) : State :=
  s.sessions.foldl (fun s e =>
    let s := State.flushRecords (e.2.recHeld.length + 1) e.1 s
    State.flushOutput (2 * e.2.outHeld.length + 2) e.1 s) s

/-! ## Cuts and the pool (R295, R307 to R312) -/

/-- The session holds a cut. -/
def Session.bound (ss : Session) : Bool :=
  match ss.st with
  | .idle => false
  | .configured => false
  | _ => true

/-- Use of shared space: what the charge exceeds the reserve by (R309). -/
def Session.sharedUse (ss : Session) : Nat := ss.charge - ss.plan.reserveBytes

/-- Free shared bytes of a sub-pool. -/
def State.poolFreeBytes (s : State) (m : Nat) : Nat :=
  subPoolBytes - ((s.sessions.filter (fun e => e.2.bound && decide (e.2.plan.memDie = m) && decide (e.2.plan.homeRank = s.rank) && !e.2.poolLost)).map
    (fun e => e.2.plan.reserveBytes + e.2.sharedUse)).sum

/-- HUB_POOL_FREE_n (R308). -/
def State.hubPoolFree (s : State) (m : Nat) : Nat :=
  if s.dieFenced (memDieIx m) then 0 else s.poolFreeBytes m / 4096

def State.grantQueue (s : State) (m : Nat) : List GrantReq := Tab.get [] s.grants m

/-- HUB_POOL_WAIT_n (R308). -/
def State.hubPoolWait (s : State) (m : Nat) : Nat :=
  match s.grantQueue m with
  | [] => 0xFFFF0000
  | g :: rest => g.session * 65536 + (rest.length + 1)

def State.setGrantQueue (s : State) (m : Nat) (q : List GrantReq) : State := { s with grants := Tab.set [] s.grants m q }

/-- Removes a session's waiting requests from every queue, or the one of one picture. -/
def State.dropGrants (s : State) (i : Nat) (order : Option Nat) : State :=
  { s with grants := Tab.mapAll [] s.grants (fun _ q => q.filter (fun g =>
      !(decide (g.session = i) && (match order with | none => true | some o => decide (g.order = o))))) }

def Session.charged (ss : Session) (n : Nat) : Session := { ss with charge := ss.charge + n }
def Session.returned (ss : Session) (n : Nat) : Session := { ss with charge := ss.charge - n }

/-- Applies a function to the picture of a POC. -/
def Session.updPic (ss : Session) (poc : W32) (f : Picture → Picture) : Session :=
  { ss with pics := ss.pics.map (fun p => if p.poc = poc then f p else p) }

def Session.pic (ss : Session) (poc : W32) : Option Picture := ss.pics.find? (fun p => p.poc = poc)

/-- A picture no longer reads its references. -/
def Session.unread (ss : Session) (poc : W32) : Session :=
  { ss with bufs := ss.bufs.map (fun b => { b with readers := b.readers.filter (· ≠ poc) }) }

/-- Drops a picture that leaves without a frame buffer: its whole need returns (R311). -/
def Session.dropPic (ss : Session) (poc : W32) : Session :=
  match ss.pic poc with
  | none => ss
  | some p =>
    let x : Session := { ss with pics := ss.pics.filter (fun q => q.poc ≠ poc), charge := if p.granted then ss.charge - p.need else ss.charge }
    x.unread poc

/-- The counters of R272. -/
def cSyntax : Nat := 0
def cUnitsSkipped : Nat := 1
def cDropped : Nat := 2
def cConcealed : Nat := 3
def cRowsConcealed : Nat := 4
def cRefsReplaced : Nat := 5
def cLibMissing : Nat := 6
def cLibCheckFail : Nat := 7
def cRefused : Nat := 8
def cWatchdog : Nat := 9
def cTainted : Nat := 10
def cReportsLost : Nat := 11

/-- Advances a counter of R272; only decode sessions keep them. -/
def State.count (s : State) (i c n : Nat) : State :=
  s.updSession i (fun ss => if isEncodeKind ss.cfg.kind then ss else { ss with counters := bump ss.counters c n })

/-- The fields of a damage report (R271). -/
structure Report where
  tag : W32 := 0
  cause : Nat
  cls : Nat := 0
  unitType : Nat := 0
  action : Nat
  poc : W32 := 0xFFFFFFFF
  row : Nat := 0xFFFF
  count : Nat := 0
  offset : Nat := 0
  deriving DecidableEq, Repr

def Report.bytes (r : Report) (t : Nat) : Bytes :=
  natLE 4 r.tag.toNat ++ natLE 1 r.cause ++ natLE 1 r.cls ++ natLE 1 r.unitType ++ natLE 1 r.action ++ natLE 4 r.poc.toNat ++
    natLE 2 r.row ++ natLE 2 r.count ++ natLE 8 r.offset ++ natLE 8 t

/-- Writes a damage report; a picture's 65th and later ones only count in `reports_lost` (R271). -/
def State.report (s : State) (i : Nat) (r : Report) : State :=
  match (s.session i).pic r.poc with
  | some p =>
    if p.reports < 64 then
      (s.updSession i (fun ss => ss.updPic r.poc (fun q => { q with reports := q.reports + 1 }))).ringPut i 3 (r.bytes s.time)
    else s.count i cReportsLost 1
  | none => s.ringPut i 3 (r.bytes s.time)

/-- Writes a session event of type 4 (R334): causes 1 fence, 2 retirement, 3 re-map applied, 4 pictures abandoned. -/
def State.sessionEvent (s : State) (i cause die : Nat) : State :=
  let ss := s.session i
  s.ringPut i 4 (natLE 2 ss.st.code ++ natLE 2 ss.gen ++ natLE 1 cause ++ natLE 1 die ++ zeros 10)

/-- The local cores of a plan, in list order: those of this device's rank. -/
def State.planCores (s : State) (pl : CutPlan) : List (Nat × Nat) :=
  pl.cores.filterMap (fun c => if c.1 = s.rank then some (c.2.1, c.2.2) else none)

/-- The place of entry `k` of a plan's core list: its group, and the pleat it works, in latent rows or time steps from the top (R175,
R281, R298). The groups of an audio cut share its cores in list order, as evenly as they can (DESIGN CHOICE, log entry 51). -/
def CutPlan.pleat (pl : CutPlan) (cfg : SessionCfg) (k : Nat) : Nat × Nat × Nat :=
  let n := pl.cores.length
  if isVideoKind pl.kind then (0, evenShare cfg.fmt.latentRows n k)
  else
    let gs := cfg.groups.length
    let share (g : Nat) : Nat × Nat := evenShare n gs g
    match (List.range gs).find? (fun g => decide (k < (share g).1 + (share g).2)) with
    | none => (gs, 0, 0)
    | some g => (g, evenShare 60 (share g).2 (k - (share g).1))

/-- The group whose frames an entry of an audio session's core list works. -/
def Session.groupOfCore (ss : Session) (x : Nat × Nat × Nat) : Option Nat :=
  if isVideoKind ss.cfg.kind then none
  else (ss.cfg.groups[(ss.plan.pleat ss.cfg (ss.plan.cores.idxOf x)).1]?).map (·.group)

/-- The local cores of an audio session that work a group. -/
def State.groupCores (s : State) (i g : Nat) : List (Nat × Nat) :=
  (s.planCores (s.session i).plan).filter (fun x => decide ((s.session i).groupOfCore (s.rank, x.1, x.2) = some g))

/-! ## Completion rings and cancellation (R98, R99, R154, R164, R335) -/

def csOK : Nat := 0x00
def csCancelled : Nat := 0x80

/-- `clip_share` of R63. -/
def shareClipped (clipped elements : Nat) : Nat := if elements = 0 then 0 else min 0xFFFF (clipped * 65536 / elements)

/-- The record of a descriptor cancelled before it ran. -/
def cancelledRecord (e : QueueEntry) : Record :=
  { tag := BitVec.ofNat 32 (leAt e.desc 4 4), status := csCancelled, opcode := leAt e.desc 0 1, recipe := leAt e.desc 1 1, ran := false, encOnly := e.encOnly }

/-- The record of a running descriptor of which only the first `n` elements were written before the drain: it counts exactly those
(R99). -/
def Record.cutAt (r : Record) (counts : List ElemCount) (n flushed : Nat) : Record :=
  let es := counts.take n
  let num (p : ElemCount → Bool) : Nat := (es.filter p).length
  { r with
    status := csCancelled, ran := false, elements := n, saturated := num (·.saturated), flushedIn := flushed
    flushedOut := num (·.flushedOut), nan := num (·.nan), inf := num (·.inf), quantClipped := num (·.clipped)
    clipShare := if r.opcode = 9 then shareClipped (num (·.clipped)) n else 0 }

/-- The elements of Z from the `n`th on hold unspecified bytes (R99). -/
def Running.spoil (u : Running) (m : Mem) (n tick : Nat) : Mem :=
  (List.range (u.counts.length - n)).foldl (fun m k =>
    let a := u.zBase + ((n + k) / u.zRow) * u.zRowBytes + ((n + k) % u.zRow) * u.zSize
    Mem.writeBytes m a ((List.range u.zSize).map (fun j => Config.freeScratchByte tick (a + j)))) m

/-- The running descriptor is cut short by a cancellation: how many of its elements were written is free, and with fewer than all of
them how many flushed operands they read (log entry 17). -/
def Core.cutShort (c : Core) (tick : Nat) : Core :=
  match c.finishing with
  | none => c
  | some r =>
    if r.status ≠ csOK then c
    else
      let total := c.running.counts.length
      let n := Config.freeDrained tick % (total + 1)
      let flushed := if n = total then r.flushedIn else Config.freeFlushed tick % (r.flushedIn + 1)
      { c with finishing := some (r.cutAt c.running.counts n flushed), scratch := c.running.spoil c.scratch n tick }

/-- Writes a record and makes its status the last one. -/
def Core.putRecord (c : Core) (r : Record) (t : Nat) : Core :=
  { c with ring := c.ring ++ [{ r with tDone := t }], lastStatus := r.status
           retiredCount := if r.ran then (c.retiredCount + 1) % 65536 else c.retiredCount }

/-- Adds a record's counters to trouble totals; each total stops at its maximum (R62, R352). -/
def addTrouble (tot : List Nat) (r : Record) : List Nat :=
  (tot.zip [r.saturated, r.flushedIn, r.flushedOut, r.nan, r.inf, r.quantClipped]).map (fun p => satAdd 0xFFFFFFFFFFFFFFFF p.1 p.2)

/-- Some counter of R62 is not 0. -/
def Record.troubled (r : Record) : Bool := [r.saturated, r.flushedIn, r.flushedOut, r.nan, r.inf, r.quantClipped].any (fun n => decide (n ≠ 0))

/-- `info` of DESC_FAULT (R351). -/
def Record.faultInfo (r : Record) : Nat := r.tag.toNat + r.status * 2 ^ 32 + r.detail * 2 ^ 40 + r.opcode * 2 ^ 56

/-- A collected record: its counters join the session's totals, and a status other than OK or CANCELLED is logged (R335). -/
def State.takeRecord (d c : Nat) (holder : Option Nat) (s : State) (r : Record) : State :=
  let sess := r.sess.orElse (fun _ => holder)
  let s := match sess with
    | none => s
    | some i => s.updSession i (fun x =>
        if r.encOnly then { x with troubleEnc := addTrouble x.troubleEnc r }
        else
          { x with
            trouble := addTrouble x.trouble r, picTrouble := x.picTrouble || r.troubled
            groups := match x.groupOfCore (s.rank, d, c) with
              | none => x.groups
              | some g => Tab.upd {} x.groups g (fun y => { y with trouble := y.trouble || r.troubled }) })
  if r.status = csOK ∨ r.status = csCancelled then s
  else s.dieEvent hubDie d 2 0x000E (logArg c (sess.getD 0)) r.faultInfo

/-- The firmware empties a core's completion ring. -/
def State.collect (s : State) (d c : Nat) : State :=
  let k := s.core d c
  (k.ring.foldl (State.takeRecord d c k.session) s).updCore d c (fun k => { k with ring := [] })

/-- Cancels a core's work (R99): the running descriptor, cut short, and every waiting one owe records; nothing stays queued. A
refusal that already waits for its record keeps it. -/
def Core.cancel (c : Core) (tick : Nat) : Core :=
  let k := c.cutShort tick
  let owed := (k.finishing.toList ++ k.queue.map cancelledRecord).map (fun r => { r with sess := c.session })
  { k with
    draining := k.draining ++ owed, queue := [], backlog := [], finishing := none, running := {}, phase := 0, upCopied := false
    waitFrom := none, atCinch := false
    seamUp := { k.seamUp with out := [], sent := 0, order := [], flying := 0 }
    seamDown := { k.seamDown with out := [], sent := 0, order := [], flying := 0 } }

/-- The records of cancelled descriptors are written once the feeder transfers that fill the core's banks have drained (R99, R154). -/
def State.drainCore (s : State) (d c : Nat) : State :=
  if s.feederFills d c then s
  else s.updCore d c (fun k => k.draining.foldl (fun k r => k.putRecord r s.time) { k with draining := [] })

/-- Cancels a core's work and collects the records that it leaves. -/
def State.cancelCore (s : State) (d c : Nat) : State :=
  (((s.collect d c).draw.updCore d c (fun k => k.cancel s.freeTick)).drainCore d c).collect d c

/-- The firmware cancels the work of a session's cores (R99, R154). -/
def State.cancelCores (s : State) (i : Nat) (cs : List (Nat × Nat)) : State :=
  cs.foldl (fun s (d, c) => if (s.core d c).session = some i then s.cancelCore d c else s) s

/-- No lane works any longer on an audio unit that a session's lanes were to decode from another session's stream. -/
def State.dropUnits (s : State) (i : Nat) : State :=
  { s with sessions := Tab.mapAll {} s.sessions (fun _ x =>
      let left := (x.dec.unit.toList ++ x.dec.redo).filter (fun u => decide (u.owner ≠ i))
      { x with dec := { x.dec with unit := left.head?, redo := left.drop 1 } }) }

/-- Abandons every in-flight picture of a session (R316): needs return, one report each with cause WATCHDOG and action
DROPPED. Frames of an audio session in work are dropped with them. -/
def State.abandon (s : State) (i : Nat) : State :=
  let ps := (s.session i).pics
  let s := s.dropUnits i
  let s := (s.cancelCores i (s.planCores (s.session i).plan)).dropGrants i none
  let s := ps.foldl (fun s p =>
    let s := (s.report i { tag := p.tag, cause := 9, action := 3, poc := p.poc }).count i cDropped 1
    s.updSession i (fun ss => ss.dropPic p.poc)) s
  let s := s.updSession i (fun ss => { ss with
    groups := Tab.mapAll {} ss.groups (fun _ g => { g with
      busy := false, coded := false, toConceal := 0, lostWork := false, latents := [], parsedAt := none, kept := none })
    dec := { ss.dec with group := none, unit := none, redo := [], nextRow := 0, lostPic := ss.dec.group.isSome || ss.dec.lostPic } })
  if ps.isEmpty then s else s.moduleEvent 2 0x000F (logArg 0 i) 0

/-! ## Cores of a cut (R145, R155, R158, R296, R306) -/

/-- A core leaves its session: owners NONE, both groups OFF, scratch lost, queue empty (R296). Records not yet collected or not
yet written stay, and so do `stopped`, which only a reload clears (R101), and the count of R132, which only a read clears. -/
def Core.leave (c : Core) : Core :=
  { c with queue := [], backlog := [], phase := 0, upCopied := false, waitFrom := none, finishing := none, running := {}, scratch := []
           pleat := (0, 0), groups := [], seamUp := {}, seamDown := {}, pour := {}, lanes := [], atCinch := false, session := none, recipe := 0
           banks := Tab.mapAll {} c.banks (fun _ b => { b with owner := 0, reqOwner := 0, next := 0, pending := false }) }

/-- What a core still runs is cancelled before it leaves, so every descriptor leaves its record (R98, R99). -/
def State.leaveCore (s : State) (d c : Nat) : State := (s.cancelCore d c).updCore d c Core.leave

/-- A free core joins a cut: both groups ON and cleared (R145, R296). -/
def Core.join (c : Core) (i recipe : Nat) : Core :=
  { c with session := some i, recipe := recipe, scratch := [],
           groups := [(0, { mode := 0, ready := true, moving := false, leftOff := false }),
                      (1, { mode := 0, ready := true, moving := false, leftOff := false })] }

/-- The active copy of a core's user tables, and the shadow's index. -/
def Sfu.shadow (u : Sfu) : Nat := 1 - u.active

/-- A word of a table copy. -/
def Sfu.word (u : Sfu) (copy w : Nat) : W32 := BitVec.ofNat 32 (Mem.readLE (Tab.get [] u.copies copy) (4 * w) 4)

def Sfu.writeWord (u : Sfu) (copy w : Nat) (d : W32) : Sfu :=
  { u with copies := Tab.upd [] u.copies copy (fun m => Mem.writeLE m (4 * w) 4 d.toNat) }

/-- Held shadow writes land in the shadow and clear `shadow_valid` (R122). -/
def Sfu.landHeld (u : Sfu) : Sfu :=
  let v := u.held.foldl (fun u x => u.writeWord u.shadow x.1 x.2) u
  { v with held := [], shadowValid := u.shadowValid && u.held.isEmpty }

/-- The copies exchange (R121): `table_gen` advances, `shadow_valid` and `swap_pending` clear, held writes land in the new shadow. -/
def Sfu.flip (u : Sfu) : Sfu :=
  let v : Sfu := { u with active := 1 - u.active, shadowValid := false, swapPending := false, tableGen := (u.tableGen + 1) % 256 }
  v.landHeld

/-- The firmware loads user tables as it loads a cut: a reload of the shadow copy and an explicit swap (R121, R306). -/
def Sfu.install (u : Sfu) (t : Bytes) : Sfu := ({ u with copies := Tab.set [] u.copies u.shadow (Mem.cells 0 (t.take 16384)) } : Sfu).flip

/-- Installs the user tables of a model package, the same on every core of the cut (R120, R121). -/
def State.installTables (s : State) (slot : Nat) (cs : List (Nat × Nat)) : State :=
  let t := pkgSectionBytes (Tab.get {} s.models slot).package 1
  if t.isEmpty then s else cs.foldl (fun s (d, c) => s.updCore d c (fun k => { k with sfu := k.sfu.install t })) s

/-- The firmware loads one core: descriptors and boundary entries, of which 16 queue and the rest follow as places free (R84), what
its feeder transfers put into scratch, and the home shards and travel bank (R155, R306). Reloading a stopped queue replaces
it and clears `stopped` (R101). A program that begins on an idle queue begins at its first layer. -/
def Core.load (c : Core) (l : CoreLoad) : Core :=
  let fresh := !l.entries.isEmpty && (c.stopped || (c.queue.isEmpty && c.backlog.isEmpty && c.finishing.isNone))
  let q := if c.stopped then l.entries else c.queue ++ c.backlog ++ l.entries
  { c with
    queue := q.take 16, backlog := q.drop 16
    stopped := c.stopped && l.entries.isEmpty
    phase := if fresh then 0 else c.phase
    upCopied := c.upCopied && !fresh
    scratch := l.fills.foldl (fun m f => Mem.writeBytes m f.1 (f.2.take (524288 - f.1))) c.scratch
    pour := { c.pour with
      homes := if fresh then l.homes else c.pour.homes ++ l.homes, layer := if fresh then 0 else c.pour.layer
      step := if fresh then 0 else c.pour.step
      travelBank := match l.travelBank with | some b => some b.val | none => c.pour.travelBank } }

/-- Loads one core and hands its banks over. -/
def State.loadCore (s : State) (l : CoreLoad) : State :=
  l.owners.foldl (fun s o => s.giveBank l.die.val l.core.val o.1.val o.2.val) (s.updCore l.die.val l.core.val (fun c => c.load l))

/-- The firmware's loads into cores that belong to the session. -/
def State.applyLoads (s : State) (i : Nat) (ls : List CoreLoad) : State :=
  ls.foldl (fun s l => if (s.core l.die.val l.core.val).session = some i then s.loadCore l else s) s

/-- Gives each core of a cut its pleat. -/
def State.setPleats (s : State) (i : Nat) (pl : CutPlan) : State :=
  (List.range pl.cores.length).foldl (fun s k => match pl.cores[k]? with
    | some (r, d, c) => if r = s.rank then s.updCore d c (fun x => { x with pleat := (pl.pleat (s.session i).cfg k).2 }) else s
    | none => s) s

/-- Pour rings of a cut: the cores of one die in list order form its ring (R155, R298). -/
def State.formRings (s : State) (cs : List (Nat × Nat)) : State :=
  cs.foldl (fun s (d, c) =>
    let ring := cs.filter (fun x => x.1 = d)
    s.updCore d c (fun k => { k with pour := { k.pour with ringSize := ring.length, index := ring.idxOf (d, c), step := 0 } })) s

/-- Takes the cores of a plan into a session and sets their seams, rings and user tables up; cores of the old cut that are not in
the plan leave; cores in both keep their scratch (R121, R296, R304). -/
def State.bindCores (s : State) (i : Nat) (old : List (Nat × Nat)) (pl : CutPlan) : State :=
  let new := s.planCores pl
  let s := (old.filter (fun x => !new.contains x)).foldl (fun s (d, c) => s.leaveCore d c) s
  let s := new.foldl (fun s (d, c) =>
    if (s.core d c).session = some i then
      (s.cancelCore d c).updCore d c (fun k => { k with seamUp := {}, seamDown := {} })
    else s.updCore d c (fun k => (k.leave).join i pl.recipe)) s
  ((s.formRings new).setPleats i pl).installTables pl.modelSlot new

/-- Guard engines bound to a session (R257). -/
def State.releaseGuards (s : State) (i : Nat) : State :=
  { s with guards := Tab.mapAll none s.guards (fun _ g => if g = some i then none else g) }

/-- The lowest free guard engine of a stream die. -/
def State.freeGuard (s : State) (sd : Nat) : Option Nat := (List.range 8).find? (fun e => (s.guardOf sd e).isNone)

def State.bindGuard (s : State) (i sd : Nat) : State :=
  match s.freeGuard sd with
  | none => s
  | some e => { s with guards := Tab.set none s.guards (sd * 8 + e) (some i) }

/-- The session is guarded. -/
def State.guarded (s : State) (i : Nat) : Bool := s.guards.any (fun e => e.2 = some i)

/-- Lanes of a plan, ascending. -/
def CutPlan.laneList (pl : CutPlan) : List Nat := (List.range 32).filter (fun l => bitAt pl.lanes.toNat l)

/-- The plan lists a lane of a stream die. -/
def CutPlan.listsLane (pl : CutPlan) (sd l : Nat) : Bool := decide (pl.streamDie = sd) && bitAt pl.lanes.toNat l

/-- Substreams per unit of an N32 encoder (R250). -/
def CutPlan.sCount (pl : CutPlan) : Nat := min 32 (2 * pl.laneList.length)

/-- The lane that codes substream `j` (R244). -/
def CutPlan.laneOf (pl : CutPlan) (j : Nat) : Option Nat :=
  if pl.laneList.isEmpty then none else pl.laneList[j % pl.laneList.length]?

/-- The lanes of a session's old plan are released and those of its new one show it (R245): a lane that another cut lists shows that
cut's session, and one that none lists shows 0. -/
def State.moveLanes (s : State) (i : Nat) (old new : CutPlan) : State :=
  let heir (l : Nat) : Nat := ((s.sessions.find? (fun e => decide (e.1 ≠ i) && decide (e.2.plan.homeRank = s.rank) &&
    e.2.plan.listsLane old.streamDie l)).map (·.1)).getD 0
  let s := (List.range 32).foldl (fun s l => if old.listsLane old.streamDie l && decide ((s.lane old.streamDie l).session = i) then
    s.updLane old.streamDie l (fun x => { x with session := heir l }) else s) s
  (List.range 32).foldl (fun s l => if new.listsLane new.streamDie l then s.updLane new.streamDie l (fun x => { x with session := i }) else s) s

/-- Substreams of the unit that a picture's lanes code: as the unit's first run coded it, else as the plan's lanes give (R250). -/
def Picture.unitIx (p : Picture) : Nat := if p.picDone then p.rowsCommitted + 1 else 0
def Picture.subCount (p : Picture) (pl : CutPlan) : Nat := p.sCounts.getD p.unitIx pl.sCount

/-- What a session has in a lane: whether substreams of the unit in work are coded there, and whether some are still to be. -/
def State.laneWork (s : State) (i l : Nat) : Bool × Bool :=
  let ss := s.session i
  let on (j : Nat) : Bool := decide (ss.plan.laneOf j = some l)
  let coding := (ss.pics.filter (fun p => p.phase1 && !p.substreams.isEmpty)).map (fun p =>
    ((List.range (p.subCount ss.plan)).filter (fun j => p.substreams.any (fun x => x.1 = j)), (List.range (p.subCount ss.plan)).filter
      (fun j => !p.substreams.any (fun x => x.1 = j))))
  let decoding := s.sessions.flatMap (fun e => (e.2.dec.unit.filter (fun u => u.owner = i)).toList.map (fun u => (u.done.map (·.1), u.jobs.map (·.index))))
  let all := (if isEncodeKind ss.cfg.kind then coding else []) ++ decoding
  (all.any (fun x => x.1.any on), all.any (fun x => x.2.any on))

/-- A session holds a lane: a unit begun there is completed there (R244). -/
def State.holdsLane (s : State) (i sd l : Nat) : Bool :=
  (s.session i).plan.listsLane sd l && decide ((s.session i).plan.homeRank = s.rank) && (s.laneWork i l).1 && (s.laneWork i l).2

/-- SD_LANE_STATUS `busy`: a row of this model is the end of a substream, and between two of one unit the lane codes the next. -/
def State.laneBusy (s : State) (sd l : Nat) : Bool := s.sessions.any (fun e => s.holdsLane e.1 sd l)

/-! ## Re-cuts (R244, R303 to R305, R312) -/

/-- The memory die of a cut that has lost its own. -/
def noDie : Nat := 0xFF

/-- The format of an encode session's pictures, and of a decode session's by its sequence header. -/
def Session.fmt (ss : Session) : SeqFmt := if ss.cfg.kind = 2 then ss.dec.seq.getD {} else ss.cfg.fmt

/-- A picture stands between the start of phase 1 and its record, or a frame is in work. -/
def Session.inCores (ss : Session) : Bool := ss.pics.any (·.phase1) || ss.groups.any (fun e => e.2.busy)

/-- A picture is part of the way through a searcher or a predictor. -/
def Session.midSieve (ss : Session) : Bool :=
  let part (n : Nat) : Bool := decide (0 < n) && decide (n < ss.fmt.cbRows)
  ss.pics.any (fun p => part p.searched || part p.predicted)

/-- A unit of the session has begun in the lanes. -/
def State.midUnit (s : State) (i : Nat) : Bool := (s.session i).plan.laneList.any (fun l => (s.laneWork i l).1)

/-- Every resource of a new plan is ready to move: cores at a boundary, or at once with `now`; lanes between units; engines, guard engine
and reserve between pictures (R305). -/
def State.recutReady (s : State) (i : Nat) (pl : CutPlan) : Bool :=
  let ss := s.session i
  let o := ss.plan
  (pl.now || decide (pl.cores = o.cores) || !ss.inCores) &&
    (decide ((pl.lanes, pl.streamDie) = (o.lanes, o.streamDie)) || !s.midUnit i) &&
    (decide ((pl.searchers, pl.predictors) = (o.searchers, o.predictors)) || !ss.midSieve) &&
    (decide ((pl.guard, pl.reserveBytes, pl.memDie) = (o.guard, o.reserveBytes, o.memDie)) || !ss.inCores)

/-- Writes the control block of a ring: the device's count, and the host's. -/
def State.initRing (s : State) (base produced : Nat) : State :=
  s.gddrWrite base (natLE 8 produced ++ natLE 8 produced ++ zeros 48)

/-- A session's rings at new bases: the counts go on, and nothing written before is owed to the host. -/
def State.moveRings (s : State) (i : Nat) (rings : Nat × Nat) : State :=
  let s := s.updSession i (fun ss => { ss with recBase := rings.1, outBase := rings.2 })
  (s.initRing rings.1 (s.session i).recProduced).initRing rings.2 (s.session i).outProduced

/-- A session moves to another sub-pool, which R304 does not forbid: its references and buffers go with it, its rings begin anew there, and
its waiting requests join the new queue in order (DESIGN CHOICE, log entry 40). -/
def State.movePool (s : State) (i old new : Nat) (rings : Nat × Nat) : State :=
  let mine := (s.grantQueue old).filter (fun g => decide (g.session = i))
  let s := s.setGrantQueue old ((s.grantQueue old).filter (fun g => decide (g.session ≠ i)))
  (s.setGrantQueue new (mine.foldl (fun q g => q.filter (fun x => decide (x.order < g.order)) ++ [g] ++ q.filter (fun x => decide (g.order < x.order)))
    (s.grantQueue new))).moveRings i rings

/-- The session's cut becomes a new plan: what both hold stays in place (R304). -/
def State.takeCut (s : State) (i : Nat) (pl : CutPlan) (place : Placement) (moved : Bool) : State :=
  let old := (s.session i).plan
  let s := if moved then (s.bindCores i (s.planCores old) pl).applyLoads i place.loads else s
  let s := s.releaseGuards i
  let s := if pl.guard && decide (pl.homeRank = s.rank) then s.bindGuard i pl.streamDie else s
  let s := if decide (old.memDie ≠ pl.memDie) && decide (old.memDie ≠ noDie) && decide (pl.homeRank = s.rank) then
      s.movePool i old.memDie pl.memDie (place.recBase, place.outBase) else s
  let s := if pl.homeRank = s.rank then s.moveLanes i old pl else s
  s.updSession i (fun x => { x with plan := { pl with generation := x.gen }, recut := none })

/-- A waiting re-cut takes effect and is answered (R305). -/
def State.finishRecut (s : State) (i : Nat) : State :=
  match (s.session i).recut with
  | none => s
  | some r =>
    let s := s.takeCut i r.plan r.place (decide ((s.session i).plan.cores ≠ r.plan.cores))
    s.answer r.port r.slot { stateNow := (s.session i).st.code, genNow := (s.session i).gen, resp := natLE 2 (s.session i).gen }

/-- A re-cut accepted before a fence completes first (R303): one that still waits for its turn is refused for its generation, or takes
effect; the checks it met when it was accepted stand. -/
def State.finishParked (s : State) (i : Nat) : State :=
  (s.session i).parked.foldl (fun s k => match k.recut with
    | none => s
    | some (r, refused) =>
      let ss := s.session i
      let s := s.updSession i (fun x => { x with parked := x.parked.filter (· ≠ k) })
      let now (st : Nat) (s : State) (resp : Bytes) : State :=
        s.answer k.port k.slot { status := st, detail := if st = 0 then 0 else 4, stateNow := (s.session i).st.code, genNow := (s.session i).gen, resp := resp }
      if refused || decide (r.plan.generation ≠ ss.gen) then now stStale s []
      else
        let s := s.updSession i (fun x => { x with gen := nextGen x.gen, lastRecut := some s.time })
        let s := s.takeCut i r.plan r.place (decide (ss.plan.cores ≠ r.plan.cores))
        now 0 s (natLE 2 (s.session i).gen)) s

/-! ## Loss of resources (R317 to R319) -/

/-- What a loss takes from a cut. -/
inductive Loss
  | die (d : Nat)
  | core (d c : Nat)
  /-- every resource on other devices beyond a lost cascade link (R324) -/
  | ranks (rs : List Nat)
  deriving DecidableEq, Repr

def engineMask (sd : Nat) : Nat := 0xFFF * 2 ^ (12 * sd)

/-- The plan uses a stream die: a lane, an engine or, when guarded, a guard engine. -/
def CutPlan.usesStream (pl : CutPlan) (sd : Nat) : Bool :=
  (decide (pl.streamDie = sd) && (decide (pl.lanes ≠ 0) || pl.guard)) || decide ((pl.searchers.toNat &&& engineMask sd) ≠ 0) ||
    decide ((pl.predictors.toNat &&& engineMask sd) ≠ 0)

/-- The cut of a session uses what is lost. -/
def State.cutUses (s : State) (pl : CutPlan) : Loss → Bool
  | .die d =>
    if d < 24 then pl.cores.any (fun c => decide (c.1 = s.rank) && decide (c.2.1 = d))
    else if d < 28 then decide (pl.homeRank = s.rank) && decide (pl.memDie = d - 24)
    else if d < 30 then decide (pl.homeRank = s.rank) && pl.usesStream (d - 28)
    else if d = 31 then pl.cores.any (fun c => decide (c.1 ≠ s.rank))
    else false
  | .core d k => pl.cores.contains (s.rank, d, k)
  | .ranks rs => pl.cores.any (fun c => rs.contains c.1)

/-- The plan without what is lost. -/
def State.cutWithout (s : State) (pl : CutPlan) : Loss → CutPlan
  | .die d =>
    if d < 24 then { pl with cores := pl.cores.filter (fun c => !(decide (c.1 = s.rank) && decide (c.2.1 = d))) }
    else if d < 28 then { pl with memDie := noDie }
    else if d < 30 then
      let keep (m : BitVec 24) : BitVec 24 := BitVec.ofNat 24 (m.toNat - (m.toNat &&& engineMask (d - 28)))
      { pl with searchers := keep pl.searchers, predictors := keep pl.predictors,
                lanes := if pl.streamDie = d - 28 then 0 else pl.lanes, guard := if pl.streamDie = d - 28 then false else pl.guard }
    else { pl with cores := pl.cores.filter (fun c => decide (c.1 = s.rank)) }
  | .core d k => { pl with cores := pl.cores.filter (fun c => c ≠ (s.rank, d, k)) }
  | .ranks rs => { pl with cores := pl.cores.filter (fun c => !rs.contains c.1) }

/-- A picture's core stages run again from their start (R318). -/
def Picture.rewind (p : Picture) (t : Nat) : Picture :=
  { p with phase1 := false, phase2 := 0, rerun := true, wdUsed := 0, wdFrom := p.wdFrom.map (fun _ => t),
           gainsDone := false, probRerun := false, substreams := [] }

/-- An encode picture also rewrites its units from its first byte (R181); a prediction whose floor rows were re-formed is formed anew. -/
def Picture.rewindEncode (p : Picture) : Picture :=
  { p with picDone := false, written := 0, rowsCommitted := 0, rowsFloor := [], bytes := 0, hyperBytes := 0, hyperFloor := false, floored := false
           predicted := if p.synthRerun then 0 else p.predicted, synthRerun := false }

/-- An AUD unit. -/
def UnitJob.isAud (u : UnitJob) : Bool := decide (u.kind = 0x41)

/-- The unit goes to the lanes from its start. -/
def UnitJob.restart (u : UnitJob) (again : Bool) : UnitJob := { u with jobs := u.all, done := [], errors := [], again := again }

/-- The first row of the units that are to be decoded again; without one, the rows decoded before the loss. -/
def redoRow (l : List UnitJob) (upTo : Nat) : Nat := ((l.find? (fun u => u.again && decide (u.kind = 0x52))).map (·.row)).getD upTo

/-- A decode picture's entropy stage runs again: its units, whose bytes the pool still holds, are decoded a second time (R318). -/
def Picture.redo (p : Picture) : Picture :=
  let upTo := max p.redoTo p.decoded
  { p with
    redoTo := upTo, decoded := redoRow (p.kept.map (·.restart true)) upTo, predicted := 0
    picDone := p.picDone && !p.kept.any (fun u => decide (u.kind = 0x50)) }

/-- The units that a session's stream has in the lanes, and those of its picture that the lanes have decoded, go to the lanes again. -/
def Session.redoUnits (ss : Session) : Session :=
  let now := ss.dec.unit.toList ++ ss.dec.redo
  let kept := (ss.pics.head?.map (·.kept)).getD []
  let l := (now.filter (·.isAud)).map (fun u => u.restart u.again) ++ kept.map (·.restart true) ++
    (now.filter (fun u => !u.isAud && !u.again)).map (·.restart false)
  { ss with dec := { ss.dec with unit := l.head?, redo := l.drop 1 }, pics := match ss.pics with | p :: ps => p.redo :: ps | [] => [] }

/-- What a loss takes of the stages that a session's pictures run through: search, prediction, lanes and cores. -/
structure LostStages where
  search : Bool
  predict : Bool
  lanes : Bool
  cores : Bool
  deriving DecidableEq, Repr

/-- A core of a cut is lost. -/
def State.coreLost (s : State) (loss : Loss) (x : Nat × Nat × Nat) : Bool :=
  match loss with
  | .die d => if d = linkDie then decide (x.1 ≠ s.rank) else decide (x.1 = s.rank) && decide (x.2.1 = d)
  | .core d k => decide (x = (s.rank, d, k))
  | .ranks rs => rs.contains x.1

/-- The stream die that a loss takes from a session that is at home here. -/
def State.streamLost (s : State) (pl : CutPlan) : Loss → Option Nat
  | .die d => if decide (28 ≤ d) && decide (d < 30) && decide (pl.homeRank = s.rank) then some (d - 28) else none
  | _ => none

/-- Some of `done` CB rows were worked by an engine of a stream die. -/
def engineWorked (es : List Nat) (rows done sd : Nat) : Bool :=
  (List.range done).any (fun r => (engineFor es rows r).any (fun x => decide (x.1 / 12 = sd)))

/-- The stages of a picture that ran on what is lost. -/
def State.lostStages (s : State) (ss : Session) (loss : Loss) (p : Picture) : LostStages :=
  let sd := s.streamLost ss.plan loss
  let on (m : BitVec 24) (done : Nat) : Bool := sd.any (engineWorked (engineList m) ss.fmt.cbRows done)
  let home := sd.any (fun d => decide (ss.plan.streamDie = d))
  { search := on ss.plan.searchers p.searched, predict := on ss.plan.predictors p.predicted
    lanes := home && (if isEncodeKind ss.cfg.kind then p.phase1 else !p.kept.isEmpty || ss.dec.unit.any (fun u => !u.isAud))
    cores := p.phase1 && ss.plan.cores.any (s.coreLost loss) }

def LostStages.any (x : LostStages) : Bool := x.search || x.predict || x.lanes || x.cores

/-- A picture is to be run again from the earliest of its stages that ran on what is lost (R318). A decoder's probability model does not
depend on its prediction. -/
def Picture.lose (p : Picture) (encode : Bool) (x : LostStages) (t : Nat) : Picture :=
  if !x.any then p
  else if encode then
    let q := { p.rewind t with searched := if x.search then 0 else p.searched, predicted := if x.search || x.predict then 0 else p.predicted }
    q.rewindEncode
  else if x.lanes || x.cores then { p.rewind t with predicted := if x.predict then 0 else p.predicted }
  else { p with predicted := 0, phase2 := 0, rerun := true }

/-- A sub-pool is gone: references, staging buffer and rings are lost (R319), and the carry states of audio groups (R291). -/
def Session.losePool (ss : Session) : Session :=
  { ss with
    poolLost := true, bufs := [], recHeld := [], outHeld := [], stallSince := none,
    charge := ss.fixedCharge
    lostRefs := (ss.bufs.filter (fun b => b.mark = 1 ∨ b.mark = 2)).map (·.poc)
    groups := Tab.mapAll {} ss.groups (fun _ g =>
      { g with carryHeld := false, carry := [], lostCarry := true, muted := if isEncodeKind ss.cfg.kind then g.muted else true }) }

/-- An audio group's frame in work ran on what is lost: one of the group's cores, or the stream die of the cut. -/
def State.groupLost (s : State) (ss : Session) (loss : Loss) (g : Nat) : Bool :=
  (s.streamLost ss.plan loss).any (fun d => decide (ss.plan.streamDie = d)) ||
    ss.plan.cores.any (fun x => s.coreLost loss x && decide (ss.groupOfCore x = some g))

/-- The session whose stream carries an audio session's units. -/
def Session.carrier (ss : Session) (i : Nat) : Nat := ss.cfg.attach.getD i

/-- The lanes are lost: units of the stream that they were decoding, and those that the work still to be recorded needs, are decoded
again. -/
def State.redoLanes (s : State) (i : Nat) : State :=
  let ss := s.session i
  let c := ss.carrier i
  let auds := (ss.groups.filter (fun e => e.2.busy && !e.2.concealed)).filterMap (fun e => e.2.kept.map (·.restart true))
  let s := s.updSession i (fun x => { x with groups := Tab.mapAll {} x.groups (fun _ g =>
    if g.busy && !g.concealed && g.kept.isSome then { g with coded := false, kept := none } else g) })
  s.updSession c (fun x =>
    let y := x.redoUnits
    let l := auds ++ y.dec.unit.toList ++ y.dec.redo
    { y with dec := { y.dec with unit := l.head?, redo := l.drop 1 } })

/-- A loss touches one session: work with a stage on what is lost is cancelled, resources are removed, the generation advances, and the
session waits in FAULTED (R287, R317). -/
def State.loseFrom (s : State) (loss : Loss) (cause die i : Nat) : State :=
  let pool := match loss with
    | .die d => decide (24 ≤ d) && decide (d < 28)
    | _ => false
  let s := if pool then (s.abandon i).updSession i Session.losePool else s
  let ss := s.session i
  let encode := isEncodeKind ss.cfg.kind
  let gone := ss.pics.filter (fun p => (s.lostStages ss loss p).any)
  let frames := (ss.groups.filter (fun e => e.2.busy && s.groupLost ss loss e.1)).map (·.1)
  let t := if gone.any (·.phase1) then s.cancelCores i (s.planCores ss.plan) else frames.foldl (fun t g => t.cancelCores i (s.groupCores i g)) s
  let t := t.updSession i (fun x => { x with
    pics := x.pics.map (fun p => p.lose encode (s.lostStages ss loss p) s.time)
    groups := Tab.mapAll {} x.groups (fun k g => if frames.contains k then { g with rerun := true } else g) })
  let t := if !encode && (s.streamLost ss.plan loss).any (fun d => decide (ss.plan.streamDie = d)) then t.redoLanes i else t
  let t := t.updSession i (fun x => { x with
    plan := s.cutWithout x.plan loss
    gen := nextGen x.gen
    heldAtFault := if ss.st = .faulted then x.heldAtFault else ss.st
    st := .faulted
    faultedAt := if ss.st = .faulted then x.faultedAt else s.time
    cinch := [], cinchAt := none })
  t.sessionEvent i cause die

/-- A route that this device holds as master joins its session to a device that is lost (R324). -/
def State.routeCrosses (s : State) (i : Nat) (loss : Loss) : Bool :=
  let gone (r : Nat) : Bool := match loss with
    | .ranks rs => rs.contains r
    | .die d => decide (d = linkDie) && decide (r ≠ s.rank)
    | .core _ _ => false
  s.cascade.routes.any (fun e =>
    e.2.used && (((e.2.srcRank, e.2.srcSession) == (s.rank, i) && gone e.2.sinkRank) ||
                 ((e.2.sinkRank, e.2.sinkSession) == (s.rank, i) && gone e.2.srcRank)))

/-- Sessions whose cut uses what is lost, or whose route crosses it. -/
def State.sessionsOn (s : State) (loss : Loss) : List Nat :=
  (s.sessions.filter (fun e => e.2.bound && (s.cutUses e.2.plan loss || s.routeCrosses e.1 loss))).map (·.1)

/-- Before a loss, every accepted re-cut whose old or new plan uses what is lost takes effect: a fence is applied between commands
(R303). -/
def State.settleRecuts (s : State) (loss : Loss) : State :=
  let waits (e : Nat × Session) : Bool :=
    let news := e.2.recut.toList.map (·.plan) ++ e.2.parked.filterMap (fun k => k.recut.map (·.1.plan))
    !news.isEmpty && ((e.2.plan :: news).any (fun pl => s.cutUses pl loss) || s.routeCrosses e.1 loss)
  ((s.sessions.filter (fun e => e.2.bound && waits e)).map (·.1)).foldl (fun s i => (s.finishRecut i).finishParked i) s

/-- Applies a loss to every session it touches. -/
def State.applyLoss (s : State) (loss : Loss) (cause die : Nat) : State × Nat :=
  let hit := s.sessionsOn loss
  (hit.foldl (fun s i => s.loseFrom loss cause die i) s, hit.length)

/-- Every cascade port goes down (R32, R386). -/
def State.dropCascade (s : State) : State :=
  { s with cascade := { s.cascade with
      formed := false, members := 0, timeLocked := false, goodExchanges := 0, requestT1 := none, notices := [], electing := none
      ports := Tab.mapAll {} s.cascade.ports (fun _ p => { p with
        up := false, lost := Flag.raise s.wall, replayBuf := [], outQ := [], waiting := [], credits := [], lostAt := s.time, attempts := 0 }) } }

/-- Fences a die (R28, R317): its work stops, sessions are told, and the log names the cause and the number of sessions. The hub
is the module: its fault stops the module (R31). A die already fenced is left as it is. -/
def State.fence (s : State) (d cause : Nat) : State :=
  if d = hubDie || s.dieFenced d then s
  else
    let s := s.settleRecuts (.die d)
    let s := s.updDie d (fun x => { x with fenced := cause })
    let s := if d < 24 then { s with cores := Tab.mapAll {} s.cores (fun k c => if k / 160 = d then c.leave else c) } else s
    let s := if d = linkDie then s.dropCascade else s
    let s := if 28 ≤ d ∧ d < 30 then
        { s with guards := s.guards.filter (fun e => e.1 / 8 ≠ d - 28) } else s
    let s := { s with thermal := { s.thermal with dieTemp := Tab.set (-32768) s.thermal.dieTemp d (-32768) } }
    let (s, n) := s.applyLoss (.die d) 1 d
    if cause = 7 then s.dieEvent hubDie d 3 0x0002 0 0 else s.dieEvent hubDie d 3 0x0001 0 (cause + 256 * n)

/-- Retires a core (R142, R133): its queue stops, sessions are told, the die is not fenced. -/
def State.retire (s : State) (d c : Nat) : State :=
  if (s.die d).retired.contains c then s
  else
    let s := s.settleRecuts (.core d c)
    let s := s.updDie d (fun x => { x with retired := x.retired.filter (· < c) ++ [c] ++ x.retired.filter (fun y => c < y) })
    let s := s.leaveCore d c
    let (s, _) := s.applyLoss (.core d c) 2 d
    s.dieEvent hubDie d 2 0x0003 (logArg c 0) 0

/-- Every pair of dies, lower index first, in index order. -/
def diePairs : List (Nat × Nat) :=
  (List.range 32).flatMap (fun a => ((List.range 32).filter (fun b => decide (a < b))).map (fun b => (a, b)))

/-- A pair of live dies that no route joins any more: the higher index is fenced, or the other one where that is the hub (R29). -/
def State.fencePair (s : State) (x : Nat × Nat) : State :=
  if !s.dieFenced x.1 && !s.dieFenced x.2 && s.unreachable x.1 x.2 then s.fence (if x.2 = hubDie then x.1 else x.2) 7 else s

/-- Fences the dies that no route reaches any more, pair by pair over the dies still live (R29). -/
def State.fenceUnreachable (s : State) : State := diePairs.foldl State.fencePair s

/-- An edge fault (R26, R29): both dies of the edge are fenced, traffic moves off the edge, unreachable dies follow. -/
def State.edgeFault (s : State) (a b : Nat) : State :=
  let s := { s with faultyEdges := if s.faultyEdges.contains (min a b, max a b) then s.faultyEdges
                                   else s.faultyEdges ++ [(min a b, max a b)] }
  ((s.fence a 3).fence b 3).fenceUnreachable

end Sys2Proof.Machine
end

