-- ==== Sys2Proof/Machine/Owner.lean ====
section
/-! DEFINITION. Ownership (R342 to R346) and the commands every master may send about the device itself (R337). -/

namespace Sys2Proof.Machine

/-- What the meaning of a command answers. -/
abbrev Result := Host.Outcome State Fault Refusal

/-- The frame of every event command: time passes, then the effect happens if its condition holds (log entry 2). -/
def State.event (s : State) (dt : Nat) (ready : State → Bool) (effect : State → State) : Result :=
  let t := s.elapse dt
  .next (if ready t then effect t else t)

/-- The frame of every mailbox command row (log entry 2). -/
def State.mailboxRow (s : State) (dt : Nat) (p : Port) (k : Slot) (mine : Nat → Bytes → Bool) (body : State → Bytes → State) :
    Result :=
  .next ((s.elapse dt).command p.val k.val mine body)

/-- A row's command is told by its opcode alone. -/
def isOpcode (o : Nat) : Nat → Bytes → Bool := fun op _ => decide (op = o)

/-- A row's command is told by its opcode and the `op` byte of its payload. -/
def isSubOp (o b : Nat) : Nat → Bytes → Bool := fun op req => decide (op = o) && decide (leAt req 0 1 = b)

/-! ## Changes of owner -/

def leaseNs : Nat := 5000000000

/-- `info` of OWNER_CHANGED (R351). -/
def ownerInfo (owned : Bool) (port : Nat) (nonce : W32) (priority cause : Nat) : Nat :=
  port + 4 * b2n owned + nonce.toNat * 2 ^ 8 + priority * 2 ^ 40 + cause * 2 ^ 48

/-- The owner before a change at this instant: of several changes in one clock, the owner before the first. -/
def State.ownerBefore (s : State) : Option Nat :=
  if s.owner.changedAt = some s.wall then s.owner.before else if s.owner.owned then some s.owner.port else none

/-- A change to an owner: fresh lease, one more change, OWNER_CHANGED and vector 0 (R343, R345, R346). -/
def State.setOwner (s : State) (port : Nat) (nonce : W32) (priority cause : Nat) : State :=
  let s := { s with owner := { s.owner with
    owned := true, port := port, nonce := nonce, priority := priority, deadline := s.time + leaseNs, lastRenewal := s.time,
    successor := none, changes := (s.owner.changes + 1) % 65536, changedAt := some s.wall, before := s.ownerBefore } }
  (s.moduleEvent 1 0x0004 0 (ownerInfo true port nonce priority cause)).vector0

/-- A change to no owner (R344, R345, R330). -/
def State.loseOwner (s : State) (cause : Nat) : State :=
  if !s.owner.owned then s
  else
    let s := { s with owner := { s.owner with
      owned := false, port := 0, nonce := 0, priority := 0, deadline := 0, successor := none,
      changes := (s.owner.changes + 1) % 65536, changedAt := some s.wall, before := s.ownerBefore } }
    (s.moduleEvent 1 0x0004 0 (ownerInfo false 0 0 0 cause)).vector0

/-- The lease has passed its deadline (R344). -/
def State.leaseOver (s : State) : Bool := s.owner.owned && decide (s.owner.deadline < s.time)

/-- After the deadline the device has no owner, and LEASE_EXPIRED is logged (R344). -/
def State.expireLease (s : State) : State := (s.moduleEvent 2 0x0005 0 0).loseOwner 4

/-- The claim that wins a window: highest priority, then lowest port; of one port's claims the last accepted stands (R343). -/
def winningClaim (cs : List Claim) : Option Claim :=
  let standing (p : Nat) := (cs.filter (fun c => c.port = p)).getLast?
  [3, 2, 1, 0].foldl (fun best p =>
    match standing p, best with
    | some c, some b => if b.priority ≤ c.priority then some c else some b
    | some c, none => some c
    | none, b => b) none

/-- A CLAIM's response (R343): won, the owner's port, priority and nonce, and the lease deadline or the remaining lease. -/
def State.claimResp (s : State) (won : Bool) : Bytes :=
  let left := if won || !s.ownerLive then s.owner.deadline else s.owner.deadline - s.time
  natLE 1 (b2n won) ++ natLE 1 s.owner.port ++ natLE 1 s.owner.priority ++ [0] ++ natLE 4 s.owner.nonce.toNat ++ natLE 8 left

/-- The window closes: the winner owns the device and every CLAIM of the window completes with OK (R343). -/
def State.closeWindow (s : State) : State :=
  let cs := s.owner.claims
  let s := { s with owner := { s.owner with window := none, claims := [] } }
  match winningClaim cs with
  | none => s
  | some w =>
    let s := s.setOwner w.port w.nonce w.priority 1
    cs.foldl (fun s c => s.answer c.port c.slot
      { resp := (s.claimResp true).set 0 (if c = w then 1 else 0) }) s

/-- The window's close is due. -/
def State.windowOver (s : State) : Bool :=
  match s.owner.window with
  | some t => decide (t ≤ s.time)
  | none => false

/-- Brings ownership up to the present instant before a CLAIM is judged. -/
def State.settleOwner (s : State) : State :=
  let s := if s.leaseOver then s.expireLease else s
  if s.windowOver then s.closeWindow else s

/-! ## Commands -/

/-- Checks of a command whose payload is a `nonce` first, sent by the owner (R336, R342): port, length, nonce. -/
def State.nonceChecks (s : State) (p k layout : Nat) (req : Bytes) : List (Bool × Answer) :=
  [(!s.isOwner p, refusal stNotOwner 0), (s.shortReq p k layout, refusal stBadArg 8),
   (decide (leAt req 0 4 ≠ s.owner.nonce.toNat), refusal stNotOwner 0)]

/-- Checks of every other owner command (R336): port, length. -/
def State.ownerChecks (s : State) (p k layout : Nat) : List (Bool × Answer) :=
  [(!s.isOwner p, refusal stNotOwner 0), (s.shortReq p k layout, refusal stBadArg 8)]

/-- The first of a command's own checks while a handover is pending (R345). -/
def State.handoverBusy (s : State) : Bool × Answer := (s.handoverPending, refusal stBusy 0)

/-- Checks of a command that any master may send (R337). -/
def State.anyChecks (s : State) (p k layout : Nat) (req : Bytes) : List (Bool × Answer) :=
  [(s.shortReq p k layout, refusal stBadArg 8), tailZero req layout]

/-- A reserved field of a payload is not 0. -/
def reservedAt (req : Bytes) (pos n : Nat) : Bool × Answer := (!zeroAt req pos n, refusal stBadArg pos)

/-- PING (R337): device time, and the owner port, 0xFF when none owns the device. -/
def execPing (dt : Nat) (p : Port) (k : Slot) (s : State) : Result :=
  s.mailboxRow dt p k (isOpcode 0x01) (fun s req =>
    s.checked p.val k.val (s.anyChecks p.val k.val 0 req) (fun s =>
      s.answer p.val k.val { resp := natLE 8 s.time ++ natLE 1 (if s.ownerLive then s.owner.port else 0xFF) }))

/-- The part number of R5, in ASCII. -/
def partNumber : Bytes := [0x4F, 0x4A, 0x2D, 0x4E, 0x33, 0x32, 0x2D, 0x39, 0x36, 0x4C, 0, 0, 0, 0, 0, 0]

/-- Mask of fenced dies by die index. -/
def State.fencedMask (s : State) : Nat := ((List.range 32).map (fun i => if s.dieFenced i then 2 ^ i else 0)).sum

/-- HUB_RCP_SUPPORT (R35): recipes 1 and 2 are held. -/
def hubRcpSupport : Nat := 6

/-- DEVICE_INFO's response (R337). -/
def State.deviceInfo (s : State) : Bytes :=
  partNumber ++ natLE 4 s.boot.fwVersion.toNat ++ natLE 4 hubRcpSupport ++ natLE 4 s.fencedMask ++
    (List.range 24).map (fun d => BitVec.ofNat 8 (s.die d).retired.length) ++ natLE 4 s.straps.toNat ++ natLE 1 s.rank

def execDeviceInfo (dt : Nat) (p : Port) (k : Slot) (s : State) : Result :=
  s.mailboxRow dt p k (isOpcode 0x02) (fun s req =>
    s.checked p.val k.val (s.anyChecks p.val k.val 0 req) (fun s => s.answer p.val k.val { resp := s.deviceInfo }))

/-- What a CLAIM that passed its payload checks does (R343). -/
def State.claim (s : State) (p k priority : Nat) (nonce : W32) : State :=
  let busy (s : State) := s.answer p k { status := stBusy, resp := s.claimResp false }
  if s.handoverPending then busy s
  else if s.ownerLive then
    if s.owner.port ≠ p then busy s
    else if nonce = s.owner.nonce then s.answer p k { resp := s.claimResp true }
    else if priority < s.owner.priority then busy s
    else
      let t := s.setOwner p nonce priority 3
      t.answer p k { resp := t.claimResp true }
  else
    { s with owner := { s.owner with
      window := match s.owner.window with | some t => some t | none => some (s.time + 10000000)
      claims := s.owner.claims ++ [{ port := p, slot := k, priority := priority, nonce := nonce }] } }

def execClaim (dt : Nat) (p : Port) (k : Slot) (s : State) : Result :=
  s.mailboxRow dt p k (isOpcode 0x03) (fun s req =>
    let s := s.settleOwner
    s.checked p.val k.val [(s.shortReq p.val k.val 8, refusal stBadArg 8), reservedAt req 1 3, tailZero req 8]
      (fun s => s.claim p.val k.val (leAt req 0 1) (BitVec.ofNat 32 (leAt req 4 4))))

/-- HEARTBEAT renews the lease; a renewal more than 1 s after the previous one logs LATE_HEARTBEAT (R344). -/
def State.heartbeat (s : State) : State :=
  let gap := s.time - s.owner.lastRenewal
  let s := if 1000000000 < gap then s.moduleEvent 1 0x0007 0 (gap / 1000) else s
  { s with owner := { s.owner with deadline := s.time + leaseNs, lastRenewal := s.time } }

def execHeartbeat (dt : Nat) (p : Port) (k : Slot) (s : State) : Result :=
  s.mailboxRow dt p k (isOpcode 0x04) (fun s req =>
    s.checked p.val k.val (s.nonceChecks p.val k.val 4 req ++ [tailZero req 4]) (fun s =>
      let t := s.heartbeat
      t.answer p.val k.val { resp := natLE 8 t.owner.deadline }))

/-- HANDOVER names a successor port, which has 100 ms (R345). -/
def execHandover (dt : Nat) (p : Port) (k : Slot) (s : State) : Result :=
  s.mailboxRow dt p k (isOpcode 0x05) (fun s req =>
    s.checked p.val k.val
      (s.nonceChecks p.val k.val 8 req ++ [(decide (3 < leAt req 4 1), refusal stBadArg 4), reservedAt req 5 3, tailZero req 8,
        s.handoverBusy])
      (fun s =>
        let by_ := s.time + 100000000
        ({ s with owner := { s.owner with successor := some (leAt req 4 1), handoverBy := by_ } }).answer p.val k.val
          { resp := natLE 8 by_ }))

/-- ACCEPT by the named successor moves ownership at once (R345). -/
def execAccept (dt : Nat) (p : Port) (k : Slot) (s : State) : Result :=
  s.mailboxRow dt p k (isOpcode 0x06) (fun s req =>
    s.checked p.val k.val
      [(!(s.handoverPending && s.ownerLive && decide (s.owner.successor = some p.val)), refusal stNotOwner 0),
       (s.shortReq p.val k.val 8, refusal stBadArg 8), reservedAt req 1 3, tailZero req 8]
      (fun s =>
        let t := s.setOwner p.val (BitVec.ofNat 32 (leAt req 4 4)) (leAt req 0 1) 2
        t.answer p.val k.val { resp := natLE 8 t.owner.deadline }))

/-- RELEASE ends ownership at once and cancels a pending handover (R345). -/
def execRelease (dt : Nat) (p : Port) (k : Slot) (s : State) : Result :=
  s.mailboxRow dt p k (isOpcode 0x07) (fun s req =>
    s.checked p.val k.val (s.nonceChecks p.val k.val 4 req ++ [tailZero req 4]) (fun s => (s.loseOwner 5).answer p.val k.val {}))

/-- The election window closes (R343). -/
def execElectionWindowClose (dt : Nat) (s : State) : Result := s.event dt State.windowOver State.closeWindow

/-- The lease deadline passes (R344). -/
def execLeaseExpired (dt : Nat) (s : State) : Result := s.event dt State.leaseOver State.expireLease

/-- No ACCEPT came within 100 ms: the owner keeps ownership (R345). -/
def execHandoverLapsed (dt : Nat) (s : State) : Result :=
  s.event dt (fun s => s.owner.successor.isSome && decide (s.owner.handoverBy < s.time)) (fun s =>
    ({ s with owner := { s.owner with successor := none } }).moduleEvent 1 0x0006 0 0)

/-! ## Registers (R346) -/

/-- HUB_OWNER. -/
def State.hubOwner (s : State) : Nat :=
  s.owner.port + 4 * b2n s.ownerLive + 8 * b2n s.owner.window.isSome + 16 * b2n s.owner.successor.isSome +
    32 * (s.owner.successor.getD 0) + 256 * s.owner.priority + 65536 * s.owner.changes

/-- HUB_LEASE_LEFT: milliseconds to the deadline. -/
def State.hubLeaseLeft (s : State) : Nat := if s.ownerLive then (s.owner.deadline - s.time) / 1000000 else 0

end Sys2Proof.Machine
end

