-- ==== Sys2Proof/Machine/Mailbox.lean ====
section
/-! DEFINITION. Mailbox slots as a master writes and reads them (R326 to R331, R348), the SMBus target (R331, R449, R458), device
time and the event log (R349 to R351). -/

namespace Sys2Proof.Machine

/-! ## Flags and their counters (R348) -/

def MbxPort.setSealDropped (now : Nat) (m : MbxPort) : MbxPort := { m with sealDropped := Flag.raise now, sealDroppedN := (m.sealDroppedN + 1) % 256 }
def MbxPort.setWriteDropped (now : Nat) (m : MbxPort) : MbxPort := { m with writeDropped := Flag.raise now, writeDroppedN := (m.writeDroppedN + 1) % 256 }
def MbxPort.setSeqGap (now : Nat) (m : MbxPort) : MbxPort := { m with seqGap := Flag.raise now, seqGapN := (m.seqGapN + 1) % 256 }
def MbxPort.setForeign (now : Nat) (m : MbxPort) : MbxPort := { m with foreignWrite := Flag.raise now, foreignN := (m.foreignN + 1) % 256 }
def MbxPort.setPec (now : Nat) (m : MbxPort) : MbxPort := { m with smbPec := Flag.raise now, foreignN := (m.foreignN + 1) % 256 }

/-- HUB_MBX_FLAGS_p. -/
def MbxPort.flags (m : MbxPort) : Nat :=
  b2n m.sealDropped.isSet + 2 * b2n m.writeDropped.isSet + 4 * b2n m.seqGap.isSet + 8 * b2n m.foreignWrite.isSet + 16 * b2n m.smbPec.isSet

/-- HUB_MBX_EVENTS_p. -/
def MbxPort.events (m : MbxPort) : Nat := m.sealDroppedN + 256 * m.writeDroppedN + 65536 * m.seqGapN + 2 ^ 24 * m.foreignN

/-- HUB_MBX_SEQ_p. -/
def State.hubMbxSeq (s : State) (p : Nat) : Nat := (s.port p).nextSeq.toNat + 65536 * (s.sealedSlots p).length

/-- Clears the flags whose bit is written as one (R347, R348). -/
def MbxPort.clearFlags (m : MbxPort) (v now : Nat) : MbxPort :=
  { m with sealDropped := m.sealDropped.clear (bitAt v 0) now, writeDropped := m.writeDropped.clear (bitAt v 1) now,
           seqGap := m.seqGap.clear (bitAt v 2) now, foreignWrite := m.foreignWrite.clear (bitAt v 3) now,
           smbPec := m.smbPec.clear (bitAt v 4) now }

/-! ## Writes by the slot's master (R328) -/

/-- The warmer runs: auxiliary and REFCLK are present (R397). -/
def State.warmerRuns (s : State) : Bool := s.board.aux && s.clocks.refclkOk

/-- The seal: an EMPTY slot becomes SEALED; any other state drops it. -/
def State.writeSeal (s : State) (p k : Nat) (seq opcode : W16) : State :=
  if (s.slot p k).st = 0 then (s.updSlot p k (fun m => { m with st := 1, seq := seq, opcode := opcode, signal := true })).settleSeq p
  else s.updPort p (MbxPort.setSealDropped s.wall)

/-- A withdrawn number is consumed unless another SEALED slot holds it (R329). -/
def State.consumeSeq (s : State) (p : Nat) (seq : W16) : State :=
  if (s.sealedSlots p).any (fun j => decide ((s.slot p j).seq = seq)) then s
  else if s.seqGapOf p seq = 0 then s.updPort p MbxPort.advance
  else if s.seqGapOf p seq < 64 then
    s.updPort p (fun m => if m.consumed.contains seq then m else { m with consumed := m.consumed ++ [seq] })
  else s

/-- A write to `state`: 0 releases a DONE slot or withdraws a SEALED command; anything else is dropped. -/
def State.writeSlotState (s : State) (p k v : Nat) : State :=
  if v % 4 ≠ 0 then s.updPort p (MbxPort.setWriteDropped s.wall)
  else
    match (s.slot p k).st with
    | 0 => s
    | 1 => ((s.updSlot p k (fun m => { m with st := 0 })).consumeSeq p (s.slot p k).seq).settleSeq p
    | 3 => s.updSlot p k (fun m => { m with st := 0 })
    | _ => s.updPort p (MbxPort.setWriteDropped s.wall)

/-- A write to `req_len` or the payload: taken by an EMPTY slot, dropped with `write_dropped` while SEALED or ACCEPTED. -/
def State.writeOpenSlot (s : State) (p k : Nat) (f : MbxSlot → MbxSlot) : State :=
  match (s.slot p k).st with
  | 0 => s.updSlot p k f
  | 3 => s
  | _ => s.updPort p (MbxPort.setWriteDropped s.wall)

/-- The bytes of a write at `off` that fall into [lo, hi), as position and bytes; none when the write does not touch it. -/
def part (off : Nat) (bs : Bytes) (lo hi : Nat) : Option (Nat × Bytes) :=
  let a := max off lo
  let b := min (off + bs.length) hi
  if a < b then some (a - lo, (bs.drop (a - off)).take (b - a)) else none

/-- Bytes with a write laid over them from a position: byte enables leave the others as they were (R447). -/
def overlay (old : Bytes) (o : Nat) (b : Bytes) : Bytes := old.take o ++ b ++ old.drop (o + b.length)

/-- A write into one slot, its bytes landing in ascending order (R327, R328). -/
def State.writeSlot (s : State) (p k off : Nat) (bs : Bytes) : State :=
  let s := match part off bs 0 4 with
    | some (o, b) =>
      let w := leNat (overlay (natLE 2 (s.slot p k).seq.toNat ++ natLE 2 (s.slot p k).opcode.toNat) o b)
      s.writeSeal p k (BitVec.ofNat 16 w) (BitVec.ofNat 16 (w / 65536))
    | none => s
  let s := match part off bs 4 8 with
    | some (0, b) => s.writeSlotState p k (leNat b)
    | _ => s
  let s := match part off bs 8 12 with
    | some (o, b) => s.writeOpenSlot p k (fun m => { m with reqLen := leNat (overlay (natLE 4 m.reqLen) o b) })
    | none => s
  match part off bs 0x40 0x1000 with
  | some (o, b) => s.writeOpenSlot p k (fun m => { m with payload := Mem.writeBytes m.payload o b })
  | none => s

/-- A write into a bank by its own master. -/
def State.writeBank (s : State) (p off : Nat) (bs : Bytes) : State :=
  (List.range 64).foldl (fun s k =>
    match part off bs (k * 4096) (k * 4096 + 4096) with
    | some (o, b) => s.writeSlot p k o b
    | none => s) s

/-- A port's master reaches its bank (R326): a PCIe port that decodes, port 1 only under bifurcation (R18); the SMBus target while the
warmer runs; the cascade master of a formed cascade. -/
def State.masterReaches (s : State) (p : Nat) : Bool :=
  s.power.running &&
    (if p = 0 then s.pcieDecodes 0
     else if p = 1 then bitAt s.straps.toNat 0 && s.pcieDecodes 1
     else if p = 2 then s.warmerRuns
     else s.cascade.formed)

/-- MAILBOX_SEAL: the port's master writes the seal. -/
def execMailboxSeal (dt : Nat) (p : Port) (k : Slot) (seq opcode : W16) (s : State) : Result :=
  s.event dt (fun s => s.masterReaches p.val) (fun s => s.writeSeal p.val k.val seq opcode)

/-- SLOT_STATE_WRITE: the port's master writes `state`. -/
def execSlotStateWrite (dt : Nat) (p : Port) (k : Slot) (value : W32) (s : State) : Result :=
  s.event dt (fun s => s.masterReaches p.val) (fun s => s.writeSlotState p.val k.val value.toNat)

/-- The nearest waiting number of a port: the smallest distance ahead (R329). -/
def State.nearestWaiting (s : State) (p : Nat) : Option Nat :=
  (s.sealedSlots p).foldl (fun best k =>
    let g := s.seqGapOf p (s.slot p k).seq
    match best with
    | none => some g
    | some b => some (min b g)) none

/-- The gap has been waited out (R329). -/
def State.gapOver (s : State) (p : Nat) : Bool :=
  s.serves p && (match (s.port p).gapSince with | some t => decide (t + 100000000 ≤ s.time) | none => false)

/-- The firmware skips a sequence gap, sets `seq_gap` and logs SEQ_GAP (R329); a number consumed by withdrawal that `next_seq` reaches is
consumed even where a later seal holds it again. -/
def State.skipGap (s : State) (p : Nat) : State :=
  match s.nearestWaiting p with
  | none => s
  | some g =>
    let s := s.updPort p (fun m =>
      let n := m.nextSeq + BitVec.ofNat 16 g
      (skipConsumed (m.consumed.length + 1)
        { m with nextSeq := n, gapSince := none, consumed := m.consumed.filter (fun q => decide ((q - n).toNat < 64)) }).setSeqGap s.wall)
    (s.moduleEvent 2 0x0008 (logArg p 0) 0).settleSeq p

def execSeqGap (dt : Nat) (p : Port) (s : State) : Result := s.event dt (fun s => s.gapOver p.val) (fun s => s.skipGap p.val)

/-! ## Reads of a slot (R327, R328) -/

/-- The 64 header bytes of a slot. -/
def MbxSlot.header (m : MbxSlot) : Bytes :=
  natLE 2 m.seq.toNat ++ natLE 2 m.opcode.toNat ++ natLE 4 m.st ++ natLE 4 m.reqLen ++ zeros 4 ++ natLE 1 m.status ++
    natLE 1 m.stateNow ++ natLE 2 m.genNow ++ natLE 2 m.seqEcho.toNat ++ natLE 2 m.opEcho.toNat ++ natLE 4 m.respLen ++
    natLE 4 m.detail ++ natLE 8 m.tAccept ++ natLE 8 m.tDone ++ zeros 16

/-- A byte of a slot. In an ACCEPTED slot each payload byte is the request byte, 0 or the response byte, which is not
specified: a free value (log entry 7). -/
def MbxSlot.byte (m : MbxSlot) (tick o : Nat) : Byte :=
  if o < 0x40 then m.header.getD o 0
  else
    let b := Mem.read m.payload (o - 0x40)
    if m.st = 2 then
      match Config.freeAcceptedByte (tick + o) with
      | 0 => b
      | 1 => 0
      | n + 2 => BitVec.ofNat 8 n
    else b

/-- Bytes of a bank from an offset, and the state after the free values they draw. -/
def State.readBank (s : State) (p off n : Nat) : Bytes :=
  (List.range n).map (fun i => let a := (off + i) % 0x40000; (s.slot p (a / 4096)).byte s.freeTick (a % 4096))

/-! ## The SMBus target (R331, R449, R458) -/

def State.setBus (s : State) (d : Bytes) : State := { s with bus := { data := d, poisoned := false, nack := false } }
def State.nackBus (s : State) : State := { s with bus := { data := [], poisoned := false, nack := true } }

/-- A transaction with a wrong PEC is discarded whole and counts in `smb_pec` (R331). -/
def State.pecDiscard (s : State) : State := s.updPort 2 (MbxPort.setPec s.wall)

/-- MBX_OFFSET: a block write of 3 bytes sets the bank offset; [23:18] must be 0. Any other is refused (log entry 65). -/
def execMbxOffset (dt : Nat) (data : Bytes) (pecOk : Bool) (s : State) : Result :=
  s.event dt State.warmerRuns (fun s =>
    if !pecOk then s.pecDiscard
    else if data.length ≠ 3 ∨ 0x40000 ≤ leNat data then s.nackBus
    else { s with smbOffset := leNat data })

/-- MBX_WRITE: a block write of 1 to 32 bytes at the offset, which advances by the count; a count the command does
not take is refused (log entry 65). -/
def execMbxWrite (dt : Nat) (data : Bytes) (pecOk : Bool) (s : State) : Result :=
  s.event dt (fun s => s.warmerRuns && s.power.running) (fun s =>
    if !pecOk then s.pecDiscard
    else if data.length = 0 ∨ 32 < data.length then s.nackBus
    else { s.writeBank 2 s.smbOffset data with smbOffset := (s.smbOffset + data.length) % 0x40000 })

/-- MBX_READ: a block read of 32 bytes from the offset, which advances by 32. -/
def execMbxRead (dt : Nat) (s : State) : Result :=
  s.event dt (fun s => s.warmerRuns && s.power.running) (fun s =>
    { (s.setBus (s.readBank 2 s.smbOffset 32)) with smbOffset := (s.smbOffset + 32) % 0x40000, freeTick := s.freeTick + 4096 })

/-- ALERT_RESPONSE: the module answers while an alert is pending; every pending alert clears (R458). -/
def execAlertResponse (dt : Nat) (s : State) : Result :=
  s.event dt (fun s => s.board.aux && s.alertPending) (fun s =>
    { (s.setBus [Config.smbusAddress 0]) with alertPending := false })

/-! ## Device time and the event log (R349 to R351) -/

/-- Reading HUB_TIME_LO latches the upper half. -/
def execTimeLoRead (dt : Nat) (s : State) : Result :=
  s.event dt (fun s => s.power.running) (fun s =>
    { (s.setBus (natLE 4 s.time)) with log := { s.log with timeHi := BitVec.ofNat 32 (s.time / 2 ^ 32) } })

/-- Reading HUB_LOG_NEXT_LO latches the upper half. -/
def execLogNextLoRead (dt : Nat) (s : State) : Result :=
  s.event dt (fun s => s.power.running) (fun s =>
    { (s.setBus (natLE 4 s.log.next)) with log := { s.log with nextHi := BitVec.ofNat 32 (s.log.next / 2 ^ 32) } })

/-- Sort order of the log: time, then die index, then the die's own order (R350). -/
def LogEntry.before (a b : LogEntry) : Bool :=
  decide (a.t < b.t) || (decide (a.t = b.t) && (decide (a.die < b.die) || (decide (a.die = b.die) && decide (a.index < b.index))))

/-- The first pending event in the log's order. -/
def firstPending : List LogEntry → Option LogEntry
  | [] => none
  | e :: es =>
    match firstPending es with
    | none => some e
    | some f => if f.before e then some f else some e

/-- Every die not fenced has reported progress past a time; a die powered off by POWER reports nothing and is not waited for. -/
def State.progressPast (s : State) (t : Nat) : Bool :=
  (List.range 32).all (fun i => s.dieFenced i || (s.die i).off || decide (t < (s.die i).progress))

/-- The first pending event may be committed: the system region is ready (R424) and every die has reported past it (R350). -/
def State.commitReady (s : State) : Bool :=
  s.power.running && (decide (s.boot.stage = 3) || decide (s.boot.stage = 4)) &&
    (match firstPending s.log.pending with | some e => s.progressPast e.t | none => false)

/-- Capacity of the log (R351). -/
def logCapacity : Nat := 65536

/-- Commits the first pending event: it takes the next index; the oldest entry gives way in a full log; severity 2 or above
raises vector 1 (R332, R350, R351). -/
def State.commitEvent (s : State) : State :=
  match firstPending s.log.pending with
  | none => s
  | some e =>
    let es := s.log.entries ++ [{ e with index := s.log.next }]
    let t := { s with log := { s.log with
      pending := s.log.pending.erase e, entries := es.drop (es.length - logCapacity), next := s.log.next + 1 } }
    if 2 ≤ e.severity then t.vector1 else t

def execEventCommit (dt : Nat) (s : State) : Result := s.event dt State.commitReady State.commitEvent

/-- A die reports its progress (R350); one that does not work reports nothing. -/
def execDieProgressReport (dt : Nat) (d : DieIx) (s : State) : Result :=
  s.event dt (fun s => s.power.running && s.dieRuns d.val) (fun s =>
    s.updDie d.val (fun x => { x with progress := s.time }))

/-- A log entry as EVENT_READ returns it (R351). -/
def LogEntry.bytes (e : LogEntry) : Bytes :=
  natLE 8 e.t ++ natLE 8 e.index ++ natLE 1 e.die ++ natLE 1 e.severity ++ natLE 2 e.code ++ natLE 4 e.arg.toNat ++
    natLE 8 e.info.toNat

/-- EVENT_READ's response (R351): S is the later of the first index asked for and the oldest held. -/
def State.eventReadResp (s : State) (first count : Nat) : Bytes :=
  let oldest := s.log.next - logCapacity
  let start := max first oldest
  let got := min count (s.log.next - start)
  natLE 8 (start - first) ++ natLE 2 got ++ zeros 6 ++
    ((s.log.entries.filter (fun e => decide (start ≤ e.index) && decide (e.index < start + got))).flatMap LogEntry.bytes)

def execEventRead (dt : Nat) (p : Port) (k : Slot) (s : State) : Result :=
  s.mailboxRow dt p k (isOpcode 0x08) (fun s req =>
    s.checked p.val k.val
      [(s.shortReq p.val k.val 12, refusal stBadArg 8),
       (decide (leAt req 8 2 < 1) || decide (125 < leAt req 8 2), refusal stBadArg 8), reservedAt req 10 2, tailZero req 12]
      (fun s => s.answer p.val k.val { resp := s.eventReadResp (leAt req 0 8) (leAt req 8 2) }))

end Sys2Proof.Machine
end

