-- ==== Sys2Proof/Machine/Pcie.lean ====
section
/-! DEFINITION. The PCIe ports: resets, training, power states, configuration, BAR2 and the MSI-X table (R330, R353 to R362,
R446, R455, R459). -/

namespace Sys2Proof.Machine

/-! ## Port resets (R330, R360) -/

/-- What a port reset does to the port's mailbox slots: SEALED ones empty unexecuted, ACCEPTED ones complete unsignalled. -/
def State.resetSlots (s : State) (p : Nat) : State :=
  (List.range 64).foldl (fun s k =>
    match (s.slot p k).st with
    | 1 => s.updSlot p k (fun m => { m with st := 0 })
    | 2 => s.updSlot p k (fun m => { m with signal := false })
    | _ => s) s

/-- The owner's port is reset: an owner whose lease has run out was lost at its deadline (R344), a live one is lost now (R330). -/
def State.losePortOwner (s : State) : State := if s.leaseOver then s.expireLease else s.loseOwner 6

/-- PERST_N, FLR or a surprise link down on a running module: slots, sequence number and ownership of the port, its
configuration and MSI-X state; `link_lost` and PCIE_LINK_LOST (R330, R360, R361, R388, R459). -/
def State.portReset (s : State) (p : Nat) : State :=
  let s := s.resetSlots p
  let s := s.updPort p (fun m => { m with nextSeq := 0, consumed := [], gapSince := none })
  let s := s.updPcie p (fun ps => { linkLost := Flag.raise s.wall, bar2Hole := ps.bar2Hole, linkResets := (ps.linkResets + 1) % 65536,
                                    winGib := ps.winGib, sent := ps.sent })
  let s := if s.owner.owned && decide (s.owner.port = p) then s.losePortOwner else s
  s.moduleEvent 1 0x0015 (logArg p 0) 0

/-- Port 1 exists only when the straps make two ports (R18). -/
def State.portPresent (s : State) (p : Nat) : Bool := decide (p = 0) || bitAt s.straps.toNat 0

def State.perstHigh (s : State) (p : Nat) : Bool := if p = 0 then s.board.perst0N else s.board.perst1N

def State.setPerst (s : State) (p : Nat) (v : Bool) : State :=
  { s with board := if p = 0 then { s.board with perst0N := v } else { s.board with perst1N := v } }

/-- The port may train: module running, controllers ready, PERST_N high (R353). -/
def State.mayTrain (s : State) (p : Nat) : Bool :=
  s.power.running && s.boot.pcieReady && s.perstHigh p && s.portPresent p

/-- Starts training where it is allowed. -/
def State.startTraining (s : State) (p : Nat) : State :=
  if s.mayTrain p && !(s.pciePort p).linkUp then s.updPcie p (fun ps => { ps with training := true }) else s

/-- PERST_ASSERT: the pin goes low; in reset or standby it is ignored (R15), running it resets the port. -/
def execPerstAssert (dt : Nat) (p : PciePort) (s : State) : Result :=
  s.event dt (fun s => s.board.aux && s.perstHigh p.val) (fun s =>
    let t := s.setPerst p.val false
    if s.power.running && s.portPresent p.val then t.portReset p.val else t)

/-- PERST_RELEASE: the port detects and trains once the controllers are ready. -/
def execPerstRelease (dt : Nat) (p : PciePort) (s : State) : Result :=
  s.event dt (fun s => s.board.aux && !s.perstHigh p.val) (fun s => (s.setPerst p.val true).startTraining p.val)

/-- PCIE_CONTROLLERS_READY: 20 ms after the rising edge of MOD_RESET_N (R353). -/
def execPcieControllersReady (dt : Nat) (s : State) : Result :=
  s.event dt (fun s => s.power.running && !s.boot.pcieReady && decide (20000000 ≤ s.time)) (fun s =>
    (({ s with boot := { s.boot with pcieReady := true } }).startTraining 0).startTraining 1)

/-- Widths a port can train to (R354). -/
def State.widthLegal (s : State) (w : Nat) : Bool :=
  [1, 2, 4, 8].contains w || (decide (w = 16) && !bitAt s.straps.toNat 0)

/-- PCIE_LINK_UP: training completes at a legal width and rate (R354, R361); at 64 GT/s the port uses FLIT mode. -/
def execPcieLinkUp (dt : Nat) (p : PciePort) (width : Fin 17) (rate : Fin 7) (flit : Bool) (s : State) : Result :=
  s.event dt (fun s => s.mayTrain p.val && (s.pciePort p.val).training && s.widthLegal width.val && decide (1 ≤ rate.val)) (fun s =>
    s.updPcie p.val (fun ps => { ps with linkUp := true, training := false, width := width.val, rate := rate.val,
                                         flit := flit || decide (rate.val = 6) }))

/-- FLR: the effect of PERST_N on that port; the link stays trained (R360). -/
def execFlr (dt : Nat) (p : PciePort) (s : State) : Result :=
  s.event dt (fun s => s.power.running && (s.pciePort p.val).linkUp) (fun s =>
    let old := s.pciePort p.val
    (s.portReset p.val).updPcie p.val (fun ps => { ps with linkUp := true, width := old.width, rate := old.rate, flit := old.flit }))

/-- SURPRISE_LINK_DOWN: the effect of PERST_N on that port, which retrains at once (R360). -/
def execSurpriseLinkDown (dt : Nat) (p : PciePort) (s : State) : Result :=
  s.event dt (fun s => s.power.running && (s.pciePort p.val).linkUp && s.perstHigh p.val) (fun s =>
    (s.portReset p.val).startTraining p.val)

/-! ## Identity (R355) -/

/-- The configuration identity of every port's one function, as a host reads it. -/
structure PcieIdentity where
  vendor : W16 := 0x1F6D
  device : W16 := 0x4E32
  classCode : BitVec 24 := 0x120000
  subVendor : W16 := 0x1F6D
  subsystem : W16 := 0x0096
  revision : Byte := 0x01
  serial : Bytes := []
  deriving DecidableEq, Repr

/-- The device serial number: the first 8 bytes of SHAKE256 over the identity public key (R355, R438). -/
def State.pcieIdentity (s : State) : PcieIdentity := { serial := shake256 s.fuses.identityPub 8 }

/-! ## MSI-X (R332, R355, R360) -/

/-- Raises every pending vector that is neither masked nor held by D3hot or a clear Bus Master Enable. -/
def State.firePending (s : State) (p : Nat) : State :=
  let ps := s.pciePort p
  if ps.d3hot || !ps.busMaster || !ps.linkUp then s
  else
    let go := ps.pending.filter (fun v => !ps.vectorMasked v)
    s.updPcie p (fun x => { x with pending := x.pending.filter (fun v => !go.contains v),
                                   sent := go.foldl (fun t v => Tab.upd 0 t v (· + 1)) x.sent })

/-- Reset contents of an MSI-X table byte: bit 0 of the vector control word masks the vector. -/
def msixReset (o : Nat) : Byte := if o % 16 = 12 then 1 else 0

/-- A write to the port's own MSI-X table: byte 12 of an entry holds the mask, of which the table keeps the complement. -/
def State.writeMsix (s : State) (p off : Nat) (bs : Bytes) : State :=
  let stored := (List.range bs.length).map (fun i => (bs.getD i 0) ^^^ msixReset (off + i))
  (s.updPcie p (fun ps => { ps with msixTable := Mem.writeBytes ps.msixTable off stored })).firePending p

/-- A read of the MSI-X table. -/
def PcieState.readMsix (ps : PcieState) (off n : Nat) : Bytes :=
  (List.range n).map (fun i => Mem.read ps.msixTable (off + i) ^^^ msixReset (off + i))

/-- PM_STATE_WRITE: D0 and D3hot; on the return to D0 pending vectors are raised (R360). -/
def execPmStateWrite (dt : Nat) (p : PciePort) (d3hot : Bool) (s : State) : Result :=
  s.event dt (fun s => (s.pciePort p.val).linkUp) (fun s =>
    (s.updPcie p.val (fun ps => { ps with d3hot := d3hot })).firePending p.val)

/-- BAR2 sizes are powers of two from 1 to 128 GiB (R356). -/
def bar2SizeLegal (g : Nat) : Bool := [1, 2, 4, 8, 16, 32, 64, 128].contains g

/-- CONFIGURATION_WRITE: the configuration bits the device's rules read (R356, R358). An illegal size is not taken. -/
def PcieState.configure (ps : PcieState) : CfgWrite → PcieState
  | .busMaster on => { ps with busMaster := on }
  | .relaxedOrdering on => { ps with relaxed := on }
  | .maxPayload b => if [128, 256, 512].contains b then { ps with maxPayload := b } else ps
  | .maxReadRequest b => if [128, 256, 512, 1024, 2048, 4096].contains b then { ps with maxReadRequest := b } else ps
  | .bar2Size g => if bar2SizeLegal g then { ps with bar2Gib := g } else ps
  | .tenBitTags on => { ps with tenBitTags := on }

def execConfigurationWrite (dt : Nat) (p : PciePort) (w : CfgWrite) (s : State) : Result :=
  s.event dt (fun s => (s.pciePort p.val).linkUp) (fun s =>
    (s.updPcie p.val (fun ps => ps.configure w)).firePending p.val)

/-! ## BAR2 (R356, R357, R362, R455) -/

/-- GDDR7 offset of a BAR2 offset: the window aligned to the BAR's size (R362). -/
def PcieState.bar2Target (ps : PcieState) (o : Nat) : Nat := (ps.winGib / ps.bar2Gib * ps.bar2Gib) * gib + o

/-- BAR2 reaches sub-pool bytes of a memory die in service, once GDDR7 is trained; everything else is a hole. -/
def State.bar2Serves (s : State) (a n : Nat) : Bool :=
  s.gddrServes a && inSubPool a && (decide (n = 0) || inSubPool (a + n - 1)) && decide (gddrDie a = gddrDie (a + (n - 1)))

def State.bar2Hole (s : State) (p : Nat) : State := s.updPcie p (fun ps => { ps with bar2Hole := Flag.raise s.wall })

/-- The 64-byte words a range touches are in the poison list. -/
def State.poisonedRange (s : State) (a n : Nat) : Bool :=
  (s.poisonList (gddrDie a)).any (fun w => decide (w * 64 < a + n) && decide (a < w * 64 + 64))

/-- An uncorrectable event against a memory die; the third within 60 s fences it (R28, R370, R371). -/
def State.uncorrectable (s : State) (md ch : Nat) : State :=
  let s := s.updChannel md ch (fun c => { c with uncorrectable := min 0xFF (c.uncorrectable + 1) })
  let s := s.updDie (memDieIx md) (fun d => { d with
    eccTimes := d.eccTimes.filter (fun t => decide (s.time < t + 60000000000)) ++ [s.time] })
  if 3 ≤ (s.die (memDieIx md)).eccTimes.length then s.fence (memDieIx md) 2 else s

/-- BAR2_READ: data, zeros from a hole, or poisoned data that counts as one uncorrectable event (R357). -/
def execBar2Read (dt : Nat) (p : PciePort) (offset : Nat) (len : Fin 65) (s : State) : Result :=
  s.event dt (fun s => s.pcieDecodes p.val && decide (offset + len.val ≤ (s.pciePort p.val).bar2Gib * gib)) (fun s =>
    let a := (s.pciePort p.val).bar2Target offset
    if !s.bar2Serves a len.val then (s.bar2Hole p.val).setBus (zeros len.val)
    else
      let d := Mem.readBytes s.memory.gddr a len.val
      if s.poisonedRange a len.val then
        { s.uncorrectable (gddrDie a) (gddrChannelOf a) with bus := { data := d, poisoned := true } }
      else s.setBus d)

/-- BAR2_WRITE: lands in GDDR7, or is dropped in a hole; rings take up the space that `consumed` frees (R333, R357). -/
def execBar2Write (dt : Nat) (p : PciePort) (offset : Nat) (data : Bytes) (s : State) : Result :=
  s.event dt (fun s => decide (1 ≤ data.length) && s.pcieDecodes p.val && decide (offset + data.length ≤ (s.pciePort p.val).bar2Gib * gib)) (fun s =>
    let a := (s.pciePort p.val).bar2Target offset
    if !s.bar2Serves a data.length then s.bar2Hole p.val
    else (s.gddrWrite a data).flushRings)

/-! ## Registers (R361, R362) -/

/-- HUB_PCIE_STATUS_p. -/
def PcieState.status (ps : PcieState) : Nat :=
  b2n ps.linkUp + 2 * ps.width + 64 * ps.rate + 512 * b2n ps.flit + 1024 * b2n ps.busMaster + 2048 * b2n ps.d3hot +
    4096 * b2n ps.linkLost.isSet + 8192 * b2n ps.bar2Hole.isSet + 65536 * ps.linkResets

end Sys2Proof.Machine
end

