-- ==== Sys2Proof/Machine/Routes.lean ====
section
/-! DEFINITION. Routes over the cascade, and the loss of a cascade port (R324, R379, R386). -/

namespace Sys2Proof.Machine

/-- Lowest or highest set bit among the three rank bits. -/
def lowBit (x : Nat) : Nat := if bitAt x 0 then 0 else if bitAt x 1 then 1 else 2
def highBit (x : Nat) : Nat := if bitAt x 2 then 2 else if bitAt x 1 then 1 else 0

/-- The port whose usable link leads to a rank. -/
def State.portTo (s : State) (r : Nat) : Option Nat :=
  (List.range 4).find? (fun q =>
    let p := s.cascadePort q
    p.up && !p.miswired && !p.rankConflict && decide (p.peerRank = r))

/-- Ranks at the far end of this device's usable links, ascending. -/
def State.peers (s : State) : List Nat := (List.range 8).filter (fun r => (s.portTo r).isSome)

def State.memberRank (s : State) (r : Nat) : Bool := s.cascade.members.getLsbD r

/-- The ranks a cube route passes, the destination last: the differing bits are flipped in the order that `pick` gives. -/
def cubePath (pick : Nat → Nat) (r : Nat) : Nat → Nat → List Nat
  | 0, _ => []
  | n + 1, a => if a = r then [] else (a ^^^ 2 ^ pick (a ^^^ r)) :: cubePath pick r n (a ^^^ 2 ^ pick (a ^^^ r))

/-- The port of a cube route whose intermediate ranks are all members and whose first link is usable. -/
def State.cubeHop (s : State) (pick : Nat → Nat) (r : Nat) : Option Nat :=
  let path := cubePath pick r 3 s.rank
  if path.dropLast.all s.memberRank then path.head?.bind s.portTo else none

/-- First hop towards a rank and the VC set it takes (R379). Of the links this device sees its own. -/
def State.nextHop (s : State) (r : Nat) : Option (Nat × Bool) :=
  if s.cascade.cube then
    match s.cubeHop lowBit r with
    | some q => some (q, false)
    | none => (s.cubeHop highBit r).map (fun q => (q, true))
  else
    match s.portTo r with
    | some q => some (q, false)
    | none => (s.peers.find? (fun i => decide (i ≠ r))).bind (fun i => (s.portTo i).map (fun q => (q, true)))

/-- The next hop of a flit on its way: in a cube, one on set 1 goes on in descending order. -/
def State.relayHop (s : State) (f : Flit) : Option (Nat × Bool) :=
  if s.cascade.cube && f.vcSet then (s.cubeHop highBit f.dstRank.val).map (fun q => (q, true)) else s.nextHop f.dstRank.val

/-- A cascade port is lost (R386). -/
def State.loseCascadePort (s : State) (q : Nat) : State :=
  let s := s.updCascadePort q (fun p => { p with up := false, lost := Flag.raise s.wall, replayBuf := [], outQ := [], waiting := [], credits := [],
                                                 attempts := 0, lostAt := s.time })
  s.moduleEvent 3 0x0012 (logArg q 0) 0

/-- Ranks whose route leaves through a port. -/
def State.ranksBeyond (s : State) (q : Nat) : List Nat :=
  (List.range 8).filter (fun r => decide (r ≠ s.rank) && s.memberRank r && decide ((s.nextHop r).map (·.1) = some q))

/-- A port is lost: in-flight flits are lost, LINK_LOST is logged, and for every session with traffic on the link the resources
beyond it count as fenced (R324, R386). -/
def State.loseLink (s : State) (q : Nat) : State :=
  let beyond := s.ranksBeyond q
  let s := (s.settleRecuts (.ranks beyond)).loseCascadePort q
  (s.applyLoss (.ranks beyond) 1 0xFF).1

end Sys2Proof.Machine
end

