-- ==== Sys2Proof/Machine/Power.lean ====
section
/-! DEFINITION. Supplies, resets, REFCLK, rails, PLLs, the TAP, die faults and the POWER commands (R15 to R20, R26 to R31, R389 to
R407, R424, R426). -/

namespace Sys2Proof.Machine

/-! ## The calibration record in effect (R414 to R416) -/

def calBytes (cal : Mem) : Bytes := Mem.readBytes cal 0 3520

/-- `check` of R414: SHAKE256 over the record with its own field zeroed. -/
def calCheck (rec : Bytes) : Bytes := shake256 (rec.take 0x20 ++ zeros 32 ++ rec.drop 0x40) 32

/-- The stored record is valid (R416). -/
def Flash.calValid (f : Flash) : Bool :=
  let r := calBytes f.cal
  !f.calTorn && decide (leAt r 0 4 = 0x52434A4F) && decide (leAt r 6 2 = 3520) && decide (slice r 0x20 32 = calCheck r)

/-- A thermal sensor's offset in 1/64 °C, 0 under an invalid record. -/
def State.sensorOffset (s : State) (i : Nat) : Int :=
  if s.boot.calInvalid then 0 else signed 16 (leNat (Mem.readBytes s.boot.cal (0x40 + 2 * i) 2))

/-- Under an invalid record every threshold is lowered by 8 °C (R416): the amount in 1/16 °C. -/
def State.derate (s : State) : Int := if s.boot.calInvalid then 128 else 0

/-! ## Supplies and rails (R399 to R403) -/

/-- 54 V within 48 to 58 V. -/
def supplyGood (mv10 : Nat) : Bool := decide (4800 ≤ mv10) && decide (mv10 ≤ 5800)

/-- The warmer may power the rails (R401). -/
def State.railConditions (s : State) : Bool :=
  s.board.aux && s.clocks.refclkOk && supplyGood s.board.v54 && !s.board.v54Removed && !s.power.standby && !s.thermal.tripLatched.isSet

/-- A rail that only one die uses: its failure takes that die (R402); every other rail is shared. -/
def railDie : Rail → Option Nat
  | .md n => some (memDieIx n.val)
  | .sd n => some (streamDieIx n.val)
  | .cd n => some n.val
  | .ld => some linkDie
  | _ => none

/-- Everything auxiliary power carries is gone; the board's pins, the flash and the fuses remain. -/
def State.unpowered (s : State) (aux : Bool) : State :=
  let t := s.loseVolatile
  { pending := t.pending, wall := t.wall, board := { t.board with aux := aux }, flash := t.flash, fuses := t.fuses
    memory := t.memory, bus := t.bus, freeTick := t.freeTick, boot := { calInvalid := !t.flash.calValid, cal := t.flash.cal } }

/-- AUX_POWER_ON: every register, the sticky ones included, at its reset value; the record is checked (R416, R426). -/
def execAuxPowerOn (dt : Nat) (s : State) : Result := s.event dt (fun s => !s.board.aux) (fun s => s.unpowered true)

/-- AUX_POWER_OFF: the module is unpowered; alerts and the trip latch clear (R15, R411, R458). -/
def execAuxPowerOff (dt : Nat) (s : State) : Result := s.event dt (fun s => s.board.aux) (fun s => s.unpowered false)

def State.setV54 (s : State) (mv10 : Nat) : State := { s with board := { s.board with v54 := mv10 } }

/-- A supply fault: every rail off with reason SUPPLY_FAULT, when the rails are up (R402). -/
def State.supplyFault (s : State) : State := if s.power.railsOn then s.railsOff stopSupplyFault else s

/-- SUPPLY_54V_REMOVED: below 45 V for 10 ms; ends module standby (R403). -/
def execSupply54vRemoved (dt mv10 : Nat) (s : State) : Result :=
  s.event dt (fun _ => decide (mv10 < 4500)) (fun s =>
    let t := (s.setV54 mv10).supplyFault
    { t with board := { t.board with v54Removed := true }, power := { t.power with standby := false } })

/-- SUPPLY_54V_RESTORED: 54 V re-enters 48 to 58 V (R403). -/
def execSupply54vRestored (dt mv10 : Nat) (s : State) : Result :=
  s.event dt (fun _ => supplyGood mv10) (fun s =>
    let t := s.setV54 mv10
    { t with board := { t.board with v54Removed := false } })

/-- A rail sequence (R401, R402): a shared rail that fails turns every rail off with reason RAIL_FAULT, and one retry follows
after 1 s; a die's own rail that fails is turned off and its die will be fenced from boot; otherwise PWR_GOOD rises. -/
def State.sequenceRails (s : State) (failing : List Rail) : State :=
  if failing.any (fun r => (railDie r).isNone) then
    let t := s.railsOff stopRailFault
    { t with power := { t.power with railTry := t.power.railTry + 1, railRetryAt := t.wall + 1000000000 } }
  else
    { s with power := { s.power with railsOn := true, pwrGood := true, railTry := 0, dieRailOff := failing.filterMap railDie } }

/-- RAIL_SEQUENCE: all power conditions hold and no earlier failure waits for its retry. -/
def execRailSequence (dt : Nat) (failing : List Rail) (s : State) : Result :=
  s.event dt (fun s => s.railConditions && !s.power.railsOn && decide (s.power.railTry = 0)) (fun s => s.sequenceRails failing)

/-- RAIL_SEQUENCE_RETRY: one retry, 1 s after a failed sequence; after a second failure the rails stay off (R402). -/
def execRailSequenceRetry (dt : Nat) (failing : List Rail) (s : State) : Result :=
  s.event dt (fun s => s.railConditions && !s.power.railsOn && decide (s.power.railTry = 1) && decide (s.power.railRetryAt ≤ s.wall))
    (fun s => s.sequenceRails failing)

/-- RAIL_FAULT in service (R402): a die's own rail is turned off and its watchdog will fence it; a shared rail takes every rail
off with reason RAIL_FAULT. -/
def execRailFault (dt : Nat) (rail : Rail) (s : State) : Result :=
  s.event dt (fun s => s.power.railsOn) (fun s =>
    match railDie rail with
    | some d => { s with power := { s.power with dieRailOff := if s.power.dieRailOff.contains d then s.power.dieRailOff
                                                              else s.power.dieRailOff ++ [d] } }
    | none =>
      let t := s.railsOff stopRailFault
      { t with power := { t.power with railTry := 1, railRetryAt := t.wall + 1000000000 } })

/-- SUPPLY_WARN: outside 48 to 58 V for more than 1 ms but within 45 to 60 V; logged, and the module runs on (R402). -/
def execSupplyWarn (dt mv10 : Nat) (s : State) : Result :=
  s.event dt (fun s => s.power.railsOn && !supplyGood mv10 && decide (4500 ≤ mv10) && decide (mv10 ≤ 6000)) (fun s =>
    let t := s.setV54 mv10
    let t := { t with power := { t.power with inputMv10 := mv10 } }
    if t.power.running then t.moduleEvent 2 0x0024 0 mv10 else t)

/-- SUPPLY_FAULT: outside 45 to 60 V, or outside 48 to 58 V for more than 100 ms (R402). -/
def execSupplyFault (dt mv10 : Nat) (s : State) : Result :=
  s.event dt (fun _ => !supplyGood mv10) (fun s => (s.setV54 mv10).supplyFault)

/-! ## Module reset and boot (R17, R18, R394, R424, R426) -/

/-- What a module reset leaves: the coolant registers too read their reset values until the next reading (R412). -/
def State.moduleResetState (s : State) : State :=
  let t := s.loseVolatile
  { t with thermal := { t.thermal with inlet := -32768, outlet := -32768 } }

/-- MODULE_RESET: MOD_RESET_N goes low. A running module is reset with reason MODULE_RESET; one that had stopped keeps its
reason (R426); in standby only the pin changes (R15). -/
def execModuleReset (dt : Nat) (s : State) : Result :=
  s.event dt (fun s => s.board.aux) (fun s =>
    let t := { s with board := { s.board with modResetN := false } }
    if t.power.running then t.moduleResetState.recordStop stopModuleReset 0
    else if t.power.railsOn then t.moduleResetState else t)

/-- Device time at which a PLL first starts (R394). -/
def pllStart (d : Nat) : Nat :=
  if (48 ≤ d ∧ d ≤ 52) ∨ d = 59 then 1000
  else if (54 ≤ d ∧ d ≤ 58) ∨ (30 ≤ d ∧ d ≤ 47) then 60000
  else if 24 ≤ d ∧ d ≤ 29 then 120000
  else 180000 + d / 6 * 50000

/-- The 59 domains with a PLL: every one but the warmer's 53 (R393). -/
def pllDomains : List Nat := (List.range 60).filter (· ≠ 53)

def startedPlls : Tab Pll := pllDomains.map (fun d => (d, { running := true, starts := 1, startedAt := pllStart d }))

/-- BOOT: a rising edge of MOD_RESET_N. With PWR_GOOD low it is ignored (R17). Accepted, it latches the straps, starts device
time at 0 and the PLLs, counts a boot, and fences from boot every die whose own rail did not settle (R402). -/
def execBoot (dt : Nat) (straps : BitVec 4) (s : State) : Result :=
  s.event dt (fun s => s.board.aux && !s.board.modResetN) (fun s =>
    let t := { s with board := { s.board with modResetN := true, straps := straps } }
    if !(t.power.pwrGood && t.clocks.refclkOk) then t
    else
      let t := t.loseVolatile
      let t := { t with
        time := 0, straps := straps, power := { t.power with running := true }, clocks := { t.clocks with plls := startedPlls }
        boot := { t.boot with boots := (t.boot.boots + 1) % 65536, calInvalid := !t.flash.calValid, cal := t.flash.cal } }
      t.power.dieRailOff.foldl (fun s d => s.fence d 6) t)

/-! ## The boot ROM's first steps (R423, R424, R435) -/

/-- HUB_FUSE_STATUS (R444). -/
def State.hubFuseStatus (s : State) : Nat :=
  s.fuses.svnFused + 128 * b2n s.fuses.debugLocked + 256 * s.fuses.fwRevoked.toNat +
    65536 * ((List.range 8).map (fun i => if (Tab.get [] s.fuses.modelKeys i).isEmpty then 0 else 2 ^ i)).sum +
    2 ^ 24 * s.fuses.modelRevoked.toNat

def State.mr (s : State) (i : Nat) : Bytes := Tab.get (zeros 64) s.security.mrs i

/-- Extends a measurement register and appends to the log while it holds fewer than 4,096 entries (R435, R436). -/
def State.extendMr (s : State) (mr source : Nat) (info : Nat) (v : Bytes) : State :=
  let e : MeasEntry := { mr := mr, source := source, index := s.security.extended, info := BitVec.ofNat 64 info, v := v }
  { s with security := { s.security with
      mrs := Tab.set (zeros 64) s.security.mrs mr (shake256 (s.mr mr ++ v) 64)
      log := if s.security.log.length < 4096 then s.security.log ++ [e] else s.security.log
      extended := s.security.extended + 1 } }

/-- The fused hash of a key slot, zero where blank. -/
def fusedHash (t : Tab Bytes) (i : Nat) : Bytes := slice (Tab.get [] t i) 0 32

/-- MR0 (R435). -/
def State.measureRom (s : State) : State :=
  let ver := natLE 4 (Config.romVersion 0).toNat
  let st := natLE 4 s.hubFuseStatus
  let keys := (List.range 4).flatMap (fusedHash s.fuses.fwKeys) ++ (List.range 8).flatMap (fusedHash s.fuses.modelKeys)
  s.extendMr 0 0 (leNat (ver ++ st)) (shake256 (ver ++ st ++ keys) 64)

/-- The boot ROM starts: it measures itself, reads the boot control block, clears `trial` in flash when it was set and picks the
slot to try (R423, R424). -/
def State.romStart (s : State) : State :=
  let s := s.measureRom
  let trial := s.flash.trial
  let slot := if trial then 1 - s.flash.preferred else s.flash.preferred
  { s with flash := { s.flash with trial := false }, boot := { s.boot with trying := some slot, trial := trial, slot := slot } }

/-- The PLLs the ROM needs. -/
def hubDomains : List Nat := [48, 49, 50, 51, 52, 59]

/-- The ROM may start: every hub PLL stable, nothing tried yet in this boot. -/
def State.romReady (s : State) : Bool :=
  s.power.running && decide (s.boot.stage = 0) && s.boot.trying.isNone && decide (s.security.extended = 0) &&
    hubDomains.all (fun d => (s.pll d).stable)

/-! ## PLL judgement (R392 to R396) -/

/-- Expected count N in 1/256 count, stable tolerance and lost tolerance of a domain (R393). -/
def pllLimits (d : Nat) : Nat × Nat × Nat :=
  if (24 ≤ d ∧ d ≤ 29) ∨ (34 ≤ d ∧ d ≤ 37) ∨ d = 59 then (2018509, 3, 16)
  else if (30 ≤ d ∧ d ≤ 33) ∨ (38 ≤ d ∧ d ≤ 41) ∨ d = 44 ∨ d = 47 ∨ (49 ≤ d ∧ d ≤ 51) then (1310720, 2, 11)
  else if d = 48 then (1572864, 3, 13)
  else if d = 52 then (1048576, 2, 9)
  else if 54 ≤ d ∧ d ≤ 57 then (1740800, 3, 14)
  else if d = 53 then (0, 0, 0)
  else (1966080, 3, 16)

/-- The limits in effect: the calibration record's clock monitor windows, or R393's values under an invalid record. -/
def State.limitsOf (s : State) (d : Nat) : Nat × Nat × Nat :=
  if s.boot.calInvalid then pllLimits d
  else
    let at_ (o n : Nat) := leNat (Mem.readBytes s.boot.cal (0x3C0 + 8 * d + o) n)
    (at_ 0 4, at_ 4 2, at_ 6 2)

/-- Distance of a count from the expected one, in 1/256 count. -/
def countError (count256 n256 : Nat) : Nat := if count256 ≤ n256 then n256 - count256 else count256 - n256

/-- A PLL is judged lost or failed: gated until the next module reset, PLL_LOST logged, HUB_CLK_STATUS set (R395, R396, R417). -/
def State.pllDead (s : State) (d : Nat) : State :=
  let s := s.updPll d (fun p => { p with running := false, stable := false, good := 0, lost := true })
  let s := { s with clocks := { s.clocks with pllLost := Flag.raise s.wall, lostDomain := d, clockEvents := (s.clocks.clockEvents + 1) % 65536 } }
  s.moduleEvent 3 0x0020 (logArg d 0) 0

/-- The consequence of a PLL lost in service that follows at once; the others take their course through the watchdogs and the
fabric (R395). -/
def State.pllLossEffect (s : State) (d : Nat) : State :=
  if hubDomains.contains d then s.hubFault 4
  else if 54 ≤ d ∧ d ≤ 57 then s.loseLink (d - 54)
  else s

/-- The consequence of a PLL that failed to start, applied from boot (R394): a die fenced from boot, or for a hub domain a boot
that fails with reason PLL_FAIL. -/
def State.pllFailEffect (s : State) (d : Nat) : State :=
  if hubDomains.contains d then
    let t := s.loseVolatile.recordStop stopPllFail 0
    t
  else if d < 24 then s.fence d 6
  else if d < 30 then [d - 24, d - 18, d - 12, d - 6].foldl (fun s c => s.fence c 6) s
  else if d < 42 then s.fence (memDieIx ((d - 30) % 4)) 6
  else if d < 48 then s.fence (streamDieIx ((d - 42) / 3)) 6
  else if d = 58 then s.fence linkDie 6
  else s.loseLink (d - 54)

/-- What one window of 1,024 REFCLK cycles does to a PLL (R392): stable after four consecutive windows within the stable limit;
a window outside it restarts the count; a stable PLL is lost beyond the lost limit. -/
def Pll.window (p : Pll) (err stableTol : Nat) : Pll :=
  if err ≤ 256 * stableTol then
    { p with good := min 4 (p.good + 1), stable := p.stable || decide (4 ≤ p.good + 1) }
  else { p with good := 0 }

/-- A running PLL is judged while the module runs, from its start on. -/
def State.pllCounting (s : State) (d : Nat) : Bool :=
  s.power.running && (s.pll d).running && decide ((s.pll d).startedAt ≤ s.time)

/-- PLL_WINDOW: the end of a window. When it makes the last hub PLL stable the boot ROM starts. -/
def execPllWindow (dt : Nat) (domain : Fin 60) (count256 : Nat) (s : State) : Result :=
  s.event dt (fun s => s.pllCounting domain.val) (fun s =>
    let d := domain.val
    let (n, st, lo) := s.limitsOf d
    let err := countError count256 n
    if (s.pll d).stable && decide (256 * lo < err) then (s.pllDead d).pllLossEffect d
    else
      let t := s.updPll d (fun p => p.window err st)
      if t.romReady then t.romStart else t)

/-- PLL_START_TIMEOUT: not stable 500 µs after a start; up to three starts, then failed (R394). -/
def execPllStartTimeout (dt : Nat) (domain : Fin 60) (s : State) : Result :=
  s.event dt (fun s => s.pllCounting domain.val && !(s.pll domain.val).stable && decide ((s.pll domain.val).startedAt + 500000 ≤ s.time))
    (fun s =>
      if (s.pll domain.val).starts < 3 then
        s.updPll domain.val (fun p => { p with starts := p.starts + 1, startedAt := s.time, good := 0 })
      else (s.pllDead domain.val).pllFailEffect domain.val)

/-- HUB_PLL_STABLE (R396): bit i for domain i; bit 53 copies `refclk_ok`. -/
def State.hubPllStable (s : State) : Nat :=
  ((List.range 60).map (fun d => if (if d = 53 then s.clocks.refclkOk else (s.pll d).stable) then 2 ^ d else 0)).sum

/-- HUB_CLK_STATUS (R396). -/
def Clocks.status (c : Clocks) : Nat :=
  b2n c.refclkOk + 2 * b2n c.refclkLost.isSet + 4 * b2n c.pllLost.isSet + 256 * c.lostDomain + 65536 * c.clockEvents

/-! ## REFCLK (R390, R391) -/

/-- REFCLK_MISSING: fewer than 64 REFCLK cycles in a window of 32 monitor cycles, whether REFCLK was present before or has not come
since auxiliary power (R16). A module in reset or running goes to standby with reason CLOCK_LOST; one in standby stays there. -/
def execRefclkMissing (dt cycles : Nat) (s : State) : Result :=
  s.event dt (fun s => s.board.aux && !s.clocks.missing && decide (cycles < 64)) (fun s =>
    let t := { s with clocks := { s.clocks with refclkOk := false, missing := true, refclkLost := Flag.raise s.wall
                                                clockEvents := (s.clocks.clockEvents + 1) % 65536 } }
    (if t.power.railsOn then t.railsOff stopClockLost else t).alert)

/-- REFCLK_PRESENT: 16 consecutive windows of 64 cycles or more. -/
def execRefclkPresent (dt : Nat) (windows : List Nat) (s : State) : Result :=
  s.event dt (fun s => s.board.aux && !s.clocks.refclkOk && decide (windows.length = 16) && windows.all (fun w => decide (64 ≤ w)))
    (fun s => { s with clocks := { s.clocks with refclkOk := true, missing := false } })

/-! ## The TAP (R15, R20, R443) -/

/-- The low-speed pins of J1 and J2 as boundary cells, in the order of R15's table: inputs as driven, outputs as the module
drives them; SMB_SCL and SMB_SDA idle high, and the differential REFCLK has no cell (log entry 13). -/
def State.pinCells (s : State) : List Bool :=
  [s.board.perst0N, s.board.perst1N, s.board.modResetN, true, true, !s.alertPending, false, s.power.pwrGood,
   !s.thermal.tripLatched.isSet,
   bitAt s.board.straps.toNat 0, bitAt s.board.straps.toNat 1, bitAt s.board.straps.toNat 2, bitAt s.board.straps.toNat 3]

/-- The device identification code. -/
def tapIdcode : Nat := 0x14E32C7B

/-- The TAP answers whenever 3.3 V auxiliary is present (R20). -/
def State.tapLive (s : State) : Bool := s.board.aux

/-- TAP_RESET: TRST_N low holds the TAP in reset, with IDCODE in force (R15). -/
def execTapReset (dt : Nat) (s : State) : Result :=
  s.event dt (fun s => s.board.aux) (fun s =>
    { s with board := { s.board with trstN := false }, tap := { s.tap with inReset := true, instr := .idcode, dr := [], driving := false } })

/-- The board holds TRST_N high and loads an instruction (log entry 13). -/
def State.tapLoad (s : State) (i : TapInstr) (dr : List Bool) : State :=
  { s with board := { s.board with trstN := true }, tap := { s.tap with inReset := false, instr := i, dr := dr, driving := decide (i = .extest) } }

/-- BYPASS: the one-bit bypass register lies between TDI and TDO. -/
def execBypass (dt : Nat) (tdi : Bool) (s : State) : Result := s.event dt State.tapLive (fun s => s.tapLoad .bypass [tdi])

/-- IDCODE reads 0x14E3_2C7B (R443). -/
def execIdcode (dt : Nat) (s : State) : Result :=
  s.event dt State.tapLive (fun s =>
    (s.tapLoad .idcode ((List.range 32).map (bitAt tapIdcode))).setBus (natLE 4 tapIdcode))

/-- SAMPLE/PRELOAD: the pins are sampled and the output cells loaded. -/
def execSamplePreload (dt : Nat) (preload : List Bool) (s : State) : Result :=
  s.event dt State.tapLive (fun s =>
    let t := s.tapLoad .samplePreload s.pinCells
    { t with tap := { t.tap with boundary := preload } })

/-- EXTEST: the cells drive the low-speed output pins of J1 and J2. -/
def execExtest (dt : Nat) (s : State) : Result := s.event dt State.tapLive (fun s => s.tapLoad .extest s.pinCells)

/-! ## Die faults (R26, R28, R31) -/

/-- Counts retries against a die's window of 1 ms; 32 of them fence it (R28). -/
def State.countRetries (s : State) (d n : Nat) : State :=
  let s := s.updDie d (fun x => { x with
    crcTimes := x.crcTimes.filter (fun t => decide (s.time < t + 1000000)) ++ List.replicate n s.time })
  if 32 ≤ (s.die d).crcTimes.length then s.fence d 3 else s

/-- FLIT_CRC_FAIL: a flit retried up to four times counts once on the edge (R26, R451), and its retries count against both dies'
threshold (R28); a fifth failing attempt is a fabric fault against both dies. -/
def execFlitCrcFail (dt : Nat) (die : DieIx) (edge : Fin 4) (attempts : Fin 6) (s : State) : Result :=
  s.event dt (fun s => s.power.running && (neighbour die.val edge.val).isSome && decide (1 ≤ attempts.val)) (fun s =>
    match neighbour die.val edge.val with
    | none => s
    | some other =>
      let n := min 4 attempts.val
      let s := s.updDie die.val (fun x => { x with edgeCrc := Tab.upd 0 x.edgeCrc edge.val (fun c => satAdd 0xFFFFFFFF c 1) })
      let s := (s.countRetries die.val n).countRetries other n
      if attempts.val = 5 then s.edgeFault die.val other else s)

/-- SRAM_UNCORRECTABLE_ECC: one event fences the die; in the hub it is a hub fault (R28, R31). A core that met it stops with
SCRATCH_ECC (R99). -/
def execSramUncorrectableEcc (dt : Nat) (die : DieIx) (core : Option CoreIx) (s : State) : Result :=
  s.event dt (fun s => s.power.running && !s.dieFenced die.val) (fun s =>
    if die.val = hubDie then s.hubFault 1
    else
      match core with
      | some c =>
        if die.val < 24 then
          let r := ((s.core die.val c.val).cutShort s.freeTick).finishing.map (fun r => { r with status := 0x81, ran := false, tDone := s.time })
          (s.draw.fence die.val 1).updCore die.val c.val (fun k => { k with
            stopped := true, ring := k.ring ++ r.toList, lastStatus := if r.isSome then 0x81 else k.lastStatus })
        else s.fence die.val 1
      | none => s.fence die.val 1)

/-- DIE_WATCHDOG_EXPIRY: no service for 10 ms fences the die; the hub's is the module's (R28, R31). -/
def execDieWatchdogExpiry (dt : Nat) (die : DieIx) (s : State) : Result :=
  s.event dt (fun s => s.power.running) (fun s => if die.val = hubDie then s.hubFault 2 else s.fence die.val 4)

/-- HUB_WATCHDOG_EXPIRY: a hub fault (R31). -/
def execHubWatchdogExpiry (dt : Nat) (s : State) : Result := s.event dt (fun s => s.power.running) (fun s => s.hubFault 2)

/-! ## Power states (R403 to R407) -/

/-- HUB_PWR_STATUS, HUB_PWR_INPUT and HUB_DIE_PWR, the response of POWER (R404). -/
def State.powerResp (s : State) : Bytes :=
  natLE 4 s.power.capW ++ natLE 4 (s.power.inputW % 65536 + 65536 * (s.power.inputMv10 % 65536)) ++ natLE 4 s.hubDiePwr

/-- Dies a POWER mask may name: core dies and stream dies. -/
def powerDies : List Nat := List.range 24 ++ [28, 29]

def maskedDies (mask : Nat) : List Nat := powerDies.filter (fun d => bitAt mask d)

/-- Payload checks of POWER (R404): `op`, the reserved byte, `cap_w`, `dies`. -/
def State.powerChecks (s : State) (p k : Nat) (req : Bytes) : List (Bool × Answer) :=
  let op := leAt req 0 1
  let cap := leAt req 2 2
  let dies := leAt req 4 4
  s.ownerChecks p k 8 ++
    [(decide (3 < op), refusal stBadArg 0), reservedAt req 1 1,
     (if op = 0 then decide (cap < 600) || decide (2400 < cap) else decide (cap ≠ 0), refusal stBadArg 2),
     (if op = 1 ∨ op = 2 then decide ((dies &&& 0x30FFFFFF) ≠ dies) else decide (dies ≠ 0), refusal stBadArg 4),
     tailZero req 8, s.handoverBusy]

/-- Throttle demands follow the last readings (R410): a demand bit shows "present". Lowering restarts when no demand is left;
the release clock runs while every release condition holds. -/
def State.updateDemands (s : State) : State :=
  let th := s.thermal
  let dr := s.derate
  let dies := th.dieTemp.map (·.2)
  let gd := th.gddrTemp.map (·.2)
  let pw := decide (s.power.capW < s.power.inputW)
  let ou := decide (832 - dr < th.outlet)
  let ju := dies.any (fun t => decide (1520 - dr ≤ t))
  let ge := gd.any (fun t => decide (1440 - dr ≤ t))
  let any := pw || ou || ju || ge
  let released := decide (s.power.inputW * 20 ≤ s.power.capW * 19) && decide (th.outlet ≤ 784 - dr) &&
    dies.all (fun t => decide (t ≤ 1472 - dr)) && gd.all (fun t => decide (t ≤ 1392 - dr))
  { s with thermal := { th with
      demandPower := pw, demandOutlet := ou, demandJunction := ju, demandGddr := ge
      lastLower := if any then th.lastLower else none
      releaseSince := if released then (match th.releaseSince with | some t => some t | none => some s.time) else none } }

/-- SET_CAP (R403, R404). An unlisted `op` is refused here. -/
def execSetCap (dt : Nat) (p : Port) (k : Slot) (s : State) : Result :=
  s.mailboxRow dt p k (fun op req => decide (op = 0x1C) && (decide (leAt req 0 1 = 0) || decide (3 < leAt req 0 1))) (fun s req =>
    s.checked p.val k.val (s.powerChecks p.val k.val req) (fun s =>
      let t := ({ s with power := { s.power with capW := leAt req 2 2 } }).updateDemands
      t.answer p.val k.val { resp := t.powerResp }))

/-- Powers one die off (R405): its PLLs and rail off, so that its registers and memories are at their reset values when it comes
back; the router forwards on; its body in the mirror stays. -/
def State.dieOff (s : State) (d : Nat) : State :=
  if (s.die d).off then s
  else
    let s := s.updDie d (fun x => { x with off := true, poweringOn := [] })
    let s := (dieDomains d).foldl (fun s m => s.updPll m (fun p => { p with running := false, stable := false, good := 0 })) s
    let s := if d < 24 then { s with cores := s.cores.filter (fun e => e.1 / 160 ≠ d) }
             else { s with lanes := s.lanes.filter (fun e => e.1 / 32 ≠ d - 28) }
    { s with thermal := { s.thermal with dieTemp := Tab.set (-32768) s.thermal.dieTemp d (-32768) } }

/-- DIE_POWER (R417): `info` holds the new HUB_DIE_PWR. -/
def State.diePowerEvent (s : State) : State := s.moduleEvent 0 0x0027 0 s.hubDiePwr

/-- DIES_OFF: BUSY while a named die holds a resource of any cut (R404, R405). -/
def execDiesOff (dt : Nat) (p : Port) (k : Slot) (s : State) : Result :=
  s.mailboxRow dt p k (isSubOp 0x1C 1) (fun s req =>
    let ds := maskedDies (leAt req 4 4)
    s.checked p.val k.val
      (s.powerChecks p.val k.val req ++ [(ds.any (fun d => !(s.sessionsOn (.die d)).isEmpty), refusal stBusy 0)])
      (fun s =>
        let t := ds.foldl State.dieOff s
        let t := if ds.any (fun d => !(s.die d).off) then t.diePowerEvent else t
        t.answer p.val k.val { resp := t.powerResp }))

/-- DIES_ON: FENCED for a fenced die; the command completes when the last named die is on (R404, R405). -/
def execDiesOn (dt : Nat) (p : Port) (k : Slot) (s : State) : Result :=
  s.mailboxRow dt p k (isSubOp 0x1C 2) (fun s req =>
    let ds := maskedDies (leAt req 4 4)
    s.checked p.val k.val (s.powerChecks p.val k.val req ++ [(ds.any s.dieFenced, refusal stFenced 0)])
      (fun s =>
        let off := ds.filter (fun d => (s.die d).off)
        if off.isEmpty then s.answer p.val k.val { resp := s.powerResp }
        else off.foldl (fun s d =>
          let begun := !(s.die d).poweringOn.isEmpty
          let s := s.updDie d (fun x => { x with poweringOn := x.poweringOn ++ [(p.val, k.val)] })
          if begun then s
          else (dieDomains d).foldl (fun s m => s.updPll m (fun _ => { running := true, starts := 1, startedAt := s.time })) s) s))

/-- Some die still powers on for a mailbox slot. -/
def State.stillPowering (s : State) (p k : Nat) : Bool := s.dies.any (fun e => e.2.poweringOn.contains (p, k))

/-- DIE_POWER_ON_COMPLETE: rail, PLLs and self-check are done (R133, R405); a core that mismatched is retired. -/
def execDiePowerOnComplete (dt : Nat) (die : DieIx) (mismatch : List CoreIx) (s : State) : Result :=
  s.event dt (fun s => s.power.running && !(s.die die.val).poweringOn.isEmpty) (fun s =>
    let waiting := (s.die die.val).poweringOn
    let s := s.updDie die.val (fun x => { x with off := false, poweringOn := [] })
    let s := (dieDomains die.val).foldl (fun s m => s.updPll m (fun x => { x with stable := true, good := 4 })) s
    let s := if die.val < 24 then mismatch.foldl (fun s c => s.retire die.val c.val) s else s
    let s := s.diePowerEvent
    waiting.foldl (fun s w => if s.stillPowering w.1 w.2 then s else s.answer w.1 w.2 { resp := s.powerResp }) s)

/-- MODULE_STANDBY: BUSY while any session holds a cut; entered 10 ms after the response (R404). -/
def execModuleStandby (dt : Nat) (p : Port) (k : Slot) (s : State) : Result :=
  s.mailboxRow dt p k (isSubOp 0x1C 3) (fun s req =>
    s.checked p.val k.val (s.powerChecks p.val k.val req ++ [(s.sessions.any (fun e => e.2.bound), refusal stBusy 0)])
      (fun s => ({ s with power := { s.power with standbyAt := some (s.wall + 10000000) } }).answer p.val k.val
        { resp := s.powerResp }))

/-- STANDBY_ENTRY: the rails go off with reason STANDBY (R404, R426). -/
def execStandbyEntry (dt : Nat) (s : State) : Result :=
  s.event dt (fun s => s.power.running && (match s.power.standbyAt with | some t => decide (t ≤ s.wall) | none => false)) (fun s =>
    let t := s.railsOff stopStandby
    { t with power := { t.power with standby := true } })

/-- Writing `wake` ends module standby and lets the rails be tried again (R402, R407). -/
def State.wakeUp (s : State) : State := { s with power := { s.power with standby := false, railTry := 0 } }

/-- WAKE: written through the SMBus target (R407, R449). -/
def execWake (dt : Nat) (s : State) : Result := s.event dt State.warmerRuns State.wakeUp

end Sys2Proof.Machine
end

