-- ==== Sys2Proof/Machine/Thermal.lean ====
section
/-! DEFINITION. Throttling, sensors and trips (R406, R409 to R412, R417). -/

namespace Sys2Proof.Machine

/-! ## Throttle level (R406) -/

def Thermal.anyDemand (t : Thermal) : Bool := t.demandPower || t.demandOutlet || t.demandJunction || t.demandGddr

/-- Demand bits in the order of HUB_THERM_STATUS [9:6]. -/
def Thermal.demandBits (t : Thermal) : Nat :=
  b2n t.demandPower + 2 * b2n t.demandOutlet + 4 * b2n t.demandJunction + 8 * b2n t.demandGddr

/-- HUB_THERM_STATUS (R412). -/
def Thermal.status (t : Thermal) : Nat :=
  t.k + 32 * b2n (decide (t.k < 16)) + 64 * t.demandBits + 1024 * b2n t.tripLatched.isSet + 2048 * b2n t.coolantWarn.isSet + 65536 * t.steps

/-- A change of k: one more step, and THROTTLE with the new k and the demands (R412, R417). -/
def State.setThrottle (s : State) (k : Nat) : State :=
  if k = s.thermal.k then s
  else
    let t := { s with thermal := { s.thermal with k := k, steps := (s.thermal.steps + 1) % 65536 } }
    t.moduleEvent 2 0x0021 0 (k + 256 * t.thermal.demandBits)

/-- THROTTLE_LOWER: while a demand is present, k falls by 1 every 100 ms, down to 4. -/
def execThrottleLower (dt : Nat) (s : State) : Result :=
  s.event dt (fun s => s.power.running && s.thermal.anyDemand && decide (4 < s.thermal.k) &&
      (match s.thermal.lastLower with | some t => decide (t + 100000000 ≤ s.time) | none => true)) (fun s =>
    let t := { s with thermal := { s.thermal with lastLower := some s.time } }
    t.setThrottle (s.thermal.k - 1))

/-- THROTTLE_FAST_DROP: more than 2,640 W over 1 ms drops k by 4 at once. -/
def execThrottleFastDrop (dt watts1ms : Nat) (s : State) : Result :=
  s.event dt (fun s => s.power.running && decide (2640 < watts1ms)) (fun s => s.setThrottle (max 4 (s.thermal.k - 4)))

/-- THROTTLE_RAISE: k rises by 1 every 1 s while every release condition holds. -/
def execThrottleRaise (dt : Nat) (s : State) : Result :=
  s.event dt (fun s => s.power.running && decide (s.thermal.k < 16) && !s.thermal.anyDemand &&
      (match s.thermal.releaseSince with | some t => decide (t + 1000000000 ≤ s.time) | none => false)) (fun s =>
    let t := { s with thermal := { s.thermal with releaseSince := some s.time } }
    t.setThrottle (s.thermal.k + 1))

/-! ## Sensors and trips (R409 to R411) -/

/-- First sensor and count of a die among the 111 junction sensors (R409, R414). -/
def dieSensors (d : Nat) : Nat × Nat :=
  if d < 24 then (4 * d, 4) else if d < 30 then (96 + 2 * (d - 24), 2) else if d = hubDie then (108, 2) else (110, 1)

/-- A reading in 1/64 °C with its offset, in 1/16 °C. -/
def State.corrected (s : State) (sensor : Nat) (raw : Int) : Int := (raw + s.sensorOffset sensor).fdiv 4

/-- A module trip (R411): the actions of a hub fault with the cause recorded, every rail off, the latch set. A coolant trip is
recorded as THERMAL_TRIP; a hub thermal trip is a hub fault with cause 3 (R31, R427; log entry 26). In standby only the latch and
the alert change. -/
def State.moduleTrip (s : State) (reason cause : Nat) : State :=
  let t := if s.power.railsOn then (s.railsOff reason).recordStop reason cause else s
  let t := { t with thermal := { t.thermal with tripLatched := Flag.raise t.wall } }
  t.alert

/-- A die trip (R411): logged with its temperature, and the die is fenced. -/
def State.dieTrip (s : State) (d : Nat) (temp : Int) : State :=
  if s.dieFenced d then s else (s.dieEvent d d 3 0x0022 0 (unsigned 64 temp)).fence d 5

/-- The highest of a die's corrected readings. -/
def highest (ts : List Int) : Int := ts.foldl max (ts.headD (-32768))

/-- JUNCTION_SENSOR_READ: a die's sensors in 1/64 °C, with the input power and voltage read alongside. -/
def execJunctionSensorRead (dt : Nat) (die : DieIx) (raw : List Int) (inputW inputMv10 : Nat) (s : State) : Result :=
  s.event dt (fun s => s.power.running && s.dieRuns die.val && decide (raw.length = (dieSensors die.val).2)) (fun s =>
    let ts := (raw.zip (List.range raw.length)).map (fun x => s.corrected ((dieSensors die.val).1 + x.2) x.1)
    let temp := highest ts
    let t := { s with
      power := { s.power with inputW := inputW, inputMv10 := inputMv10 }
      thermal := { s.thermal with dieTemp := Tab.set (-32768) s.thermal.dieTemp die.val temp } }
    let t := t.updateDemands
    if temp < 1680 - s.derate then t
    else if die.val = hubDie then t.moduleTrip stopHubFault 3
    else (t.dieTrip die.val temp).updateDemands)

/-- GDDR7_TEMP_READ: the eight devices of a memory die, in 1/16 °C; one at 100 °C counts against the die. -/
def execGddr7TempRead (dt : Nat) (md : MemDie) (temps : List Int) (s : State) : Result :=
  s.event dt (fun s => s.power.running && s.dieRuns (memDieIx md.val) && decide (temps.length = 8)) (fun s =>
    let tab := (temps.zip (List.range 8)).foldl (fun t x => Tab.set (-32768) t (md.val * 8 + x.2) x.1) s.thermal.gddrTemp
    let t := ({ s with thermal := { s.thermal with gddrTemp := tab } }).updateDemands
    if highest temps < 1600 - s.derate then t
    else
      let t := { t with thermal := { t.thermal with gddrTemp := t.thermal.gddrTemp.filter (fun e => e.1 / 8 ≠ md.val) } }
      (t.dieTrip (memDieIx md.val) (highest temps)).updateDemands)

/-- The inlet lies outside 15 to 40 °C. -/
def State.inletOut (s : State) (inlet : Int) : Bool := decide (inlet < 240 - s.derate) || decide (640 - s.derate < inlet)

/-- COOLANT_SENSOR_READ: inlet and outlet in 1/64 °C, none for a sensor that reads open or shorted. -/
def execCoolantSensorRead (dt : Nat) (inlet outlet : Option Int) (s : State) : Result :=
  s.event dt State.warmerRuns (fun s =>
    let val (i : Nat) (x : Option Int) : Int := match x with | some r => s.corrected i r | none => -32768
    let inn := val 111 inlet
    let out := val 112 outlet
    let warn := inlet.isSome && s.inletOut inn
    let t := { s with thermal := { s.thermal with inlet := inn, outlet := out, coolantWarn := s.thermal.coolantWarn.raiseIf warn s.wall } }
    let t := if warn && !s.thermal.coolantWarn.isSet && s.power.running then t.moduleEvent 2 0x0023 0 (unsigned 64 inn) else t
    let t := t.updateDemands
    let failed := (inlet.isNone || outlet.isNone) && s.power.railsOn
    if failed || (outlet.isSome && decide (1040 - s.derate ≤ out)) then t.moduleTrip stopThermalTrip 0 else t)

/-- Clearing the latch needs the outlet below 45 °C (R411). -/
def State.clearTrip (s : State) : State :=
  if s.thermal.outlet ≠ -32768 ∧ s.thermal.outlet < 720 - s.derate then
    { s with thermal := { s.thermal with tripLatched := s.thermal.tripLatched.clear true s.wall } } else s

/-- A writer that may clear the W1C bits of the warmer's registers: the owner's port, or the SMBus target (R447, R449). -/
def State.mayClear (s : State) : Writer → Bool
  | .bar0 p => s.pcieDecodes p.val && s.ownerForWrite p.val
  | .smbus => s.warmerRuns
  | .firmware => s.power.running

/-- TRIP_LATCHED_CLEAR: `trip_latched` is written as one. -/
def execTripLatchedClear (dt : Nat) (w : Writer) (s : State) : Result :=
  s.event dt (fun s => s.mayClear w) State.clearTrip

/-- HUB_COOLANT and HUB_DIE_TEMP_n (R412). -/
def State.hubCoolant (s : State) : Nat := unsigned 16 s.thermal.inlet + 65536 * unsigned 16 s.thermal.outlet
def State.hubDieTemp (s : State) (i : Nat) : Nat := unsigned 16 (s.dieTemperature i)

end Sys2Proof.Machine
end

