-- ==== Sys2Proof/Machine/Spaces.lean ====
section
/-! DEFINITION. The address spaces of R149: reads and writes of bytes and the checks a reach must pass. -/

namespace Sys2Proof.Machine

/-- A port serves host memory: link up, Bus Master Enable set, not in D3hot (R359). -/
def State.hostServes (s : State) (p : Nat) : Bool :=
  (s.pciePort p).linkUp && (s.pciePort p).busMaster && !(s.pciePort p).d3hot && s.portPresent p

/-- An expander serves: link up and HDM decoder 0 enabled (R365, R366). -/
def State.cxlServes (s : State) (x : Nat) : Bool := (s.cxlPort x).linkUp && (s.cxlPort x).expanderOk

/-- Status values of R150. -/
def tsOK : Nat := 0
def tsBadDesc : Nat := 1
def tsAddrFault : Nat := 2
def tsBankNotOwned : Nat := 3
def tsMemEcc : Nat := 4
def tsCancelled : Nat := 0x80

/-- The check of a run of scratch addresses: an address beyond the cores of a device, then the banks it reaches (R149, R150). -/
def State.scratchStatus (s : State) (a n : Nat) (ok : Core → Nat → Bool) : Nat :=
  let reached := (scratchPieces a n).map (fun p => bankOf p.1)
  if decide (2 ^ 32 < a + n) || reached.any (fun x => decide (160 ≤ x.2.1) || decide (24 ≤ x.1)) then tsAddrFault
  else if reached.all (fun x => s.coreUsable x.1 x.2.1 && ok (s.core x.1 x.2.1) x.2.2) then tsOK
  else tsBankNotOwned

/-- The check of a run of `n` addresses in one space, with the status it fails with (R149, R150, R359, R366); `ok` tells which
banks of a core the feeder may use. -/
def State.spanStatus (s : State) (space a n : Nat) (ok : Core → Nat → Bool) : Nat :=
  let fits (b : Bool) : Nat := if b then tsOK else tsAddrFault
  match space with
  | 0 => fits (decide (a + n ≤ 96 * gib) && s.memory.trained &&
      (List.range 4).all (fun m => decide (m < gddrDie a) || decide (gddrDie (a + n - 1) < m) || s.dieRuns (memDieIx m)))
  | 1 => fits (decide (a + n ≤ 2 ^ 52) && s.hostServes 0)
  | 2 => fits (decide (a + n ≤ 2 ^ 52) && s.hostServes 1)
  | 3 => fits (s.cxlServes 0 && decide (a + n ≤ (s.cxlPort 0).capacityGib * gib))
  | 4 => fits (s.cxlServes 1 && decide (a + n ≤ (s.cxlPort 1).capacityGib * gib))
  | 5 => s.scratchStatus a n ok
  | _ => tsBadDesc

/-- The feeder may begin to use a bank: it owns the bank, or the bank is being handed to it and its accesses are held until then
(R139, R153). -/
def Core.bankOpen (c : Core) (b : Nat) : Bool := c.bankFree ownFeeder b || c.bankDue ownFeeder b

/-- The check of one contiguous reach that the firmware makes. -/
def State.reachStatus (s : State) (space a n : Nat) : Nat := s.spanStatus space a n (fun c b => c.bankFree ownFeeder b)

/-- Bytes of a space. -/
def State.readSpace (s : State) (space a n : Nat) : Bytes :=
  match space with
  | 0 => s.gddrRead a n
  | 1 => Mem.readBytes s.memory.host0 a n
  | 2 => Mem.readBytes s.memory.host1 a n
  | 3 => Mem.readBytes s.memory.cxlA a n
  | 4 => Mem.readBytes s.memory.cxlB a n
  | _ => (scratchPieces a n).flatMap (fun p => Mem.readBytes (s.core (scratchDie p.1) (scratchCore p.1)).scratch (scratchByte p.1) p.2)

/-- Writes bytes that lie in one bank; a core that is fenced or retired, or a bank group that is not ready, takes none (R28,
R146). -/
def State.writeScratch (s : State) (a : Nat) (bs : Bytes) : State :=
  if s.coreUsable (scratchDie a) (scratchCore a) && (s.core (scratchDie a) (scratchCore a)).bankReady (scratchByte a / bankBytes) then
    s.updCore (scratchDie a) (scratchCore a) (fun c => { c with scratch := Mem.writeBytes c.scratch (scratchByte a) bs })
  else s

/-- Writes bytes of a space. -/
def State.writeSpace (s : State) (space a : Nat) (bs : Bytes) : State :=
  match space with
  | 0 => s.gddrWrite a bs
  | 1 => { s with memory := { s.memory with host0 := Mem.writeBytes s.memory.host0 a bs } }
  | 2 => { s with memory := { s.memory with host1 := Mem.writeBytes s.memory.host1 a bs } }
  | 3 => { s with memory := { s.memory with cxlA := Mem.writeBytes s.memory.cxlA a bs } }
  | 4 => { s with memory := { s.memory with cxlB := Mem.writeBytes s.memory.cxlB a bs } }
  | _ => (scratchPieces a bs.length).foldl (fun s p => s.writeScratch p.1 ((bs.drop (p.1 - a)).take p.2)) s

/-- Bytes at an address in R149 form, when its reach passes. -/
def State.fetchForm (s : State) (form n : Nat) : Option Bytes :=
  let a := addrOffset form
  if addrBad form || decide (n = 0) then none
  else if s.reachStatus (addrSpace form) a n = tsOK then some (s.readSpace (addrSpace form) a n)
  else none

/-- Writes bytes at an address in R149 form, when its reach passes; nothing is moved otherwise. -/
def State.storeForm (s : State) (form : Nat) (bs : Bytes) : State :=
  let a := addrOffset form
  if addrBad form || bs.isEmpty then s
  else if s.reachStatus (addrSpace form) a bs.length = tsOK then s.writeSpace (addrSpace form) a bs
  else s

end Sys2Proof.Machine
end

