-- ==== Sys2Proof/Machine/Scratch.lean ====
section
/-! DEFINITION. Scratch banks, their owners and power (R137 to R146), and the SFU's user-table copies (R120 to R123, R132). -/

namespace Sys2Proof.Machine

/-- Registers of a core answer: the module runs and the core's die has power and is not fenced. -/
def State.coreLive (s : State) (d _c : Nat) : Bool := s.power.running && s.dieRuns d

/-- The frame of an event of one core. -/
def State.coreEvent (s : State) (dt d c : Nat) (ready : Core → Bool) (effect : Core → Core) : Result :=
  s.event dt (fun s => s.coreLive d c && ready (s.core d c)) (fun s => s.updCore d c effect)

/-! ## Owners (R139 to R141, R146) -/

/-- HANDOVER_REQUEST: a firmware write that loses to a boundary entry in the same clock is dropped and sets `own_refused` (R141). -/
def execHandoverRequest (dt : Nat) (die : CoreDie) (core : CoreIx) (bank : Bank) (req : Fin 8) (lostRace : Bool) (s : State) : Result :=
  let now := (s.elapse dt).wall
  s.coreEvent dt die.val core.val (fun _ => true) (fun c =>
    if lostRace then c.updBank bank.val (fun o => { o with refused := Flag.raise now }) else c.requestOwn bank.val req.val now)

/-- HANDOVER_EFFECT: the old owner's accesses to the bank have completed (R139): the record of a running descriptor that uses the
bank is written (R88; log entry 17). -/
def execHandoverEffect (dt : Nat) (die : CoreDie) (core : CoreIx) (bank : Bank) (s : State) : Result :=
  s.event dt (fun s => s.coreLive die.val core.val && ((s.core die.val core.val).bank bank.val).pending &&
      s.bankDrained die.val core.val bank.val)
    (fun s => s.updCore die.val core.val (fun c => c.takeOwn bank.val))

/-! ## Bank power (R144, R145) -/

/-- All four banks of a group have owner NONE with nothing pending. -/
def Core.groupIdle (c : Core) (g : Nat) : Bool :=
  (List.range 4).all (fun k => decide ((c.bank (4 * g + k)).owner = 0) && !(c.bank (4 * g + k)).pending)

def Core.clearGroup (c : Core) (g : Nat) : Core := { c with scratch := Mem.clear c.scratch (g * 262144) 262144 }

/-- A mode write: leaving ON is ignored, and sets `mode_refused`, unless the group is idle (R144). OFF loses the contents; a
group that comes from OFF, even by way of RETAIN, clears before `ready` rises (R145). -/
def Core.setMode (c : Core) (g m now : Nat) : Core :=
  let cur := c.group g
  if cur.mode = m then c
  else if 3 ≤ m then { c with modeRefused := Flag.raise now }
  else if cur.mode = 0 && !c.groupIdle g then { c with modeRefused := Flag.raise now }
  else
    let c := c.updGroup g (fun x => { x with mode := m, ready := false, moving := true, leftOff := x.leftOff || decide (m = 2) })
    if m = 2 then c.clearGroup g else c

def execBankOn (dt : Nat) (die : CoreDie) (core : CoreIx) (group : Fin 2) (s : State) : Result :=
  s.coreEvent dt die.val core.val (fun _ => true) (fun c => c.setMode group.val 0 (s.elapse dt).wall)

def execBankRetain (dt : Nat) (die : CoreDie) (core : CoreIx) (group : Fin 2) (s : State) : Result :=
  s.coreEvent dt die.val core.val (fun _ => true) (fun c => c.setMode group.val 1 (s.elapse dt).wall)

def execBankOff (dt : Nat) (die : CoreDie) (core : CoreIx) (group : Fin 2) (s : State) : Result :=
  s.coreEvent dt die.val core.val (fun _ => true) (fun c => c.setMode group.val 2 (s.elapse dt).wall)

/-- A transition ends (R145): into ON `ready` rises, after the clear when the group left OFF. -/
def Core.settleGroup (c : Core) (g : Nat) : Core :=
  let x := c.group g
  if x.mode = 0 then
    let c := if x.leftOff then c.clearGroup g else c
    c.updGroup g (fun x => { x with ready := true, moving := false, leftOff := false })
  else c.updGroup g (fun x => { x with moving := false })

/-- BANK_GROUP_READY. -/
def execBankGroupReady (dt : Nat) (die : CoreDie) (core : CoreIx) (group : Fin 2) (s : State) : Result :=
  s.coreEvent dt die.val core.val (fun c => (c.group group.val).moving) (fun c => c.settleGroup group.val)

/-- CD_BANK_OWN (R140) and CD_BANK_PWR (R144). -/
def Core.bankOwnReg (c : Core) (b : Nat) : Nat :=
  let o := c.bank b
  c.bankOwner b + 16 * o.reqOwner + 128 * b2n o.pending + 256 * b2n o.refused.isSet + 65536 * o.handovers

def Core.bankPwrReg (c : Core) : Nat :=
  (c.group 0).mode + 4 * (c.group 1).mode + 16 * b2n (c.group 0).ready + 32 * b2n (c.group 1).ready + 64 * b2n c.modeRefused.isSet

/-! ## Corrected errors (R142) -/

/-- Counts a corrected error; 16 of one bank within 1 s, or a second one at a word, reach the threshold. -/
def Core.correctedError (c : Core) (b w t : Nat) : Core × Bool :=
  let word := b * 8192 + w
  let times := c.errTimes.filter (fun x => decide (t < x.2 + 1000000000)) ++ [(b, t)]
  let past := decide (16 ≤ (times.filter (fun x => x.1 = b)).length) || c.errWords.contains word
  ({ c with errCount := Tab.upd 0 c.errCount b (fun n => satAdd 0xFFFF n 1), errTimes := times
            errWords := if c.errWords.contains word then c.errWords else c.errWords ++ [word] }, past)

/-- SCRATCH_CORRECTED_ERROR: the core that reaches a threshold is retired (R142). -/
def execScratchCorrectedError (dt : Nat) (die : CoreDie) (core : CoreIx) (bank : Bank) (word : Fin 8192) (s : State) : Result :=
  s.event dt (fun s => s.coreLive die.val core.val && (s.core die.val core.val).bankReady bank.val) (fun s =>
    let (c, past) := (s.core die.val core.val).correctedError bank.val word.val s.time
    let s := s.updCore die.val core.val (fun _ => c)
    if past then s.retire die.val core.val else s)

/-! ## User tables (R120 to R123) -/

/-- A cinch that defers: `swap_deferred`, and a pending explicit swap is dropped with `swap_refused` (R121, R122). -/
def Sfu.defer (u : Sfu) (now : Nat) : Sfu :=
  let v : Sfu := { u with swapDeferred := Flag.raise now, swapRefused := u.swapRefused.raiseIf u.swapPending now, swapPending := false }
  v.landHeld

def Core.updSfu (c : Core) (f : Sfu → Sfu) : Core := { c with sfu := f c.sfu }

/-- SHADOW_WRITE (R121, R122). -/
def execShadowWrite (dt : Nat) (die : CoreDie) (core : CoreIx) (word : Fin 4096) (data : W32) (s : State) : Result :=
  s.coreEvent dt die.val core.val (fun _ => true) (fun c => c.updSfu (fun u =>
    if u.swapPending then { u with held := u.held ++ [(word.val, data)] }
    else { u.writeWord u.shadow word.val data with shadowValid := false }))

/-- SHADOW_VALID_SET: in the cycle in which a shadow write lands, the clear wins (R122). -/
def execShadowValidSet (dt : Nat) (die : CoreDie) (core : CoreIx) (withWrite : Bool) (s : State) : Result :=
  s.coreEvent dt die.val core.val (fun _ => true) (fun c => c.updSfu (fun u => { u with shadowValid := !withWrite }))

/-- SWAP_NOW (R121). -/
def Sfu.requestSwap (u : Sfu) (now : Nat) : Sfu :=
  if u.shadowValid then { u with swapPending := true } else { u with swapRefused := Flag.raise now }

def execSwapNow (dt : Nat) (die : CoreDie) (core : CoreIx) (s : State) : Result :=
  s.coreEvent dt die.val core.val (fun _ => true) (fun c => c.updSfu (fun u => u.requestSwap (s.elapse dt).wall))

/-- EXPLICIT_SWAP: the running descriptor's record is written and no cinch is due at this boundary (R121, R122). -/
def execExplicitSwap (dt : Nat) (die : CoreDie) (core : CoreIx) (s : State) : Result :=
  s.coreEvent dt die.val core.val (fun c => c.sfu.swapPending && c.finishing.isNone && decide (c.phase ≠ 3) && !c.atCinch)
    (fun c => c.updSfu Sfu.flip)

/-- CD_SFU_CTRL (R123). -/
def Sfu.ctrlReg (u : Sfu) : Nat :=
  2 * b2n u.shadowValid + 4 * u.active + 8 * b2n u.swapPending + 16 * b2n u.swapRefused.isSet + 32 * b2n u.swapDeferred.isSet + 256 * u.tableGen

/-- ROW_CANCEL_READ: CD_ROW_CANCEL is cleared by the read (R132). -/
def execRowCancelRead (dt : Nat) (die : CoreDie) (core : CoreIx) (s : State) : Result :=
  s.event dt (fun s => s.coreLive die.val core.val) (fun s =>
    let n := (s.core die.val core.val).cancelRows
    { s.updCore die.val core.val (fun c => { c with cancelRows := 0 }) with bus := { data := natLE 4 n } })

end Sys2Proof.Machine
end

