-- ==== Sys2Proof/Machine/Tables.lean ====
section
/-! DEFINITION. The built-in tables of the special-function unit as FP32 patterns (R104, R108 to R112). -/

namespace Sys2Proof.Machine

def expTable0 : List Nat :=
  [0x3F800000, 0x3F8164D2, 0x3F82CD87, 0x3F843A29, 0x3F85AAC3, 0x3F871F62, 0x3F88980F, 0x3F8A14D5, 0x3F8B95C2, 0x3F8D1ADF,
   0x3F8EA43A, 0x3F9031DC, 0x3F91C3D3, 0x3F935A2B, 0x3F94F4F0, 0x3F96942D, 0x3F9837F0, 0x3F99E046, 0x3F9B8D3A, 0x3F9D3EDA,
   0x3F9EF532, 0x3FA0B051, 0x3FA27043, 0x3FA43516, 0x3FA5FED7, 0x3FA7CD94, 0x3FA9A15B, 0x3FAB7A3A, 0x3FAD583F, 0x3FAF3B79,
   0x3FB123F6, 0x3FB311C4, 0x3FB504F3, 0x3FB6FD92, 0x3FB8FBAF, 0x3FBAFF5B, 0x3FBD08A4, 0x3FBF179A, 0x3FC12C4D, 0x3FC346CD,
   0x3FC5672A, 0x3FC78D75, 0x3FC9B9BE, 0x3FCBEC15, 0x3FCE248C, 0x3FD06334, 0x3FD2A81E, 0x3FD4F35B, 0x3FD744FD, 0x3FD99D16,
   0x3FDBFBB8, 0x3FDE60F5, 0x3FE0CCDF, 0x3FE33F89, 0x3FE5B907, 0x3FE8396A, 0x3FEAC0C7, 0x3FED4F30, 0x3FEFE4BA, 0x3FF28177,
   0x3FF5257D, 0x3FF7D0DF, 0x3FFA83B3, 0x3FFD3E0C]

/-- R108: E[i] = RN(2^(i/64)). -/
def expTable : List Nat := expTable0

def log2Table0 : List Nat :=
  [0xBED47FCC, 0xBECCD839, 0xBEC544C0, 0xBEBDC4F8, 0xBEB6587B, 0xBEAEFEE8, 0xBEA7B7DE, 0xBEA08301, 0xBE995FF7, 0xBE924E69,
   0xBE8B4E03, 0xBE845E70, 0xBE7AFEC5, 0xBE6D6117, 0xBE5FE33D, 0xBE5284A6, 0xBE4544C0, 0xBE382302, 0xBE2B1EE1, 0xBE1E37DB,
   0xBE116D6E, 0xBE04BF1C, 0xBDF058D7, 0xBDD769C9, 0xBDBEB025, 0xBDA62B08, 0xBD8DD995, 0xBD6B75E9, 0xBD3B9CA6, 0xBD0C25C7,
   0xBCBA1F74, 0xBC3963DD, 0x00000000, 0x3C37F286, 0x3CB73CB4, 0x3D08E68F, 0x3D35D69C, 0x3D626FD6, 0x3D8759C5, 0x3D9D517F,
   0x3DB31FB8, 0x3DC8C50B, 0x3DDE4212, 0x3DF39761, 0x3E0462C4, 0x3E0EE68D, 0x3E19574F, 0x3E23B550, 0x3E2E00D2, 0x3E383A17,
   0x3E42615F, 0x3E4C76E8, 0x3E567AF1, 0x3E606DB6, 0x3E6A4F72, 0x3E74205F, 0x3E7DE0B6, 0x3E83C857, 0x3E88983F, 0x3E8D602E,
   0x3E92203D, 0x3E96D888, 0x3E9B8926, 0x3EA03232]

def log2Table1 : List Nat :=
  [0x3EA4D3C2, 0x3EA96DF0, 0x3EAE00D2, 0x3EB28C7F, 0x3EB7110E, 0x3EBB8E96, 0x3EC0052B, 0x3EC474E4, 0x3EC8DDD4, 0x3ECD4012,
   0x3ED19BB0, 0x3ED5F0C4, 0x3EDA3F60, 0x3EDE8797, 0x3EE2C97D, 0x3EE70525, 0x3EEB3A9F, 0x3EEF69FF, 0x3EF39355, 0x3EF7B6B4,
   0x3EFBD42B, 0x3EFFEBCD, 0x3F01FED4, 0x3F0404E8, 0x3F060828, 0x3F08089E, 0x3F0A0650, 0x3F0C0146, 0x3F0DF989, 0x3F0FEF1F,
   0x3F11E20F, 0x3F13D260, 0x3F15C01A]

/-- R109: L[i] = RN(log2(0.75 + i/128)). -/
def log2Table : List Nat := log2Table0 ++ log2Table1

def invKnotTable0 : List Nat :=
  [0x3FAAAAAB, 0x3FA8E83F, 0x3FA72F05, 0x3FA57EB5, 0x3FA3D70A, 0x3FA237C3, 0x3FA0A0A1, 0x3F9F1166, 0x3F9D89D9, 0x3F9C09C1,
   0x3F9A90E8, 0x3F991F1A, 0x3F97B426, 0x3F964FDA, 0x3F94F209, 0x3F939A86, 0x3F924925, 0x3F90FDBC, 0x3F8FB824, 0x3F8E7835,
   0x3F8D3DCB, 0x3F8C08C1, 0x3F8AD8F3, 0x3F89AE41, 0x3F888889, 0x3F8767AB, 0x3F864B8A, 0x3F853408, 0x3F842108, 0x3F83126F,
   0x3F820821, 0x3F810204, 0x3F800000, 0x3F7E03F8, 0x3F7C0FC1, 0x3F7A232D, 0x3F783E10, 0x3F76603E, 0x3F74898D, 0x3F72B9D6,
   0x3F70F0F1, 0x3F6F2EB7, 0x3F6D7304, 0x3F6BBDB3, 0x3F6A0EA1, 0x3F6865AC, 0x3F66C2B4, 0x3F652598, 0x3F638E39, 0x3F61FC78,
   0x3F607038, 0x3F5EE95C, 0x3F5D67C9, 0x3F5BEB62, 0x3F5A740E, 0x3F5901B2, 0x3F579436, 0x3F562B81, 0x3F54C77B, 0x3F53680D,
   0x3F520D21, 0x3F50B6A0, 0x3F4F6475, 0x3F4E168A]

def invKnotTable1 : List Nat :=
  [0x3F4CCCCD, 0x3F4B8728, 0x3F4A4588, 0x3F4907DA, 0x3F47CE0C, 0x3F46980C, 0x3F4565C8, 0x3F443730, 0x3F430C31, 0x3F41E4BC,
   0x3F40C0C1, 0x3F3FA030, 0x3F3E82FA, 0x3F3D6910, 0x3F3C5264, 0x3F3B3EE7, 0x3F3A2E8C, 0x3F392144, 0x3F381703, 0x3F370FBB,
   0x3F360B61, 0x3F3509E7, 0x3F340B41, 0x3F330F63, 0x3F321643, 0x3F311FD4, 0x3F302C0B, 0x3F2F3ADE, 0x3F2E4C41, 0x3F2D602B,
   0x3F2C7692, 0x3F2B8F6A, 0x3F2AAAAB]

/-- R109: G[i] = RN(1/(0.75 + i/128)). -/
def invKnotTable : List Nat := invKnotTable0 ++ invKnotTable1

def recipTable0 : List Nat :=
  [0x3F7F00FF, 0x3F7D08E5, 0x3F7B1885, 0x3F792FB2, 0x3F774E40, 0x3F757404, 0x3F73A0D5, 0x3F71D48C, 0x3F700F01, 0x3F6E500F,
   0x3F6C9791, 0x3F6AE564, 0x3F693965, 0x3F679373, 0x3F65F36D, 0x3F645933, 0x3F62C4A7, 0x3F6135AA, 0x3F5FAC1F, 0x3F5E27EB,
   0x3F5CA8F1, 0x3F5B2F17, 0x3F59BA42, 0x3F584A5A, 0x3F56DF44, 0x3F5578E9, 0x3F541733, 0x3F52BA08, 0x3F516154, 0x3F500D01,
   0x3F4EBCF9, 0x3F4D7127, 0x3F4C2978, 0x3F4AE5D8, 0x3F49A634, 0x3F486A79, 0x3F473294, 0x3F45FE74, 0x3F44CE08, 0x3F43A13E,
   0x3F427806, 0x3F415250, 0x3F40300C, 0x3F3F112B, 0x3F3DF59D, 0x3F3CDD53, 0x3F3BC841, 0x3F3AB656, 0x3F39A786, 0x3F389BC3,
   0x3F379301, 0x3F368D31, 0x3F358A48, 0x3F348A3A, 0x3F338CFA, 0x3F32927C, 0x3F319AB6, 0x3F30A59B, 0x3F2FB322, 0x3F2EC33E,
   0x3F2DD5E6, 0x3F2CEB10, 0x3F2C02B0, 0x3F2B1CBE]

def recipTable1 : List Nat :=
  [0x3F2A392F, 0x3F2957FB, 0x3F287917, 0x3F279C7B, 0x3F26C21E, 0x3F25E9F7, 0x3F2513FD, 0x3F244029, 0x3F236E72, 0x3F229ECF,
   0x3F21D13A, 0x3F2105A9, 0x3F203C17, 0x3F1F747A, 0x3F1EAECD, 0x3F1DEB07, 0x3F1D2922, 0x3F1C6917, 0x3F1BAADF, 0x3F1AEE73,
   0x3F1A33CD, 0x3F197AE7, 0x3F18C3BB, 0x3F180E41, 0x3F175A75, 0x3F16A850, 0x3F15F7CC, 0x3F1548E5, 0x3F149B93, 0x3F13EFD2,
   0x3F13459C, 0x3F129CEC, 0x3F11F5BD, 0x3F115009, 0x3F10ABCC, 0x3F100901, 0x3F0F67A2, 0x3F0EC7AB, 0x3F0E2918, 0x3F0D8BE3,
   0x3F0CF009, 0x3F0C5584, 0x3F0BBC51, 0x3F0B246B, 0x3F0A8DCD, 0x3F09F874, 0x3F09645C, 0x3F08D181, 0x3F083FDE, 0x3F07AF70,
   0x3F072033, 0x3F069223, 0x3F06053C, 0x3F05797C, 0x3F04EEDD, 0x3F04655E, 0x3F03DCF9, 0x3F0355AD, 0x3F02CF75, 0x3F024A4E,
   0x3F01C636, 0x3F014328, 0x3F00C122, 0x3F004020]

/-- R110: R[i] = RN(1/(1 + (i + 0.5)/128)). -/
def recipTable : List Nat := recipTable0 ++ recipTable1

def rsqrtTable0 : List Nat :=
  [0x3F7E05EC, 0x3F7A33F9, 0x3F768CDC, 0x3F730D8A, 0x3F6FB345, 0x3F6C7B90, 0x3F69642A, 0x3F666B02, 0x3F638E39, 0x3F60CC16,
   0x3F5E2305, 0x3F5B9193, 0x3F59166B, 0x3F56B051, 0x3F545E22, 0x3F521ED0, 0x3F4FF162, 0x3F4DD4ED, 0x3F4BC89B, 0x3F49CBA2,
   0x3F47DD45, 0x3F45FCD6, 0x3F4429AF, 0x3F426337, 0x3F40A8DE, 0x3F3EFA1C, 0x3F3D5671, 0x3F3BBD67, 0x3F3A2E8C, 0x3F38A975,
   0x3F372DBF, 0x3F35BB09, 0x3F3450FC, 0x3F32EF41, 0x3F319589, 0x3F304387, 0x3F2EF8F2, 0x3F2DB587, 0x3F2C7904, 0x3F2B432A,
   0x3F2A13C0, 0x3F28EA8C, 0x3F27C759, 0x3F26A9F4, 0x3F25922C, 0x3F247FD3, 0x3F2372BD, 0x3F226ABE, 0x3F2167AF, 0x3F206968,
   0x3F1F6FC4, 0x3F1E7AA0, 0x3F1D89D9, 0x3F1C9D4E, 0x3F1BB4E1, 0x3F1AD073, 0x3F19EFE6, 0x3F191320, 0x3F183A05, 0x3F17647C,
   0x3F16926C, 0x3F15C3BC, 0x3F14F857, 0x3F143026]

def rsqrtTable1 : List Nat :=
  [0x3F136B13, 0x3F12A90B, 0x3F11E9F9, 0x3F112DCA, 0x3F10746D, 0x3F0FBDCE, 0x3F0F09DD, 0x3F0E5889, 0x3F0DA9C2, 0x3F0CFD79,
   0x3F0C539F, 0x3F0BAC25, 0x3F0B06FD, 0x3F0A641A, 0x3F09C36D, 0x3F0924EC, 0x3F088889, 0x3F07EE37, 0x3F0755ED, 0x3F06BF9E,
   0x3F062B40, 0x3F0598C7, 0x3F05082A, 0x3F04795F, 0x3F03EC5C, 0x3F036117, 0x3F02D788, 0x3F024FA6, 0x3F01C967, 0x3F0144C4,
   0x3F00C1B4, 0x3F004030]

/-- R111: Q[i] = RN(1/sqrt(1 + (i + 0.5)/32)). -/
def rsqrtTable : List Nat := rsqrtTable0 ++ rsqrtTable1

def phiTable0 : List Nat :=
  [0xC29997D0, 0xC298AF13, 0xC297C70D, 0xC296DFBE, 0xC295F926, 0xC2951344, 0xC2942E1A, 0xC29349A6, 0xC29265E9, 0xC29182E3,
   0xC290A094, 0xC28FBEFC, 0xC28EDE1A, 0xC28DFDEF, 0xC28D1E7B, 0xC28C3FBE, 0xC28B61B8, 0xC28A8468, 0xC289A7CF, 0xC288CBED,
   0xC287F0C1, 0xC287164C, 0xC2863C8E, 0xC2856386, 0xC2848B36, 0xC283B39B, 0xC282DCB8, 0xC282068B, 0xC2813114, 0xC2805C55,
   0xC27F1097, 0xC27D69F2, 0xC27BC4BA, 0xC27A20EF, 0xC2787E91, 0xC276DDA0, 0xC2753E1C, 0xC273A004, 0xC272035A, 0xC270681D,
   0xC26ECE4D, 0xC26D35E9, 0xC26B9EF3, 0xC26A0969, 0xC268754C, 0xC266E29B, 0xC2655158, 0xC263C181, 0xC2623316, 0xC260A618,
   0xC25F1A87, 0xC25D9062, 0xC25C07AA, 0xC25A805F, 0xC258FA7F, 0xC257760C, 0xC255F306, 0xC254716C, 0xC252F13E, 0xC251727C,
   0xC24FF527, 0xC24E793D, 0xC24CFEC0, 0xC24B85AF]

def phiTable1 : List Nat :=
  [0xC24A0E0B, 0xC24897D2, 0xC2472305, 0xC245AFA4, 0xC2443DAF, 0xC242CD26, 0xC2415E09, 0xC23FF057, 0xC23E8412, 0xC23D1938,
   0xC23BAFC9, 0xC23A47C7, 0xC238E130, 0xC2377C04, 0xC2361844, 0xC234B5F0, 0xC2335507, 0xC231F589, 0xC2309777, 0xC22F3AD0,
   0xC22DDF94, 0xC22C85C3, 0xC22B2D5E, 0xC229D663, 0xC22880D4, 0xC2272CAF, 0xC225D9F6, 0xC22488A8, 0xC22338C4, 0xC221EA4B,
   0xC2209D3D, 0xC21F5199, 0xC21E0761, 0xC21CBE92, 0xC21B772F, 0xC21A3136, 0xC218ECA7, 0xC217A982, 0xC21667C8, 0xC2152778,
   0xC213E893, 0xC212AB17, 0xC2116F06, 0xC210345E, 0xC20EFB21, 0xC20DC34D, 0xC20C8CE3, 0xC20B57E3, 0xC20A244D, 0xC208F220,
   0xC207C15D, 0xC2069203, 0xC2056413, 0xC204378C, 0xC2030C6F, 0xC201E2BA, 0xC200BA6F, 0xC1FF271A, 0xC1FCDC28, 0xC1FA9408,
   0xC1F84EB9, 0xC1F60C3C, 0xC1F3CC91, 0xC1F18FB6]

def phiTable2 : List Nat :=
  [0xC1EF55AD, 0xC1ED1E75, 0xC1EAEA0D, 0xC1E8B876, 0xC1E689B0, 0xC1E45DB9, 0xC1E23493, 0xC1E00E3D, 0xC1DDEAB7, 0xC1DBCA00,
   0xC1D9AC19, 0xC1D79101, 0xC1D578B7, 0xC1D3633D, 0xC1D15092, 0xC1CF40B4, 0xC1CD33A6, 0xC1CB2965, 0xC1C921F2, 0xC1C71D4D,
   0xC1C51B75, 0xC1C31C6A, 0xC1C1202D, 0xC1BF26BC, 0xC1BD3018, 0xC1BB3C41, 0xC1B94B35, 0xC1B75CF6, 0xC1B57182, 0xC1B388DA,
   0xC1B1A2FD, 0xC1AFBFEB, 0xC1ADDFA3, 0xC1AC0227, 0xC1AA2774, 0xC1A84F8C, 0xC1A67A6D, 0xC1A4A818, 0xC1A2D88B, 0xC1A10BC8,
   0xC19F41CE, 0xC19D7A9C, 0xC19BB632, 0xC199F490, 0xC19835B5, 0xC19679A1, 0xC194C055, 0xC19309CF, 0xC191560F, 0xC18FA516,
   0xC18DF6E2, 0xC18C4B73, 0xC18AA2CA, 0xC188FCE5, 0xC18759C4, 0xC185B968, 0xC1841BCF, 0xC18280F9, 0xC180E8E6, 0xC17EA72C,
   0xC17B8210, 0xC1786277, 0xC1754861, 0xC17233CD]

def phiTable3 : List Nat :=
  [0xC16F24BB, 0xC16C1B28, 0xC1691716, 0xC1661882, 0xC1631F6B, 0xC1602BD2, 0xC15D3DB5, 0xC15A5513, 0xC15771EB, 0xC154943D,
   0xC151BC06, 0xC14EE948, 0xC14C1BFF, 0xC149542C, 0xC14691CE, 0xC143D4E3, 0xC1411D6A, 0xC13E6B62, 0xC13BBECA, 0xC13917A2,
   0xC13675E7, 0xC133D999, 0xC13142B7, 0xC12EB13E, 0xC12C252F, 0xC1299E88, 0xC1271D48, 0xC124A16D, 0xC1222AF5, 0xC11FB9E1,
   0xC11D4E2E, 0xC11AE7DA, 0xC11886E6, 0xC1162B4E, 0xC113D512, 0xC1118430, 0xC10F38A7, 0xC10CF274, 0xC10AB198, 0xC108760F,
   0xC1063FD8, 0xC1040EF1, 0xC101E35A, 0xC0FF7A1F, 0xC0FB3821, 0xC0F700B6, 0xC0F2D3DA, 0xC0EEB18A, 0xC0EA99C1, 0xC0E68C7C,
   0xC0E289B7, 0xC0DE916D, 0xC0DAA39B, 0xC0D6C03C, 0xC0D2E74D, 0xC0CF18C7, 0xC0CB54A8, 0xC0C79AEA, 0xC0C3EB89, 0xC0C0467F,
   0xC0BCABC9, 0xC0B91B61, 0xC0B59541, 0xC0B21966]

def phiTable4 : List Nat :=
  [0xC0AEA7C8, 0xC0AB4064, 0xC0A7E333, 0xC0A49030, 0xC0A14755, 0xC09E089C, 0xC09AD3FF, 0xC097A978, 0xC0948901, 0xC0917293,
   0xC08E6628, 0xC08B63B9, 0xC0886B3E, 0xC0857CB3, 0xC082980E, 0xC07F7A92, 0xC079D8B8, 0xC0744A81, 0xC06ECFDB, 0xC06968B8,
   0xC0641506, 0xC05ED4B6, 0xC059A7B6, 0xC0548DF6, 0xC04F8763, 0xC04A93EC, 0xC045B37E, 0xC040E607, 0xC03C2B72, 0xC03783AD,
   0xC032EEA4, 0xC02E6C41, 0xC029FC71, 0xC0259F1D, 0xC0215431, 0xC01D1B94, 0xC018F532, 0xC014E0F2, 0xC010DEBE, 0xC00CEE7B,
   0xC0091013, 0xC005436B, 0xC001886A, 0xBFFBBDEB, 0xBFF48DE5, 0xBFED808C, 0xBFE695A7, 0xBFDFCCFC, 0xBFD92653, 0xBFD2A16F,
   0xBFCC3E14, 0xBFC5FC04, 0xBFBFDAFF, 0xBFB9DAC6, 0xBFB3FB17, 0xBFAE3BB0, 0xBFA89C4B, 0xBFA31CA4, 0xBF9DBC74, 0xBF987B73,
   0xBF935958, 0xBF8E55D9, 0xBF8970A8, 0xBF84A97A]

def phiTable5 : List Nat :=
  [0xBF800000]

/-- R112: T[j] = RN(log2 Phi(-10 + j/32)). -/
def phiTable : List Nat := phiTable0 ++ phiTable1 ++ phiTable2 ++ phiTable3 ++ phiTable4 ++ phiTable5

end Sys2Proof.Machine
end

