-- ==== Sys2Proof/Machine/Sfu.lean ====
section
/-! DEFINITION. The special-function unit: built-in functions (R104 to R113), user tables (R120), and the micro-program steps
(R116 to R119) with the commands that run one step across the sixteen lanes of a core. -/

namespace Sys2Proof.Machine

/-! ## Built-in functions -/

def tableNum (t : List Nat) (i : Nat) : Num := fp32Num (t.getD i 0)

/-- FP32 constants of R108, R109 and R113. -/
def cExp1 : Num := fp32Num 0x3F317218
def cExp2 : Num := fp32Num 0x3E75FDF0
def cExp3 : Num := fp32Num 0x3D635847
def cLog1 : Num := fp32Num 0x3FB8AA3B
def cLog2 : Num := fp32Num 0xBF38AA3B
def cLog3 : Num := fp32Num 0x3EF6384F
def cTanh1 : Num := fp32Num 0x3D372713
def cTanh2 : Num := fp32Num 0x40135761

/-- m × 2^e as an operand. -/
def numOf (m : Nat) (e : Int) : Num := .ofExt (.fin false m e)
def numOne : Num := numOf 1 0
def numTwo : Num := numOf 2 0
def numHalf : Num := numOf 1 (-1)

/-- The non-negative integer a FLOOR result is. -/
def Num.index (a : Num) : Nat := (a.v.toInt?.getD 0).toNat

/-- R107: a zero result, or one below 2^-126 in magnitude, becomes +0. -/
def Num.flushTiny (y : Num) : Num :=
  match y.v with
  | .fin n m e => if m = 0 || Ext.lt (.fin false m e) (.fin false 1 (-126)) then { y with v := .zero false } else { y with v := .fin n m e }
  | _ => y

/-- Steps of R108. The index is held at 63 where x - n rounds to 1 (log entry 15). -/
def exp2Steps (x : Num) : Num :=
  let n := x.floor
  let f := x.sub fp32 n
  let i := min 63 ((f.mul fp32 (numOf 64 0)).floor).index
  let r := f.sub fp32 ((numOf i 0).mul fp32 (numOf 1 (-6)))
  let p := (cExp3.mul fp32 r).add fp32 cExp2
  let p := (p.mul fp32 r).add fp32 cExp1
  let p := (p.mul fp32 r).add fp32 numOne
  ((tableNum expTable i).mul fp32 p).ldexp fp32 n

/-- exp2 (R105, R108). -/
def fnExp2 (x : Num) : Num :=
  if x.v.isNaN then .result .nan [x]
  else if x.v.lt (.fin true 126 0) then .result (.zero false) [x]
  else if !x.v.lt (.fin false 128 0) then .result (.inf false) [x]
  else (exp2Steps x).flushTiny

/-- DECOMP of R104: m in [1, 2) and e with |x| = m × 2^e. -/
def decompNum (x : Num) : Num × Num :=
  match x.v with
  | .fin _ m e =>
    let l : Int := Nat.log2 m
    ({ x with v := .fin false m (-l) }, { x with v := .ofInt (e + l) })
  | _ => (x, x)

/-- log2 (R105, R109). -/
def fnLog2 (x : Num) : Num :=
  if x.v.isNaN then .result .nan [x]
  else if x.v.isZero then .result (.inf true) [x]
  else if x.v.sign then .result .nan [x]
  else if x.v.isInf then .result (.inf false) [x]
  else
    let (m0, e0) := decompNum x
    let big := !m0.v.lt (.fin false 3 (-1))
    let m := if big then m0.mul fp32 numHalf else m0
    let e := if big then e0.add fp32 numOne else e0
    let i := ((((m.sub fp32 (numOf 3 (-2))).mul fp32 (numOf 128 0)).add fp32 numHalf).floor).index
    let ci := (numOf 3 (-2)).add fp32 ((numOf i 0).mul fp32 (numOf 1 (-7)))
    let r := (m.sub fp32 ci).mul fp32 (tableNum invKnotTable i)
    let p := (cLog3.mul fp32 r).add fp32 cLog2
    let p := (p.mul fp32 r).add fp32 cLog1
    let p := p.mul fp32 r
    ((e.add fp32 (tableNum log2Table i)).add fp32 p).flushTiny

/-- reciprocal (R105, R110). -/
def fnReciprocal (x : Num) : Num :=
  if x.v.isNaN then .result .nan [x]
  else if x.v.isZero then .result (.inf x.v.sign) [x]
  else if x.v.isInf then .result (.zero false) [x]
  else
    let (m, e) := decompNum x
    let y0 := (tableNum recipTable (((m.sub fp32 numOne).mul fp32 (numOf 128 0)).floor).index)
    let newton (y : Num) := y.mul fp32 (numTwo.sub fp32 (m.mul fp32 y))
    let y := (newton (newton y0)).ldexp fp32 e.neg
    (if x.v.sign then y.neg else y).flushTiny

/-- rsqrt (R105, R111). -/
def fnRsqrt (x : Num) : Num :=
  if x.v.isNaN then .result .nan [x]
  else if x.v.isZero then .result (.inf x.v.sign) [x]
  else if x.v.sign then .result .nan [x]
  else if x.v.isInf then .result (.zero false) [x]
  else
    let (m0, e0) := decompNum x
    let odd := decide ((e0.v.toInt?.getD 0) % 2 ≠ 0)
    let m := if odd then m0.mul fp32 numTwo else m0
    let e := if odd then e0.sub fp32 numOne else e0
    let y0 := (tableNum rsqrtTable (((m.sub fp32 numOne).mul fp32 (numOf 32 0)).floor).index)
    let h := numHalf.mul fp32 m
    let newton (y : Num) := y.mul fp32 ((numOf 3 (-1)).sub fp32 ((h.mul fp32 y).mul fp32 y))
    ((newton (newton y0)).ldexp fp32 (e.neg.mul fp32 numHalf)).flushTiny

/-- Special inputs of the two GELUs (R105), around their steps on [-10, 10). -/
def fnGelu (steps : Num → Num) (x : Num) : Num :=
  if x.v.isNaN then .result .nan [x]
  else if x.v.lt (.fin true 10 0) then .result (.zero false) [x]
  else if !x.v.lt (.fin false 10 0) then x
  else (steps x).flushTiny

/-- gelu_erf (R112). -/
def fnGeluErf : Num → Num := fnGelu (fun x =>
  let s := if x.v.sign then x else x.neg
  let g := (s.add fp32 (numOf 10 0)).mul fp32 (numOf 32 0)
  let j := min 319 g.floor.index
  let w := g.sub fp32 (numOf j 0)
  let t0 := tableNum phiTable j
  let lp := (((tableNum phiTable (j + 1)).sub fp32 t0).mul fp32 w).add fp32 t0
  let p := fnExp2 lp
  let phi := if x.v.lt (.zero false) then p else numOne.sub fp32 p
  x.mul fp32 phi)

/-- gelu_tanh (R113). -/
def fnGeluTanh : Num → Num := fnGelu (fun x =>
  let v := (((x.mul fp32 x).mul fp32 x).mul fp32 cTanh1).add fp32 x
  let z := (v.mul fp32 cTanh2).neg
  let d := (fnExp2 z).add fp32 numOne
  x.mul fp32 (fnReciprocal d))

/-- relu (R115). -/
def fnRelu (x : Num) : Num := x.max .zero

/-- The functions of R115 by identifier. -/
def fnById (k : Nat) (x : Num) : Num :=
  match k with
  | 1 => fnExp2 x
  | 2 => fnLog2 x
  | 3 => fnReciprocal x
  | 4 => fnRsqrt x
  | 5 => fnGeluErf x
  | 6 => fnGeluTanh x
  | 7 => fnRelu x
  | _ => x

/-- SFU reads of a function (R103). -/
def fnReads (k : Nat) : Nat := if k = 7 then 0 else if 5 ≤ k then 2 else 1

/-! ## User tables (R120) -/

/-- The active copy. -/
def Sfu.table (u : Sfu) : Mem := Tab.get [] u.copies u.active

/-- First word and entry count of a slot; a slot that does not fit counts as empty. -/
def tableSlot (t : Mem) (s : Nat) : Nat × Nat :=
  let w := Mem.readLE t (8 * s) 4
  let first := bits w 15 0
  let count := bits w 31 16
  if first < 16 || 4096 < first + count then (first, 0) else (first, count)

def tableEntry (t : Mem) (s i : Nat) : Num := fp32Num (Mem.readLE t (4 * ((tableSlot t s).1 + i)) 4)

/-! ## Steps (R116 to R119) -/

/-- Step operations of R118. -/
def opADD : Nat := 1
def opSUB : Nat := 2
def opMUL : Nat := 3
def opFMA : Nat := 4
def opMIN : Nat := 5
def opMAX : Nat := 6
def opDIV : Nat := 7
def opSQRT : Nat := 8
def opFLOOR : Nat := 9
def opLDEXP : Nat := 10
def opSELLT : Nat := 11
def opLOOKUP : Nat := 12
def opLOOKUP2 : Nat := 13
def opCALL : Nat := 14

/-- How many of the operand fields a, b, c an operation reads. -/
def stepArity (op : Nat) : Nat :=
  if op = opFMA || op = opSELLT then 3
  else if op = opSQRT || op = opFLOOR || op = opLOOKUP || op = opLOOKUP2 || op = opCALL then 1
  else 2

/-- The operand fields an operation reads. -/
def stepReads (op : Nat) (st : StepOps) : List Nat := ([st.a.val, st.b.val, st.c.val]).take (stepArity op)

/-- The operation takes a parameter in `imm`. -/
def stepParam (op : Nat) : Bool := op = opLOOKUP || op = opLOOKUP2 || op = opCALL

/-- Field rules of R118 and R119 that need no other step: operation, operand codes, unused fields, `imm`, table slots. -/
def stepFieldsOk (t : Mem) (op : Nat) (st : StepOps) : Bool :=
  let reads := stepReads op st
  decide (1 ≤ op) && decide (op ≤ 14) && reads.all (· ≤ 20) &&
  (([st.a.val, st.b.val, st.c.val]).drop (stepArity op)).all (· == 0) &&
  (decide (st.dst.val ≤ 15) || decide (st.dst.val = 31)) &&
  (if stepParam op then !reads.contains 20 else reads.contains 20 || decide (st.imm = 0)) &&
  (if op = opSELLT then decide (st.dst.val ≠ 31) else true) &&
  (if op = opLOOKUP then decide (st.imm.toNat ≤ 7) && decide (1 ≤ (tableSlot t st.imm.toNat).2)
   else if op = opLOOKUP2 then decide (st.imm.toNat ≤ 7) && decide (2 ≤ (tableSlot t st.imm.toNat).2) && decide (st.dst.val ≤ 14)
   else if op = opCALL then decide (1 ≤ st.imm.toNat) && decide (st.imm.toNat ≤ 7) else true)

/-- SFU reads of a step (R102, R119). -/
def stepSfuReads (op : Nat) (st : StepOps) : Nat :=
  if op = opLOOKUP || op = opLOOKUP2 then 1 else if op = opCALL then fnReads st.imm.toNat else 0

/-- Which side operands a program may read (R117). -/
structure MicroEnv where
  y : Bool
  aux0 : Bool
  aux1 : Bool
  deriving DecidableEq, Repr

def MicroEnv.mayRead (env : MicroEnv) (written : List Nat) (code : Nat) : Bool :=
  if code ≤ 15 then written.contains code
  else if code = 17 then env.y else if code = 18 then env.aux0 else if code = 19 then env.aux1 else true

/-- The temporaries a step writes. -/
def stepWrites (op : Nat) (st : StepOps) : List Nat :=
  if st.dst.val = 31 then [] else if op = opLOOKUP2 then [st.dst.val, st.dst.val + 1] else [st.dst.val]

/-- The steps of a program keep R119, given the temporaries already written and the SFU reads already made. -/
def programOk (t : Mem) (env : MicroEnv) : List Nat → Nat → List (Nat × StepOps × Bool) → Bool
  | _, _, [] => true
  | written, reads, (op, st, rsvd) :: rest =>
    let n := reads + stepSfuReads op st
    !rsvd && stepFieldsOk t op st && decide (n ≤ 16) && (stepReads op st).all (env.mayRead written) &&
      (if op = opSELLT then written.contains st.dst.val else true) && (decide (st.dst.val = 31) == rest.isEmpty) &&
      programOk t env (stepWrites op st ++ written) n rest

/-- A step word of R116: operation, fields, and whether a reserved bit is set. -/
def decodeStep (w : Nat) : Nat × StepOps × Bool :=
  (bits w 7 0,
   { dst := Fin.ofNat 32 (bits w 12 8), a := Fin.ofNat 32 (bits w 17 13), b := Fin.ofNat 32 (bits w 22 18)
     c := Fin.ofNat 32 (bits w 27 23), imm := BitVec.ofNat 32 (bits w 63 32) },
   decide (bits w 31 28 ≠ 0))

/-! ## What a step does in one lane -/

def LaneRegs.temp (r : LaneRegs) (i : Nat) : LaneVal := r.temps.getD i {}

def LaneRegs.setTemp (r : LaneRegs) (i : Nat) (v : LaneVal) : LaneRegs :=
  { r with temps := (r.temps ++ List.replicate (16 - r.temps.length) ({ v := 0 } : LaneVal)).set i v }

/-- The operand a code names (R117). -/
def LaneRegs.operand (r : LaneRegs) (imm : W32) (code : Nat) : Num :=
  if code ≤ 15 then (r.temp code).num
  else match code with
    | 16 => r.x.num
    | 17 => r.y.num
    | 18 => r.aux0.num
    | 19 => r.aux1.num
    | _ => fp32Num imm.toNat

/-- Writes a step's destination. -/
def LaneRegs.put (r : LaneRegs) (dst : Nat) (v : Num) : LaneRegs :=
  if dst = 31 then { r with z := v.lane } else r.setTemp dst v.lane

/-- The clamped index of a lookup (R118): none for a NaN. -/
def lookupIndex (a : Num) (top : Nat) : Option Nat :=
  match a.v with
  | .nan => none
  | .inf n => some (if n then 0 else top)
  | .fin _ _ _ => some (min top ((a.v.floor.toInt?.getD 0).toNat))

/-- LOOKUP, and LOOKUP2 which reads the adjacent pair. -/
def LaneRegs.lookup (t : Mem) (pair : Bool) (st : StepOps) (r : LaneRegs) : LaneRegs :=
  let a := r.operand st.imm st.a.val
  let slot := st.imm.toNat
  let n := (tableSlot t slot).2
  let entry (k : Nat) : Num :=
    match lookupIndex a (if pair then n - 2 else n - 1) with
    | none => .result .nan [a]
    | some i => (tableEntry t slot (i + k)).dep [a]
  let r := r.put st.dst.val (entry 0)
  if pair then r.setTemp (st.dst.val + 1) (entry 1).lane else r

/-- Two-operand operations. -/
def LaneRegs.binary (f : Num → Num → Num) (st : StepOps) (r : LaneRegs) : LaneRegs :=
  r.put st.dst.val (f (r.operand st.imm st.a.val) (r.operand st.imm st.b.val))

/-- One-operand operations. -/
def LaneRegs.unary (f : Num → Num) (st : StepOps) (r : LaneRegs) : LaneRegs := r.put st.dst.val (f (r.operand st.imm st.a.val))

/-- SELLT: d := c if a < b, else d unchanged. -/
def LaneRegs.sellt (st : StepOps) (r : LaneRegs) : LaneRegs :=
  let a := r.operand st.imm st.a.val
  let b := r.operand st.imm st.b.val
  let c := r.operand st.imm st.c.val
  r.put st.dst.val ((if a.v.lt b.v then c else (r.temp st.dst.val).num).dep [a, b])

def LaneRegs.fma (st : StepOps) (r : LaneRegs) : LaneRegs :=
  r.put st.dst.val (Num.fma fp32 (r.operand st.imm st.a.val) (r.operand st.imm st.b.val) (r.operand st.imm st.c.val))

/-- One step of R118 in one lane; `t` is the active copy of the user tables. -/
def LaneRegs.step (t : Mem) (op : Nat) (st : StepOps) (r : LaneRegs) : LaneRegs :=
  match op with
  | 1 => r.binary (Num.add fp32) st
  | 2 => r.binary (Num.sub fp32) st
  | 3 => r.binary (Num.mul fp32) st
  | 4 => r.fma st
  | 5 => r.binary Num.min st
  | 6 => r.binary Num.max st
  | 7 => r.binary (Num.div fp32) st
  | 8 => r.unary (Num.sqrt fp32) st
  | 9 => r.unary Num.floor st
  | 10 => r.binary (Num.ldexp fp32) st
  | 11 => r.sellt st
  | 12 => r.lookup t false st
  | 13 => r.lookup t true st
  | 14 => r.unary (fnById st.imm.toNat) st
  | _ => r

/-- A whole program in one lane. -/
def LaneRegs.run (t : Mem) (prog : List (Nat × StepOps × Bool)) (r : LaneRegs) : LaneRegs :=
  prog.foldl (fun r s => r.step t s.1 s.2.1) r

/-! ## Steps as commands -/

/-- The sixteen lanes of a core. -/
def Core.sixteen (c : Core) : List LaneRegs := (List.range 16).map (fun i => c.lanes.getD i {})

/-- One legal step across the sixteen lanes; an illegal one never runs (R119). -/
def State.microStep (s : State) (dt op : Nat) (d : CoreDie) (c : CoreIx) (st : StepOps) : Result :=
  s.coreEvent dt d.val c.val (fun k => stepFieldsOk k.sfu.table op st) (fun k =>
    { k with lanes := k.sixteen.map (fun r => r.step k.sfu.table op st) })

def execStepAdd (dt : Nat) (die : CoreDie) (core : CoreIx) (st : StepOps) (s : State) : Result := s.microStep dt opADD die core st
def execStepSub (dt : Nat) (die : CoreDie) (core : CoreIx) (st : StepOps) (s : State) : Result := s.microStep dt opSUB die core st
def execStepMul (dt : Nat) (die : CoreDie) (core : CoreIx) (st : StepOps) (s : State) : Result := s.microStep dt opMUL die core st
def execStepFma (dt : Nat) (die : CoreDie) (core : CoreIx) (st : StepOps) (s : State) : Result := s.microStep dt opFMA die core st
def execStepMin (dt : Nat) (die : CoreDie) (core : CoreIx) (st : StepOps) (s : State) : Result := s.microStep dt opMIN die core st
def execStepMax (dt : Nat) (die : CoreDie) (core : CoreIx) (st : StepOps) (s : State) : Result := s.microStep dt opMAX die core st
def execStepDiv (dt : Nat) (die : CoreDie) (core : CoreIx) (st : StepOps) (s : State) : Result := s.microStep dt opDIV die core st
def execStepSqrt (dt : Nat) (die : CoreDie) (core : CoreIx) (st : StepOps) (s : State) : Result := s.microStep dt opSQRT die core st
def execStepFloor (dt : Nat) (die : CoreDie) (core : CoreIx) (st : StepOps) (s : State) : Result := s.microStep dt opFLOOR die core st
def execStepLdexp (dt : Nat) (die : CoreDie) (core : CoreIx) (st : StepOps) (s : State) : Result := s.microStep dt opLDEXP die core st
def execStepSellt (dt : Nat) (die : CoreDie) (core : CoreIx) (st : StepOps) (s : State) : Result := s.microStep dt opSELLT die core st
def execStepLookup (dt : Nat) (die : CoreDie) (core : CoreIx) (st : StepOps) (s : State) : Result := s.microStep dt opLOOKUP die core st
def execStepLookup2 (dt : Nat) (die : CoreDie) (core : CoreIx) (st : StepOps) (s : State) : Result := s.microStep dt opLOOKUP2 die core st
def execStepCall (dt : Nat) (die : CoreDie) (core : CoreIx) (st : StepOps) (s : State) : Result := s.microStep dt opCALL die core st

end Sys2Proof.Machine
end

