-- ==== Sys2Proof/Machine/Operands.lean ====
section
/-! DEFINITION. The operand forms of a layer descriptor and its validation: header, conversion block, tensor references, the
operation-specific fields, the regions they name and the checks of R100 in byte order (R69, R70, R73 to R78, R82, R84 to R97). -/

namespace Sys2Proof.Machine

/-! ## Status values (R100) -/

def csBadOpcode : Nat := 0x01
def csBadLayout : Nat := 0x02
def csUnsupportedRecipe : Nat := 0x03
def csRecipeMismatch : Nat := 0x04
def csReservedNonzero : Nat := 0x05
def csBadFormat : Nat := 0x06
def csBadClip : Nat := 0x07
def csFilterTooLarge : Nat := 0x08
def csBadWindow : Nat := 0x09
def csBadKSplit : Nat := 0x0A
def csKTooLarge : Nat := 0x0B
def csTensorBounds : Nat := 0x0C
def csTensorOverlap : Nat := 0x0D
def csBankNotOwned : Nat := 0x0E
def csExpandBank : Nat := 0x0F
def csSortRange : Nat := 0x10
def csQuantRange : Nat := 0x11
def csMicroBad : Nat := 0x12
def csShapeMismatch : Nat := 0x13
def csPadMode : Nat := 0x14
def csScratchEcc : Nat := 0x81

/-- Opcodes of R85. -/
def dCONV : Nat := 1
def dMATMUL : Nat := 2
def dPOOL : Nat := 3
def dELEM : Nat := 4
def dACT : Nat := 5
def dSOFTMAX : Nat := 6
def dNORM : Nat := 7
def dSORT : Nat := 8
def dQUANT : Nat := 9
def dMICRO : Nat := 10

/-! ## Tensor references (R87) -/

structure TensorRef where
  base : Nat
  c : Nat
  w : Nat
  h : Nat
  pitch : Nat
  fmt : Nat
  deriving DecidableEq, Repr

def tensorRef (b : Bytes) (o : Nat) : TensorRef :=
  { base := leAt b o 4, c := leAt b (o + 4) 2, w := leAt b (o + 6) 2, h := leAt b (o + 8) 2, pitch := leAt b (o + 10) 2
    fmt := leAt b (o + 12) 1 }

def TensorRef.size (t : TensorRef) : Nat := fmtSize t.fmt
def TensorRef.present (t : TensorRef) : Bool := decide (1 ≤ t.fmt) && decide (t.fmt ≤ 7)
def TensorRef.nonempty (t : TensorRef) : Bool := decide (t.c ≠ 0) && decide (t.w ≠ 0) && decide (t.h ≠ 0)
def TensorRef.packedUnits (t : TensorRef) : Nat := ceilDiv (t.w * t.c * t.size) 64
/-- Bytes from one row to the next. -/
def TensorRef.rowBytes (t : TensorRef) : Nat := 64 * (if t.pitch = 0 then t.packedUnits else t.pitch)
/-- The span of R89: to the last byte of the last row. -/
def TensorRef.span (t : TensorRef) : Nat := (t.h - 1) * t.rowBytes + t.w * t.c * t.size
def TensorRef.count (t : TensorRef) : Nat := t.h * t.w * t.c
/-- Address of an element by its row-major position. -/
def TensorRef.addr (t : TensorRef) (i : Nat) : Nat := t.base + (i / (t.w * t.c)) * t.rowBytes + (i % (t.w * t.c)) * t.size
/-- A region in another tensor's shape, format and pitch (R96, R97). -/
def TensorRef.at (t : TensorRef) (base : Nat) : TensorRef := { t with base := base }

/-- Pattern of an element. -/
def TensorRef.pattern (t : TensorRef) (m : Mem) (i : Nat) : Nat := Mem.readLE m (t.addr i) t.size

/-- A descriptor: its 128 bytes, and what one unit of its addresses spans: a byte of scratch, or, for a layer over whole tensors
(R433), a window that holds one tensor of any size. -/
structure Desc where
  raw : Bytes
  unit : Nat := 1
  deriving DecidableEq, Repr

def Desc.u (d : Desc) (o n : Nat) : Nat := leAt d.raw o n
def Desc.opcode (d : Desc) : Nat := d.u 0 1
def Desc.recipe (d : Desc) : Nat := d.u 1 1
def Desc.flags (d : Desc) : Nat := d.u 3 1
def Desc.cinchAfter (d : Desc) : Bool := bitAt d.flags 0
def Desc.chanSb (d : Desc) : Bool := bitAt d.flags 1
def Desc.kFirst (d : Desc) : Nat := d.u 8 4
def Desc.kCount (d : Desc) : Nat := d.u 0xC 4
def Desc.ref (d : Desc) (o : Nat) : TensorRef := (tensorRef d.raw o).at ((tensorRef d.raw o).base * d.unit)
def Desc.x (d : Desc) : TensorRef := d.ref 0x20
def Desc.y (d : Desc) : TensorRef := d.ref 0x30
def Desc.z (d : Desc) : TensorRef := d.ref 0x40
/-- The address that a field of the operation holds. -/
def Desc.side (d : Desc) (o : Nat) : Nat := d.u o 4 * d.unit
def Desc.f32 (d : Desc) (o : Nat) : Ext := fp32.decode (d.u o 4)
def Desc.conv (d : Desc) : Conv := { scale := d.f32 0x10, bias := d.f32 0x14, lo := d.f32 0x18, hi := d.f32 0x1C }

/-! ## Checks -/

/-- A failing check: offset and status. -/
abbrev Fails := List (Nat × Nat)

def bad (cond : Bool) (off st : Nat) : Fails := if cond then [(off, st)] else []

/-- The first failure in byte order; at one offset the lowest status (R100). -/
def firstFailing : Fails → Option (Nat × Nat)
  | [] => none
  | f :: fs =>
    match firstFailing fs with
    | none => some f
    | some g => if f.1 < g.1 || (decide (f.1 = g.1) && decide (f.2 ≤ g.2)) then some f else some g

/-- Header checks (R85). `session` is the session's recipe. -/
def Desc.headerFails (d : Desc) (session : Nat) : Fails :=
  bad (!(decide (d.recipe = 1) || decide (d.recipe = 2))) 1 csUnsupportedRecipe ++
  bad (decide (d.recipe ≠ session)) 1 csRecipeMismatch ++
  bad (decide (d.u 2 1 ≠ 1)) 2 csBadLayout ++
  bad (decide (4 ≤ d.flags)) 3 csReservedNonzero ++
  bad (d.chanSb && decide (3 ≤ d.opcode)) 3 csReservedNonzero ++
  bad (decide (3 ≤ d.opcode) && decide (d.kFirst ≠ 0)) 8 csBadKSplit ++
  bad (decide (3 ≤ d.opcode) && decide (d.kCount ≠ 0)) 0xC csBadKSplit

/-- Conversion block checks (R46, R86). -/
def Desc.convFails (d : Desc) : Fails :=
  if d.opcode = dSORT || d.opcode = dQUANT then
    [0x10, 0x14, 0x18, 0x1C].flatMap (fun o => bad (decide (d.u o 4 ≠ 0)) o csReservedNonzero)
  else
    bad d.conv.lo.isNaN 0x18 csBadClip ++ bad d.conv.hi.isNaN 0x1C csBadClip ++ bad (d.conv.hi.lt d.conv.lo) 0x1C csBadClip

/-- A tensor slot (R84, R87): an unused one is all zero; a used one is aligned, non-empty, and ends within scratch. -/
def Desc.slotFails (d : Desc) (o : Nat) : Fails :=
  let t := tensorRef d.raw o
  if t.fmt = 0 then
    [(0, 4), (4, 2), (6, 2), (8, 2), (10, 2), (13, 3)].flatMap (fun (p, n) => bad (!zeroAt d.raw (o + p) n) (o + p) csReservedNonzero)
  else
    bad (decide (2 ^ 19 ≤ t.base)) o csReservedNonzero ++
    bad (decide (t.base % 64 ≠ 0)) o csTensorBounds ++
    bad (decide (t.c = 0)) (o + 4) csTensorBounds ++ bad (decide (t.w = 0)) (o + 6) csTensorBounds ++
    bad (decide (t.h = 0)) (o + 8) csTensorBounds ++
    bad (!t.present) (o + 12) csBadFormat ++
    bad (t.present && t.nonempty && decide (t.pitch ≠ 0) && decide (t.pitch < t.packedUnits)) (o + 12) csTensorBounds ++
    bad (t.present && t.nonempty && decide (524288 < t.base % 2 ^ 19 + t.span)) (o + 12) csTensorBounds ++
    bad (!zeroAt d.raw (o + 13) 3) (o + 13) csReservedNonzero

/-- The operand's format is one of those allowed; an operand the operation has no use for is absent. -/
def Desc.fmtFails (d : Desc) (o : Nat) (allowed : List Nat) : Fails := bad (!allowed.contains (tensorRef d.raw o).fmt) (o + 12) csBadFormat

/-- Formats of vector operands (R114) and of matrix operands and results (R47). -/
def shortAndFp32 : List Nat := [fmtBF16, fmtFP16, fmtINT8, fmtINT16, fmtFP32]
def allNumeric : List Nat := [fmtBF16, fmtFP16, fmtINT8, fmtINT16, fmtFP32, fmtFP64]

/-- Shape check of one dimension: its own offset, or the highest one its wanted value is formed from. -/
def dimFails (t : TensorRef) (o field got want src : Nat) : Fails :=
  bad (t.present && decide (got ≠ want)) (max (o + field) src) csShapeMismatch

/-- The tensor has the given c, w and h. -/
def shapeFails (t : TensorRef) (o c w h : Nat) : Fails :=
  dimFails t o 4 t.c c 0 ++ dimFails t o 6 t.w w 0 ++ dimFails t o 8 t.h h 0

/-- Bytes of 0x50 to 0x7F that an operation does not list are reserved (R8, R90 to R97). -/
def Desc.tailFails (d : Desc) (used : List (Nat × Nat)) : Fails :=
  (List.range 0x30).flatMap (fun i =>
    let o := 0x50 + i
    bad (!used.any (fun p => decide (p.1 ≤ o) && decide (o < p.1 + p.2)) && decide (d.u o 1 ≠ 0)) o csReservedNonzero)

/-! ## Regions (R88, R89) -/

/-- A region of scratch that a descriptor touches: where its checks fail, its bytes, the units that may own its banks, whether
it is written, and whether it is X or Z. -/
structure Region where
  off : Nat
  start : Nat
  len : Nat
  owners : List Nat
  out : Bool
  stream : Bool := false         -- the Y stream, which the pour ring may present (R88, R157)
  isX : Bool := false
  isZ : Bool := false
  deriving DecidableEq, Repr

def Region.fits (r : Region) : Bool := decide (r.start + r.len ≤ 524288)

/-- Banks that a run of scratch bytes reaches. -/
def banksOf (start len : Nat) : List Nat :=
  if len = 0 then [] else (List.range 8).filter (fun b => decide (start / 65536 ≤ b) && decide (b ≤ (start + len - 1) / 65536))

/-- Banks of a region. -/
def Region.banks (r : Region) : List Nat := banksOf r.start r.len

/-! The pour ring's shards (R155 to R157). -/

def shardBytes : Nat := 32768

/-- A core's own home shard of the layer its ring is at: address and length. -/
def Pour.home (p : Pour) : Nat × Nat := p.homes.getD p.layer (0, 0)

/-- Where a core presents its shard of a step: the home shard in place, or travel slot s mod 2. -/
def Pour.slotAt (p : Pour) (step : Nat) : Nat :=
  if step = 0 then p.home.1 else p.travelBank.getD 0 * 65536 + (step % 2) * shardBytes

/-- The bytes that the ring presents at its present step: the home shard, or the whole travel slot. -/
def Pour.shardAt (p : Pour) : Nat × Nat := (p.slotAt p.step, if p.step = 0 then min p.home.2 shardBytes else shardBytes)

/-- The ring owns the banks of the shard it presents. -/
def Core.presents (c : Core) : Bool := (banksOf c.pour.shardAt.1 c.pour.shardAt.2).all (fun b => c.bankFree ownPour b)

/-- The pour ring presents these bytes to the Y stream: they lie in its present shard, or in any home bank of a ring of one core,
which presents every shard in place (R155, R157). -/
def Core.pourPresents (c : Core) (start len : Nat) : Bool :=
  let at_ := c.pour.shardAt
  (banksOf start len).all (fun b => decide (c.bankOwner b = ownPour)) &&
    (decide (c.pour.ringSize = 1) ||
      (decide (1 < c.pour.ringSize) && decide (at_.1 ≤ start) && decide (start + len ≤ at_.1 + at_.2)))

/-- Bounds and ownership of a region. -/
def Region.fails (r : Region) (c : Core) : Fails :=
  if r.len = 0 then []
  else if !r.fits then [(r.off, csTensorBounds)]
  else bad (!(r.banks.all (fun b => r.owners.contains (c.bankOwner b)) || (r.stream && c.pourPresents r.start r.len))) r.off csBankNotOwned

/-- A tensor as a region; one that does not end within scratch is refused by its slot check. -/
def TensorRef.region (t : TensorRef) (o : Nat) (owners : List Nat) (out isX isZ : Bool) : List Region :=
  if t.present && t.nonempty && decide (t.base + t.span ≤ 524288) then
    [{ off := o + 12, start := t.base, len := t.span, owners := owners, out := out, isX := isX, isZ := isZ }]
  else []

def Region.meets (a b : Region) : Bool :=
  decide (0 < a.len) && decide (0 < b.len) && a.fits && b.fits && decide (a.start < b.start + b.len) && decide (b.start < a.start + a.len)

/-- ELEM and ACT may write in place (R89). -/
def Desc.inPlace (d : Desc) : Bool :=
  (decide (d.opcode = dELEM) || decide (d.opcode = dACT)) && d.x.present && d.z.present && decide (d.x.size = d.z.size) &&
    decide ({ d.x with fmt := 0 } = { d.z with fmt := 0 })

/-- Overlaps of an output region with another region. -/
def overlapFails (inPlace : Bool) : List Region → Fails
  | [] => []
  | r :: rest =>
    rest.flatMap (fun q => bad ((r.out || q.out) && r.meets q && !(inPlace && ((r.isX && q.isZ) || (r.isZ && q.isX))))
      (max r.off q.off) csTensorOverlap) ++ overlapFails inPlace rest

/-! ## Windows (R73 to R78, R90) -/

def Desc.kh (d : Desc) : Nat := d.u 0x50 1
def Desc.kw (d : Desc) : Nat := d.u 0x51 1
def Desc.strideY (d : Desc) : Nat := d.u 0x52 1
def Desc.strideX (d : Desc) : Nat := d.u 0x53 1
def Desc.dilY (d : Desc) : Nat := d.u 0x54 1
def Desc.dilX (d : Desc) : Nat := d.u 0x55 1
def Desc.padTop (d : Desc) : Nat := d.u 0x56 1
def Desc.padBottom (d : Desc) : Nat := d.u 0x57 1
def Desc.padLeft (d : Desc) : Nat := d.u 0x58 1
def Desc.padRight (d : Desc) : Nat := d.u 0x59 1
def Desc.padMode (d : Desc) : Nat := d.u 0x5A 1
def Desc.padValue (d : Desc) : Nat := d.u 0x5C 2
def Desc.expandBank (d : Desc) : Nat := d.u 0x5E 1
def Desc.poolKind (d : Desc) : Nat := d.u 0x5F 1
def Desc.poolDiv (d : Desc) : Nat := d.u 0x6A 1

/-- Output size along one axis: 0 when below 1 (R75). -/
def windowOut (n padA padB dil k stride : Nat) : Nat :=
  let reach := n + padA + padB
  let need := dil * (k - 1) + 1
  if stride = 0 || reach < need then 0 else (reach - need) / stride + 1

def Desc.hOut (d : Desc) : Nat := windowOut d.x.h d.padTop d.padBottom d.dilY d.kh d.strideY
def Desc.wOut (d : Desc) : Nat := windowOut d.x.w d.padLeft d.padRight d.dilX d.kw d.strideX

def Desc.windowFails (d : Desc) : Fails :=
  bad (decide (d.kh = 0) || decide (9 < d.kh)) 0x50 csFilterTooLarge ++
  bad (decide (d.kw = 0) || decide (9 < d.kw)) 0x51 csFilterTooLarge ++
  bad (decide (d.strideY = 0)) 0x52 csBadWindow ++ bad (decide (d.strideX = 0)) 0x53 csBadWindow ++
  bad (decide (d.dilY = 0)) 0x54 csBadWindow ++ bad (decide (d.dilX = 0)) 0x55 csBadWindow ++
  bad (decide (d.hOut = 0)) 0x57 csBadWindow ++ bad (decide (d.wOut = 0)) 0x59 csBadWindow ++
  bad (decide (3 < d.padMode)) 0x5A csPadMode ++
  bad (decide (d.x.fmt = fmtINT8) && decide (256 ≤ d.padValue)) 0x5C csReservedNonzero

/-- The output tensor has the window's size (R75). A size below 1 fails at the same offset with a lower status. -/
def Desc.windowShape (d : Desc) (cout : Nat) : Fails :=
  dimFails d.z 0x40 4 d.z.c cout 0 ++ dimFails d.z 0x40 6 d.z.w d.wOut 0x59 ++ dimFails d.z 0x40 8 d.z.h d.hOut 0x57

/-- A CONV that executes without expansion (R77). -/
def Desc.bypass (d : Desc) : Bool :=
  decide (d.kh = 1) && decide (d.kw = 1) && decide (d.strideY = 1) && decide (d.strideX = 1) && decide (d.dilY = 1) && decide (d.dilX = 1) &&
    decide (d.padTop = 0) && decide (d.padBottom = 0) && decide (d.padLeft = 0) && decide (d.padRight = 0)

/-! ## Matrix products and split reductions (R47, R69, R70) -/

/-- The `form` of a producer region: 0 short float, 1 split-precision FP32, 2 integer. -/
def matrixForm (k : Nat) : Nat := if fmtIsInt k then 2 else if k = fmtFP32 then 1 else 0

def Desc.matrixFails (d : Desc) : Fails :=
  d.fmtFails 0x20 shortAndFp32 ++ d.fmtFails 0x30 shortAndFp32 ++ d.fmtFails 0x40 shortAndFp32 ++
  bad (shortAndFp32.contains d.x.fmt && shortAndFp32.contains d.y.fmt &&
    !(decide (d.x.fmt = d.y.fmt) || (fmtIsInt d.x.fmt && fmtIsInt d.y.fmt))) 0x3C csBadFormat

/-- Bytes of a tile record for `n` passes. -/
def tileRecord (form n : Nat) : Nat := if form = 2 then 2048 else (if form = 1 then 6 else 1) * n * 1024 + 256

/-- Where the fields of a split lie, which CONV and MATMUL place differently. -/
structure SplitAt where
  split : Nat
  count : Nat
  sb : Nat
  partAt : Nat
  most : Nat
  kOff : Nat
  deriving DecidableEq, Repr

def Desc.splitAt (d : Desc) : SplitAt :=
  if d.opcode = dCONV then { split := 0x5B, count := 0x68, sb := 0x60, partAt := 0x64, most := 648, kOff := 0x51 }
  else { split := 0x50, count := 0x52, sb := 0x54, partAt := 0x58, most := 128, kOff := 0x24 }

def Desc.split (d : Desc) : Nat := d.u d.splitAt.split 1
def Desc.partialCount (d : Desc) : Nat := d.u d.splitAt.count 2
def Desc.partialBase (d : Desc) : Nat := d.u d.splitAt.partAt 4
def Desc.sbBase (d : Desc) : Nat := d.side d.splitAt.sb

/-- Terms of the whole reduction, rows and columns of the product, and output tiles. -/
def Desc.kTotal (d : Desc) : Nat := if d.opcode = dCONV then d.kh * d.kw * d.x.c else d.x.c
def Desc.rows (d : Desc) : Nat := if d.opcode = dCONV then d.hOut * d.wOut else d.x.h
def Desc.cols (d : Desc) : Nat := d.y.c
def Desc.tiles (d : Desc) : Nat := ceilDiv d.rows 16 * ceilDiv d.cols 16
def Desc.form (d : Desc) : Nat := matrixForm d.x.fmt
def passCount (k : Nat) : Nat := ceilDiv k 512

/-- Checks of a split (R53, R55, R70). A producer without terms, and a `partial_count` out of range, get BAD_K_SPLIT: the spec names no
status for them (DESIGN CHOICE, log entry 15). -/
def Desc.splitFails (d : Desc) : Fails :=
  let a := d.splitAt
  let isProd := decide (d.split = 1)
  bad (decide (2 < d.split)) a.split csReservedNonzero ++
  bad ((isProd || decide (d.split = 2)) && decide (d.recipe = 1) && decide (d.form ≠ 2)) a.split csBadKSplit ++
  bad (!isProd && decide (d.kFirst ≠ 0)) 8 csBadKSplit ++ bad (!isProd && decide (d.kCount ≠ 0)) 0xC csBadKSplit ++
  bad (isProd && decide (d.kFirst % 512 ≠ 0)) 8 csBadKSplit ++ bad (isProd && decide (d.kCount = 0)) 0xC csBadKSplit ++
  bad (isProd && d.x.present && (decide (d.kTotal < d.kFirst + d.kCount) ||
    (decide (d.kCount % 512 ≠ 0) && decide (d.kFirst + d.kCount ≠ d.kTotal)))) a.kOff csBadKSplit ++
  bad (decide (d.split = 2) && (decide (d.partialCount = 0) || decide (a.most < d.partialCount))) a.count csBadKSplit

/-- Bytes of the regions a finisher reads, its passes shared as evenly as they can be (log entry 15). -/
def Desc.finisherBytes (d : Desc) : Nat :=
  let n := passCount d.kTotal
  let pc := d.partialCount
  ((List.range pc).map (fun i => 64 + d.tiles * tileRecord d.form (n / pc + (if i < n % pc then 1 else 0)))).sum

/-- The check of a finisher's regions also reads `partial_count`, which CONV places above `partial_base` (R100). -/
def Desc.splitRegions (d : Desc) : List Region :=
  let a := d.splitAt
  (if d.chanSb then [{ off := a.sb, start := d.sbBase, len := 8 * d.cols, owners := [ownMatrix], out := false }] else []) ++
  (if d.split = 1 then [{ off := a.partAt, start := d.partialBase, len := 64 + d.tiles * tileRecord d.form (passCount d.kCount)
                          owners := [ownMatrix], out := true }]
   else if d.split = 2 then [{ off := max a.partAt a.count, start := d.partialBase, len := d.finisherBytes, owners := [ownMatrix], out := false }]
   else [])

/-! ## One operation at a time -/

def Desc.convOpFails (d : Desc) (c : Core) : Fails :=
  d.matrixFails ++ bad (decide (4096 < d.x.c)) 0x24 csKTooLarge ++ d.windowFails ++
  bad (decide (d.poolKind ≠ 0)) 0x5F csReservedNonzero ++
  (if d.bypass then bad (decide (d.expandBank ≠ 0xFF)) 0x5E csExpandBank
   else bad (decide (7 < d.expandBank)) 0x5E csExpandBank ++
     bad (decide (d.expandBank ≤ 7) && decide (c.bankOwner d.expandBank ≠ ownExpand)) 0x5E csBankNotOwned) ++
  dimFails d.y 0x30 6 d.y.w d.x.c 0 ++ dimFails d.y 0x30 8 d.y.h (d.kh * d.kw) 0x51 ++ d.windowShape d.y.c ++
  d.splitFails ++ d.tailFails [(0x50, 0x1B)]

/-- Y of CONV and MATMUL: the matrix unit's banks, or what the pour ring presents (R88). -/
def Desc.streamRegion (d : Desc) : List Region := (d.y.region 0x30 [ownMatrix] false false false).map (fun r => { r with stream := true })

def Desc.convRegions (d : Desc) : List Region :=
  d.x.region 0x20 [if d.bypass then ownMatrix else ownExpand] false true false ++ d.streamRegion ++ d.z.region 0x40 [ownMatrix] true false true ++ d.splitRegions

def Desc.matmulFails (d : Desc) : Fails :=
  d.matrixFails ++ dimFails d.x 0x20 6 d.x.w 1 0 ++
  dimFails d.y 0x30 6 d.y.w 1 0 ++ dimFails d.y 0x30 8 d.y.h d.x.c 0 ++ shapeFails d.z 0x40 d.y.c 1 d.x.h ++
  d.splitFails ++ d.tailFails [(0x50, 1), (0x52, 2), (0x54, 8)]

def Desc.matmulRegions (d : Desc) : List Region :=
  d.x.region 0x20 [ownMatrix] false true false ++ d.streamRegion ++
  d.z.region 0x40 [ownMatrix] true false true ++ d.splitRegions

/-- X, Y and Z of a vector operation. -/
def Desc.vectorRegions (d : Desc) : List Region :=
  d.x.region 0x20 [ownVector] false true false ++ d.y.region 0x30 [ownVector] false false false ++
  d.z.region 0x40 [ownVector] true false true

/-- Z has X's shape. -/
def Desc.sameShape (d : Desc) (o : Nat) : Fails := shapeFails (tensorRef d.raw o) o d.x.c d.x.w d.x.h

/-- Checks of POOL. `sb_base`, `partial_base` and `partial_count` are not read, and CONV does not read `pool_div`, nor any of the three
where its flags do not use it: the spec lists them without saying that they must then be 0, and they are not checked
(DESIGN CHOICE, log entry 15). -/
def Desc.poolFails (d : Desc) : Fails :=
  d.fmtFails 0x20 shortAndFp32 ++ d.fmtFails 0x30 [fmtNone] ++ d.fmtFails 0x40 allNumeric ++ d.windowFails ++
  bad (decide (d.u 0x5B 1 ≠ 0)) 0x5B csReservedNonzero ++ bad (decide (d.expandBank ≠ 0xFF)) 0x5E csExpandBank ++
  bad (decide (2 < d.poolKind)) 0x5F csReservedNonzero ++ bad (decide (1 < d.poolDiv)) 0x6A csReservedNonzero ++
  d.windowShape d.x.c ++ d.tailFails [(0x50, 0x1B)]

def Desc.elemFails (d : Desc) : Fails :=
  let bc := d.u 0x51 1
  d.fmtFails 0x20 allNumeric ++
  (if bc = 2 then d.fmtFails 0x30 [fmtNone] else if bc < 2 then d.fmtFails 0x30 allNumeric else d.fmtFails 0x30 (fmtNone :: allNumeric)) ++
  d.fmtFails 0x40 allNumeric ++
  bad (decide (4 < d.u 0x50 1)) 0x50 csReservedNonzero ++ bad (decide (2 < bc)) 0x51 csReservedNonzero ++
  (if bc = 0 then d.sameShape 0x30 else if bc = 1 then shapeFails d.y 0x30 d.x.c 1 1 else []) ++
  d.sameShape 0x40 ++ d.tailFails [(0x50, 2), (0x54, 4)]

/-- Steps of a micro-program in scratch. -/
def programAt (m : Mem) (base n : Nat) : List (Nat × StepOps × Bool) :=
  (List.range n).map (fun i => decodeStep (Mem.readLE m (base + 8 * i) 8))

/-- Length and step checks of a program (R119); `env` names what it may read. -/
def programFails (c : Core) (base n lenOff : Nat) (env : MicroEnv) : Fails :=
  if n = 0 || 256 < n then [(lenOff, csMicroBad)]
  else if 524288 < base + 8 * n then []
  else bad (!programOk c.sfu.table env [] 0 (programAt c.scratch base n)) lenOff csMicroBad

def programRegion (off base n : Nat) : List Region :=
  if n = 0 || 256 < n then [] else [{ off := off, start := base, len := 8 * n, owners := [ownVector], out := false }]

def actEnv : MicroEnv := { y := false, aux0 := false, aux1 := false }

def Desc.actFails (d : Desc) (c : Core) : Fails :=
  let func := d.u 0x50 1
  let bm := d.u 0x51 1
  bad (decide (7 < func) && decide (func ≠ 0xFF)) 0x50 csBadOpcode ++ bad (decide (2 < bm)) 0x51 csReservedNonzero ++
  d.fmtFails 0x20 shortAndFp32 ++
  (if bm = 1 then d.fmtFails 0x30 [fmtFP32] else if bm ≤ 2 then d.fmtFails 0x30 [fmtNone] else d.fmtFails 0x30 [fmtNone, fmtFP32]) ++
  d.fmtFails 0x40 shortAndFp32 ++
  (if bm = 1 then shapeFails d.y 0x30 d.x.c 1 1 else []) ++ d.sameShape 0x40 ++
  (if func = 0xFF then programFails c (d.u 0x58 4) (d.u 0x5C 2) 0x5C actEnv else []) ++
  d.tailFails [(0x50, 2), (0x54, 4), (0x58, 4), (0x5C, 2)]

def Desc.actRegions (d : Desc) : List Region :=
  d.vectorRegions ++ (if d.u 0x50 1 = 0xFF then programRegion 0x5C (d.u 0x58 4) (d.u 0x5C 2) else [])

/-- ε of R130 and R94. -/
def Desc.epsilonBad (d : Desc) : Bool := !(d.f32 0x54).isFin || (d.f32 0x54).lt (.zero false)

def Desc.rowFails (d : Desc) : Fails :=
  let sm := decide (d.opcode = dSOFTMAX)
  let top := if sm then 0 else 1
  d.fmtFails 0x20 shortAndFp32 ++ d.fmtFails 0x30 [fmtNone] ++ d.fmtFails 0x40 shortAndFp32 ++
  bad (decide (top < d.u 0x50 1)) 0x50 csReservedNonzero ++ bad (decide (top < d.u 0x51 1)) 0x51 csReservedNonzero ++
  d.sameShape 0x40 ++
  (if sm then bad (decide (4096 < d.x.c)) 0x24 csShapeMismatch ++ bad (decide (d.u 0x58 4 ≠ 0)) 0x58 csReservedNonzero
   else bad d.epsilonBad 0x54 csBadClip) ++
  d.tailFails [(0x50, 2), (0x54, 4), (0x58, 4)]

def Desc.rowRegions (d : Desc) : List Region :=
  d.vectorRegions ++
  (if d.opcode = dNORM && d.u 0x58 4 ≠ 0 then
    [{ off := 0x58, start := d.u 0x58 4, len := 8 * d.x.c, owners := [ownVector], out := false }] else [])

def Desc.sortFails (d : Desc) : Fails :=
  let k := d.u 0x50 2
  d.fmtFails 0x20 [fmtBF16, fmtFP16, fmtFP32] ++ d.fmtFails 0x30 [fmtNone] ++ d.fmtFails 0x40 [fmtIDX16] ++
  bad (d.x.present && d.x.nonempty && decide (65536 < d.x.count)) 0x28 csSortRange ++
  bad (decide (k = 0) || decide (1024 < k) || decide (d.x.count < k)) 0x50 csSortRange ++
  bad (decide (1 < d.u 0x52 1)) 0x52 csReservedNonzero ++
  bad (d.z.present && decide (d.z.count ≠ k)) 0x50 csShapeMismatch ++ d.tailFails [(0x50, 3), (0x54, 4)]

def Desc.sortRegions (d : Desc) : List Region :=
  d.vectorRegions ++ [{ off := 0x54, start := d.u 0x54 4, len := d.u 0x50 2 * d.x.size, owners := [ownVector], out := true }]

def Desc.symLo (d : Desc) : Int := signed 16 (d.u 0x50 2)
def Desc.symHi (d : Desc) : Int := signed 16 (d.u 0x52 2)

/-- Checks of QUANT. With `sig_en` 0 the two bases are not read; the spec does not say that they must then be 0, and they are not
checked (DESIGN CHOICE, log entry 15). -/
def Desc.quantFails (d : Desc) : Fails :=
  d.fmtFails 0x20 shortAndFp32 ++ d.fmtFails 0x30 shortAndFp32 ++ d.fmtFails 0x40 [fmtINT16] ++
  bad (decide (0 < d.symLo)) 0x50 csQuantRange ++ bad (decide (d.symHi < 0)) 0x52 csQuantRange ++
  bad (decide (1 < d.u 0x5C 1)) 0x5C csReservedNonzero ++ d.sameShape 0x30 ++ d.sameShape 0x40 ++
  d.tailFails [(0x50, 0xD)]

/-- Regions of QUANT. The sigma tensor has X's shape and format (R96), and X's row pitch, which the spec does not state (DESIGN CHOICE,
log entry 15). -/
def Desc.quantRegions (d : Desc) : List Region :=
  d.vectorRegions ++
  (if d.u 0x5C 1 = 1 && d.x.present && d.x.nonempty then
    [{ off := 0x54, start := d.u 0x54 4, len := d.x.span, owners := [ownVector], out := false },
     { off := 0x58, start := d.u 0x58 4, len := d.x.count, owners := [ownVector], out := true }] else [])

def Desc.microEnv (d : Desc) : MicroEnv := { y := d.y.present, aux0 := decide (d.u 0x58 4 ≠ 0), aux1 := decide (d.u 0x5C 4 ≠ 0) }

def Desc.microFails (d : Desc) (c : Core) : Fails :=
  d.fmtFails 0x20 shortAndFp32 ++ d.fmtFails 0x30 (fmtNone :: shortAndFp32) ++ d.fmtFails 0x40 shortAndFp32 ++
  d.sameShape 0x30 ++ d.sameShape 0x40 ++
  programFails c (d.u 0x50 4) (d.u 0x54 2) 0x54 d.microEnv ++ d.tailFails [(0x50, 6), (0x58, 8)]

/-- A side tensor of MICRO, in X's shape, format and pitch. -/
def Desc.auxRegion (d : Desc) (o : Nat) : List Region :=
  if d.u o 4 ≠ 0 && d.x.present && d.x.nonempty then
    [{ off := o, start := d.u o 4, len := d.x.span, owners := [ownVector], out := false }] else []

def Desc.microRegions (d : Desc) : List Region :=
  d.vectorRegions ++ programRegion 0x54 (d.u 0x50 4) (d.u 0x54 2) ++ d.auxRegion 0x58 ++ d.auxRegion 0x5C

/-- Regions of a descriptor. -/
def Desc.regions (d : Desc) : List Region :=
  match d.opcode with
  | 1 => d.convRegions
  | 2 => d.matmulRegions
  | 5 => d.actRegions
  | 6 => d.rowRegions
  | 7 => d.rowRegions
  | 8 => d.sortRegions
  | 9 => d.quantRegions
  | 10 => d.microRegions
  | _ => d.vectorRegions

/-- Checks of the operation-specific fields. -/
def Desc.opFails (d : Desc) (c : Core) : Fails :=
  match d.opcode with
  | 1 => d.convOpFails c
  | 2 => d.matmulFails
  | 3 => d.poolFails
  | 4 => d.elemFails
  | 5 => d.actFails c
  | 6 => d.rowFails
  | 7 => d.rowFails
  | 8 => d.sortFails
  | 9 => d.quantFails
  | _ => d.microFails c

/-- Validation (R100): the offset and status of the first failing check, or none. -/
def Desc.validate (d : Desc) (c : Core) (session : Nat) : Option (Nat × Nat) :=
  if d.opcode = 0 || 10 < d.opcode then some (0, csBadOpcode)
  else
    let rs := d.regions
    firstFailing (d.headerFails session ++ d.convFails ++ d.slotFails 0x20 ++ d.slotFails 0x30 ++ d.slotFails 0x40 ++ d.opFails c ++
      rs.flatMap (fun r => r.fails c) ++ overlapFails d.inPlace rs)

/-- Banks the descriptor names: validation waits while one of them changes hands (R139). -/
def Desc.banks (d : Desc) : List Nat :=
  d.regions.flatMap Region.banks ++ (if d.opcode = dCONV && d.expandBank ≤ 7 then [d.expandBank] else [])

end Sys2Proof.Machine
end

