-- ==== Sys2Proof/Machine/Security.lean ====
section
/-! DEFINITION. Boot completions, firmware update, attestation and the calibration record (R413 to R428, R435 to R442). -/

namespace Sys2Proof.Machine

/-! ## Firmware images (R420 to R422) -/

/-- A public key is accepted: its hash is the one fused in the slot, and the slot is not revoked; a blank slot accepts none. -/
def keyAccepted (fused : Bytes) (revoked : Bool) (pub : Bytes) : Bool :=
  !fused.isEmpty && !revoked && decide (shake256 pub 32 = slice fused 0 32)

/-- Format fault of an image: the offset of the first failing field (R421, R422). -/
def imageFormatFault (img : Bytes) : Option Nat :=
  let body := leAt img 0x10 4
  ([(0x00, decide (leAt img 0 4 ≠ 0x57464A4F)), (0x04, decide (leAt img 4 2 ≠ 1)), (0x06, !zeroAt img 6 2),
    (0x0C, decide (64 < leAt img 0xC 1)), (0x0D, decide (3 < leAt img 0xD 1)), (0x0E, !zeroAt img 0xE 2),
    (0x10, decide (body = 0) || decide (12552864 < body) || decide (img.length ≠ 0x7560 + body)),
    (0x14, !zeroAt img 0x14 12), (0x60, !zeroAt img 0x60 160)].find? (fun x => x.2)).map (·.1)

/-- The rest of R422: key, signature verdict and security version. -/
def State.imageTrusted (s : State) (img : Bytes) (sigOk : Bool) : Bool :=
  let k := leAt img 0xD 1
  keyAccepted (Tab.get [] s.fuses.fwKeys k) (bitAt s.fuses.fwRevoked.toNat k) (slice img 0x20 64) && sigOk &&
    decide (s.fuses.svnFused ≤ leAt img 0xC 1)

/-- The image measurement: SHAKE256 over the header and the body (R421). -/
def imageMeasurement (img : Bytes) : Bytes := shake256 (img.take 0x100 ++ img.drop 0x7560) 64

/-- The image of a firmware slot as stored: header, signature and `body_len` bytes. -/
def FwSlot.bytes (f : FwSlot) : Bytes :=
  Mem.readBytes f.image 0 (0x7560 + min 12552864 (leNat (Mem.readBytes f.image 0x10 4)))

def State.fwSlot (s : State) (i : Nat) : FwSlot := Tab.get {} s.flash.slots i
def State.updFwSlot (s : State) (i : Nat) (f : FwSlot → FwSlot) : State :=
  { s with flash := { s.flash with slots := Tab.upd {} s.flash.slots i f } }

/-- `fw_version` and `svn` as event and log fields hold them. -/
def versionInfo (img : Bytes) : Nat := leAt img 8 4 + 2 ^ 32 * leAt img 0xC 1

/-! ## Boot (R423 to R425) -/

/-- The firmware starts in stage 2 and extends MR1, MR2 and MR3 (R424, R435). -/
def State.startFirmware (s : State) (slot : Nat) (img : Bytes) : State :=
  let cal := calBytes s.flash.cal
  let s := { s with boot := { s.boot with
    stage := 2, slot := slot, trying := none, svnRunning := leAt img 0xC 1, fwVersion := BitVec.ofNat 32 (leAt img 8 4)
    keySlot := leAt img 0xD 1 } }
  let s := s.extendMr 1 1 (versionInfo img) (imageMeasurement img)
  let s := s.extendMr 2 2 (leAt cal 0x14 4 + 2 ^ 32 * leAt cal 0x10 1) (shake256 cal 64)
  let strap := natLE 4 s.straps.toNat ++ natLE 1 s.rank
  s.extendMr 3 3 (leNat strap) (shake256 strap 64)

/-- Both slots are invalid: recovery, with reason BOOT_FAIL and an alert (R425). -/
def State.enterRecovery (s : State) : State :=
  let s := { s with boot := { s.boot with stage := 7, trying := none, trial := false } }
  ((s.recordStop stopBootFail 0).alert)

/-- The slot tried is invalid: its `valid` flag is cleared, and the other slot is tried once (R423). -/
def State.fallBack (s : State) (slot : Nat) : State :=
  let s := s.updFwSlot slot (fun f => { f with valid := false })
  if s.boot.fellBack then s.enterRecovery
  else
    let s := { s with boot := { s.boot with fellBack := true, trial := false, trying := some (1 - slot), slot := 1 - slot } }
    s.moduleEvent 2 0x0033 0 slot

/-- IMAGE_VERIFIED: the ROM has read the image and the signature's verdict is known (R423, R424). -/
def execImageVerified (dt : Nat) (sigOk : Bool) (s : State) : Result :=
  s.event dt (fun s => s.power.running && decide (s.boot.stage = 0) && s.boot.trying.isSome) (fun s =>
    match s.boot.trying with
    | none => s
    | some slot =>
      let img := (s.fwSlot slot).bytes
      if (s.fwSlot slot).valid && (imageFormatFault img).isNone && s.imageTrusted img sigOk then s.startFirmware slot img
      else
        let t := s.fallBack slot
        if t.boot.stage = 7 then ((t.settleSeq 0).settleSeq 1).settleSeq 2 else t)

/-- Model slots whose index entry names a persisted package (R434). -/
def State.indexedModels (s : State) : List Nat := (s.flash.models.filter (fun e => e.2.used)).map (·.1)

/-- MAILBOX_SERVICE_START: stage 4; a trial image is promoted; CAL_INVALID is logged; seals written earlier are taken; persisted
packages reload (R416, R423, R424, R434). -/
def execMailboxServiceStart (dt : Nat) (s : State) : Result :=
  s.event dt (fun s => s.power.running && decide (s.boot.stage = 3)) (fun s =>
    let wasTrial := s.boot.trial
    let t := { s with
      boot := { s.boot with stage := 4, trial := false }
      flash := if wasTrial then { s.flash with preferred := s.boot.slot } else s.flash
      security := { s.security with reloading := s.indexedModels } }
    let t := if wasTrial then t.moduleEvent 1 0x0032 0 0 else t
    let t := if t.boot.calInvalid then t.moduleEvent 2 0x0025 0 0 else t
    [0, 1, 2, 3].foldl State.settleSeq t)

/-- HUB_BOOT_STATUS (R444). -/
def State.hubBootStatus (s : State) : Nat :=
  s.boot.stage + 8 * s.boot.slot + 16 * b2n s.boot.trial + 32 * b2n s.boot.fellBack + 64 * b2n (!s.security.reloading.isEmpty) +
    256 * s.boot.svnRunning

/-- HUB_RESET_REASON (R427). -/
def Boot.resetReason (b : Boot) : Nat := b.lastStop + 16 * b.hubCause + 65536 * b.boots

/-! ## Firmware update (R441, R442) -/

/-- The slot that is not running; in recovery the one a trial boot will try. -/
def State.inactiveSlot (s : State) : Nat := if s.boot.stage = 7 then 1 - s.flash.preferred else 1 - s.boot.slot

/-- MR5's extend: `op`, `kind`, `slot` and a 64-byte value (R435, R436). -/
def State.measureUpdate (s : State) (op kind slot : Nat) (value : Bytes) : State :=
  s.extendMr 5 6 (op + 256 * kind + 65536 * slot + 2 ^ 24 * s.fuses.svnFused)
    (shake256 (natLE 1 op ++ natLE 1 kind ++ natLE 1 slot ++ slice value 0 64) 64)

/-- FUSE_WRITTEN (R445). -/
def State.fuseWritten (s : State) (op kind slot : Nat) : State :=
  s.moduleEvent 1 0x0034 0 (op + 256 * kind + 65536 * slot + 2 ^ 24 * s.fuses.svnFused)

/-- Payload checks of FW_UPDATE (R441, R442): `op`, `kind`, the reserved byte and the address; BUSY while a STAGE runs. -/
def State.updateChecks (s : State) (p k : Nat) (req : Bytes) : List (Bool × Answer) :=
  let op := leAt req 0 1
  s.ownerChecks p k 48 ++
    [(decide (4 < op), refusal stBadArg 0), (decide (op = 4) && decide (1 < leAt req 2 1), refusal stBadArg 2), reservedAt req 3 1,
     (decide (op = 0) && addrBad (leAt req 4 8), refusal stBadArg 4),
     (decide (op = 0) && decide (s.boot.stage = 7) && decide (addrSpace (leAt req 4 8) ≠ 1) && decide (addrSpace (leAt req 4 8) ≠ 2),
      refusal stBadArg 4),
     tailZero req 48, s.handoverBusy, (s.security.staging.isSome, refusal stBusy 0)]

/-- STAGE: the image is read and verified before anything is written; then the inactive slot's `valid` flag is cleared and
programming starts (R441). An unlisted `op` is refused here. -/
def execStage (dt : Nat) (p : Port) (k : Slot) (sigOk : Bool) (s : State) : Result :=
  s.mailboxRow dt p k (fun op req => decide (op = 0x18) && (decide (leAt req 0 1 = 0) || decide (4 < leAt req 0 1))) (fun s req =>
    let img := s.fetchForm (leAt req 4 8) (leAt req 12 4)
    let i := img.getD []
    s.checked p.val k.val
      (s.updateChecks p.val k.val req ++
        [(img.isNone, refusal stBadArg 4), ((imageFormatFault i).isSome, refusal stBadArg ((imageFormatFault i).getD 0)),
         (!s.imageTrusted i sigOk, refusal stAuthFail 0)])
      (fun s =>
        let slot := s.inactiveSlot
        let s := s.updFwSlot slot (fun f => { f with valid := false })
        { s with security := { s.security with staging := some { port := p.val, slot := k.val, target := slot, image := i } } }))

/-- STAGE_COMPLETE: the image is written and read back, `valid` is set, MR5 extended, FW_STAGED logged (R441). -/
def execStageComplete (dt : Nat) (s : State) : Result :=
  s.event dt (fun s => s.power.running && s.security.staging.isSome) (fun s =>
    match s.security.staging with
    | none => s
    | some j =>
      let s := s.updFwSlot j.target (fun _ => { valid := true, image := Mem.cells 0 j.image })
      let s := { s with security := { s.security with staging := none } }
      let s := s.measureUpdate 0 0 j.target (imageMeasurement j.image)
      (s.moduleEvent 1 0x0030 0 (versionInfo j.image)).answer j.port j.slot {})

/-- ACTIVATE sets `trial` when the inactive slot is valid (R441). -/
def execActivate (dt : Nat) (p : Port) (k : Slot) (s : State) : Result :=
  s.mailboxRow dt p k (isSubOp 0x18 1) (fun s req =>
    s.checked p.val k.val (s.updateChecks p.val k.val req ++ [(!(s.fwSlot s.inactiveSlot).valid, refusal stBadArg 0)]) (fun s =>
      let slot := s.inactiveSlot
      let t := { s with flash := { s.flash with trial := true } }
      let t := t.measureUpdate 1 0 slot (imageMeasurement (t.fwSlot slot).bytes)
      (t.moduleEvent 1 0x0031 0 0).answer p.val k.val {}))

/-- COMMIT_SVN blows the thermometer fuses up to the running `svn` (R441). -/
def execCommitSvn (dt : Nat) (p : Port) (k : Slot) (s : State) : Result :=
  s.mailboxRow dt p k (isSubOp 0x18 2) (fun s req =>
    s.checked p.val k.val (s.updateChecks p.val k.val req ++ [(s.boot.trial, refusal stBusy 0)]) (fun s =>
      if s.boot.svnRunning ≤ s.fuses.svnFused then s.answer p.val k.val {}
      else
        let t := { s with fuses := { s.fuses with svnFused := s.boot.svnRunning } }
        let t := t.measureUpdate 2 (leAt req 2 1) (leAt req 1 1) (natLE 8 t.fuses.svnFused)
        (t.fuseWritten 2 (leAt req 2 1) (leAt req 1 1)).answer p.val k.val {}))

/-- ENROL_MODEL_KEY fuses a key hash into a blank model key slot 4 to 7 (R441, R442). -/
def execEnrolModelKey (dt : Nat) (p : Port) (k : Slot) (s : State) : Result :=
  s.mailboxRow dt p k (isSubOp 0x18 3) (fun s req =>
    let slot := leAt req 1 1
    s.checked p.val k.val
      (s.updateChecks p.val k.val req ++
        [(decide (slot < 4) || decide (7 < slot) || !(Tab.get [] s.fuses.modelKeys slot).isEmpty, refusal stBadArg 1)])
      (fun s =>
        let hash := slice req 16 32
        let t := { s with fuses := { s.fuses with modelKeys := Tab.set [] s.fuses.modelKeys slot hash } }
        let t := t.measureUpdate 3 (leAt req 2 1) slot hash
        (t.fuseWritten 3 (leAt req 2 1) slot).answer p.val k.val {}))

/-- Firmware key slots that hold a key and are not revoked. -/
def State.liveFwKeys (s : State) : List Nat :=
  (List.range 4).filter (fun i => !(Tab.get [] s.fuses.fwKeys i).isEmpty && !bitAt s.fuses.fwRevoked.toNat i)

/-- A REVOKE_KEY that R442 refuses. -/
def State.revokeBad (s : State) (kind slot : Nat) : Bool :=
  if kind = 0 then
    decide (3 < slot) || (decide (s.boot.stage ≠ 7) && decide (slot = s.boot.keySlot)) || decide (s.liveFwKeys = [slot])
  else decide (7 < slot)

/-- REVOKE_KEY blows the revocation bit of a slot (R441). -/
def execRevokeKey (dt : Nat) (p : Port) (k : Slot) (s : State) : Result :=
  s.mailboxRow dt p k (isSubOp 0x18 4) (fun s req =>
    let slot := leAt req 1 1
    let kind := leAt req 2 1
    s.checked p.val k.val (s.updateChecks p.val k.val req ++ [(s.revokeBad kind slot, refusal stBadArg 1)]) (fun s =>
      let t := if kind = 0 then { s with fuses := { s.fuses with fwRevoked := s.fuses.fwRevoked ||| BitVec.ofNat 4 (2 ^ slot) } }
               else { s with fuses := { s.fuses with modelRevoked := s.fuses.modelRevoked ||| BitVec.ofNat 8 (2 ^ slot) } }
      let hash := fusedHash (if kind = 0 then t.fuses.fwKeys else t.fuses.modelKeys) slot
      let t := t.measureUpdate 4 kind slot hash
      (t.fuseWritten 4 kind slot).answer p.val k.val {}))

/-! ## Quotes (R439, R440) -/

/-- Bytes 0x000 to 0x27F of a quote. -/
def State.quoteMessage (s : State) (mask : Nat) (nonce : Bytes) : Bytes :=
  natLE 4 0x54514A4F ++ natLE 2 1 ++ natLE 2 mask ++ slice nonce 0 32 ++ natLE 8 s.time ++ natLE 4 s.boot.fwVersion.toNat ++
    natLE 1 s.boot.svnRunning ++ natLE 1 s.fuses.svnFused ++ natLE 1 (b2n s.fuses.debugLocked) ++
    natLE 1 (s.boot.slot + 2 * b2n s.boot.fellBack) ++ natLE 4 s.security.extended ++ zeros 4 ++ slice s.fuses.identityPub 0 64 ++
    (List.range 8).flatMap (fun i => if bitAt mask i then s.mr i else zeros 64)

def quoteSignatureBytes : Nat := 49856

/-- Payload checks of ATTEST. -/
def State.attestChecks (s : State) (p k : Nat) (req : Bytes) : List (Bool × Answer) :=
  [(s.shortReq p k 46, refusal stBadArg 8), (decide (3 < leAt req 0 1), refusal stBadArg 0), reservedAt req 1 1,
   (decide (255 < leAt req 2 2), refusal stBadArg 2), (addrBad (leAt req 36 8), refusal stBadArg 36), tailZero req 46]

/-- SIGN_QUOTE: the engine signs one quote at a time (R440). An unlisted `op` is refused here. -/
def execSignQuote (dt : Nat) (p : Port) (k : Slot) (s : State) : Result :=
  s.mailboxRow dt p k (fun op req => decide (op = 0x19) && (decide (leAt req 0 1 = 0) || decide (3 < leAt req 0 1))) (fun s req =>
    s.checked p.val k.val (s.attestChecks p.val k.val req ++ [(s.security.signing.isSome, refusal stBusy 0)]) (fun s =>
      let j : SignJob := { port := p.val, slot := k.val, message := s.quoteMessage (leAt req 2 2) (slice req 4 32),
                           dest := BitVec.ofNat 64 (leAt req 36 8) }
      { s with security := { s.security with signing := some j } }))

/-- QUOTE_SIGNED: the port's quote buffer is replaced, the quote goes to `dest` when that is not 0, and the command completes
with the quote's length (R440). -/
def execQuoteSigned (dt : Nat) (signature : Bytes) (s : State) : Result :=
  s.event dt (fun s => s.power.running && s.security.signing.isSome && decide (signature.length = quoteSignatureBytes)) (fun s =>
    match s.security.signing with
    | none => s
    | some j =>
      let q := j.message ++ signature
      let s := { s with security := { s.security with signing := none, quotes := Tab.set [] s.security.quotes j.port q } }
      let s := if j.dest = 0 then s else s.storeForm j.dest.toNat q
      s.answer j.port j.slot { resp := natLE 4 q.length })

/-- A chunk of 4,000 bytes, fewer in the last one; none beyond the end (R440). -/
def chunkOf (bs : Bytes) (i : Nat) : Option Bytes := if i * 4000 < bs.length then some ((bs.drop (i * 4000)).take 4000) else none

/-- Answers a chunk read. -/
def State.answerChunk (s : State) (p k : Nat) (req bs : Bytes) : State :=
  match chunkOf bs (leAt req 44 2) with
  | some c => s.answer p k { resp := c }
  | none => s.answer p k (refusal stBadArg 44)

/-- A measurement log entry (R436). -/
def MeasEntry.bytes (e : MeasEntry) : Bytes :=
  natLE 1 e.mr ++ natLE 1 e.source ++ zeros 2 ++ natLE 4 e.index ++ natLE 8 e.info.toNat ++ slice e.v 0 64

def execReadQuoteChunk (dt : Nat) (p : Port) (k : Slot) (s : State) : Result :=
  s.mailboxRow dt p k (isSubOp 0x19 1) (fun s req =>
    s.checked p.val k.val (s.attestChecks p.val k.val req) (fun s => s.answerChunk p.val k.val req (Tab.get [] s.security.quotes p.val)))

def execReadLogChunk (dt : Nat) (p : Port) (k : Slot) (s : State) : Result :=
  s.mailboxRow dt p k (isSubOp 0x19 2) (fun s req =>
    s.checked p.val k.val (s.attestChecks p.val k.val req) (fun s =>
      s.answerChunk p.val k.val req (s.security.log.flatMap MeasEntry.bytes)))

def execReadCertChunk (dt : Nat) (p : Port) (k : Slot) (s : State) : Result :=
  s.mailboxRow dt p k (isSubOp 0x19 3) (fun s req =>
    s.checked p.val k.val (s.attestChecks p.val k.val req) (fun s => s.answerChunk p.val k.val req s.flash.cert))

/-! ## The calibration record (R415) -/

/-- CAL_READ returns the stored record; during a CAL_WRITE that is the old one. -/
def execCalRead (dt : Nat) (p : Port) (k : Slot) (s : State) : Result :=
  s.mailboxRow dt p k (isOpcode 0x1A) (fun s req =>
    s.checked p.val k.val (s.anyChecks p.val k.val 0 req) (fun s => s.answer p.val k.val { resp := calBytes s.flash.cal }))

/-- Nominal setpoints of the 39 rails in mV (R400). -/
def railNominal : List Nat :=
  [800, 12000, 800, 800, 800, 800, 800, 800, 800, 750, 750, 900, 1800, 1200, 1200] ++ List.replicate 24 750

/-- One regulator trim entry: setpoint within 5 % of nominal, its reserved bytes and the entries beyond the 39 rails 0. -/
def trimBad (rec : Bytes) (i : Nat) : List (Nat × Bool) :=
  let o := 0x140 + 4 * i
  match railNominal[i]? with
  | some n => [(o, decide (leAt rec o 2 * 100 < n * 95) || decide (n * 105 < leAt rec o 2 * 100)), (o + 2, !zeroAt rec (o + 2) 2)]
  | none => [(o, !zeroAt rec o 4)]

/-- One clock monitor window: N within 0.1 % of R393 and tolerances no wider than R392 allows; unused entries 0. -/
def windowBad (rec : Bytes) (d : Nat) : List (Nat × Bool) :=
  let o := 0x3C0 + 8 * d
  let (n, st, lo) := pllLimits d
  if d = 53 ∨ 60 ≤ d then [(o, !zeroAt rec o 8)]
  else [(o, decide (n < 1000 * countError (leAt rec o 4) n)), (o + 4, decide (st < leAt rec (o + 4) 2)),
        (o + 6, decide (lo < leAt rec (o + 6) 2))]

/-- The checks of CAL_WRITE in order of offset, against the stored record; a preset's range is its link standard's (log entry 4). -/
def calFault (stored rec : Bytes) (badPreset : Option (Fin 48)) : Option Nat :=
  let checks : List (Nat × Bool) :=
    [(0x00, decide (slice rec 0 4 ≠ slice stored 0 4)), (0x04, decide (slice rec 4 2 ≠ slice stored 4 2)),
     (0x06, decide (slice rec 6 2 ≠ slice stored 6 2)), (0x08, decide (slice rec 8 8 ≠ slice stored 8 8)),
     (0x11, !zeroAt rec 0x11 3), (0x18, !zeroAt rec 0x18 8), (0x20, decide (slice rec 0x20 32 ≠ calCheck rec)),
     (0x122, !zeroAt rec 0x122 30)] ++
    (List.range 64).flatMap (trimBad rec) ++
    (match badPreset with | some l => [(0x240 + 8 * l.val, true)] | none => []) ++
    (List.range 64).flatMap (windowBad rec)
  (checks.find? (fun x => x.2)).map (·.1)

/-- CAL_WRITE: every check passes before anything is written; a second one meanwhile is BUSY. -/
def execCalWrite (dt : Nat) (p : Port) (k : Slot) (presetsOk : Option (Fin 48)) (s : State) : Result :=
  s.mailboxRow dt p k (isOpcode 0x1B) (fun s req =>
    let f := calFault (calBytes s.flash.cal) (req.take 3520) presetsOk
    s.checked p.val k.val
      (s.ownerChecks p.val k.val 3520 ++ [(f.isSome, refusal stBadArg (f.getD 0)), tailZero req 3520, s.handoverBusy,
        (s.security.calJob.isSome, refusal stBusy 0)])
      (fun s => { s with security := { s.security with calJob := some { port := p.val, slot := k.val, record := req.take 3520 } } }))

/-- The record as programmed: `origin` 1, `writes` one more, `check` recomputed. -/
def calProgrammed (rec : Bytes) : Bytes :=
  let r := rec.take 0x10 ++ [1] ++ slice rec 0x11 3 ++ natLE 4 (leAt rec 0x14 4 + 1) ++ rec.drop 0x18
  r.take 0x20 ++ calCheck r ++ r.drop 0x40

/-- CAL_WRITE_COMPLETE: the flash holds the new record, CAL_WRITTEN is logged, and the command completes. -/
def execCalWriteComplete (dt : Nat) (s : State) : Result :=
  s.event dt (fun s => s.power.running && s.security.calJob.isSome) (fun s =>
    match s.security.calJob with
    | none => s
    | some j =>
      let r := calProgrammed j.record
      let s := { s with flash := { s.flash with cal := Mem.cells 0 r, calTorn := false }, security := { s.security with calJob := none } }
      (s.moduleEvent 1 0x0026 0 (leAt r 0x14 4)).answer j.port j.slot {})

end Sys2Proof.Machine
end

