-- ==== Sys2Proof/Machine/Models.lean ====
section
/-! DEFINITION. The model store: what a package must hold, and MODEL_LOAD, MODEL_RELOAD, MODEL_UNLOAD, MODEL_LIST (R120, R246,
R429 to R434). -/

namespace Sys2Proof.Machine

/-! ## The header and the sections (R429) -/

def pkgLimit : Nat := 67108864

/-- Package offset of the first header field out of range. -/
def pkgHeaderFault (pkg : Bytes) : Option Nat :=
  let kind := leAt pkg 6 1
  let perCh := leAt pkg 9 1
  let bad (c : Bool) (o : Nat) : List Nat := if c then [o] else []
  (bad (decide (leAt pkg 0 4 ≠ 0x4C444D4F)) 0 ++ bad (decide (leAt pkg 4 2 ≠ 1)) 4 ++ bad (decide (kind ≠ 1 ∧ kind ≠ 2)) 6 ++
    bad (decide (7 < leAt pkg 8 1)) 8 ++
    bad (if kind = 1 then decide (perCh ≠ 0) else decide (perCh = 0) || decide (16 < perCh)) 9 ++ bad (!zeroAt pkg 0xA 2) 0xA ++
    bad (decide (pkgLimit < leAt pkg 0xC 4)) 0xC ++ (firstNonzero (pkg.take 0x100) 0x70).toList).head?

/-- Header offset of the first section that is out of bounds or overlaps an earlier one. -/
def pkgSectionFault (pkg : Bytes) : Option Nat :=
  let secs := (List.range 4).map (pkgSection pkg)
  let meets (a b : Nat × Nat) : Bool := decide (a.2 ≠ 0) && decide (b.2 ≠ 0) && decide (a.1 < b.1 + b.2) && decide (b.1 < a.1 + a.2)
  ((List.range 4).find? (fun i =>
    let x := secs.getD i (0, 0)
    (decide (x.2 ≠ 0) && (decide (x.1 < pkgBodyStart) || decide (pkg.length < x.1 + x.2))) || (secs.take i).any (meets x))).map
    (fun i => 0x50 + 8 * i)

/-- Section offset of a fault of the user tables: a directory that breaks R120. -/
def userTableFault (pkg : Bytes) : Option Nat :=
  let sec := pkgSectionBytes pkg 1
  if sec.isEmpty then none
  else if sec.length < 64 || 16384 < sec.length then some 0
  else ((List.range 8).find? (fun i => !zeroAt sec (8 * i + 4) 4)).map (fun i => 8 * i + 4)

/-! ## The program section (R430 to R433) -/

def noTensor : Nat := 0xFFFF

/-- Bindings that a bound input may name, and those that a bound output may name (R432). -/
def inputBindings : List Nat := [1, 2, 3, 4, 5, 6, 7, 8, 0xD, 0x10, 0x12, 0x20, 0x21, 0x23, 0x28]
def outputBindings : List Nat :=
  [8, 9, 0xA, 0xB, 0xC, 0xE, 0xF, 0x11, 0x13, 0x14, 0x15, 0x16, 0x17, 0x18, 0x22, 0x24, 0x25, 0x26, 0x27, 0x29]

/-- What the shapes of a model's tensors are counted in (R431): the coded area and its chroma subsampling, or the channels of an audio
group. -/
structure Geometry where
  width : Nat
  height : Nat
  subX : Nat := 1
  subY : Nat := 1
  channels : Nat := 1
  deriving DecidableEq, Repr

/-- The largest geometry: 4,096 × 2,176, no chroma subsampling, 16 channels per group (R172). -/
def largest : Geometry := { width := 4096, height := 2176, channels := 16 }

def TensorEntry.w (e : TensorEntry) (g : Geometry) : Nat :=
  if e.geom = 0xFF then e.wFixed else g.width / 2 ^ bits e.geom 7 4 / (if bitAt e.gflags 0 then g.subX else 1)
def TensorEntry.h (e : TensorEntry) (g : Geometry) : Nat :=
  if e.geom = 0xFF then e.hFixed else g.height / 2 ^ bits e.geom 3 0 / (if bitAt e.gflags 0 then g.subY else 1)
def TensorEntry.chans (e : TensorEntry) (g : Geometry) : Nat := if bitAt e.gflags 1 then e.c * g.channels else e.c
/-- Elements of the tensor. -/
def TensorEntry.count (e : TensorEntry) (g : Geometry) : Nat := e.h g * e.w g * e.chans g

/-- The entry keeps R431 and R432 by itself. -/
def TensorEntry.ok (e : TensorEntry) (constLen : Nat) : Bool :=
  decide (e.role ≤ 3) && decide (1 ≤ e.fmt) && decide (e.fmt ≤ 6) && decide (e.gflags < 4) && decide (1 ≤ e.c) &&
  (if e.geom = 0xFF then decide (1 ≤ e.hFixed) && decide (1 ≤ e.wFixed)
   else decide (bits e.geom 3 0 ≤ 6) && decide (bits e.geom 7 4 ≤ 6) && decide (e.hFixed = 0) && decide (e.wFixed = 0)) &&
  (if e.role = 1 then inputBindings.contains e.binding
   else if e.role = 2 then outputBindings.contains e.binding else decide (e.binding = 0)) &&
  (if e.role = 3 then decide (e.data % 64 = 0) && decide (e.data < constLen) else decide (e.data = 0))

/-- Bytes of a tensor reference to a whole tensor, packed, at an address. -/
def wholeRef (e : TensorEntry) (g : Geometry) (base fmt : Nat) : Bytes :=
  natLE 4 base ++ natLE 2 (e.chans g) ++ natLE 2 (e.w g) ++ natLE 2 (e.h g) ++ natLE 2 0 ++ natLE 1 fmt ++ zeros 3

/-- A byte string with bytes replaced from a position. -/
def patch (bs : Bytes) (pos : Nat) (new : Bytes) : Bytes := bs.take pos ++ new ++ bs.drop (pos + new.length)

/-- A layer table entry. -/
structure Layer where
  raw : Bytes
  deriving DecidableEq, Repr

def Layer.tid (l : Layer) (o : Nat) : Nat := leAt l.raw o 2
def Layer.template (l : Layer) : Desc := { raw := slice l.raw 32 128 }

/-- The address fields of an operation, each with the place of its tensor id in the layer's header (R433). -/
def Layer.sides (l : Layer) : List (Nat × Nat) :=
  match l.template.opcode with
  | 1 => [(0x60, 0xC)]
  | 2 => [(0x54, 0xC)]
  | 5 => [(0x58, 0xE)]
  | 7 => [(0x58, 0xC)]
  | 8 => [(0x54, 0x10)]
  | 9 => [(0x54, 0x10), (0x58, 0x12)]
  | 10 => [(0x50, 0xE), (0x58, 8), (0x5C, 0xA)]
  | _ => []

/-- The layer's descriptor over whole tensors (R433): the loader's fields filled for one core that holds everything, each tensor at
the address that `place` gives its id's place in the header. The Z of SORT is in IDX16 (log entry 15). -/
def Layer.fill (l : Layer) (ts : List TensorEntry) (g : Geometry) (place : Nat → Nat) (unit : Nat) : Desc :=
  let t := l.template
  let ref (o fmt : Nat) : Bytes :=
    match ts[l.tid o]? with
    | some e => wholeRef e g (place o) (if fmt = fmtNone then e.fmt else fmt)
    | none => zeros 16
  let raw := patch (patch (patch t.raw 0x20 (ref 2 fmtNone)) 0x30 (ref 4 fmtNone)) 0x40
    (ref 6 (if t.opcode = dSORT then fmtIDX16 else fmtNone))
  let raw := l.sides.foldl (fun raw x => if l.tid x.2 = noTensor then raw else patch raw x.1 (natLE 4 (place x.2))) raw
  let d : Desc := { raw := raw, unit := unit }
  if d.opcode = dCONV && d.bypass then { d with raw := patch raw 0x5E [0xFF] } else d

/-- The descriptor that a load checks (R433, R434): at the largest geometry, the micro-program at address 0. -/
def Layer.whole (l : Layer) (ts : List TensorEntry) : Desc := l.fill ts largest (fun o => if o < 8 || decide (o = 0xE) then 0 else 64) 1

/-- A core that owns everything, with the layer's micro-program at address 0 and the package's user tables active. -/
def loaderCore (l : Layer) (ts : List TensorEntry) (consts tables : Bytes) : Core :=
  { scratch := match ts[l.tid 0xE]? with
      | some e => Mem.cells 0 (slice consts e.data 2048)
      | none => []
    groups := [(0, { mode := 0, ready := true, leftOff := false }), (1, { mode := 0, ready := true, leftOff := false })]
    banks := [(0, { owner := ownExpand })]
    sfu := { copies := Tab.set [] [] 0 (Mem.cells 0 tables) } }

/-- The template fails R100 at the largest geometry: every check but those on where tensors lie in one core's scratch. -/
def Layer.templateFails (l : Layer) (ts : List TensorEntry) (consts tables : Bytes) (recipe : Nat) : Bool :=
  let d := l.whole ts
  if d.opcode = 0 || 10 < d.opcode then true
  else
    !((d.headerFails recipe ++ d.convFails ++ d.slotFails 0x20 ++ d.slotFails 0x30 ++ d.slotFails 0x40 ++
        d.opFails (loaderCore l ts consts tables)).filter (fun f => f.2 ≠ csTensorBounds)).isEmpty

/-- Tensors a layer reads, and those it writes. -/
def Layer.reads (l : Layer) : List Nat :=
  ([2, 4, 8, 0xA, 0xC, 0xE].map l.tid ++ (if l.template.opcode = dSORT then [] else [l.tid 0x10])).filter (· ≠ noTensor)
def Layer.writes (l : Layer) : List Nat :=
  (l.tid 6 :: (if l.template.opcode = dSORT then [l.tid 0x10] else []) ++ [l.tid 0x12]).filter (· ≠ noTensor)

def videoNets : List Nat := [0, 1, 2, 3, 4, 5]
def audioNets : List Nat := [0, 1, 2, 5]

/-- A layer is well formed after the tensors in `written`. -/
def Layer.ok (l : Layer) (ts : List TensorEntry) (consts tables : Bytes) (kind recipe : Nat) (written : List Nat) : Bool :=
  let role (t : Nat) := (ts[t]?.map (·.role)).getD 4
  (if kind = 1 then videoNets else audioNets).contains (leAt l.raw 0 1) && decide (leAt l.raw 1 1 < 2) && zeroAt l.raw 0x14 12 &&
  decide (l.tid 6 ≠ noTensor) &&
  (l.reads ++ l.writes).all (fun t => decide (t < ts.length)) &&
  l.writes.all (fun t => decide (role t = 0) || (decide (role t = 2) && !written.contains t)) &&
  l.reads.all (fun t => decide (role t ≠ 0) || written.contains t) &&
  !l.templateFails ts consts tables recipe

/-- Index of the first layer that is not well formed. -/
def firstBadLayer (ts : List TensorEntry) (consts tables : Bytes) (kind recipe : Nat) : List Layer → Nat → List Nat → Option Nat
  | [], _, _ => none
  | l :: rest, i, written =>
    if l.ok ts consts tables kind recipe written then firstBadLayer ts consts tables kind recipe rest (i + 1) (written ++ l.writes)
    else some i

/-- Section offset of the first failing entry of a program section. -/
def programFault (pkg : Bytes) : Option Nat :=
  let sec := pkgSectionBytes pkg 0
  let nt := leAt sec 0 2
  let nl := leAt sec 2 2
  let tOff := leAt sec 4 4
  let lOff := leAt sec 8 4
  let cOff := leAt sec 0xC 4
  let cLen := leAt sec 0x10 4
  if nt = 0 || 4096 < nt then some 0
  else if nl = 0 || 8192 < nl then some 2
  else if sec.length < tOff + 16 * nt then some 4
  else if sec.length < lOff + 160 * nl then some 8
  else if sec.length < cOff + cLen then some 0xC
  else if !zeroAt sec 0x14 12 then some 0x14
  else
    let ts := tensorEntries sec
    let dup (i : Nat) : Bool :=
      match ts[i]? with
      | some e => decide (e.role = 2) && (ts.take i).any (fun x => decide (x.role = 2) && decide (x.binding = e.binding))
      | none => false
    match (List.range ts.length).find? (fun i => !(ts.getD i ⟨0, 0, 0, 0, 0, 0, 0, 0, 0⟩).ok cLen || dup i) with
    | some i => some (tOff + 16 * i)
    | none =>
      let layers := (List.range nl).map (fun i => ({ raw := slice sec (lOff + 160 * i) 160 } : Layer))
      (firstBadLayer ts (slice sec cOff cLen) (pkgSectionBytes pkg 1) (leAt pkg 6 1) (leAt pkg 7 1) layers 0 []).map (fun i => lOff + 160 * i)

/-! ## Checks (R434) -/

/-- The key that the header names accepts the public key, and the signature verifies. -/
def State.packageTrusted (s : State) (pkg : Bytes) (sigOk : Bool) : Bool :=
  let ks := leAt pkg 8 1
  keyAccepted (Tab.get [] s.fuses.modelKeys ks) (s.fuses.modelRevoked.getLsbD ks) (slice pkg 0x10 64) && sigOk

/-- Checks of a package's content, in R434's order. -/
def contentChecks (pkg : Bytes) : List (Bool × Answer) :=
  let fail (f : Option Nat) : Bool × Answer := (f.isSome, refusal stBadArg (f.getD 0))
  [(decide (leAt pkg 7 1 ≠ 1 ∧ leAt pkg 7 1 ≠ 2), refusal stUnsupportedRecipe 0), fail (entropyFault pkg), fail (userTableFault pkg),
   fail (programFault pkg)]

def packageChecks (pkg : Bytes) (length : Nat) : List (Bool × Answer) :=
  let fail (f : Option Nat) : Bool × Answer := (f.isSome, refusal stBadArg (f.getD 0))
  [(decide (length ≠ leAt pkg 0xC 4), refusal stBadArg 8), fail (pkgHeaderFault pkg), fail (pkgSectionFault pkg)]

/-- A bound session names a model slot. -/
def State.modelInUse (s : State) (slot : Nat) : Bool := s.sessions.any (fun e => e.2.bound && decide (e.2.plan.modelSlot = slot))

/-- Installs a verified package: the slot, MR4, MODEL_LOADED (R434, R435). -/
def State.installModel (s : State) (slot source : Nat) (pkg : Bytes) : State :=
  let h := modelHash pkg
  let kind := leAt pkg 6 1
  let recipe := leAt pkg 7 1
  let s := { s with models := Tab.set {} s.models slot { package := pkg, hash := h, kind := kind, recipe := recipe } }
  let s := s.extendMr 4 source (slot + 65536 * recipe + 2 ^ 24 * kind) (shake256 (h ++ natLE 2 slot ++ natLE 1 recipe) 64)
  s.moduleEvent 0 0x0035 0 (leNat (h.take 8))

/-- Bytes of the flash model store (R418). -/
def modelStoreBytes : Nat := 39 * 1048576

/-- A free place for a package in the flash model store: the lowest. -/
def modelPlace (used : List (Nat × Nat)) (n : Nat) : Option Nat :=
  let starts := 0 :: used.map (fun u => u.1 + u.2)
  let ok := starts.filter (fun o => decide (o + n ≤ modelStoreBytes) && !used.any (fun u => decide (o < u.1 + u.2) && decide (u.1 < o + n)))
  ok.foldl (fun best o => match best with | none => some o | some b => some (min b o)) none

/-- Writes a package into the flash and its index entry; none where the store lacks room. -/
def Flash.persist (f : Flash) (slot : Nat) (pkg : Bytes) : Option Flash :=
  let used := (f.models.filter (fun e => e.2.used && decide (e.1 ≠ slot))).map (fun e => (e.2.offset, e.2.length))
  (modelPlace used pkg.length).map (fun o =>
    { f with models := Tab.set {} f.models slot { used := true, hash := modelHash pkg, offset := o, length := pkg.length, package := pkg } })

/-- MODEL_REFUSED (R445). -/
def State.modelRefused (s : State) (a : Answer) (slot : Nat) : State :=
  s.moduleEvent 2 0x0036 0 (a.status + 2 ^ 8 * (a.detail % 2 ^ 32) + 2 ^ 40 * (slot % 256))

/-- The answer to a package that passed every check. -/
def State.loadModel (s : State) (p k slot : Nat) (persist : Bool) (pkg : Bytes) : State :=
  let s := s.installModel slot 4 pkg
  let resp := modelHash pkg ++ natLE 1 (leAt pkg 6 1)
  if !persist then s.answer p k { resp := resp }
  else
    match s.flash.persist slot pkg with
    | none => s.answer p k { status := stNoResource, resp := resp }
    | some f => ({ s with flash := f }).answer p k { resp := resp }

/-- MODEL_LOAD (R434). -/
def execModelLoad (dt : Nat) (p : Port) (k : Slot) (sigOk : Bool) (s : State) : Result :=
  s.mailboxRow dt p k (isOpcode 0x10) (fun s req =>
    let addr := leAt req 0 8
    let slot := leAt req 12 2
    let got := s.fetchForm addr (leAt req 8 4)
    let pkg := got.getD []
    s.checked p.val k.val (s.ownerChecks p.val k.val 16) (fun s =>
      match firstFail ([(addrBad addr, refusal stBadArg 0), (decide (31 < slot), refusal stBadArg 12),
          (decide (2 ≤ leAt req 14 2), refusal stBadArg 14), tailZero req 16, s.handoverBusy, (got.isNone, refusal stBadArg 0)] ++
          packageChecks pkg (leAt req 8 4) ++
          [(s.modelInUse slot, refusal stBusy 0), (!s.packageTrusted pkg sigOk, refusal stAuthFail 0)] ++ contentChecks pkg) with
      | some a => (s.modelRefused a slot).answer p.val k.val a
      | none => s.loadModel p.val k.val slot (bitAt (leAt req 14 2) 0) pkg))

/-- MODEL_RELOAD: one persisted package after boot, verified as a MODEL_LOAD is; a failure leaves the slot empty and keeps the
index entry (R434). -/
def execModelReload (dt : Nat) (model : Fin 32) (sigOk : Bool) (s : State) : Result :=
  s.event dt (fun s => s.power.running && decide (s.boot.stage = 4) && s.security.reloading.contains model.val) (fun s =>
    let e := Tab.get {} s.flash.models model.val
    let s := { s with security := { s.security with reloading := s.security.reloading.filter (· ≠ model.val) } }
    match firstFail (packageChecks e.package e.length ++ [(!s.packageTrusted e.package sigOk, refusal stAuthFail 0)] ++ contentChecks e.package) with
    | some _ => s.moduleEvent 2 0x0037 (logArg 0 model.val) 0
    | none => s.installModel model.val 5 e.package)

/-- MODEL_UNLOAD: the slot and its index entry go (R434). -/
def execModelUnload (dt : Nat) (p : Port) (k : Slot) (s : State) : Result :=
  s.mailboxRow dt p k (isOpcode 0x11) (fun s req =>
    let slot := leAt req 0 2
    s.checked p.val k.val
      (s.ownerChecks p.val k.val 4 ++
        [(decide (31 < slot), refusal stBadArg 0), reservedAt req 2 2, tailZero req 4, s.handoverBusy,
         (s.modelInUse slot, refusal stBusy 0),
         (decide ((Tab.get {} s.models slot).package = []) && !(Tab.get {} s.flash.models slot).used, refusal stModelUnknown 0)])
      (fun s =>
        ({ s with
            models := Tab.set {} s.models slot {}
            flash := { s.flash with models := Tab.set {} s.flash.models slot {} }
            security := { s.security with reloading := s.security.reloading.filter (· ≠ slot) } }).answer p.val k.val {}))

/-- MODEL_LIST: per slot the hash, the recipe and the kind (R337). -/
def State.modelList (s : State) : Bytes :=
  (List.range 32).flatMap (fun i =>
    let m : ModelSlot := Tab.get {} s.models i
    slice m.hash 0 64 ++ natLE 1 m.recipe ++ natLE 1 m.kind)

def execModelList (dt : Nat) (p : Port) (k : Slot) (s : State) : Result :=
  s.mailboxRow dt p k (isOpcode 0x12) (fun s req =>
    s.checked p.val k.val (s.anyChecks p.val k.val 0 req) (fun s => s.answer p.val k.val { resp := s.modelList }))

end Sys2Proof.Machine
end

