-- ==== Sys2Proof/Machine/Flags.lean ====
section
/-! DEFINITION. The trouble counters of R62 and R63, the writing of output elements, and the completion record (R98, R101). -/

namespace Sys2Proof.Machine

/-- What executing a descriptor leaves: scratch, what each element of Z counted in the order written (R62), the operands flushed,
rows whose variance was clamped (R132), the lanes after a micro-program, and whether a finisher found its regions broken (R70). -/
structure Done where
  scratch : Mem
  counts : List ElemCount := []
  flushedIn : Nat := 0
  cancelRows : Nat := 0
  lanes : Option (List LaneRegs) := none
  broken : Bool := false
  deriving DecidableEq, Repr

/-- Writes patterns into a tensor from its first element on. -/
def TensorRef.writeFrom (t : TensorRef) : Nat → List Nat → Mem → Mem
  | _, [], m => m
  | i, p :: ps, m => t.writeFrom (i + 1) ps (Mem.writeLE m (t.addr i) t.size p)

/-- Converts and writes the elements of Z, counting each once (R44, R62, R457). -/
def Desc.emit (d : Desc) (m : Mem) (elems : List (Conv × Num)) : Mem × List ElemCount :=
  let outs := elems.map (fun e => e.1.write d.z.fmt e.2)
  (d.z.writeFrom 0 (outs.map (·.1)) m, outs.map (·.2))

/-- A tensor's elements as operands, with the number that R40 flushed. -/
def TensorRef.load (t : TensorRef) (m : Mem) : List Num × Nat :=
  let es := (List.range t.count).map (fun i => loadElem t.fmt (t.pattern m i))
  (es.map (·.1), (es.filter (·.2)).length)

def cap32 (n : Nat) : Nat := min n 0xFFFFFFFF

/-- Elements that counted something. -/
def Done.num (w : Done) (p : ElemCount → Bool) : Nat := cap32 (w.counts.filter p).length

/-- The record of a completed descriptor (R98); a finisher whose regions break the chain completes with BAD_K_SPLIT. -/
def Done.record (w : Done) (d : Desc) (cycles : W32) : Record :=
  { tag := BitVec.ofNat 32 (d.u 4 4)
    status := if w.broken then csBadKSplit else csOK
    opcode := d.opcode, recipe := d.recipe, cycles := cycles
    elements := cap32 w.counts.length, saturated := w.num (·.saturated), flushedIn := cap32 w.flushedIn
    flushedOut := w.num (·.flushedOut), nan := w.num (·.nan), inf := w.num (·.inf), quantClipped := w.num (·.clipped)
    clipShare := if d.opcode = dQUANT then shareClipped (w.num (·.clipped)) w.counts.length else 0
    detail := if w.broken then d.splitAt.partAt else 0
    cinchAfter := d.cinchAfter }

/-- What is kept of a descriptor until its record is written. -/
def Done.running (w : Done) (d : Desc) : Running :=
  { banks := d.banks, zBase := d.z.base, zRow := d.z.w * d.z.c, zRowBytes := d.z.rowBytes, zSize := d.z.size, counts := w.counts }

/-- The record of a refused descriptor (R99). -/
def Desc.refusedRecord (d : Desc) (off status : Nat) (cycles : W32) : Record :=
  { tag := BitVec.ofNat 32 (d.u 4 4), status := status, opcode := d.opcode, recipe := d.recipe, cycles := cycles, detail := off, ran := false
    cinchAfter := d.cinchAfter }

/-- The 64 bytes of a completion record. -/
def Record.bytes (r : Record) (die core : Nat) : Bytes :=
  natLE 4 r.tag.toNat ++ natLE 1 r.status ++ natLE 1 r.opcode ++ natLE 1 r.recipe ++ [0] ++ natLE 4 r.cycles.toNat ++
  natLE 4 r.elements ++ natLE 4 r.saturated ++ natLE 4 r.flushedIn ++ natLE 4 r.flushedOut ++ natLE 4 r.nan ++ natLE 4 r.inf ++
  natLE 4 r.quantClipped ++ natLE 2 r.clipShare ++ natLE 2 r.detail ++ natLE 2 (core + 256 * die) ++ zeros 10 ++ natLE 8 r.tDone

/-- CD_CORE_STATUS (R101). -/
def Core.statusReg (c : Core) : Nat :=
  b2n c.finishing.isSome + 2 * b2n c.stopped + 4 * c.queue.length + 256 * c.lastStatus + 65536 * c.retiredCount

end Sys2Proof.Machine
end

