-- ==== Sys2Proof/Machine/Matrix.lean ====
section
/-! DEFINITION. CONV, MATMUL and POOL: windows and padding (R73 to R76), dot products under both recipes (R47 to R60), split
reductions (R70) and pooling (R81). -/

namespace Sys2Proof.Machine

/-! ## Dot products -/

/-- A float product, rounded once to FP32 (R48). -/
def productsOf (a b : List Num) : List Num := (a.zip b).map (fun p => Num.mul fp32 p.1 p.2)

def foldSum (l : List Num) : Num := l.foldl (Num.add fp32) .zero

/-- Elements whose index is l modulo n, ascending. -/
def residue (n l : Nat) (xs : List Num) : List Num :=
  ((List.range xs.length).zip xs).filterMap (fun p => if p.1 % n = l then some p.2 else none)

/-- The pass result of R52. -/
def passResult (ps : List Num) : Num :=
  let s (j : Nat) := foldSum (residue 8 j ps)
  let t (j : Nat) := Num.add fp32 (s j) (s (j + 4))
  let u (j : Nat) := Num.add fp32 (t j) (t (j + 2))
  Num.add fp32 (u 0) (u 1)

/-- Cuts a list into consecutive pieces of `n`. -/
def chunks {α : Type} (n : Nat) : Nat → List α → List (List α)
  | 0, _ => []
  | k + 1, l => if l.isEmpty then [] else l.take n :: chunks n k (l.drop n)

/-- Pass results of products whose first term starts a pass. -/
def passResults (ps : List Num) : List Num := (chunks 512 (ps.length + 1) ps).map passResult

/-- One level of the merge tree of R53. -/
def mergeLevel : List Num → List Num
  | a :: b :: rest => Num.add fp32 a b :: mergeLevel rest
  | l => l

/-- The merge of R53. -/
def mergePasses : Nat → List Num → Num
  | 0, l => l.headD .zero
  | n + 1, l => if l.length ≤ 1 then l.headD .zero else mergePasses n (mergeLevel l)

def mergeAll (l : List Num) : Num := mergePasses l.length l

/-- A short-float dot product (R52, R53, R55). -/
def dotFloat (recipe : Nat) (a b : List Num) : Num :=
  let ps := productsOf a b
  if recipe = 1 then foldSum ps else mergeAll (passResults ps)

/-- Truncation towards zero to eight significant bits (R59). -/
def truncate8 : Ext → Ext
  | .fin n m e =>
    let len := Nat.log2 m + 1
    if len ≤ 8 then .fin n m e else .fin n (m / 2 ^ (len - 8)) (e + (len - 8 : Nat))
  | x => x

/-- A piece in BF16: below 2^-126 it is flushed to zero of its sign, and counts. -/
def flushPiece (x : Ext) : Ext × Nat :=
  match x with
  | .fin n m e => if m ≠ 0 && Ext.lt (.fin false m e) (.fin false 1 (-126)) then (.zero n, 1) else (.fin n m e, 0)
  | y => (y, 0)

/-- The three pieces of an FP32 operand, and how many were flushed (R59). -/
def split3 (x : Num) : Num × Num × Num × Nat :=
  if !x.v.isFin then (x, .zero, .zero, 0)
  else
    let hi := truncate8 x.v
    let r := x.v.sub hi
    let mid := truncate8 r
    let lo := r.sub mid
    let (h, n1) := flushPiece hi
    let (m, n2) := flushPiece mid
    let (l, n3) := flushPiece lo
    (.ofExt h, .ofExt m, .ofExt l, n1 + n2 + n3)

/-- Pieces of both operands in the six passes of R60: 0 hi, 1 mid, 2 lo. -/
def splitPairs : List (Nat × Nat) := [(2, 0), (0, 2), (1, 1), (1, 0), (0, 1), (0, 0)]

def pieceOf (i : Nat) (x : Num) : Num :=
  let (h, m, l, _) := split3 x
  if i = 0 then h else if i = 1 then m else l

def piecesOf (i : Nat) (xs : List Num) : List Num := xs.map (pieceOf i)

/-- A split-precision dot product (R60). -/
def dotSplit (recipe : Nat) (a b : List Num) : Num :=
  if recipe = 1 then foldSum (splitPairs.flatMap (fun p => productsOf (piecesOf p.1 a) (piecesOf p.2 b)))
  else foldSum (splitPairs.map (fun p => mergeAll (passResults (productsOf (piecesOf p.1 a) (piecesOf p.2 b)))))

def Num.toInt (x : Num) : Int := x.v.toInt?.getD 0

/-- An integer dot product, exact (R50). -/
def dotInt (a b : List Num) : Int := ((a.zip b).map (fun p => p.1.toInt * p.2.toInt)).sum

/-- A dot product by form. -/
def dotForm (form recipe : Nat) (a b : List Num) : Num :=
  match form with
  | 2 => .ofExt (.ofInt (dotInt a b))
  | 1 => dotSplit recipe a b
  | _ => dotFloat recipe a b

/-! ## Windows (R73, R74) -/

/-- What one tap of a window reads. -/
inductive WinTap
  | pixel (i : Nat) (inPicture : Bool)
  | zero
  | const
  deriving DecidableEq, Repr

/-- A coordinate mapped into [0, n): none when padding takes the zero or constant value. -/
def mapCoord (i : Int) (n mode : Nat) : Option Nat :=
  if 0 ≤ i && i < n then some i.toNat
  else if mode = 2 then some (if i < 0 then 0 else n - 1)
  else if mode = 3 then
    if n ≤ 1 then some 0
    else
      let p := 2 * n - 2
      let j := (i.emod p).toNat
      some (if n ≤ j then p - j else j)
  else none

/-- The tap (ky, kx) of output position (oy, ox). -/
def Desc.tap (d : Desc) (oy ox ky kx : Nat) : WinTap :=
  let iy : Int := (oy * d.strideY + ky * d.dilY : Nat) - (d.padTop : Int)
  let ix : Int := (ox * d.strideX + kx * d.dilX : Nat) - (d.padLeft : Int)
  let inside := decide (0 ≤ iy) && decide (iy < d.x.h) && decide (0 ≤ ix) && decide (ix < d.x.w)
  match mapCoord iy d.x.h d.padMode, mapCoord ix d.x.w d.padMode with
  | some y, some x => .pixel (y * d.x.w + x) inside
  | _, _ => if d.padMode = 1 then .const else .zero

/-- Taps of an output position in ascending (ky, kx). -/
def Desc.taps (d : Desc) (oy ox : Nat) : List WinTap :=
  (List.range d.kh).flatMap (fun ky => (List.range d.kw).map (fun kx => d.tap oy ox ky kx))

/-- Output positions in row-major order. -/
def Desc.positions (d : Desc) : List (Nat × Nat) :=
  (List.range d.hOut).flatMap (fun oy => (List.range d.wOut).map (fun ox => (oy, ox)))

/-- `pad_value` as an operand, and whether R40 flushed it (R90). -/
def Desc.padElem (d : Desc) : Num × Bool :=
  loadElem d.x.fmt (if d.x.fmt = fmtFP32 then d.padValue * 65536 else if d.x.fmt = fmtINT8 then d.padValue % 256 else d.padValue)

/-- The value of channel c at a tap. -/
def tapValue (xs : List Num) (pad : Num) (cin c : Nat) : WinTap → Num
  | .pixel i _ => xs.getD (i * cin + c) .zero
  | .zero => .zero
  | .const => pad

/-! ## Flushed inputs (R59, R62) -/

/-- What one element of a matrix operand adds to `flushed_in`. -/
def flushCount (form : Nat) (e : Num × Bool) : Nat := if form = 1 then (split3 e.1).2.2.2 else b2n e.2

def TensorRef.elems (t : TensorRef) (m : Mem) : List (Num × Bool) := (List.range t.count).map (fun i => loadElem t.fmt (t.pattern m i))

/-- Terms a descriptor computes: all of them, or a producer's. -/
def Desc.kRange (d : Desc) : Nat × Nat := if d.split = 1 then (d.kFirst, d.kFirst + d.kCount) else (0, d.kTotal)

/-- Term k of a CONV reads element j of X somewhere. -/
def Desc.readsElem (d : Desc) (taps : List (List WinTap)) (j : Nat) : Bool :=
  let (k0, k1) := d.kRange
  let px := j / d.x.c
  let ch := j % d.x.c
  taps.any (fun ts => ((List.range ts.length).zip ts).any (fun (t, tap) =>
    (match tap with | .pixel i _ => decide (i = px) | _ => false) && decide (k0 ≤ t * d.x.c + ch) && decide (t * d.x.c + ch < k1)))

/-- Padding taps that read `pad_value`, once per tap. -/
def Desc.constTaps (d : Desc) (taps : List (List WinTap)) : Nat :=
  let (k0, k1) := d.kRange
  (taps.map (fun ts => (((List.range ts.length).zip ts).filter (fun (t, tap) =>
    decide (tap = .const) && decide (k0 < (t + 1) * d.x.c) && decide (t * d.x.c < k1))).length)).sum

/-- Flushed elements of Y among the terms computed. -/
def Desc.flushedY (d : Desc) (ye : List (Num × Bool)) : Nat :=
  let (k0, k1) := d.kRange
  ((((List.range ye.length).zip ye).filter (fun (i, _) => decide (k0 ≤ i / d.cols) && decide (i / d.cols < k1))).map
    (fun p => flushCount d.form p.2)).sum

/-! ## Products of rows and columns -/

/-- Rows of the A operand and the flushed inputs. -/
def Desc.matrixRows (d : Desc) (m : Mem) : List (List Num) × Nat :=
  let xe := d.x.elems m
  let xs := xe.map (·.1)
  let ye := d.y.elems m
  if d.opcode = dCONV then
    let taps := d.positions.map (fun p => d.taps p.1 p.2)
    let pad := d.padElem
    let rows := taps.map (fun ts => ts.flatMap (fun t => (List.range d.x.c).map (fun c => tapValue xs pad.1 d.x.c c t)))
    let fx := (((List.range xe.length).zip xe).filter (fun (j, _) => d.readsElem taps j)).map (fun p => flushCount d.form p.2)
    (rows, fx.sum + flushCount d.form pad * d.constTaps taps + d.flushedY ye)
  else
    let (k0, k1) := d.kRange
    let rows := (List.range d.x.h).map (fun r => (xs.drop (r * d.x.c)).take d.x.c)
    let fx := (((List.range xe.length).zip xe).filter (fun (j, _) => decide (k0 ≤ j % d.x.c) && decide (j % d.x.c < k1))).map
      (fun p => flushCount d.form p.2)
    (rows, fx.sum + d.flushedY ye)

/-- Columns of the B operand: weight row k of column n. -/
def Desc.matrixCols (d : Desc) (m : Mem) : List (List Num) :=
  let ys := (d.y.elems m).map (·.1)
  (List.range d.cols).map (fun n => (List.range d.kTotal).map (fun k => ys.getD (k * d.cols + n) .zero))

/-- The conversion of output channel n (R86). -/
def Desc.convOf (d : Desc) (m : Mem) (n : Nat) : Conv :=
  if d.chanSb then
    { d.conv with scale := fp32.decode (Mem.readLE m (d.sbBase + 8 * n) 4), bias := fp32.decode (Mem.readLE m (d.sbBase + 8 * n + 4) 4) }
  else d.conv

/-! ## The expansion bank (R77, R79, R80) -/

/-- The pattern that a tap writes for channel c: the element it reads, +0, or `pad_value` (R74). -/
def Desc.tapPattern (d : Desc) (m : Mem) (c : Nat) : WinTap → Nat
  | .pixel i _ => d.x.pattern m (i * d.x.c + c)
  | .zero => 0
  | .const => if d.x.fmt = fmtINT8 then d.padValue % 256 else d.padValue

/-- The bytes of an output position's row of pass q: its terms in ascending k (R51). -/
def Desc.expandRow (d : Desc) (m : Mem) (taps : List WinTap) (q : Nat) : Bytes :=
  let (k0, k1) := d.kRange
  let first := k0 + 512 * q
  ((List.range (min 512 (k1 - first))).map (fun j =>
    natLE d.x.size (d.tapPattern m ((first + j) % d.x.c) (taps.getD ((first + j) / d.x.c) .zero)))).flatten

/-- What the engine fills, in order, as (position tile, pass, chunk): two chunk pairs in turn, all four chunks for one tile, or a
ring of four over every Cout tile (R80). Only the last four position tiles are listed: they overwrite every byte that an earlier one
left in the chunks. -/
def expandPlan (tiles couts n : Nat) : List (Nat × Nat × Nat) :=
  let late := (List.range tiles).drop (tiles - 4)
  if n ≤ 4 then late.flatMap (fun p => (List.range n).map (fun q => (p, q, if n ≤ 2 then 2 * (p % 2) + q else q)))
  else late.flatMap (fun p => (List.range (couts * n)).map (fun j => (p, j % n, (p * couts * n + j) % 4)))

/-- The copy that an expanded CONV leaves in its expansion bank (R79); X is read as it stood before. -/
def Desc.expand (d : Desc) (m : Mem) (tick : Nat) : Mem :=
  let base := 65536 * d.expandBank
  if d.opcode ≠ dCONV || d.bypass then m
  else if d.form = 1 then Mem.writeBytes m base ((List.range 65536).map (Config.freeExpandByte tick))
  else
    let n := passCount (d.kRange.2 - d.kRange.1)
    let rows := d.positions.map (fun p => d.taps p.1 p.2)
    (expandPlan (ceilDiv rows.length 16) (ceilDiv d.cols 16) n).foldl (fun acc (p, q, chunk) =>
      ((List.range 16).zip ((rows.drop (16 * p)).take 16)).foldl (fun acc (i, ts) =>
        Mem.writeBytes acc (base + 16384 * chunk + 1024 * i) (d.expandRow m ts q)) acc) m

/-! ## Producers and finishers (R70) -/

def fp32Bytes (x : Num) : Bytes := natLE 4 (fp32.encode x.v)

/-- Cells of a tile, as indices (row, column) of the product. -/
def tileCells (tr tc : Nat) : List (Nat × Nat) :=
  (List.range 16).flatMap (fun i => (List.range 16).map (fun j => (tr * 16 + i, tc * 16 + j)))

/-- A cell's pass results by pair, over the producer's terms. -/
def cellPasses (form : Nat) (a b : List Num) : List (List Num) :=
  if form = 1 then splitPairs.map (fun p => passResults (productsOf (piecesOf p.1 a) (piecesOf p.2 b)))
  else [passResults (productsOf a b)]

def stickyByte (ps : List (List Num)) : Byte :=
  BitVec.ofNat 8 (b2n (ps.any (fun l => l.any (·.inf))) + 2 * b2n (ps.any (fun l => l.any (·.nan))))

/-- The record of one tile. -/
def Desc.tileBytes (d : Desc) (rows cols : List (List Num)) (tr tc : Nat) : Bytes :=
  let (k0, k1) := d.kRange
  let live (r n : Nat) : Bool := decide (r < d.rows) && decide (n < d.cols)
  let a (r : Nat) := ((rows.getD r []).drop k0).take (k1 - k0)
  let b (n : Nat) := ((cols.getD n []).drop k0).take (k1 - k0)
  let cells := tileCells tr tc
  if d.form = 2 then cells.flatMap (fun (r, n) => natLE 8 (if live r n then unsigned 64 (dotInt (a r) (b n)) else 0))
  else
    let res := cells.map (fun (r, n) => if live r n then cellPasses d.form (a r) (b n) else [])
    let pairs := if d.form = 1 then 6 else 1
    (List.range pairs).flatMap (fun p => (List.range (passCount d.kCount)).flatMap (fun q =>
      res.flatMap (fun ps => fp32Bytes ((ps.getD p []).getD q .zero)))) ++ res.map stickyByte

/-- A producer's region: header, then the tile records with the column tile minor. -/
def Desc.producerRegion (d : Desc) (rows cols : List (List Num)) : Bytes :=
  natLE 4 d.kFirst ++ natLE 4 d.kCount ++ natLE 1 d.form ++ zeros 3 ++ natLE 4 d.tiles ++ zeros 48 ++
  (List.range (ceilDiv d.rows 16)).flatMap (fun tr => (List.range (ceilDiv d.cols 16)).flatMap (fun tc => d.tileBytes rows cols tr tc))

/-- Regions a finisher finds: address of each one's records and its pass count, when they chain from 0 to K and agree on form
and tiles. -/
def Desc.chain (d : Desc) (m : Mem) : Nat → Nat → Nat → List (Nat × Nat) → Option (List (Nat × Nat))
  | 0, _, k, acc => if k = d.kTotal then some acc.reverse else none
  | n + 1, at_, k, acc =>
    let kc := Mem.readLE m (at_ + 4) 4
    let np := passCount kc
    let size := 64 + d.tiles * tileRecord d.form np
    if Mem.readLE m at_ 4 = k && kc ≠ 0 && Mem.readLE m (at_ + 8) 1 = d.form && Mem.readLE m (at_ + 12) 4 = d.tiles &&
        at_ + size ≤ 524288 then
      d.chain m n (at_ + size) (k + kc) ((at_ + 64, np) :: acc)
    else none

/-- Sticky bits of a cell in a region's tile record. -/
def stickyAt (m : Mem) (recAt form np cell : Nat) : Nat :=
  if form = 2 then 0 else Mem.readLE m (recAt + (if form = 1 then 6 else 1) * np * 1024 + cell) 1

/-- Pass results of a cell for one pair, over all regions, in pass order. -/
def Desc.gathered (d : Desc) (m : Mem) (regs : List (Nat × Nat)) (tile cell p : Nat) : List Num :=
  regs.flatMap (fun (base, np) => (List.range np).map (fun q =>
    fp32Num (Mem.readLE m (base + tile * tileRecord d.form np + (p * np + q) * 1024 + 4 * cell) 4)))

/-- An output element of a finisher. -/
def Desc.finishCell (d : Desc) (m : Mem) (regs : List (Nat × Nat)) (r n : Nat) : Num :=
  let tile := (r / 16) * ceilDiv d.cols 16 + n / 16
  let cell := (r % 16) * 16 + n % 16
  if d.form = 2 then
    .ofExt (.ofInt ((regs.map (fun (base, _) => signed 64 (Mem.readLE m (base + tile * 2048 + 8 * cell) 8))).sum))
  else
    let st := regs.map (fun (base, np) => stickyAt m (base + tile * tileRecord d.form np) d.form np cell)
    let v := if d.form = 1 then foldSum ((List.range 6).map (fun p => mergeAll (d.gathered m regs tile cell p)))
             else mergeAll (d.gathered m regs tile cell 0)
    { v with inf := v.inf || st.any (fun b => bitAt b 0), nan := v.nan || st.any (fun b => bitAt b 1) }

/-- Output elements of a matrix product in row-major order. -/
def Desc.cellsOf (d : Desc) (m : Mem) (f : Nat → Nat → Num) : List (Conv × Num) :=
  (List.range d.rows).flatMap (fun r => (List.range d.cols).map (fun n => (d.convOf m n, f r n)))

/-- CONV and MATMUL (R47 to R60, R70, R79, R90, R91). -/
def Desc.runMatrix (d : Desc) (m : Mem) (tick : Nat) : Done :=
  if d.split = 2 then
    match d.chain m d.partialCount d.partialBase 0 [] with
    | none => { scratch := m, broken := true }
    | some regs =>
      let (m2, es) := d.emit m (d.cellsOf m (fun r n => d.finishCell m regs r n))
      { scratch := m2, counts := es }
  else
    let (rows, fin) := d.matrixRows m
    let cols := d.matrixCols m
    if d.split = 1 then { scratch := Mem.writeBytes (d.expand m tick) d.partialBase (d.producerRegion rows cols), flushedIn := fin }
    else
      let (m2, es) := d.emit (d.expand m tick) (d.cellsOf m (fun r n => dotForm d.form d.recipe (rows.getD r []) (cols.getD n [])))
      { scratch := m2, counts := es, flushedIn := fin }

/-! ## POOL (R81) -/

/-- One output element: taps in ascending order. -/
def Desc.poolCell (d : Desc) (vals : List Num) (inside : Nat) : Num :=
  match d.poolKind with
  | 0 => vals.tail.foldl Num.max (vals.headD .zero)
  | 1 => vals.tail.foldl Num.min (vals.headD .zero)
  | _ =>
    let divisor := if d.poolDiv = 1 && inside ≠ 0 then inside else d.kh * d.kw
    Num.div fp32 (foldSum vals) (numOf divisor 0)

def Desc.runPool (d : Desc) (m : Mem) : Done :=
  let xe := d.x.elems m
  let xs := xe.map (·.1)
  let pad := d.padElem
  let taps := d.positions.map (fun p => d.taps p.1 p.2)
  let elems := taps.flatMap (fun ts =>
    let inside := (ts.filter (fun t => match t with | .pixel _ i => i | _ => false)).length
    (List.range d.x.c).map (fun c => (d.conv, d.poolCell (ts.map (tapValue xs pad.1 d.x.c c)) inside)))
  let seen (px : Nat) : Bool := taps.any (fun ts => ts.any (fun t => match t with | .pixel i _ => decide (i = px) | _ => false))
  let fx := (((List.range xe.length).zip xe).filter (fun (j, e) => e.2 && seen (j / d.x.c))).length
  let consts := (taps.map (fun ts => (ts.filter (fun t => decide (t = .const))).length)).sum
  let (m2, es) := d.emit m elems
  { scratch := m2, counts := es, flushedIn := fx + b2n pad.2 * consts }

end Sys2Proof.Machine
end

