-- ==== Sys2Proof/Machine/Vector.lean ====
section
/-! DEFINITION. The vector operations: ELEM (R92), ACT (R115), SOFTMAX (R124 to R126), NORM (R128 to R130), SORT (R82, R83),
QUANT (R219, R220) and MICRO (R97, R116 to R119). -/

namespace Sys2Proof.Machine

/-- Elements of Z with one conversion block. -/
def Desc.finishVector (d : Desc) (m : Mem) (elems : List Num) (flushed : Nat) : Done :=
  let (m2, es) := d.emit m (elems.map (fun e => (d.conv, e)))
  { scratch := m2, counts := es, flushedIn := flushed }

/-! ## ELEM -/

def elemOp (op : Nat) (f : FpFmt) (a b : Num) : Num :=
  match op with
  | 0 => Num.add f a b
  | 1 => Num.sub f a b
  | 2 => Num.mul f a b
  | 3 => Num.max a b
  | _ => Num.min a b

def Desc.runElem (d : Desc) (m : Mem) : Done :=
  let bc := d.u 0x51 1
  let (xs, fx) := d.x.load m
  let (ys, fy) := if bc = 2 then ([], 0) else d.y.load m
  let wide := decide (d.x.fmt = fmtFP64) || (decide (bc ≠ 2) && decide (d.y.fmt = fmtFP64))
  let f := if wide then fp64 else fp32
  let yAt (i : Nat) : Num := if bc = 2 then .ofExt (d.f32 0x54) else ys.getD (if bc = 1 then i % d.x.c else i) .zero
  d.finishVector m (((List.range xs.length).zip xs).map (fun p => elemOp (d.u 0x50 1) f p.2 (yAt p.1))) (fx + fy)

/-! ## Micro-programs -/

/-- Runs a program over elements, sixteen lanes at a time: Z of each element, and the registers of the last group. -/
def runProgram (t : Mem) (prog : List (Nat × StepOps × Bool)) (regs : List LaneRegs) : List Num × List LaneRegs :=
  let outs := regs.map (fun r => r.run t prog)
  (outs.map (fun r => r.z.num), outs.drop ((outs.length - 1) / 16 * 16))

/-- MICRO. A flushed element of X, Y or a side tensor counts as flushed on input whether or not a step of the program reads it: the
spec does not say (DESIGN CHOICE, log entry 15). -/
def Desc.runMicro (d : Desc) (c : Core) : Done :=
  let m := c.scratch
  let (xs, fx) := d.x.load m
  let (ys, fy) := if d.y.present then d.y.load m else ([], 0)
  let side (o : Nat) : List Num × Nat := if d.side o ≠ 0 then (d.x.at (d.side o)).load m else ([], 0)
  let (a0, f0) := side 0x58
  let (a1, f1) := side 0x5C
  let at_ (l : List Num) (i : Nat) : LaneVal := (l.getD i .zero).lane
  let regs := (List.range xs.length).map (fun i => ({ x := at_ xs i, y := at_ ys i, aux0 := at_ a0 i, aux1 := at_ a1 i } : LaneRegs))
  let (zs, last) := runProgram c.sfu.table (programAt m (d.side 0x50) (d.u 0x54 2)) regs
  { d.finishVector m zs (fx + fy + f0 + f1) with lanes := some last }

/-! ## ACT -/

def Desc.runAct (d : Desc) (c : Core) : Done :=
  let m := c.scratch
  let func := d.u 0x50 1
  let bm := d.u 0x51 1
  let (xs, fx) := d.x.load m
  let ys := if bm = 1 then (d.y.load m).1 else []
  let biased := ((List.range xs.length).zip xs).map (fun (i, x) =>
    if bm = 1 then Num.add fp32 x (ys.getD (i % d.x.c) .zero)
    else if bm = 2 then Num.add fp32 x (.ofExt (d.f32 0x54)) else x)
  if func = 0xFF then
    let (zs, last) := runProgram c.sfu.table (programAt m (d.side 0x58) (d.u 0x5C 2)) (biased.map (fun v => ({ x := v.lane } : LaneRegs)))
    { d.finishVector m zs fx with lanes := some last }
  else d.finishVector m (biased.map (fnById func)) fx

/-! ## Row reductions (R54, R55) -/

/-- Lane sums halve: lane l adds lane l + n. -/
def halve : Nat → List Num → Num
  | 0, l => l.headD .zero
  | k + 1, l =>
    let n := 2 ^ k
    halve k ((List.range n).map (fun i => Num.add fp32 (l.getD i .zero) (l.getD (i + n) .zero)))

/-- A row sum: the lane fold and halving of recipe 2, or one fold under recipe 1. -/
def rowSum (recipe : Nat) (xs : List Num) : Num :=
  if recipe = 1 then foldSum xs else halve 4 ((List.range 16).map (fun l => foldSum (residue 16 l xs)))

/-- Rows of X, each along c. -/
def rowsOf (c : Nat) (xs : List Num) : List (List Num) := chunks c (xs.length + 1) xs

/-- 64-column tiles of a row (R124, R128). -/
def tilesOf (row : List Num) : List (List Num) := chunks 64 (row.length + 1) row

/-! ## SOFTMAX -/

/-- A row in progress: running maximum, sum, and the unnormalised outputs. -/
structure SoftRow where
  m : Num
  s : Num
  o : List Num
  first : Bool
  deriving DecidableEq, Repr

/-- One tile of R124. -/
def SoftRow.tile (recipe : Nat) (r : SoftRow) (a : List Num) : SoftRow :=
  let mt := a.tail.foldl Num.max (a.headD .zero)
  let mn := Num.max r.m mt
  let correct := !r.first && r.m.v.lt mn.v
  let cf := fnExp2 (Num.sub fp32 r.m mn)
  let s := if correct then Num.mul fp32 r.s cf else r.s
  let o := if correct then r.o.map (fun x => Num.mul fp32 x cf) else r.o
  let new := a.map (fun x => if x.v = .inf true then Num.zero.dep [x, mn] else fnExp2 (Num.sub fp32 x mn))
  { m := mn, s := Num.add fp32 s (rowSum recipe new), o := o ++ new, first := false }

/-- The outputs of a row (R124, R126). -/
def softmaxRow (recipe : Nat) (pre : Num) (row : List Num) : List Num :=
  let a := row.map (fun x => Num.mul fp32 x pre)
  let r := (tilesOf a).foldl (SoftRow.tile recipe) { m := .ofExt (.inf true), s := .zero, o := [], first := true }
  if r.s.v.isZero then r.o.map (fun x => Num.zero.dep [x, r.s])
  else
    let q := Num.div fp32 numOne r.s
    r.o.map (fun x => Num.mul fp32 x q)

def Desc.runSoftmax (d : Desc) (m : Mem) : Done :=
  let (xs, fx) := d.x.load m
  d.finishVector m ((rowsOf d.x.c xs).flatMap (softmaxRow d.recipe (.ofExt (d.f32 0x54)))) fx

/-! ## NORM -/

/-- A Welford state (R128). -/
structure Welford where
  k : Num
  mu : Num
  m2 : Num
  deriving DecidableEq, Repr

def Welford.empty : Welford := { k := .zero, mu := .zero, m2 := .zero }

/-- A state absorbs an element; root-mean-square omits d2 and M2. -/
def Welford.absorb (full : Bool) (st : Welford) (x : Num) : Welford :=
  let k := Num.add fp32 st.k numOne
  let d := Num.sub fp32 x st.mu
  let mu := Num.add fp32 st.mu (Num.div fp32 d k)
  let m2 := if full then Num.add fp32 st.m2 (Num.mul fp32 d (Num.sub fp32 x mu)) else st.m2
  { k := k, mu := mu, m2 := m2 }

/-- A ⊕ B. -/
def Welford.merge (full : Bool) (a b : Welford) : Welford :=
  if b.k.v.isZero then a
  else if a.k.v.isZero then b
  else
    let k := Num.add fp32 a.k b.k
    let delta := Num.sub fp32 b.mu a.mu
    let w := Num.div fp32 b.k k
    let mu := Num.add fp32 a.mu (Num.mul fp32 delta w)
    let p := Num.mul fp32 (Num.mul fp32 delta delta) (Num.div fp32 (Num.mul fp32 a.k b.k) k)
    { k := k, mu := mu, m2 := if full then Num.add fp32 (Num.add fp32 a.m2 b.m2) p else a.m2 }

/-- Lane states merge by halving, the lower lane as A. -/
def Welford.halve (full : Bool) : Nat → List Welford → Welford
  | 0, l => l.headD .empty
  | k + 1, l =>
    let n := 2 ^ k
    Welford.halve full k ((List.range n).map (fun i => (l.getD i .empty).merge full (l.getD (i + n) .empty)))

/-- The state of a tile. -/
def Welford.ofTile (recipe : Nat) (full : Bool) (xs : List Num) : Welford :=
  if recipe = 1 then xs.foldl (Welford.absorb full) .empty
  else Welford.halve full 4 ((List.range 16).map (fun l => (residue 16 l xs).foldl (Welford.absorb full) .empty))

/-- The state of a row: tiles merge in ascending order. -/
def Welford.ofRow (recipe : Nat) (full : Bool) (row : List Num) : Welford :=
  ((tilesOf row).map (Welford.ofTile recipe full)).foldl (Welford.merge full) .empty

/-- Sum of a row by tiles (R129). -/
def tiledSum (recipe : Nat) (row : List Num) : Num := foldSum ((tilesOf row).map (rowSum recipe))

/-- Mean, variance or mean square, and whether the variance was clamped (R128, R129). -/
def normStats (recipe kind path : Nat) (row : List Num) : Num × Num × Bool :=
  let sq := row.map (fun x => Num.mul fp32 x x)
  if path = 0 then
    if kind = 0 then
      let w := Welford.ofRow recipe true row
      (w.mu, Num.div fp32 w.m2 w.k, false)
    else (.zero, (Welford.ofRow recipe false sq).mu, false)
  else
    let c := numOf row.length 0
    let s2 := tiledSum recipe sq
    if kind = 0 then
      let mu := Num.div fp32 (tiledSum recipe row) c
      let var := Num.sub fp32 (Num.div fp32 s2 c) (Num.mul fp32 mu mu)
      let clamp := var.v.lt (.zero false) || (var.v.isZero && var.v.sign)
      (mu, if clamp then Num.zero.dep [var] else var, clamp)
    else (.zero, Num.div fp32 s2 c, false)

/-- The outputs of a row (R130), and whether its variance was clamped. -/
def normRow (recipe kind path : Nat) (eps : Num) (affine : Option (List (Num × Num))) (row : List Num) : List Num × Bool :=
  let (mu, var, clamp) := normStats recipe kind path row
  let r := Num.div fp32 numOne (Num.sqrt fp32 (Num.add fp32 var eps))
  let one (i : Nat) (x : Num) : Num :=
    let y := if kind = 0 then Num.mul fp32 (Num.sub fp32 x mu) r else Num.mul fp32 x r
    match affine with
    | none => y
    | some l =>
      let (g, o) := l.getD i (.zero, .zero)
      Num.add fp32 (Num.mul fp32 y g) o
  (((List.range row.length).zip row).map (fun p => one p.1 p.2), clamp)

def Desc.runNorm (d : Desc) (m : Mem) : Done :=
  let (xs, fx) := d.x.load m
  let ab := d.side 0x58
  let affine := if ab = 0 then none else
    some ((List.range d.x.c).map (fun i => (fp32Num (Mem.readLE m (ab + 8 * i) 4), fp32Num (Mem.readLE m (ab + 8 * i + 4) 4))))
  let rows := (rowsOf d.x.c xs).map (normRow d.recipe (d.u 0x50 1) (d.u 0x51 1) (.ofExt (d.f32 0x54)) affine)
  { d.finishVector m (rows.flatMap (·.1)) fx with cancelRows := (rows.filter (·.2)).length }

/-! ## SORT -/

/-- Score a ranks ahead of score b, both before index order decides (R83). -/
def ranksAhead (largest : Bool) (a b : Ext) : Bool :=
  if a.isNaN then false else if b.isNaN then true else if largest then b.lt a else a.lt b

/-- Inserts an entry behind those that rank ahead of it or equal to it. -/
def insertRanked (largest : Bool) (x : Nat × Ext) : List (Nat × Ext) → List (Nat × Ext)
  | [] => [x]
  | y :: ys => if ranksAhead largest x.2 y.2 then x :: y :: ys else y :: insertRanked largest x ys

def Desc.runSort (d : Desc) (m : Mem) : Done :=
  let k := d.u 0x50 2
  let (xs, fx) := d.x.load m
  let ranked := ((List.range xs.length).zip (xs.map (·.v))).foldl (fun l x => insertRanked (d.u 0x52 1 = 0) x l) []
  let top := ranked.take k
  let f := fmtFloat d.x.fmt
  let vals := top.flatMap (fun x => natLE d.x.size (f.encode x.2))
  let m2 := Mem.writeBytes (d.z.writeFrom 0 (top.map (·.1)) m) (d.side 0x54) vals
  { scratch := m2, counts := top.map (fun x => { nan := x.2.isNaN }), flushedIn := fx }

/-! ## QUANT -/

/-- The symbol of d = y - mu within the range: the symbol, and whether it was clipped (R219). -/
def quantSymbol (lo hi : Int) (d : Ext) : Int × Bool :=
  match d with
  | .nan => (0, false)
  | .inf n => (if n then lo else hi, true)
  | .fin _ _ _ =>
    let q := d.roundAway
    if q < lo then (lo, true) else if hi < q then (hi, true) else (q, false)

/-- The sigma index of R220. -/
def sigmaIndex (sg : Num) : Nat :=
  match sg.v with
  | .nan => 63
  | .inf n => if n then 0 else 63
  | .fin n m _ =>
    if n || m = 0 then 0
    else
      let t := Num.add fp32 (Num.mul fp32 (fnLog2 sg) (numOf 8 0)) (numOf 49 (-1))
      min 63 t.floor.index

def Desc.runQuant (d : Desc) (m : Mem) : Done :=
  let (xs, fx) := d.x.load m
  let (ys, fy) := d.y.load m
  let sig := decide (d.u 0x5C 1 = 1)
  let (sg, fs) := if sig then (d.x.at (d.side 0x54)).load m else ([], 0)
  let ds := (xs.zip ys).map (fun p => Num.sub fp32 p.1 p.2)
  let syms := ds.map (fun x => quantSymbol d.symLo d.symHi x.v)
  let all := if sig then (ds.zip sg).map (fun p => p.1.dep [p.2]) else ds
  let m1 := d.z.writeFrom 0 (syms.map (fun q => unsigned 16 q.1)) m
  let m2 := if sig then Mem.writeBytes m1 (d.side 0x58) (sg.map (fun x => BitVec.ofNat 8 (sigmaIndex x))) else m1
  { scratch := m2, counts := (all.zip syms).map (fun p => { nan := p.1.nan, inf := p.1.inf, clipped := p.2.2 })
    flushedIn := fx + fy + fs }

end Sys2Proof.Machine
end

