-- ==== Sys2Proof/Machine/Nets.lean ====
section
/-! DEFINITION. A model's networks, each layer its descriptor applied to whole tensors (R34, R176, R278, R430 to R433), and the values
that the pipeline forms between them: ẑ and ŷ (R221), sigma indices (R220). A cut's pleats, rings and seams give the same bits (R53,
R66, R162), so what a picture or a frame gets does not depend on its cut. -/

namespace Sys2Proof.Machine

/-! ## Quantities (R432) -/

/-- A quantity that a bound tensor connects to the pipeline: its element format, and its elements' patterns in row-major order. -/
structure Quantity where
  fmt : Nat := 0
  vals : List Nat := []
  deriving DecidableEq, Repr

/-- An exact value as a pattern of a format: R44 with the identity conversion. -/
def inFormat (k : Nat) (x : Num) : Nat := (({ scale := .ofInt 1, bias := .zero true, lo := .inf true, hi := .inf false } : Conv).write k x).1

/-- The patterns in another format. The spec does not say that a bound tensor has its quantity's format: one that has another is
converted by R44 without scale, bias or clip (DESIGN CHOICE, log entry 67). -/
def Quantity.as (q : Quantity) (k : Nat) : List Nat :=
  if q.fmt = k then q.vals else q.vals.map (fun v => inFormat k (loadElem q.fmt v).1)

/-- What the networks of one picture or frame have formed: patterns by tensor id, and quantities by binding. -/
structure Formed where
  tensors : Tab (List Nat) := []
  bound : Tab Quantity := []
  deriving DecidableEq, Repr

def Formed.bind (f : Formed) (b fmt : Nat) (vals : List Nat) : Formed := { f with bound := Tab.set {} f.bound b { fmt := fmt, vals := vals } }

/-- The first `n` elements of a quantity as operands. A package whose program forms no such element leaves it free: the spec states no
value for it (log entry 67). -/
def Formed.nums (f : Formed) (b n : Nat) : List Num :=
  let q := Tab.get {} f.bound b
  (List.range n).map (fun k => match q.vals[k]? with
    | some v => (loadElem q.fmt v).1
    | none => fp32Num (Config.freeQuantity b k).toNat)

/-- A quantity's elements as FP32 patterns. -/
def Formed.words (f : Formed) (b n : Nat) : List W32 := (f.nums b n).map (fun x => BitVec.ofNat 32 (fp32.encode x.v))

/-- A quantity's elements as 16-bit integers. -/
def Formed.ints (f : Formed) (b n : Nat) : List Int := (f.nums b n).map (fun x => signed 16 (inFormat fmtINT16 x))

/-! ## Programs (R430, R431, R433) -/

/-- A package's program section and user tables. -/
structure Program where
  entries : List TensorEntry
  layers : List Layer
  consts : Bytes
  tables : Bytes
  deriving DecidableEq, Repr

def programOf (pkg : Bytes) : Program :=
  let sec := pkgSectionBytes pkg 0
  { entries := tensorEntries sec
    layers := (List.range (leAt sec 2 2)).map (fun i => { raw := slice sec (leAt sec 8 4 + 160 * i) 160 })
    consts := slice sec (leAt sec 0xC 4) (leAt sec 0x10 4)
    tables := pkgSectionBytes pkg 1 }

def SeqFmt.geometry (f : SeqFmt) : Geometry := { width := f.codedW, height := f.codedH, subX := f.subX, subY := f.subY }

/-- A whole tensor, packed as R87 packs it. -/
def TensorEntry.ref (e : TensorEntry) (g : Geometry) (base : Nat) : TensorRef :=
  { base := base, c := e.chans g, w := e.w g, h := e.h g, pitch := 0, fmt := e.fmt }

/-- Elements of a constant tensor. The blob holds it as R87 stores a packed tensor: the spec states no other layout (DEDUCED, log
entry 67). -/
def TensorEntry.constant (e : TensorEntry) (g : Geometry) (consts : Bytes) : List Nat :=
  let t := e.ref g e.data
  (List.range t.count).map (fun i => leAt consts (t.addr i) t.size)

/-- Elements of a tensor: a constant's, a quantity's, or what a layer has written. -/
def Program.tensor (p : Program) (g : Geometry) (f : Formed) (t : Nat) : List Nat :=
  match p.entries[t]? with
  | none => []
  | some e =>
    if e.role = 3 then e.constant g p.consts
    else if e.role = 1 then (Tab.get {} f.bound e.binding).as e.fmt
    else Tab.get [] f.tensors t

/-- A layer writes a tensor; a bound output is a quantity too. -/
def Program.form (p : Program) (f : Formed) (t : Nat) (vals : List Nat) : Formed :=
  match p.entries[t]? with
  | none => f
  | some e =>
    let f := { f with tensors := Tab.set [] f.tensors t vals }
    if e.role = 2 then f.bind e.binding e.fmt vals else f

/-! ## Layers over whole tensors (R433) -/

/-- The effect of a descriptor by its operation (R85). -/
def Desc.run (d : Desc) (c : Core) : Done :=
  match d.opcode with
  | 1 => d.runMatrix c.scratch 0
  | 2 => d.runMatrix c.scratch 0
  | 3 => d.runPool c.scratch
  | 4 => d.runElem c.scratch
  | 5 => d.runAct c
  | 6 => d.runSoftmax c.scratch
  | 7 => d.runNorm c.scratch
  | 8 => d.runSort c.scratch
  | 9 => d.runQuant c.scratch
  | _ => d.runMicro c

/-- Each tensor of a layer lies in a window of its own, numbered by its id's place in the header; window 0 takes the expansion bank. -/
def windowOf (o : Nat) : Nat := o / 2
def windowBytes : Nat := 2 ^ 56
def windowAt (o : Nat) : Nat := windowOf o * windowBytes

/-- Places of the tensor ids that a layer reads: SORT writes the one at 0x10, which QUANT reads. -/
def Layer.inputs (l : Layer) : List Nat := [2, 4, 8, 0xA, 0xC, 0xE] ++ (if l.template.opcode = dSORT then [] else [0x10])

/-- The operands of a layer, each in its window. -/
def Program.operands (p : Program) (g : Geometry) (f : Formed) (l : Layer) : Mem :=
  l.inputs.foldl (fun m o => match p.entries[l.tid o]? with
    | none => m
    | some e => (e.ref g (windowAt o)).writeFrom 0 (p.tensor g f (l.tid o)) m) []

/-- Elements that an operation writes packed, without rows. -/
def Program.packed (p : Program) (g : Geometry) (l : Layer) (m : Mem) (o : Nat) : List Nat :=
  match p.entries[l.tid o]? with
  | none => []
  | some e => (List.range (e.count g)).map (fun i => Mem.readLE m (windowAt o + i * fmtSize e.fmt) (fmtSize e.fmt))

/-- One layer: its descriptor, filled for whole tensors, applied to them. -/
def Program.runLayer (p : Program) (g : Geometry) (f : Formed) (l : Layer) : Formed :=
  let d := l.fill p.entries g windowOf windowBytes
  let m := (d.run { scratch := p.operands g f l, sfu := { copies := Tab.set [] [] 0 (Mem.cells 0 p.tables) } }).scratch
  let f := p.form f (l.tid 6) ((List.range d.z.count).map (d.z.pattern m))
  let f := if d.opcode = dSORT then p.form f (l.tid 0x10) (p.packed g l m 0x10) else f
  if d.opcode = dQUANT then p.form f (l.tid 0x12) (p.packed g l m 0x12) else f

/-- Every tensor that a layer reads is formed. -/
def Program.ready (p : Program) (g : Geometry) (f : Formed) (l : Layer) : Bool := l.reads.all (fun t => !(p.tensor g f t).isEmpty)

/-- A network: its layers in table order. Network 5 holds layers of several stages; each runs once its operands are formed (DEDUCED, log
entry 67). -/
def Program.network (p : Program) (g : Geometry) (f : Formed) (net : Nat) : Formed :=
  (p.layers.filter (fun l => leAt l.raw 0 1 = net)).foldl (fun f l => if p.ready g f l then p.runLayer g f l else f) f

def Program.networks (p : Program) (g : Geometry) (f : Formed) (nets : List Nat) : Formed := nets.foldl (p.network g) f

/-- The symbols of the QUANT layer whose latents are the given quantity (R96; log entry 67): `n` of them. -/
def Program.symbols (p : Program) (f : Formed) (b n : Nat) : List Int :=
  let of (l : Layer) : Bool := decide (l.template.opcode = dQUANT) &&
    (p.entries[l.tid 2]?).any (fun e => (decide (e.role = 1) || decide (e.role = 2)) && decide (e.binding = b))
  let vals := match p.layers.find? of with
    | some l => Tab.get [] f.tensors (l.tid 6)
    | none => []
  (List.range n).map (fun k => signed 16 ((vals[k]?).getD (Config.freeQuantity b k).toNat % 65536))

/-- Multiply-accumulate operations of some networks (R69, R172). -/
def Program.macs (p : Program) (g : Geometry) (nets : List Nat) : Nat :=
  ((p.layers.filter (fun l => nets.contains (leAt l.raw 0 1))).map (fun l =>
    let d := l.fill p.entries g windowOf windowBytes
    if d.opcode = dCONV || d.opcode = dMATMUL then d.rows * d.cols * d.kTotal else 0)).sum

/-! ## Decoded latents (R220, R221) -/

/-- mu + q, or zm_c + q: one FP32 addition (R43, R221). -/
def addSymbol (mu : W32) (q : Int) : W32 := BitVec.ofNat 32 (fp32.encode (Num.add fp32 (fp32Num mu.toNat) (.ofExt (.ofInt q))).v)

/-- ẑ of each hyper position and channel: the mean of its channel and its symbol; the means alone where no symbol was coded or the
coded ones are lost (R205, R221, R260). -/
def hyperHat (means : List W32) (n : Nat) (q : Option (List Int)) : List W32 :=
  (List.range n).map (fun k =>
    let zm := means.getD (k % means.length) 0
    match q with
    | none => zm
    | some l => addSymbol zm (l.getD k 0))

/-- mu and the sigma index of each latent, from the quantities that hold mean and scale (R198, R220). -/
def Formed.meanScale (f : Formed) (mu sigma n : Nat) : List W32 × List Nat := (f.words mu n, (f.nums sigma n).map sigmaIndex)

end Sys2Proof.Machine
end

