-- ==== Sys2Proof/Machine/Gddr.lean ====
section
/-! DEFINITION. GDDR7 training, errors and the poison list, and the CXL ports (R363 to R371). -/

namespace Sys2Proof.Machine

/-! ## GDDR7 (R369 to R371) -/

/-- Boot training of every channel: in service unless it failed full training, seeded unless its seeds failed or there are none. -/
def State.trainChannels (s : State) (seedFail trainFail : List (Nat × Nat)) : State :=
  (List.range 32).foldl (fun s i =>
    let mc := (i / 8, i % 8)
    s.updChannel mc.1 mc.2 (fun c => { c with
      trained := !trainFail.contains mc, seeded := !s.boot.calInvalid && !seedFail.contains mc && !trainFail.contains mc })) s

/-- MEMORY_TRAINED: stage 3; a channel that failed full training fences its memory die from boot; the start-up self-check
retires every core that mismatched (R133, R369, R424). -/
def execMemoryTrained (dt : Nat) (seedFail trainFail : List (MemDie × Fin 8)) (mismatch : List (CoreDie × CoreIx)) (s : State) :
    Result :=
  s.event dt (fun s => s.power.running && decide (s.boot.stage = 2)) (fun s =>
    let nat (l : List (MemDie × Fin 8)) := l.map (fun x => (x.1.val, x.2.val))
    let s := s.trainChannels (nat seedFail) (nat trainFail)
    let s := { s with memory := { s.memory with trained := true }, boot := { s.boot with stage := 3 } }
    let s := trainFail.foldl (fun s x => s.fence (memDieIx x.1.val) 6) s
    mismatch.foldl (fun s x => if s.diePowered x.1.val then s.retire x.1.val x.2.val else s) s)

/-- A channel that can retrain: trained, its die in service. -/
def State.channelLive (s : State) (md ch : Nat) : Bool :=
  s.power.running && s.memory.trained && (s.channel md ch).trained && s.dieRuns (memDieIx md)

/-- GDDR7_RETRAIN: one more retraining; a second attempt sets `retrain_fail` (R369, R371). -/
def execGddr7Retrain (dt : Nat) (md : MemDie) (ch : Fin 8) (secondAttempt : Bool) (s : State) : Result :=
  s.event dt (fun s => s.channelLive md.val ch.val) (fun s =>
    s.updChannel md.val ch.val (fun c => { c with retrains := (c.retrains + 1) % 65536, retrainFail := c.retrainFail.raiseIf secondAttempt s.wall }))

/-- A corrected event (R370, R371). -/
def State.correctedEvent (s : State) (md ch : Nat) : State :=
  s.updChannel md ch (fun c => { c with corrected := min 0xFFFFF (c.corrected + 1) })

/-- The word enters the poison list unless the list is full (R370). -/
def State.poisonWord (s : State) (md w : Nat) : State :=
  { s with memory := { s.memory with poison := Tab.upd [] s.memory.poison md (fun l =>
      if l.contains w || decide (1024 ≤ l.length) then l else l ++ [w]) } }

/-- How an access error resolves (R370). -/
def State.gddrError (s : State) (md addr : Nat) : GddrError → State
  | .corrected => s.correctedEvent md (gddrChannelOf addr)
  | .uncorrectable => (s.poisonWord md (addr / 64)).uncorrectable md (gddrChannelOf addr)
  | .poisonedRead => if (s.poisonList md).contains (addr / 64) then s.uncorrectable md (gddrChannelOf addr) else s

/-- A GDDR7 offset lies in a memory die that serves. -/
def State.gddrLive (s : State) (md addr : Nat) : Bool := s.power.running && s.gddrServes addr && decide (gddrDie addr = md)

/-- GDDR7_ACCESS_ERROR at a GDDR7 offset. -/
def execGddr7AccessError (dt : Nat) (md : MemDie) (addr : Nat) (err : GddrError) (s : State) : Result :=
  s.event dt (fun s => s.gddrLive md.val addr) (fun s => s.gddrError md.val addr err)

/-- PATROL_SCRUB of one word: a word that needed correction is rewritten, an uncorrectable one is handled as an access error. -/
def execPatrolScrub (dt : Nat) (md : MemDie) (addr : Nat) (found : Option GddrError) (s : State) : Result :=
  s.event dt (fun s => s.gddrLive md.val addr) (fun s =>
    match found with
    | none => s
    | some e => s.gddrError md.val addr e)

/-- MD_GDDR_STATUS and MD_GDDR_ERR (R371). -/
def GddrChannel.status (c : GddrChannel) : Nat :=
  b2n c.trained + 2 * b2n c.seeded + 4 * b2n c.retrainFail.isSet + 65536 * c.retrains
def GddrChannel.err (c : GddrChannel) : Nat := c.corrected + 2 ^ 20 * c.uncorrectable

/-! ## CXL (R363 to R367) -/

def tib2 : Nat := 2 * 2 ^ 40

/-- Training ends in a mode of R363 at x4 or x8. -/
def cxlModeLegal (widthLog2 mode : Nat) : Bool :=
  (decide (mode = 1) || decide (mode = 2)) && (decide (widthLog2 = 2) || decide (widthLog2 = 3))

/-- CXL_PORT_UP: the expander is checked and HDM decoder 0 maps min(capacity, 2 TiB); a partner that is no Type 3 device leaves
`expander_ok` clear (R363, R365). -/
def execCxlPortUp (dt : Nat) (x : Fin 2) (widthLog2 : Fin 4) (mode : Fin 3) (type3 : Bool) (capacity : Nat) (s : State) : Result :=
  s.event dt (fun s => s.power.running && decide (2 ≤ s.boot.stage) && decide (s.boot.stage ≤ 4) && !(s.cxlPort x.val).linkUp &&
      cxlModeLegal widthLog2.val mode.val) (fun s =>
    let cap := if type3 then min capacity tib2 else 0
    s.updCxl x.val (fun c => { c with linkUp := true, widthLog2 := widthLog2.val, mode := mode.val, expanderOk := type3,
                                      capacity := cap, capacityGib := cap / gib, tries := 0 }))

/-- CXL port of a session's region (R297). -/
def CutPlan.onCxl (pl : CutPlan) (x : Nat) : Bool := decide (pl.cxlSize ≠ 0) && decide (pl.cxlPort = x)

/-- CXL_DOWN: the link drops; library entries on it are missing, and it is logged (R366). -/
def execCxlDown (dt : Nat) (x : Fin 2) (s : State) : Result :=
  s.event dt (fun s => s.power.running && (s.cxlPort x.val).linkUp) (fun s =>
    let s := s.updCxl x.val (fun c => { c with linkUp := false, widthLog2 := 0, mode := 0, expanderOk := false, capacity := 0,
                                               capacityGib := 0, portLost := Flag.raise s.wall, tries := 0, downAt := s.time })
    let s := { s with sessions := Tab.mapAll {} s.sessions (fun _ ss => if ss.plan.onCxl x.val then { ss with lib := ss.lib.filter (fun e => e.2.writing) } else ss) }
    s.moduleEvent 2 0x0014 (logArg x.val 0) 0)

/-- A retry is due: up to 3 within 1 s of the loss, then one every 10 s (R366). -/
def State.cxlRetryDue (s : State) (x : Nat) : Bool :=
  let c := s.cxlPort x
  s.power.running && !c.linkUp && c.portLost.isSet && (decide (c.tries < 3) || decide (c.downAt + 10000000000 ≤ s.time))

/-- CXL_RETRAIN: one attempt; a port that trains comes back through CXL_PORT_UP. -/
def execCxlRetrain (dt : Nat) (x : Fin 2) (s : State) : Result :=
  s.event dt (fun s => s.cxlRetryDue x.val) (fun s =>
    s.updCxl x.val (fun c => { c with tries := c.tries + 1, downAt := s.time }))

/-- A poisoned or uncorrectable read counts in HUB_CXL_POISON_x (R366, R367). -/
def State.cxlPoisoned (s : State) (x : Nat) : State := s.updCxl x (fun c => { c with poisoned := satAdd 0xFFFFFFFF c.poisoned 1 })

/-- HUB_CXL_STATUS_x (R367). -/
def CxlState.status (c : CxlState) : Nat :=
  b2n c.linkUp + 2 * c.widthLog2 + 16 * c.mode + 64 * b2n c.expanderOk + 128 * b2n c.portLost.isSet + 256 * c.capacityGib

end Sys2Proof.Machine
end

