-- ==== Sys2Proof/Machine/Cascade.lean ====
section
/-! DEFINITION. The cascade: flits and their link-level rules, ranks and routes, the master, link timing, mailbox messages, lost
links, and the deepen routes (R320 to R324, R372 to R388). -/

namespace Sys2Proof.Machine

/-! ## Flit types (R375) -/

def ftIdle : Nat := 0
def ftData : Nat := 1
def ftCtrl : Nat := 2
def ftTime : Nat := 3
def ftRetry : Nat := 4
def ftId : Nat := 5

/-- DATA, CTRL and TIME flits take a sequence number. -/
def sequenced (t : Nat) : Bool := decide (t = ftData) || decide (t = ftCtrl) || decide (t = ftTime)

def emptyFlit : Flit :=
  { vc := 0, vcSet := false, seq := 0, ack := 0, creditVc := 0, creditSet := false, credit := 0, srcRank := 0, dstRank := 0,
    target := 0, fec := 0, payload := [] }

/-- Index of a virtual channel and set in the credit tables. -/
def vcKey (set : Bool) (vc : Nat) : Nat := b2n set * 4 + vc

/-- The link die works: not fenced, powered, module running past its release from reset (R32, R380, R424). -/
def State.linkAlive (s : State) : Bool := s.power.running && s.dieRuns linkDie && decide (2 ≤ s.boot.stage) && decide (s.boot.stage ≤ 4)

def State.portUp (s : State) (q : Nat) : Bool := s.linkAlive && (s.cascadePort q).up

/-! ## Sending (R374, R376, R377) -/

/-- Puts a flit on a link, carrying the last sequence received in order. A sequenced flit takes the next number, a credit of its
channel, and a place in the replay buffer; without them, or behind a flit of its channel that waits, it waits. -/
def CascadePort.send (p : CascadePort) (t : Nat) (f : Flit) : CascadePort :=
  let g := { f with ack := Fin.ofNat 4096 p.rxSeq }
  if !sequenced t then { p with outQ := p.outQ ++ [(t, g)] }
  else
    let key := vcKey f.vcSet f.vc.val
    let credit := Tab.get 64 p.credits key
    if credit = 0 ∨ 2048 ≤ p.replayBuf.length ∨ p.waiting.any (fun e => decide (vcKey e.2.vcSet e.2.vc.val = key)) = true then
      { p with waiting := p.waiting ++ [(t, f)] }
    else
      let g := { g with seq := Fin.ofNat 4096 p.txSeq }
      { p with txSeq := (p.txSeq + 1) % 4096, credits := Tab.set 64 p.credits key (credit - 1),
               replayBuf := p.replayBuf ++ [(t, 0, g)], outQ := p.outQ ++ [(t, g)] }

/-- Sends what waits and now may go, oldest first. -/
def CascadePort.drain (p : CascadePort) : CascadePort := p.waiting.foldl (fun p e => p.send e.1 e.2) { p with waiting := [] }

def State.sendOn (s : State) (q t : Nat) (f : Flit) : State := s.updCascadePort q (fun p => p.send t f)

/-- A pair without a route is unreachable (R379). -/
def State.reaches (s : State) (r : Nat) : Bool := decide (r = s.rank) || (s.memberRank r && (s.nextHop r).isSome)

/-- Sends a flit towards a rank. -/
def State.sendTo (s : State) (r t : Nat) (f : Flit) : State :=
  match s.nextHop r with
  | some (q, set) => s.sendOn q t { f with vcSet := set, srcRank := Fin.ofNat 8 s.rank, dstRank := Fin.ofNat 8 r }
  | none => s

/-- Passes a flit of another rank on; its source stays. -/
def State.forward (s : State) (t : Nat) (f : Flit) : State :=
  match s.relayHop f with
  | some (q, set) => s.sendOn q t { f with vcSet := set, fec := 0 }
  | none => s

/-- This device is a member other than the master. -/
def State.isMember (s : State) : Bool := s.linkAlive && s.cascade.formed && decide (s.cascade.masterRank ≠ s.rank)

def State.isMaster (s : State) : Bool := s.linkAlive && s.cascade.formed && decide (s.cascade.masterRank = s.rank)

/-! ## Receiving (R376, R377) -/

/-- Entries of the replay buffer up to the acknowledged sequence leave it. -/
def CascadePort.acked (p : CascadePort) (ack : Nat) : CascadePort :=
  { p with replayBuf := p.replayBuf.filter (fun e => decide (serialGap 12 ack e.2.2.seq.val ≠ 0) && decide (serialGap 12 ack e.2.2.seq.val < 2048)) }

/-- Acknowledgement and credits of an arriving flit. -/
def CascadePort.takeAckCredit (p : CascadePort) (f : Flit) : CascadePort :=
  let p := p.acked f.ack.val
  { p with credits := Tab.upd 64 p.credits (vcKey f.creditSet f.creditVc.val) (fun c => min 64 (c + f.credit.val)) }

/-- A valid flit arrives: the symbols that FEC corrected are counted (R373, R387), and one of the master's is heard (R381). -/
def State.decoded (s : State) (q : Nat) (f : Flit) : State :=
  let s := s.updCascadePort q (fun p => { p with fecSymbols := (p.fecSymbols + f.fec) % 2 ^ 32 })
  { s with cascade := { s.cascade with heardMaster := if f.srcRank.val = s.cascade.masterRank then s.time else s.cascade.heardMaster } }

/-- A discarded flit makes the receiver send RETRY (R377). -/
def State.sendRetry (s : State) (q : Nat) : State := s.sendOn q ftRetry { emptyFlit with srcRank := Fin.ofNat 8 s.rank }

/-- The flit is the next one in order. -/
def CascadePort.inOrder (p : CascadePort) (f : Flit) : Bool := decide (f.seq.val = (p.rxSeq + 1) % 4096)

/-- Bookkeeping of a flit accepted in order: its sequence, its acknowledgement and credits, and the credit it gives back, which
goes out at once in an IDLE flit. -/
def State.acceptFlit (s : State) (q : Nat) (f : Flit) : State :=
  let s := s.updCascadePort q (fun p => (({ p with rxSeq := f.seq.val }).takeAckCredit f).drain)
  s.sendOn q ftIdle { emptyFlit with srcRank := Fin.ofNat 8 s.rank, creditVc := f.vc, creditSet := f.vcSet, credit := 1 }

/-- A sequenced flit: discarded with RETRY when out of order, forwarded when for another rank, else its effect happens. -/
def State.takeSequenced (s : State) (q t : Nat) (f : Flit) (effect : State → State) : State :=
  if !(s.cascadePort q).inOrder f then s.sendRetry q
  else
    let s := s.acceptFlit q f
    if f.dstRank.val ≠ s.rank ∧ t = ftData then s.forward t f else effect s

/-! ## TIME (R382, R383) -/

/-- A stamp in 1/256 ns: 64-bit ns and an 8-bit fraction, 9 bytes (log entry 14). -/
def stampBytes (t : Nat) : Bytes := natLE 8 (t / 256) ++ natLE 1 (t % 256)
def stampAt (b : Bytes) (o : Nat) : Nat := leAt b o 8 * 256 + leAt b (o + 8) 1

/-- Device time in 1/256 ns. -/
def State.stamp (s : State) : Nat := s.time * 256

/-- θ and d of an exchange, in 1/256 ns (R382). -/
def timeOffset (t1 t2 t3 t4 : Nat) : Int := (((t2 : Int) - t1) + ((t3 : Int) - t4)).fdiv 2
def pathDelay (t1 t2 t3 t4 : Nat) : Int := (((t2 : Int) - t1) - ((t3 : Int) - t4)).fdiv 2

/-- Loses time lock: `time_unlocked` and TIME_UNLOCKED (R383). -/
def State.unlockTime (s : State) : State :=
  let s := { s with cascade := { s.cascade with timeLocked := false, timeUnlocked := Flag.raise s.wall, goodExchanges := 0 } }
  s.moduleEvent 2 0x0011 0 0

/-- The member's one step at its join (R382): device time moves by θ and TIME_STEP is logged. -/
def State.stepTime (s : State) (theta : Int) : State :=
  let s := { s with time := ((s.time : Int) + theta.fdiv 256).toNat, cascade := { s.cascade with stepped := true, slew := theta.fmod 256 } }
  s.moduleEvent 1 0x0010 0 (unsigned 64 theta)

/-- A reply's offset: stepped once at the join, slewed out afterwards; 16 exchanges within 10 ns lock, more than 20 ns unlocks
(R382, R383). -/
def State.takeOffset (s : State) (theta : Int) : State :=
  let s := { s with cascade := { s.cascade with requestT1 := none, lastReply := s.time } }
  if !s.cascade.stepped then s.stepTime theta
  else
    let s := { s with cascade := { s.cascade with slew := theta } }
    if 5120 < theta.natAbs then (if s.cascade.timeLocked then s.unlockTime else { s with cascade := { s.cascade with goodExchanges := 0 } })
    else if theta.natAbs ≤ 2560 then
      let n := s.cascade.goodExchanges + 1
      { s with cascade := { s.cascade with goodExchanges := n, timeLocked := s.cascade.timeLocked || decide (16 ≤ n) } }
    else { s with cascade := { s.cascade with goodExchanges := 0 } }

/-- A TIME flit: a request is stamped and answered, a reply to the outstanding request gives θ. -/
def State.takeTime (s : State) (q : Nat) (f : Flit) : State :=
  if leAt f.payload 0 1 = 0 then
    s.sendOn q ftTime { emptyFlit with
      vc := 3, srcRank := Fin.ofNat 8 s.rank, dstRank := f.srcRank
      payload := [1] ++ slice f.payload 1 9 ++ stampBytes s.stamp ++ stampBytes s.stamp }
  else
    match s.cascade.requestT1 with
    | some t1 => if stampAt f.payload 1 = t1 then s.takeOffset (timeOffset t1 (stampAt f.payload 10) (stampAt f.payload 19) s.stamp) else s
    | none => s

def execCascadeTime (dt : Nat) (q : Fin 4) (f : Flit) (s : State) : Result :=
  s.event dt (fun s => s.portUp q.val) (fun s => (s.decoded q.val f).takeSequenced q.val ftTime f (fun s => s.takeTime q.val f))

/-- Removes part of the offset at up to 300 ppm of the time since the last reply, or since the last request where that is later (R382). -/
def State.slewTime (s : State) : State :=
  let since := max s.cascade.lastReply (s.cascade.requestT1.getD 0 / 256)
  let room : Int := ((s.time - since) * 256 * 300 / 1000000 : Nat)
  let x := max (-room) (min room s.cascade.slew)
  let ns := x.tdiv 256
  { s with time := ((s.time : Int) + ns).toNat, cascade := { s.cascade with slew := s.cascade.slew - 256 * ns } }

/-- TIME_REQUEST: every 16 µs a member asks its upstream neighbour (R382). -/
def execTimeRequest (dt : Nat) (s : State) : Result :=
  s.event dt (fun s => s.isMember && (s.nextHop s.cascade.masterRank).isSome &&
      (match s.cascade.requestT1 with | some t => decide (t + 16000 * 256 ≤ s.stamp) | none => true)) (fun s =>
    let s := s.slewTime
    match s.nextHop s.cascade.masterRank with
    | none => s
    | some (q, _) =>
      let t := s.sendOn q ftTime { emptyFlit with vc := 3, srcRank := Fin.ofNat 8 s.rank, payload := [0] ++ stampBytes s.stamp }
      { t with cascade := { t.cascade with requestT1 := some s.stamp } })

/-- TIME_UNLOCKED: a locked member without a TIME reply for 1 ms (R383). -/
def execTimeUnlocked (dt : Nat) (s : State) : Result :=
  s.event dt (fun s => s.isMember && s.cascade.timeLocked && decide (s.cascade.lastReply + 1000000 ≤ s.time)) State.unlockTime

/-! ## Lost links (R324, R386) -/

/-- LINK_LOST. -/
def execLinkLost (dt : Nat) (q : Fin 4) (s : State) : Result := s.event dt (fun s => s.portUp q.val) (fun s => s.loseLink q.val)

/-- A lost port retrains once every 1 s for 10 attempts, then once every 10 s (R386). -/
def State.retrainDue (s : State) (q : Nat) : Bool :=
  let p := s.cascadePort q
  s.linkAlive && !p.up && decide (p.lostAt + (if p.attempts < 10 then 1000000000 else 10000000000) ≤ s.time)

/-- A port in service from fresh sequence numbers and full credits. -/
def CascadePort.fresh (p : CascadePort) (rank peerPort : Nat) : CascadePort :=
  { p with up := true, peerRank := rank, peerPort := peerPort, rxSeq := 4095, txSeq := 0, replayBuf := [], outQ := [], waiting := [], credits := [],
           replayTimes := [], attempts := 0 }

/-- LINK_RETRAIN: one attempt. -/
def execLinkRetrain (dt : Nat) (q : Fin 4) (ok : Bool) (s : State) : Result :=
  s.event dt (fun s => s.retrainDue q.val) (fun s =>
    s.updCascadePort q.val (fun p => if ok then p.fresh p.peerRank p.peerPort else { p with attempts := p.attempts + 1, lostAt := s.time }))

/-! ## RETRY, ID, IDLE, CRC failures (R377, R380) -/

/-- Replays everything not acknowledged, go-back-N, and counts one replay. -/
def CascadePort.replay (p : CascadePort) (t : Nat) : CascadePort :=
  let b := p.replayBuf.map (fun e => (e.1, e.2.1 + 1, e.2.2))
  { p with replayBuf := b, outQ := p.outQ ++ b.map (fun e => (e.1, e.2.2)), replays := (p.replays + 1) % 65536,
           replayTimes := p.replayTimes.filter (fun x => decide (t < x + 1000000)) ++ [t] }

/-- 64 replays within 1 ms, or one flit replayed 8 times (R386). -/
def CascadePort.worn (p : CascadePort) : Bool :=
  decide (64 ≤ p.replayTimes.length) || p.replayBuf.any (fun e => decide (8 ≤ e.2.1))

/-- RETRY: the sender replays from `ack` + 1. -/
def execCascadeRetry (dt : Nat) (q : Fin 4) (f : Flit) (s : State) : Result :=
  s.event dt (fun s => s.portUp q.val) (fun s =>
    let s := (s.decoded q.val f).updCascadePort q.val (fun p => ((p.takeAckCredit f).replay s.time).drain)
    if (s.cascadePort q.val).worn then s.loseLink q.val else s)

/-- ID: the peer's rank and port; a peer of the same rank is not used (R380). -/
def execCascadeId (dt : Nat) (q : Fin 4) (f : Flit) (rank : Fin 8) (peerPort : Fin 4) (s : State) : Result :=
  s.event dt State.linkAlive (fun s =>
    (s.decoded q.val f).updCascadePort q.val (fun p =>
      let conflict := decide (rank.val = s.rank)
      { (p.takeAckCredit f).drain with peerRank := rank.val, peerPort := peerPort.val, rankConflict := conflict, up := p.up && !conflict }))

/-- IDLE: acknowledgements and credits only. -/
def execCascadeIdle (dt : Nat) (q : Fin 4) (f : Flit) (s : State) : Result :=
  s.event dt (fun s => s.portUp q.val) (fun s => (s.decoded q.val f).updCascadePort q.val (fun p => (p.takeAckCredit f).drain))

/-- CASCADE_CRC_FAIL: the flit is discarded and RETRY is sent; a codeword that FEC cannot correct is counted (R377, R387). -/
def execCascadeCrcFail (dt : Nat) (q : Fin 4) (fecFailed : Bool) (s : State) : Result :=
  s.event dt (fun s => s.portUp q.val) (fun s =>
    let s := if fecFailed then s.updCascadePort q.val (fun p => { p with fecUncorrectable := satAdd 0xFFFFFFFF p.fecUncorrectable 1 }) else s
    s.sendRetry q.val)

/-! ## Messages to members (R385) -/

/-- A CTRL flit to a rank: `op`, length, offset, data from byte 8. -/
def State.ctrlTo (s : State) (r op off : Nat) (data : Bytes) : State :=
  s.sendTo r ftCtrl { emptyFlit with vc := 2, payload := natLE 1 op ++ natLE 1 data.length ++ natLE 3 off ++ zeros 3 ++ data }

/-- A CTRL flit to the master. -/
def State.sendCtrl (s : State) (op off : Nat) (data : Bytes) : State := s.ctrlTo s.cascade.masterRank op off data

/-- The master writes bytes into a member's bank 3, 224 at a time. -/
def State.mbxWrite (s : State) (r off : Nat) (bs : Bytes) : State :=
  (List.range (ceilDiv bs.length 224)).foldl (fun s k => s.ctrlTo r 1 (off + 224 * k) ((bs.drop (224 * k)).take 224)) s

/-- The master seals a command in a member's bank: payload, `req_len`, then the seal (R320, R327, R385). It takes slots and sequence
numbers in turn (DESIGN CHOICE, log entry 43). -/
def State.sealAt (s : State) (r op : Nat) (req : Bytes) : State :=
  let n := Tab.get 0 s.cascade.sealed r
  let base := n % 64 * 4096
  let s := (s.mbxWrite r (base + 0x40) req).mbxWrite r (base + 8) (natLE 4 req.length)
  let s := s.mbxWrite r base (natLE 2 n ++ natLE 2 op)
  { s with cascade := { s.cascade with sealed := Tab.set 0 s.cascade.sealed r ((n + 1) % 65536) } }

/-! ## Topology and the master (R378 to R381) -/

def popCount (m : Nat) : Nat := ((List.range 8).filter (bitAt m)).length

/-- The wiring rule of R378 for a link of this device. -/
def wiringOk (cube : Bool) (a q b qb : Nat) : Bool :=
  if cube then decide (q < 3) && decide (b = a ^^^ 2 ^ q) && decide (qb = q)
  else decide (a ≠ b) && decide (q + 1 = (b + 5 - a) % 5) && decide (qb + 1 = (a + 5 - b) % 5)

/-- The master's declaration: topology by the number of members, and `miswired` on every link that breaks its rule. -/
def State.declare (s : State) : State :=
  let cube := decide (5 < popCount s.cascade.members.toNat)
  { s with cascade := { s.cascade with
      cube := cube
      ports := Tab.mapAll {} s.cascade.ports (fun q p =>
        if p.up then { p with miswired := !wiringOk cube s.rank q p.peerRank p.peerPort } else p) } }

/-- The master contends for a member's ownership on its bank 3, at priority 0xC0 (R380); the nonce is free (log entry 7). -/
def State.claimMember (s : State) (r : Nat) : State :=
  s.draw.sealAt r 0x03 (natLE 1 0xC0 ++ zeros 3 ++ natLE 4 (Config.masterNonce s.freeTick).toNat)

/-- CASCADE_PORT_TRAINED: the port enters service; once a device strapped rank 0 is among the members, a cascade is formed with it
as master, which declares topology and membership; without a rank 0 none forms (R380). -/
def execCascadePortTrained (dt : Nat) (q : Fin 4) (rank : Fin 8) (peerPort : Fin 4) (s : State) : Result :=
  s.event dt State.linkAlive (fun s =>
    if rank.val = s.rank then s.updCascadePort q.val (fun p => { p with rankConflict := true, up := false, peerRank := rank.val, peerPort := peerPort.val })
    else
      let s := s.updCascadePort q.val (fun p => { p.fresh rank.val peerPort.val with rankConflict := false })
      let joins := !s.memberRank rank.val
      let members := s.cascade.members ||| BitVec.ofNat 8 (2 ^ s.rank) ||| BitVec.ofNat 8 (2 ^ rank.val)
      let known := members.getLsbD 0 || s.cascade.formed
      let first := known && !s.cascade.formed
      let s := { s with cascade := { s.cascade with
        members := members, formed := known, heardMaster := s.time, masterRank := if first then 0 else s.cascade.masterRank } }
      let s := s.declare
      let s := if first then s.moduleEvent 1 0x0013 0 0 else s
      if s.isMaster && joins then s.claimMember rank.val else s)

/-- MASTER_LOST: a member has heard nothing from the master for 10 ms (R381). -/
def execMasterLost (dt : Nat) (s : State) : Result :=
  s.event dt (fun s => s.isMember && !s.cascade.masterLost && decide (s.cascade.heardMaster + 10000000 ≤ s.time)) (fun s =>
    { s with cascade := { s.cascade with masterLost := true, electing := some s.time } })

/-- The connected group of this device and the lowest rank that reaches every survivor of it (R381). -/
def electMaster (own : Nat) (reach : List (Fin 8 × List (Fin 8))) : Option (List Nat × Nat) :=
  let reachOf (r : Nat) : List Nat := r :: ((reach.filter (fun x => x.1.val = r)).flatMap (fun x => x.2.map (·.val)))
  let group := (List.range 8).filter (fun r => (reachOf own).contains r)
  ((group.filter (fun r => group.all (fun x => (reachOf r).contains x))).head?).map (fun m => (group, m))

/-- MASTER_ELECTION: after 20 ms without a change (R381). -/
def execMasterElection (dt : Nat) (reach : List (Fin 8 × List (Fin 8))) (s : State) : Result :=
  s.event dt (fun s => s.linkAlive && (match s.cascade.electing with | some t => decide (t + 20000000 ≤ s.time) | none => false)) (fun s =>
    match electMaster s.rank reach with
    | none => s
    | some (group, m) =>
      let members := BitVec.ofNat 8 (group.map (fun r => 2 ^ r)).sum
      let s := { s with cascade := { s.cascade with masterRank := m, members := members, masterLost := false, electing := none, heardMaster := s.time } }
      let s := s.moduleEvent 1 0x0013 0 m
      if s.isMaster then (group.filter (· ≠ s.rank)).foldl State.claimMember s else s)

/-! ## Mailbox messages (R385) -/

/-- The master applies a plan to the other devices that it names (R320). -/
def State.applyToMembers (s : State) (pl : CutPlan) (op : Nat) (req : Bytes) : State :=
  if !s.isMaster then s
  else
    let named := (List.range 8).filter (fun r => decide (r ≠ s.rank) && (decide (pl.homeRank = r) || pl.cores.any (fun c => decide (c.1 = r))))
    named.foldl (fun s r => s.sealAt r op req) s

/-- CASCADE_MBX_WRITE: the master writes this member's bank 3. -/
def execCascadeMbxWrite (dt : Nat) (offset : Nat) (data : Bytes) (s : State) : Result :=
  s.event dt (fun s => s.isMember && decide (data.length ≤ 224) && decide (offset < 0x40000)) (fun s =>
    let s := { s with cascade := { s.cascade with heardMaster := s.time } }
    s.writeBank 3 offset data)

/-- CASCADE_MBX_READ: the master asks for bytes of bank 3. -/
def execCascadeMbxRead (dt : Nat) (offset len : Nat) (s : State) : Result :=
  s.event dt (fun s => s.isMember && decide (len ≤ 224) && decide (offset < 0x40000)) (fun s =>
    { s with cascade := { s.cascade with heardMaster := s.time, readAsked := some (offset, len) } })

/-- MBX_DATA: the member returns the bytes asked for. -/
def execMbxData (dt : Nat) (s : State) : Result :=
  s.event dt (fun s => s.isMember && s.cascade.readAsked.isSome) (fun s =>
    match s.cascade.readAsked with
    | none => s
    | some (off, n) =>
      let d := s.readBank 3 off n
      let s := { (s.setBus d) with freeTick := s.freeTick + 4096, cascade := { s.cascade with readAsked := none } }
      s.sendCtrl 3 off d)

/-- NOTICE: the member sends its oldest waiting notice. -/
def execNotice (dt : Nat) (s : State) : Result :=
  s.event dt (fun s => s.isMember && !s.cascade.notices.isEmpty) (fun s =>
    match s.cascade.notices with
    | [] => s
    | (code, index) :: rest =>
      let s := { s with cascade := { s.cascade with notices := rest } }
      s.sendCtrl 4 0 (natLE 1 code ++ natLE 1 index))

/-! ## Deepen routes (R323, R337) -/

def State.route (s : State) (i : Nat) : Route := Tab.get {} s.cascade.routes i

/-- From a sink, the sources that its routes lead back to: one more step along the held routes. -/
def routeStep (rs : Tab Route) (seen : List (Nat × Nat)) : List (Nat × Nat) :=
  seen ++ (rs.filter (fun e => e.2.used && seen.contains (e.2.srcRank, e.2.srcSession) && !seen.contains (e.2.sinkRank, e.2.sinkSession))).map
    (fun e => (e.2.sinkRank, e.2.sinkSession))

def routeReach (rs : Tab Route) : Nat → List (Nat × Nat) → List (Nat × Nat)
  | 0, seen => seen
  | n + 1, seen => routeReach rs n (routeStep rs seen)

/-- The route would close a loop among the routes the master holds (R314, R323). -/
def State.routeLoops (s : State) (src sink : Nat × Nat) : Bool :=
  (routeReach s.cascade.routes s.cascade.routes.length [sink]).contains src

/-- ROUTE_ADD. -/
def execRouteAdd (dt : Nat) (p : Port) (k : Slot) (s : State) : Result :=
  s.mailboxRow dt p k (isOpcode 0x40) (fun s req =>
    let sr := leAt req 0 1
    let ss := leAt req 2 2
    let kr := leAt req 4 1
    let ks := leAt req 6 2
    s.checked p.val k.val
      ([(!(s.isOwner p.val && s.isMaster), refusal stNotOwner 0), (s.shortReq p.val k.val 12, refusal stBadArg 8),
        (decide (7 < sr) || !s.memberRank sr, refusal stBadArg 0), reservedAt req 1 1, (decide (255 < ss), refusal stBadArg 2),
        (decide (7 < kr) || !s.memberRank kr || decide (kr = sr), refusal stBadArg 4), reservedAt req 5 1,
        (decide (255 < ks), refusal stBadArg 6), (decide (1 < leAt req 8 1), refusal stBadArg 8), reservedAt req 9 3, tailZero req 12,
        s.handoverBusy, (!s.reaches sr, refusal stBadArg 0), (!s.reaches kr, refusal stBadArg 4),
        (s.routeLoops (sr, ss) (kr, ks), refusal stBadArg 6)])
      (fun s =>
        let i := ((List.range (s.cascade.routes.length + 1)).find? (fun j => !(s.route j).used)).getD 0
        let r : Route := { used := true, srcRank := sr, srcSession := ss, sinkRank := kr, sinkSession := ks, what := leAt req 8 1 }
        ({ s with cascade := { s.cascade with routes := Tab.set {} s.cascade.routes i r } }).answer p.val k.val { resp := natLE 2 i }))

/-- ROUTE_REMOVE. -/
def execRouteRemove (dt : Nat) (p : Port) (k : Slot) (s : State) : Result :=
  s.mailboxRow dt p k (isOpcode 0x41) (fun s req =>
    s.checked p.val k.val
      [(!(s.isOwner p.val && s.isMaster), refusal stNotOwner 0), (s.shortReq p.val k.val 4, refusal stBadArg 8), reservedAt req 2 2,
       tailZero req 4, s.handoverBusy, (!(s.route (leAt req 0 2)).used, refusal stBadArg 0)]
      (fun s => ({ s with cascade := { s.cascade with routes := Tab.set {} s.cascade.routes (leAt req 0 2) {} } }).answer p.val k.val {}))

/-! ## Registers (R387) -/

/-- LD_CASCADE. -/
def State.ldCascade (s : State) : Nat :=
  s.rank + 8 * s.cascade.masterRank + 64 * b2n s.cascade.formed + 128 * b2n s.cascade.cube + 256 * s.cascade.members.toNat +
    65536 * b2n s.cascade.timeLocked + 131072 * b2n s.cascade.timeUnlocked.isSet

/-- LD_PORT_STATUS. -/
def CascadePort.status (p : CascadePort) : Nat :=
  b2n p.up + 2 * p.peerRank + 16 * p.peerPort + 64 * b2n p.miswired + 128 * b2n p.rankConflict + 256 * b2n p.lost.isSet + 65536 * p.replays

end Sys2Proof.Machine
end

