-- ==== Sys2Proof/Machine/Cores.lean ====
section
/-! DEFINITION. A core's queue: the boundary entry, issue and validation of the descriptor at its head, the tee rows it sends,
and the completion ring (R65, R84, R98 to R101, R158 to R160, R335). -/

namespace Sys2Proof

open Sys2Proof.Machine

def QueueEntry.b (e : QueueEntry) (o n : Nat) : Nat := leAt e.boundary o n

/-- The valid handovers of four bytes at a position: bank and new owner. -/
def QueueEntry.handovers (e : QueueEntry) (o : Nat) : List (Nat × Nat) :=
  (List.range 4).filterMap (fun k => let x := e.b (o + k) 1; if bitAt x 7 then some (bits x 2 0, bits x 5 3) else none)

def QueueEntry.pre (e : QueueEntry) : List (Nat × Nat) := e.handovers 0
def QueueEntry.post (e : QueueEntry) : List (Nat × Nat) := e.handovers 4
def QueueEntry.recvUp (e : QueueEntry) : Nat := e.b 8 1
def QueueEntry.recvDn (e : QueueEntry) : Nat := e.b 9 1
def QueueEntry.teeUp (e : QueueEntry) : Nat := e.b 0xA 1
def QueueEntry.teeDn (e : QueueEntry) : Nat := e.b 0xB 1
def QueueEntry.rowLen (e : QueueEntry) : Nat := e.b 0xC 2
def QueueEntry.recvPitch (e : QueueEntry) : Nat := 64 * e.b 0xE 2
def QueueEntry.upBase (e : QueueEntry) : Nat := e.b 0x10 4
def QueueEntry.dnBase (e : QueueEntry) : Nat := e.b 0x14 4

/-- A boundary with no handovers and no rows (R160). -/
def QueueEntry.plain (e : QueueEntry) : Bool := e.pre.isEmpty && e.post.isEmpty && decide (e.recvUp = 0) && decide (e.recvDn = 0)

/-- The pour step the descriptor waits for. -/
def QueueEntry.pourWait (e : QueueEntry) : Option Nat := if bitAt (e.b 0x18 1) 7 then some (e.b 0x18 1 % 128) else none

def QueueEntry.d (e : QueueEntry) : Desc := { raw := e.desc }

/-- The head is this row's descriptor, or one whose opcode is reserved, which any row refuses. -/
def QueueEntry.isOp (e : QueueEntry) (op : Nat) : Bool :=
  decide (e.d.opcode = op) || decide (e.d.opcode = 0) || decide (10 < e.d.opcode)

end Sys2Proof

namespace Sys2Proof.Machine

/-! ## Boundary entries (R159) -/

/-- Applies the handovers of a boundary entry under R139. -/
def Core.applyHandovers (c : Core) (hs : List (Nat × Nat)) (now : Nat) : Core := hs.foldl (fun c h => c.requestOwn h.1 h.2 now) c

/-! ## Issue (R65, R100, R160) -/

/-- Phases 1 to 3 of the head's boundary are done. -/
def Core.boundaryDone (c : Core) (e : QueueEntry) : Bool := decide (c.phase = 2) || (decide (c.phase = 0) && e.plain)

/-- The sequencer may validate the head: the queue runs, nothing is in flight, no cinch or swap holds it, its banks are not
changing hands, and the pour ring has reached the step it waits for. -/
def Core.mayValidate (c : Core) (e : QueueEntry) : Bool :=
  !c.stopped && c.finishing.isNone && !c.atCinch && c.boundaryDone e && !c.sfu.swapPending &&
    e.d.banks.all (fun b => !(c.bank b).pending) && (match e.pourWait with | some n => decide (n ≤ c.pour.step) | none => true)

/-- A row of Z as the send side captures it: `row_bytes` bytes of the result stream. What follows a shorter row of Z is not
stated: free bytes (log entry 16). -/
def teeRow (z : TensorRef) (m : Mem) (n tick r : Nat) : Bytes :=
  let row := Mem.readBytes m (z.base + r * z.rowBytes) (min n (z.w * z.c * z.size))
  row ++ (List.range (n - row.length)).map (fun k => Config.freeSeamByte (tick + r * 16384 + k))

/-- The rows sent up and down: the first and the last rows of Z, in row order (R159). -/
def teesOf (e : QueueEntry) (m : Mem) (tick : Nat) : List Bytes × List Bytes :=
  let z := e.d.z
  let up := min e.teeUp z.h
  let dn := min e.teeDn z.h
  ((List.range up).map (teeRow z m e.rowLen tick), (List.range dn).map (fun k => teeRow z m e.rowLen tick (z.h - dn + k)))

/-- Place of a core in its session's plan (R298). -/
def State.pleatOf (s : State) (i d c : Nat) : Nat := (s.session i).plan.cores.idxOf (s.rank, d, c)

/-- The core that works the pleat above or below, in the same audio group (R158, R281, R298). -/
def State.seamPeer (s : State) (d c : Nat) (down : Bool) : Option (Nat × Nat × Nat) :=
  match (s.core d c).session with
  | none => none
  | some i =>
    let n := s.pleatOf i d c
    let pl := (s.session i).plan
    let group (k : Nat) : Nat := (pl.pleat (s.session i).cfg k).1
    if down then (if group (n + 1) = group n then pl.cores[n + 1]? else none)
    else if n = 0 then none else if group (n - 1) = group n then pl.cores[n - 1]? else none

def Core.seam (c : Core) (down : Bool) : Seam := if down then c.seamDown else c.seamUp
def Core.updSeam (c : Core) (down : Bool) (f : Seam → Seam) : Core :=
  if down then { c with seamDown := f c.seamDown } else { c with seamUp := f c.seamUp }

/-! ## The send side of a seam (R158, R162) -/

/-- Credits that a row takes: one for each 64 bytes. -/
def rowUnits (row : Bytes) : Nat := ceilDiv row.length 64

/-- Units of captured rows that wait for a credit. -/
def Seam.unsent (m : Seam) : Nat := (m.out.map rowUnits).sum - m.sent

/-- How many rows of `out` have left whole once `n` of their units have. -/
def wholeRows : List Bytes → Nat → Nat
  | [], _ => 0
  | row :: rest, n => if rowUnits row ≤ n then wholeRows rest (n - rowUnits row) + 1 else 0

/-- The units of captured rows: 64 bytes each, with whether it ends its row. -/
def Seam.units (m : Seam) : List (Bytes × Bool) :=
  m.out.flatMap (fun row => (List.range (rowUnits row)).map (fun k => ((row.drop (64 * k)).take 64, k + 1 == rowUnits row)))

/-- Rows that have left whole take their places on the fabric, in the order they left (R25). -/
def State.orderRows (s : State) (d c : Nat) (down : Bool) : State :=
  let m := (s.core d c).seam down
  let n := wholeRows m.out m.sent - m.order.length
  { s.updCore d c (fun k => k.updSeam down (fun m => { m with order := m.order ++ (List.range n).map (s.fabricSeq + ·) })) with
    fabricSeq := s.fabricSeq + n }

/-- The offset field of a seam's DATA flit: core, port, end of a row, and whether the flit gives credits back (log entry 14). -/
def seamTarget (d c : Nat) (down last back : Bool) : Nat := d + 256 * (c + 256 * b2n down + 512 * b2n last + 1024 * b2n back)

/-- Sends units to a core of another device as DATA flits of channel 0, a flit for each 64 bytes (R162, R376; log entry 14). -/
def State.sendUnits (s : State) (rank d c : Nat) (down : Bool) (us : List (Bytes × Bool)) : State :=
  us.foldl (fun s u => s.sendTo rank ftData { emptyFlit with target := seamTarget d c down u.2 false, payload := u.1 }) s

/-- The send side sends as many units as the receiving port has granted credits for (R158). -/
def State.sendSeam (s : State) (d c : Nat) (down : Bool) : State :=
  match s.seamPeer d c down with
  | none => s
  | some (r, pd, pc) =>
    let m := (s.core d c).seam down
    if r = s.rank then
      let n := min m.unsent ((s.core pd pc).seam (!down)).credits
      let s := s.updCore d c (fun k => k.updSeam down (fun m => { m with sent := m.sent + n }))
      (s.updCore pd pc (fun k => k.updSeam (!down) (fun m => { m with credits := m.credits - n }))).orderRows d c down
    else
      let n := min m.unsent m.grant
      let s := s.sendUnits r pd pc (!down) ((m.units.drop m.sent).take n)
      s.updCore d c (fun k => k.updSeam down (fun m =>
        let gone := wholeRows m.out (m.sent + n)
        { m with out := m.out.drop gone, sent := m.sent + n - ((m.out.take gone).map rowUnits).sum, grant := m.grant - n
                 flying := m.flying + gone }))

/-- Captured rows wait at the port, and leave as credits allow. -/
def State.tee (s : State) (d c : Nat) (down : Bool) (rows : List Bytes) : State :=
  match s.seamPeer d c down with
  | none => s
  | some _ => (s.updCore d c (fun k => k.updSeam down (fun m => { m with out := m.out ++ rows }))).sendSeam d c down

/-- The head leaves the queue, and the next descriptor of the program takes the place it frees (R84). -/
def Core.popHead (c : Core) : Core :=
  { c with queue := c.queue.drop 1 ++ c.backlog.take 1, backlog := c.backlog.drop 1, phase := 0, upCopied := false, waitFrom := none }

/-- What a validated descriptor leaves in its core. -/
def Core.finish (c : Core) (e : QueueEntry) (w : Done) (cycles : W32) : Core :=
  { c.popHead with
    scratch := w.scratch
    finishing := some { w.record e.d cycles with encOnly := e.encOnly }
    running := w.running e.d
    cancelRows := satAdd 0xFFFFFFFF c.cancelRows w.cancelRows
    lanes := w.lanes.getD c.lanes
    stopped := w.broken }

/-- A refusal: nothing is read or written and the queue stops (R99). -/
def Core.refuse (c : Core) (e : QueueEntry) (off status : Nat) (cycles : W32) : Core :=
  { c.popHead with
    stopped := true
    finishing := some { e.d.refusedRecord off status cycles with encOnly := e.encOnly } }

/-- Issue of the descriptor at the head: validation, execution, and the tee rows (R100, R158, R160). -/
def State.issue (s : State) (d c : Nat) (run : Desc → Core → Done) : State :=
  let k := s.core d c
  match k.queue with
  | [] => s
  | e :: _ =>
    let cycles := Config.freeCycles s.freeTick
    match e.d.validate k k.recipe with
    | some (off, st) => (s.draw).updCore d c (fun k => k.refuse e off st cycles)
    | none =>
      let w := run e.d k
      let t := (s.draw).updCore d c (fun k => k.finish e w cycles)
      if w.broken then t
      else
        let (up, dn) := teesOf e w.scratch s.freeTick
        (t.tee d c false up).tee d c true dn

/-- The frame of the ten descriptor rows. -/
def State.descRow (s : State) (dt : Nat) (die : CoreDie) (core : CoreIx) (op : Nat) (run : Desc → Core → Done) : Result :=
  s.event dt (fun s => s.power.running && s.coreUsable die.val core.val &&
      (match (s.core die.val core.val).queue with
       | [] => false
       | e :: _ => e.isOp op && (s.core die.val core.val).mayValidate e))
    (fun s => s.issue die.val core.val run)

def execConv (dt : Nat) (die : CoreDie) (core : CoreIx) (s : State) : Result :=
  s.descRow dt die core dCONV (fun d c => d.runMatrix c.scratch s.freeTick)

def execMatmul (dt : Nat) (die : CoreDie) (core : CoreIx) (s : State) : Result :=
  s.descRow dt die core dMATMUL (fun d c => d.runMatrix c.scratch s.freeTick)

def execPool (dt : Nat) (die : CoreDie) (core : CoreIx) (s : State) : Result :=
  s.descRow dt die core dPOOL (fun d c => d.runPool c.scratch)

def execElem (dt : Nat) (die : CoreDie) (core : CoreIx) (s : State) : Result :=
  s.descRow dt die core dELEM (fun d c => d.runElem c.scratch)

def execAct (dt : Nat) (die : CoreDie) (core : CoreIx) (s : State) : Result :=
  s.descRow dt die core dACT (fun d c => d.runAct c)

def execSoftmax (dt : Nat) (die : CoreDie) (core : CoreIx) (s : State) : Result :=
  s.descRow dt die core dSOFTMAX (fun d c => d.runSoftmax c.scratch)

def execNorm (dt : Nat) (die : CoreDie) (core : CoreIx) (s : State) : Result :=
  s.descRow dt die core dNORM (fun d c => d.runNorm c.scratch)

def execSort (dt : Nat) (die : CoreDie) (core : CoreIx) (s : State) : Result :=
  s.descRow dt die core dSORT (fun d c => d.runSort c.scratch)

def execQuant (dt : Nat) (die : CoreDie) (core : CoreIx) (s : State) : Result :=
  s.descRow dt die core dQUANT (fun d c => d.runQuant c.scratch)

def execMicro (dt : Nat) (die : CoreDie) (core : CoreIx) (s : State) : Result :=
  s.descRow dt die core dMICRO (fun d c => d.runMicro c)

/-! ## Completion (R98, R99, R101, R335) -/

/-- Records of a completion ring. The spec gives the ring no size; the model holds 16, as many as descriptors queue (log entry 17). -/
def ringSlots : Nat := 16

/-- The running descriptor's record is written; a cinch is due after one that carries `cinch_after` (R163). -/
def Core.complete (c : Core) (t : Nat) : Core :=
  match c.finishing with
  | none => c
  | some r => { c.putRecord r t with finishing := none, running := {}, phase := if r.cinchAfter && !c.stopped then 3 else 0 }

/-- The send side of a port waits for a credit: the stream, and its descriptor, stall (R158). -/
def State.txStalled (s : State) (d c : Nat) (down : Bool) : Bool :=
  match s.seamPeer d c down with
  | none => false
  | some _ => decide (0 < ((s.core d c).seam down).unsent)

/-- The running descriptor's record may be written: no seam stalls its result stream. -/
def State.recordDue (s : State) (d c : Nat) : Bool :=
  (s.core d c).finishing.isSome && !s.txStalled d c false && !s.txStalled d c true

/-- The records of cancelled descriptors may be written. -/
def State.drainDue (s : State) (d c : Nat) : Bool := !(s.core d c).draining.isEmpty && !s.feederFills d c

/-- COMPLETION_RECORD: after the descriptor's last output byte; of cancelled descriptors, after the drain (R99). -/
def execCompletionRecord (dt : Nat) (die : CoreDie) (core : CoreIx) (s : State) : Result :=
  s.event dt (fun s => s.coreLive die.val core.val && decide ((s.core die.val core.val).ring.length < ringSlots) &&
      (s.drainDue die.val core.val || s.recordDue die.val core.val))
    (fun s =>
      let t := s.drainCore die.val core.val
      if t.recordDue die.val core.val then t.updCore die.val core.val (fun c => c.complete s.time) else t)

/-- COMPLETION_RING_COLLECT: the firmware empties a core's completion ring (R335). -/
def execCompletionRingCollect (dt : Nat) (die : CoreDie) (core : CoreIx) (s : State) : Result :=
  s.event dt (fun s => s.coreLive die.val core.val) (fun s => s.collect die.val core.val)

end Sys2Proof.Machine
end

