-- ==== Sys2Proof/Machine/Seams.lean ====
section
/-! DEFINITION. What joins the cores of a cut: boundaries and copy-in, seam rows and credits, the pour ring, and cinches (R121,
R155 to R165). -/

namespace Sys2Proof.Machine

/-! ## Boundaries (R160) -/

/-- The sequencer stands at the boundary before the head. -/
def Core.atBoundary (c : Core) : Bool := !c.stopped && c.finishing.isNone && !c.atCinch && !c.queue.isEmpty

/-- BOUNDARY_PRE: phase 1, the `pre` handovers. -/
def execBoundaryPre (dt : Nat) (die : CoreDie) (core : CoreIx) (s : State) : Result :=
  s.event dt (fun s => s.power.running && s.coreUsable die.val core.val &&
      (match (s.core die.val core.val).queue with
       | [] => false
       | e :: _ => (s.core die.val core.val).atBoundary && decide ((s.core die.val core.val).phase = 0) && !e.plain))
    (fun s => s.updCore die.val core.val (fun c =>
      match c.queue with
      | [] => c
      | e :: _ => { c.applyHandovers e.pre s.wall with phase := 1 }))

/-- The scratch bytes that one row of a copy-in writes. -/
def rowPlaces (base pitch len n : Nat) : List (Nat × Nat) := (List.range n).map (fun r => (base + r * pitch, len))

/-- A row lies in banks that SEAM owns. -/
def Core.seamMayWrite (c : Core) (pl : Nat × Nat) : Bool :=
  decide (pl.1 + pl.2 ≤ 524288) &&
    ((List.range 8).filter (fun b => decide (pl.1 / 65536 ≤ b) && decide (b * 65536 < pl.1 + pl.2))).all (fun b => c.bankFree ownSeam b)

/-- Copies received rows into scratch; their bytes become credits to return. -/
def Core.copyRows (c : Core) (down : Bool) (base pitch len n : Nat) : Core :=
  let m := c.seam down
  let rows := m.buffer.take n
  let scratch := ((List.range rows.length).zip rows).foldl (fun s p => Mem.writeBytes s (base + p.1 * pitch) (p.2.take len)) c.scratch
  ({ c with scratch := scratch }).updSeam down (fun m => { m with
    buffer := m.buffer.drop n, copied := (m.copied + n) % 65536, freed := m.freed + (rows.map (fun (r : Bytes) => ceilDiv r.length 64)).sum })

/-- Copies one port's rows in, once they have all arrived: into banks owned by SEAM only. A row bound for another bank stops the
core as a refusal does: its record carries BANK_NOT_OWNED (R160; log entry 17). None while the rows have not arrived. -/
def Core.copyPort (c : Core) (e : QueueEntry) (down : Bool) (cycles : W32) : Option Core :=
  let n := if down then e.recvDn else e.recvUp
  let base := if down then e.dnBase else e.upBase
  if (c.seam down).buffer.length < n then none
  else if !((rowPlaces base e.recvPitch e.rowLen n).all c.seamMayWrite) then some (c.refuse e 0 csBankNotOwned cycles)
  else some (c.copyRows down base e.recvPitch e.rowLen n)

/-- Phases 2 and 3 (R160): the up seam's rows, then the down seam's, then the `post` handovers. -/
def Core.copyIn (c : Core) (e : QueueEntry) (t now : Nat) (cycles : W32) : Core :=
  let wait (c : Core) : Core := { c with waitFrom := some (c.waitFrom.getD t) }
  match (if c.upCopied then some c else c.copyPort e false cycles) with
  | none => wait c
  | some k =>
    if k.stopped then k
    else
      match k.copyPort e true cycles with
      | none => wait { k with upCopied := true }
      | some k => if k.stopped then k else { k.applyHandovers e.post now with phase := 2, upCopied := false, waitFrom := none }

/-- COPY_IN: after the `pre` handovers have taken effect. -/
def execCopyIn (dt : Nat) (die : CoreDie) (core : CoreIx) (s : State) : Result :=
  s.event dt (fun s => s.power.running && s.coreUsable die.val core.val &&
      (match (s.core die.val core.val).queue with
       | [] => false
       | e :: _ =>
         let c := s.core die.val core.val
         c.atBoundary && decide (c.phase = 1) && e.pre.all (fun h => !(c.bank h.1).pending)))
    (fun s =>
      match (s.core die.val core.val).queue with
      | [] => s
      | e :: _ => (s.draw).updCore die.val core.val (fun c => c.copyIn e s.time s.wall (Config.freeCycles s.freeTick)))

/-! ## Seam rows and credits (R158) -/

/-- A row arrives whole and counts: its credits were taken as it was sent. -/
def Seam.receive (m : Seam) (row : Bytes) : Seam := { m with rowsIn := (m.rowsIn + 1) % 65536, buffer := m.buffer ++ [row] }

/-- A row of a seam to another core of this device has arrived. -/
def Seam.delivered (m : Seam) : Seam :=
  { m with out := m.out.drop 1, order := m.order.drop 1, sent := m.sent - ((m.out.take 1).map rowUnits).sum }

/-- The neighbour of this device on a side of a core, with its first row, when that has left whole, and the row's place on the
fabric. -/
def State.nextSeamRow (s : State) (d c : Nat) (down : Bool) : Option (Nat × Nat × Bytes × Nat) :=
  match s.seamPeer d c down with
  | none => none
  | some (r, pd, pc) =>
    let m := (s.core pd pc).seam (!down)
    match m.out, m.order with
    | row :: _, n :: _ => if r = s.rank then some (pd, pc, row, n) else none
    | _, _ => none

/-- No row that left one die for another before the `n`th is still on its way there: a pair of dies keeps its order (R25). -/
def State.firstOnFabric (s : State) (a b n : Nat) : Bool :=
  s.cores.all (fun e => decide (e.1 / 160 ≠ a) || [false, true].all (fun down =>
    (match s.seamPeer a (e.1 % 160) down with
     | some (r, pd, _) => decide (r ≠ s.rank) || decide (pd ≠ b)
     | none => true) || (e.2.seam down).order.all (fun k => decide (n ≤ k))))

/-- The neighbour's first row has left whole, and nothing sent before it between the two dies is still on its way. -/
def State.seamRowDue (s : State) (d c : Nat) (down : Bool) : Bool :=
  match s.nextSeamRow d c down with
  | none => false
  | some (pd, _, _, n) => decide (pd = d) || s.firstOnFabric pd d n

/-- SEAM_ROW_ARRIVAL: the neighbour's first row arrives whole and counts. Rows of another device arrive as DATA flits. -/
def execSeamRowArrival (dt : Nat) (die : CoreDie) (core : CoreIx) (down : Bool) (s : State) : Result :=
  s.event dt (fun s => s.power.running && s.coreUsable die.val core.val && s.seamRowDue die.val core.val down) (fun s =>
    match s.nextSeamRow die.val core.val down with
    | none => s
    | some (pd, pc, row, _) =>
      (s.updCore pd pc (fun k => k.updSeam (!down) Seam.delivered)).updCore die.val core.val
        (fun k => k.updSeam down (fun m => m.receive row)))

/-- Credits, and counted rows, go back to a neighbour on another device (R162, R376; log entry 14). -/
def State.creditBack (s : State) (d c : Nat) (down : Bool) (credits rows : Nat) : State :=
  match s.seamPeer d c down with
  | none => s
  | some (r, pd, pc) =>
    if r = s.rank then s
    else s.sendTo r ftData { emptyFlit with target := seamTarget pd pc (!down) false true, payload := natLE 2 credits ++ natLE 2 rows }

/-- The neighbour of this device on a side of a core sends what the new credits allow. -/
def State.peerSends (s : State) (d c : Nat) (down : Bool) : State :=
  match s.seamPeer d c down with
  | none => s
  | some (r, pd, pc) => if r = s.rank then s.sendSeam pd pc (!down) else s

/-- CREDIT_RETURN: the bytes copied out of a receive buffer are granted again (R158, R162). -/
def execCreditReturn (dt : Nat) (die : CoreDie) (core : CoreIx) (down : Bool) (s : State) : Result :=
  s.event dt (fun s => s.coreLive die.val core.val && decide (0 < ((s.core die.val core.val).seam down).freed)) (fun s =>
    let n := ((s.core die.val core.val).seam down).freed
    let s := s.updCore die.val core.val (fun k => k.updSeam down (fun m => { m with credits := min 512 (m.credits + m.freed), freed := 0 }))
    (s.creditBack die.val core.val down n 0).peerSends die.val core.val down)

/-- Phase 2 of a boundary waits on a port: on the up port first, on the down port once the up rows are copied. -/
def Core.rxWaiting (c : Core) (down : Bool) : Bool :=
  match c.queue with
  | [] => false
  | e :: _ => c.waitFrom.isSome && (c.upCopied == down) && decide (((c.seam down).buffer.length) < (if down then e.recvDn else e.recvUp))

/-- CD_SEAM_STATUS (R162). -/
def State.cdSeamStatus (s : State) (d c : Nat) (down : Bool) : Nat :=
  let m := (s.core d c).seam down
  m.rowsIn + 2 ^ 16 * m.credits + 2 ^ 26 * b2n (s.txStalled d c down) + 2 ^ 27 * b2n ((s.core d c).rxWaiting down)

/-! ## The pour ring (R155 to R157) -/

/-- The core of the same ring at a distance. -/
def State.ringCore (s : State) (d c : Nat) (back : Bool) : Option Nat :=
  let k := s.core d c
  let n := k.pour.ringSize
  if n ≤ 1 then none
  else
    let want := if back then (k.pour.index + n - 1) % n else (k.pour.index + 1) % n
    (List.range 160).find? (fun x => decide ((s.core d x).session = k.session) && decide ((s.core d x).pour.ringSize = n) &&
      decide ((s.core d x).pour.index = want))

/-- The descriptors that use the present shard have completed: the queue is empty, a cinch is due, or the head waits for a later
step. -/
def Core.shardDone (c : Core) : Bool :=
  c.finishing.isNone && (c.atCinch || decide (c.phase = 3) ||
    (match c.queue with
     | [] => true
     | e :: _ => match e.pourWait with | some n => decide (c.pour.step < n) | none => false))

/-- The travel bank of a core belongs to the ring. -/
def Core.travelOwned (c : Core) : Bool :=
  match c.pour.travelBank with
  | some b => c.bankFree ownPour b
  | none => false

/-- The three conditions of R157, for a core and its two neighbours: the ring owns the shard that the core presents and the slots
it moves into. -/
def State.pourDue (s : State) (d c : Nat) : Bool :=
  let k := s.core d c
  let st := k.pour.step
  match s.ringCore d c true, s.ringCore d c false with
  | some p, some n =>
    decide (st + 1 < k.pour.ringSize) && k.shardDone && k.travelOwned && k.presents && (s.core d p).presents &&
      decide (st ≤ (s.core d p).pour.step) && decide (st ≤ (s.core d n).pour.step) && (s.core d n).travelOwned
  | _, _ => false

/-- Moves the shard a core presents into its successor's other travel slot. -/
def State.sendShard (s : State) (d a b : Nat) : State :=
  let k := s.core d a
  let at_ := k.pour.shardAt
  let row := Mem.readBytes k.scratch at_.1 at_.2
  s.updCore d b (fun x => { x with scratch := Mem.writeBytes x.scratch (x.pour.slotAt (k.pour.step + 1)) row })

/-- POUR_STEP_ADVANCE: the present shard has been sent in full, the next one has arrived in full, and the step advances. What a
neighbour moved at its own advance is not moved again. -/
def execPourStepAdvance (dt : Nat) (die : CoreDie) (core : CoreIx) (s : State) : Result :=
  s.event dt (fun s => s.power.running && s.coreUsable die.val core.val && s.pourDue die.val core.val) (fun s =>
    match s.ringCore die.val core.val true, s.ringCore die.val core.val false with
    | some p, some n =>
      let st := (s.core die.val core.val).pour.step
      let s := if (s.core die.val n).pour.step = st then s.sendShard die.val core.val n else s
      let s := if (s.core die.val p).pour.step = st then s.sendShard die.val p core.val else s
      s.updCore die.val core.val (fun k => { k with pour := { k.pour with step := st + 1 } })
    | _, _ => s)

/-! ## Cinches (R121, R163, R164) -/

/-- A core's identity in a cut. -/
def State.cinchKey (s : State) (d c : Nat) : Nat × Nat := (s.rank * 32 + d, c)

/-- Every row that the port sent has been counted by the receiving port. -/
def Seam.allCounted (m : Seam) : Bool := m.out.isEmpty && decide (m.flying = 0)

/-- A core may arrive: its record is written and the receiving ports have counted every tee row. -/
def Core.mayArrive (c : Core) : Bool :=
  decide (c.phase = 3) && !c.atCinch && c.finishing.isNone && c.seamUp.allCounted && c.seamDown.allCounted && c.session.isSome

def Session.arrive (ss : Session) (key : Nat × Nat) (t : Nat) : Session :=
  { ss with cinch := if ss.cinch.contains key then ss.cinch else ss.cinch ++ [key], cinchAt := some (ss.cinchAt.getD t) }

/-- The rank whose lowest die is the cinch root: the lowest one of the cut (R164, R322). -/
def CutPlan.rootRank (pl : CutPlan) : Nat := pl.cores.foldl (fun r c => min r c.1) 7

/-- The other ranks of a cut. -/
def State.farRanks (s : State) (pl : CutPlan) : List Nat := (List.range 8).filter (fun r => r ≠ s.rank && pl.cores.any (fun c => c.1 = r))

/-- Payload of a cinch message of channel 3 (log entry 14): session; an arrival with its core and whether that has `shadow_valid`, or
the release with the swap decision. -/
def cinchPayload (i die core : Nat) (flag release : Bool) : Bytes :=
  natLE 2 i ++ natLE 1 die ++ natLE 1 core ++ natLE 1 (b2n flag) ++ natLE 1 (b2n release)

/-- CINCH_ARRIVE; a core away from the cinch root's device tells the root (R164, R322). -/
def execCinchArrive (dt : Nat) (die : CoreDie) (core : CoreIx) (s : State) : Result :=
  s.event dt (fun s => s.power.running && s.coreUsable die.val core.val && (s.core die.val core.val).mayArrive) (fun s =>
    match (s.core die.val core.val).session with
    | none => s
    | some i =>
      let s := s.updCore die.val core.val (fun k => { k with atCinch := true })
      let s := s.updSession i (fun ss => ss.arrive (s.cinchKey die.val core.val) s.time)
      let root := (s.session i).plan.rootRank
      if root = s.rank then s
      else s.sendTo root ftData { emptyFlit with
        vc := 3, payload := cinchPayload i die.val core.val (s.core die.val core.val).sfu.shadowValid false })

/-- Every core of the cut has arrived at this device's cinch root. -/
def State.cinchFull (s : State) (i : Nat) : Bool :=
  let ss := s.session i
  ss.bound && !ss.plan.cores.isEmpty && decide (ss.plan.rootRank = s.rank) &&
    ss.plan.cores.all (fun (r, d, c) => ss.cinch.contains (r * 32 + d, c))

/-- A cinch's swap decision (R121): every core flips when every core has `shadow_valid`, else every core defers. The pour ring
restarts at step 0 for the next layer (R156, R163). -/
def Core.release (flip : Bool) (now : Nat) (c : Core) : Core :=
  { c with sfu := if flip then c.sfu.flip else c.sfu.defer now, atCinch := false, phase := 0
           pour := { c.pour with step := 0, layer := c.pour.layer + 1 } }

/-- The cut's cores on this device go on after a release. -/
def State.releaseCut (s : State) (i : Nat) (flip : Bool) : State :=
  let s := (s.planCores (s.session i).plan).foldl (fun s (d, c) => s.updCore d c (Core.release flip s.wall)) s
  s.updSession i (fun ss => { ss with cinch := [], cinchAt := none, cinchUnready := false })

/-- CINCH_RELEASE (R163, R164): the root decides the swap and broadcasts the release; ring steps go back to 0, and each core goes
on; a deferred swap is logged. -/
def execCinchRelease (dt : Nat) (sess : SessionIx) (s : State) : Result :=
  s.event dt (fun s => s.power.running && s.cinchFull sess.val) (fun s =>
    let ss := s.session sess.val
    let flip := !ss.cinchUnready && (s.planCores ss.plan).all (fun (d, c) => (s.core d c).sfu.shadowValid)
    let s := (s.farRanks ss.plan).foldl (fun s r =>
      s.sendTo r ftData { emptyFlit with vc := 3, payload := cinchPayload sess.val 0 0 flip true }) s
    let s := s.releaseCut sess.val flip
    if flip then s else s.moduleEvent 1 0x000D (logArg 0 sess.val) 0)

/-- 5 ms have passed since a cinch's first arrival, or since a core of the cut began to wait in phase 2 (R164). -/
def State.cinchOver (s : State) (i : Nat) : Bool :=
  let late (t : Option Nat) : Bool := match t with | some t => decide (t + 5000000 ≤ s.time) | none => false
  let ss := s.session i
  ss.bound && (late ss.cinchAt || (s.planCores ss.plan).any (fun (d, c) => late (s.core d c).waitFrom))

/-- A list cut into groups of four. -/
def fours {α : Type} : List α → List (List α)
  | a :: b :: c :: d :: rest => [a, b, c, d] :: fours rest
  | [] => []
  | l => [l]

/-- Missing cores, 16 bits each as a plan lists them, four to a log entry (log entry 17). -/
def missingInfo (l : List (Nat × Nat × Nat)) : Nat := leNat (l.flatMap (fun (r, d, c) => natLE 2 (c + 256 * d + 8192 * r)))

/-- CINCH_TIMEOUT: the firmware cancels the cut's work and logs the missing cores, in as many entries as they take (R164). -/
def execCinchTimeout (dt : Nat) (sess : SessionIx) (s : State) : Result :=
  s.event dt (fun s => s.power.running && s.cinchOver sess.val) (fun s =>
    let ss := s.session sess.val
    let missing := ss.plan.cores.filter (fun (r, d, c) => !ss.cinch.contains (r * 32 + d, c))
    let s := s.cancelCores sess.val (s.planCores ss.plan)
    let s := s.updSession sess.val (fun x => { x with cinch := [], cinchAt := none, cinchUnready := false })
    (if missing.isEmpty then [[]] else fours missing).foldl (fun s l => s.moduleEvent 3 0x000B (logArg 0 sess.val) (missingInfo l)) s)

end Sys2Proof.Machine
end

