-- ==== Sys2Proof/Machine/Plans.lean ====
section
/-! DEFINITION. CONFIGURE's and the cut plan's fields and checks: ranges, the rows of R299 in order, admission, and a loaded layer
program (R6, R33, R161, R172, R209, R257, R275, R297 to R300, R306, R309, R338). -/

namespace Sys2Proof.Machine

/-! ## Fractions: loads and shares are compared exactly -/

/-- The sum of fractions, as numerator and denominator. -/
def fracSum (l : List (Nat × Nat)) : Nat × Nat := l.foldl (fun a b => (a.1 * b.2 + b.1 * a.2, a.2 * b.2)) (0, 1)

def fracOver (x : Nat × Nat) (limit : Nat) : Bool := decide (limit * x.2 < x.1)

/-! ## CONFIGURE (R338) -/

/-- Payload offset of the first format field out of the profile (R172, R231). -/
def formatFault (f : SeqFmt) : Option Nat :=
  ([(decide (f.mdlId ≠ 0), 4), (decide (f.profile ≠ 1 ∧ f.profile ≠ 2), 5),
    (decide ((if f.profile = 2 then 2 else 1) < f.chroma), 6),
    (!(decide (f.bitDepth = 8) || decide (f.bitDepth = 10) || (decide (f.bitDepth = 12) && decide (f.profile = 2))), 7),
    (decide (f.width < 64) || decide (4096 < f.width) || decide (f.width % 2 = 1), 8),
    (decide (f.height < 64) || decide (2176 < f.height) || decide (f.height % 2 = 1), 10),
    (decide (f.rateNum = 0), 12), (decide (f.rateDen = 0) || decide (60 * f.rateDen < f.rateNum), 16),
    (decide (f.maxShort = 0) || decide (8 < f.maxShort), 20), (decide (4 ≤ f.press), 21), (decide (4096 < f.libSize), 22)].find? (·.1)).map (·.2)

def groupCfg (req : Bytes) (i : Nat) : GroupCfg :=
  let o := 0x40 + 8 * i
  { group := leAt req o 1, channels := leAt req (o + 1) 1, layout := leAt req (o + 2) 1, pcmBits := leAt req (o + 3) 1,
    frame := BitVec.ofNat 32 (leAt req (o + 4) 4) }

/-- The parameters a CONFIGURE payload gives, from a port. -/
def configOf (req : Bytes) (p : Nat) : SessionCfg :=
  let kind := leAt req 2 1
  let np := leAt req 3 1
  { kind := kind, notifyPort := if np = 0xFF then p else np, fmt := if isVideoKind kind then seqFmtLE req 4 else {},
    wdPeriods := if leAt req 0x18 1 = 0 then 8 else leAt req 0x18 1, lambda := leAt req 0x19 1,
    libSearch := bitAt (leAt req 0x1A 1) 0, resetInterval := if leAt req 0x1B 1 = 0 then 50 else leAt req 0x1B 1,
    outRingKib := leAt req 0x1C 2,
    groups := if isAudioKind kind then (List.range (leAt req 0x1E 1)).map (groupCfg req) else []
    attach := if isAudioKind kind && decide (leAt req 0x20 2 ≠ 0xFFFF) then some (leAt req 0x20 2) else none }

/-- Group indices of the audio sessions attached to a video session, other than one (R274). -/
def State.attachedGroups (s : State) (v i : Nat) : List Nat :=
  s.sessions.flatMap (fun e => if e.1 ≠ i ∧ e.2.st ≠ .idle ∧ e.2.cfg.attach = some v then e.2.cfg.groups.map (·.group) else [])

/-- Payload offset of the first group field out of range (R274, R276, R282). -/
def State.groupFault (s : State) (i : Nat) (cfg : SessionCfg) : Option Nat :=
  let taken := match cfg.attach with | some v => s.attachedGroups v i | none => []
  ((List.range cfg.groups.length).flatMap (fun n =>
    let g := cfg.groups.getD n ⟨0, 0, 0, 0, 0⟩
    let o := 0x40 + 8 * n
    [(decide (63 < g.group) || taken.contains g.group || ((cfg.groups.take n).map (·.group)).contains g.group, o),
     (decide (g.channels = 0) || decide (16 < g.channels), o + 1), (!layoutFits g.layout g.channels, o + 2),
     (decide (g.pcmBits ≠ 16 ∧ g.pcmBits ≠ 24), o + 3)]) |>.find? (·.1)).map (·.2)

/-- Bytes of a CONFIGURE layout. -/
def configLayout (req : Bytes) : Nat := 0x40 + (if isAudioKind (leAt req 2 1) then 8 * leAt req 0x1E 1 else 0)

/-- Ranges and reserved fields of a CONFIGURE payload. -/
def State.configChecks (s : State) (req : Bytes) (p : Nat) : List (Bool × Answer) :=
  let kind := leAt req 2 1
  let np := leAt req 3 1
  let audio := isAudioKind kind
  let wd := leAt req 0x18 1
  let gc := leAt req 0x1E 1
  let at_ := leAt req 0x20 2
  let cfg := configOf req p
  let bad (c : Bool) (o : Nat) : Bool × Answer := (c, refusal stBadArg o)
  let fault (f : Option Nat) : Bool × Answer := (f.isSome, refusal stBadArg (f.getD 0))
  [bad (decide (255 < leAt req 0 2)) 0, bad (decide (kind = 0) || decide (4 < kind)) 2, bad (decide (3 < np) && decide (np ≠ 0xFF)) 3,
   fault (if audio then (firstNonzero (req.take 0x18) 4) else formatFault (seqFmtLE req 4)),
   bad (decide (wd ≠ 0) && (decide (wd < 4) || decide (64 < wd))) 0x18, bad (decide (2 ≤ leAt req 0x1A 1)) 0x1A,
   bad (decide (250 < leAt req 0x1B 1)) 0x1B, bad (decide (leAt req 0x1C 2 < 64)) 0x1C,
   bad (if audio then decide (gc = 0) || decide (64 < gc) else decide (gc ≠ 0)) 0x1E, bad (!zeroAt req 0x1F 1) 0x1F,
   bad (if audio then decide (255 < at_) && decide (at_ ≠ 0xFFFF) else decide (at_ ≠ 0)) 0x20,
   fault (firstNonzero (req.take 0x40) 0x22), fault (s.groupFault (leAt req 0 2) cfg), tailZero req (configLayout req)]

/-- The limits of R275 would be exceeded. -/
def State.audioFull (s : State) (i : Nat) (cfg : SessionCfg) : Bool :=
  let others := (s.sessions.filter (fun e => decide (e.1 ≠ i) && decide (e.2.st ≠ .idle) && isAudioKind e.2.cfg.kind)).map (·.2.cfg.groups)
  isAudioKind cfg.kind && (decide (64 ≤ others.length) || decide (256 < others.flatten.length + cfg.groups.length) ||
    decide (1024 < ((others.flatten ++ cfg.groups).map (·.channels)).sum))

/-! ## The cut plan (R297, R298) -/

/-- A plan's fields. A device that is in no cascade calls itself rank 0; its plans are kept under its own rank. -/
def State.planOf (s : State) (req : Bytes) : CutPlan :=
  let own (r : Nat) : Nat := if s.cascade.formed then r else s.rank
  let base := leAt req 0x30 8
  { session := leAt req 0 2, kind := leAt req 2 1, recipe := leAt req 3 1, generation := leAt req 4 2,
    guard := bitAt (leAt req 6 1) 0, now := bitAt (leAt req 6 1) 1, maxRefs := leAt req 7 1, modelSlot := leAt req 8 2,
    streamDie := leAt req 0xC 1, memDie := leAt req 0xD 1, drainBoundMs := leAt req 0xE 2,
    searchers := BitVec.ofNat 24 (leAt req 0x10 4), predictors := BitVec.ofNat 24 (leAt req 0x14 4),
    lanes := BitVec.ofNat 32 (leAt req 0x18 4), remapGraceMs := if leAt req 0x1C 2 = 0 then 500 else leAt req 0x1C 2,
    homeRank := own (leAt req 0x1E 1), reserveBytes := leAt req 0x20 8, minReserve := leAt req 0x28 8,
    cxlBase := base % 2 ^ 41, cxlPort := base / 2 ^ 63, cxlSize := leAt req 0x38 8,
    cores := (List.range (leAt req 0xA 2)).map (fun i =>
      let w := leAt req (0x40 + 2 * i) 2
      (own (bits w 15 13), bits w 12 8, bits w 7 0)) }

/-- Bytes of a plan's layout: header and list, padded to a multiple of 4. -/
def planLayout (req : Bytes) : Nat := 0x40 + 4 * ceilDiv (2 * leAt req 0xA 2) 4

/-- A rank a plan may name: only 0 alone, a reachable member in a cascade (R320). -/
def State.rankOk (s : State) (r : Nat) : Bool := if s.cascade.formed then s.memberRank r && s.reaches r else decide (r = 0)

/-- Payload offset of the first bad entry of the core list: out of range, an absent rank, or a core listed twice. -/
def State.coreListFault (s : State) (req : Bytes) : Option Nat :=
  let ws := (List.range (leAt req 0xA 2)).map (fun i => leAt req (0x40 + 2 * i) 2)
  ((List.range ws.length).find? (fun i =>
    let w := ws.getD i 0
    decide (159 < bits w 7 0) || decide (23 < bits w 12 8) || !s.rankOk (bits w 15 13) || (ws.take i).contains w)).map (fun i => 0x40 + 2 * i)

/-- Ranges that the payload alone decides (R299, first row). -/
def State.planChecks (s : State) (req : Bytes) : List (Bool × Answer) :=
  let pl := s.planOf req
  let fl := leAt req 6 1
  let grace := leAt req 0x1C 2
  let bad (c : Bool) (o : Nat) : Bool × Answer := (c, refusal stBadArg o)
  [bad (decide (255 < pl.session)) 0, bad (decide (pl.kind = 0) || decide (4 < pl.kind)) 2,
   bad (decide (4 ≤ fl) || (pl.guard && isEncodeKind pl.kind)) 6,
   bad (match pl.kind with | 1 => decide (8 < pl.maxRefs) | 2 => decide (pl.maxRefs ≠ 8) | _ => decide (pl.maxRefs ≠ 0)) 7,
   bad (decide (31 < pl.modelSlot)) 8, bad pl.cores.isEmpty 0xA, bad (decide (1 < pl.streamDie)) 0xC, bad (decide (3 < pl.memDie)) 0xD,
   bad (decide (pl.drainBoundMs = 0) || decide (1000 < pl.drainBoundMs)) 0xE,
   bad (decide (2 ^ 24 ≤ leAt req 0x10 4) || (decide (pl.searchers ≠ 0) != decide (pl.kind = 1))) 0x10,
   bad (decide (2 ^ 24 ≤ leAt req 0x14 4) || (decide (pl.predictors ≠ 0) != isVideoKind pl.kind)) 0x14,
   bad (decide (pl.lanes = 0)) 0x18, bad (decide (grace ≠ 0) && (decide (grace < 10) || decide (5000 < grace))) 0x1C,
   bad (decide (8 ≤ leAt req 0x1E 1) || !s.rankOk (leAt req 0x1E 1)) 0x1E, bad (!zeroAt req 0x1F 1) 0x1F,
   bad (decide (pl.reserveBytes % 4096 ≠ 0)) 0x20, bad (decide (pl.minReserve % 4096 ≠ 0)) 0x28,
   bad (decide (bits (leAt req 0x30 8) 62 41 ≠ 0)) 0x30,
   ((s.coreListFault req).isSome, refusal stBadArg ((s.coreListFault req).getD 0)),
   tailZero req (0x40 + 2 * leAt req 0xA 2)]

/-- A video session and the audio sessions attached to it are framed by one stream die (R274). One that has lost its stream die does not
hold the others back: its own re-map must follow them. -/
def State.framedApart (s : State) (i sd : Nat) : Bool :=
  s.sessions.any (fun e => e.2.bound && decide (e.2.plan.streamDie ≠ sd) && !s.dieFenced (streamDieIx e.2.plan.streamDie) &&
    (decide ((s.session i).cfg.attach = some e.1) || decide (e.2.cfg.attach = some i)))

/-- The rest of R299's first row: what the session's configuration and the plan in force fix. -/
def State.fixedChecks (s : State) (pl : CutPlan) (old : Option CutPlan) : List (Bool × Answer) :=
  let ss := s.session pl.session
  let bad (c : Bool) (o : Nat) : Bool × Answer := (c, refusal stBadArg o)
  let n := pl.cores.length
  let g := ss.cfg.groups.length
  [bad (decide (pl.kind ≠ ss.cfg.kind)) 2,
   bad (if isVideoKind pl.kind then decide (ss.cfg.fmt.latentRows < n) else decide (n < g) || decide (4 * g < n)) 0xA,
   bad (s.framedApart pl.session pl.streamDie) 0xC] ++
  match old with
  | none => [bad (decide (pl.generation ≠ 0)) 4]
  | some o =>
    [bad (decide (pl.recipe ≠ o.recipe)) 3, bad (decide (pl.modelSlot ≠ o.modelSlot) &&
        decide ((Tab.get {} s.models pl.modelSlot).hash ≠ (Tab.get {} s.models o.modelSlot).hash)) 8,
     bad (decide ((pl.cxlPort, pl.cxlBase, pl.cxlSize) ≠ (o.cxlPort, o.cxlBase, o.cxlSize))) 0x30]

/-- Dies that a plan names on this device, each with the payload offset that names it. -/
def State.namedDies (s : State) (pl : CutPlan) : List (Nat × Nat) :=
  let engines (m : BitVec 24) (o : Nat) := (List.range 24).filterMap (fun b => if m.getLsbD b then some (o, streamDieIx (b / 12)) else none)
  (if pl.homeRank = s.rank then
    [(0xC, streamDieIx pl.streamDie), (0xD, memDieIx pl.memDie)] ++ engines pl.searchers 0x10 ++ engines pl.predictors 0x14 else []) ++
  (List.range pl.cores.length).filterMap (fun i =>
    match pl.cores[i]? with
    | some c => if c.1 = s.rank then some (0x40 + 2 * i, c.2.1) else none
    | none => none)

/-- Payload offset of the first retired core a plan names. -/
def State.namedRetired (s : State) (pl : CutPlan) : Option Nat :=
  ((List.range pl.cores.length).find? (fun i =>
    match pl.cores[i]? with
    | some c => decide (c.1 = s.rank) && (s.die c.2.1).retired.contains c.2.2
    | none => false)).map (fun i => 0x40 + 2 * i)

/-! ## The pool's quantities (R309) -/

/-- Carry channels of the model a plan names. -/
def State.planCarry (s : State) (pl : CutPlan) : Nat := pkgCarryChannels (Tab.get {} s.models pl.modelSlot).package

/-- The fixed charge Q: the staging buffer and the rings. -/
def State.fixedChargeOf (s : State) (cfg : SessionCfg) (pl : CutPlan) : Nat :=
  (if cfg.fmt.libSize ≠ 0 then cfg.fmt.libBytes (s.planCarry pl) else 0) + recRingBytes + outRingBytes cfg.outRingKib

/-- A video picture's need n, and FB. -/
def State.needOf (s : State) (cfg : SessionCfg) (pl : CutPlan) : Nat := cfg.fmt.need (isEncodeKind cfg.kind) (s.planCarry pl)
def State.frameOf (s : State) (cfg : SessionCfg) (pl : CutPlan) : Nat := cfg.fmt.frameBytes (isEncodeKind cfg.kind) (s.planCarry pl)

/-- The floor of `min_reserve`. An audio frame's need has no size in the spec: its floor is the fixed charge. -/
def State.floorOf (s : State) (cfg : SessionCfg) (pl : CutPlan) : Nat :=
  (if isVideoKind cfg.kind then pl.maxRefs * s.frameOf cfg pl + s.needOf cfg pl else 0) + s.fixedChargeOf cfg pl

/-! ## Exclusive resources (R295, R299) -/

/-- Plans of the other bound sessions, a waiting re-cut's new plan included. -/
def State.otherPlans (s : State) (i : Nat) : List (CutPlan × SessionCfg) :=
  s.sessions.flatMap (fun e =>
    if e.1 ≠ i ∧ e.2.bound then (e.2.plan, e.2.cfg) :: (match e.2.recut with | some r => [(r.plan, e.2.cfg)] | none => []) else [])

/-- Payload offset of the first core that another cut holds. -/
def State.coreHeld (s : State) (pl : CutPlan) : Option Nat :=
  let held := (s.otherPlans pl.session).flatMap (fun p => p.1.cores)
  ((List.range pl.cores.length).find? (fun i => match pl.cores[i]? with | some c => held.contains c | none => false)).map (fun i => 0x40 + 2 * i)

/-- Shared space that a plan's reserve takes beyond what its session holds already. -/
def State.reserveGrowth (s : State) (pl : CutPlan) (old : Option CutPlan) : Nat :=
  let ss := s.session pl.session
  match old with
  | none => max pl.reserveBytes (s.fixedChargeOf ss.cfg pl)
  | some o =>
    if o.memDie = pl.memDie && !ss.poolLost then max pl.reserveBytes ss.charge - max o.reserveBytes ss.charge
    else max pl.reserveBytes ss.charge

/-- The CXL region lies outside the expander, overlaps another, or cannot hold the declared library. -/
def State.cxlBad (s : State) (pl : CutPlan) (cfg : SessionCfg) : Bool :=
  let cap := if s.cxlServes pl.cxlPort then (s.cxlPort pl.cxlPort).capacity else 0
  let need := cfg.fmt.libSize * cfg.fmt.libBytes (s.planCarry pl)
  (decide (pl.cxlSize ≠ 0) || decide (cfg.fmt.libSize ≠ 0)) &&
    (decide (cap < pl.cxlBase + pl.cxlSize) || decide (pl.cxlSize < need) ||
      (s.otherPlans pl.session).any (fun p => decide (p.1.cxlSize ≠ 0) && decide (pl.cxlSize ≠ 0) && decide (p.1.cxlPort = pl.cxlPort) &&
        decide (pl.cxlBase < p.1.cxlBase + p.1.cxlSize) && decide (p.1.cxlBase < pl.cxlBase + pl.cxlSize)))

/-- No guard engine is free for a plan that needs one (R257). -/
def State.guardFull (s : State) (pl : CutPlan) : Bool :=
  pl.guard && decide (8 ≤ ((s.otherPlans pl.session).filter (fun p => p.1.guard && decide (p.1.streamDie = pl.streamDie) &&
    decide (p.1.homeRank = s.rank))).length)

/-! ## Admission (R6, R33, R209, R300) -/

/-- L of R209: the luma pixel rate over 497,664,000. -/
def SeqFmt.load (f : SeqFmt) : Nat × Nat := (f.width * f.height * f.rateNum, f.rateDen * 497664000)

def scaleFrac (n : Nat) (x : Nat × Nat) : Nat × Nat := (n * x.1, x.2)

/-- A session's part of 2E + D: eight times under recipe 1. -/
def arithLoad (p : CutPlan × SessionCfg) : Nat × Nat :=
  scaleFrac ((if p.1.kind = 1 then 2 else 1) * (if p.1.recipe = 1 then 8 else 1)) p.2.fmt.load

/-- Core dies without power or fenced, and stream dies that serve (R33, R405). -/
def State.coreDiesGone (s : State) : Nat := ((List.range 24).filter (fun d => !s.diePowered d)).length
def State.streamDiesLeft (s : State) : Nat := ([28, 29].filter (fun d => s.diePowered d)).length

/-- In-picture sub-blocks of each CB row (R185). -/
def SeqFmt.subBlocksPerRow (f : SeqFmt) : List Nat := (List.range f.cbRows).map (fun r => min 4 (f.subRows - 4 * r) * f.subCols)

/-- Load that a session puts on each searcher: engine, share of its time, and pictures per second. -/
def searchLoad (p : CutPlan × SessionCfg) : List (Nat × (Nat × Nat) × (Nat × Nat)) :=
  let f := p.2.fmt
  let es := engineList p.1.searchers
  let cap := if 2 ≤ p.1.maxRefs || p.2.libSearch then 1953125 else 3906250
  (List.range es.length).map (fun k =>
    let (a, n) := evenShare f.cbRows es.length k
    (es.getD k 0, (((f.subBlocksPerRow.drop a).take n).sum * f.rateNum, cap * f.rateDen), (f.rateNum, f.rateDen)))

/-- Some searcher would be asked for more than its time, a 10 µs switch per picture included where it serves several sessions. -/
def searchersOver (ps : List (CutPlan × SessionCfg)) : Bool :=
  let all := (ps.filter (fun p => p.1.kind = 1)).flatMap searchLoad
  (List.range 24).any (fun e =>
    let mine := all.filter (fun x => x.1 = e)
    let switches := if 1 < mine.length then mine.map (fun x => (x.2.2.1, x.2.2.2 * 100000)) else []
    fracOver (fracSum (mine.map (·.2.1) ++ switches)) 1)

/-- A session's stream rate in bit/s, at most 2 Gbit/s (R5, R209). No field of a command states it: what the device takes it to be is
free (log entry 38). -/
def streamRate (p : CutPlan × SessionCfg) : Nat := min 2000000000 (Config.freeStreamRate p.1.session (p.2.fmt.width * p.2.fmt.height))

/-- Mean pictures in flight of a session, in thousandths (R210). A session has at most one picture between phase 1 and its record; the
span that decides the rest is timing, and free (log entry 38). -/
def occupancy (p : CutPlan × SessionCfg) : Nat := min 1000 (Config.freeOccupancy p.1.session (p.2.fmt.width * p.2.fmt.height))

/-- The stream rates exceed a limit in Gbit/s, or the pictures in flight 64: sums of bounded parts, so neither can for few sessions. -/
def ratesOver (ps : List (CutPlan × SessionCfg)) (gbit : Nat) : Bool :=
  decide (gbit < 2 * ps.length) && decide (gbit * 1000000000 < (ps.map streamRate).sum)
def occupancyOver (ps : List (CutPlan × SessionCfg)) : Bool := decide (64 < ps.length) && decide (64000 < (ps.map occupancy).sum)

/-- The mix with this plan in it is beyond the admission limits; E counts encodes in units of 2160p60 (R6, R33, R209, R210). -/
def State.notAdmitted (s : State) (pl : CutPlan) (cfg : SessionCfg) : Bool :=
  let all := s.otherPlans pl.session ++ [(pl, cfg)]
  let ps := all.filter (fun p => isVideoKind p.1.kind)
  let encs := ps.filter (fun p => p.1.kind = 1)
  fracOver (fracSum (ps.map arithLoad)) (48 - 2 * s.coreDiesGone) || decide (s.streamDiesLeft = 0) ||
    (decide (s.streamDiesLeft = 1) &&
      (fracOver (fracSum (encs.map (fun p => p.2.fmt.load))) 12 ||
        fracOver (fracSum (encs.map (fun p => (p.2.fmt.width * p.2.fmt.height * p.2.fmt.rateNum, p.2.fmt.rateDen)))) 6000000000)) ||
    searchersOver ps || ratesOver all (24 * s.streamDiesLeft) || occupancyOver ps

/-- An encode binds at least min(160 × L, latent rows) cores (R209). -/
def tooFewCores (pl : CutPlan) (cfg : SessionCfg) : Bool :=
  decide (pl.kind = 1) && decide (pl.cores.length < cfg.fmt.latentRows) && fracOver (scaleFrac 160 cfg.fmt.load) pl.cores.length

/-! ## The model in the rings (R155, R306) -/

/-- Bytes of the weights that CONV and MATMUL layers of a program stream as Y. -/
def pkgWeightBytes (pkg : Bytes) : Nat :=
  let sec := pkgSectionBytes pkg 0
  let ts := tensorEntries sec
  let layers := (List.range (leAt sec 2 2)).map (fun i => ({ raw := slice sec (leAt sec 8 4 + 160 * i) 160 } : Layer))
  let ys := (layers.filter (fun l => decide (l.template.opcode = dCONV) || decide (l.template.opcode = dMATMUL))).map (fun l => l.tid 4)
  (ys.eraseDups.map (fun t => match ts[t]? with | some e => e.count largest * fmtSize e.fmt | none => 0)).sum

/-- Some die's ring cannot hold the model: more than 32 MiB, or more than its cores' banks without the travel banks. -/
def State.ringsTooSmall (s : State) (pl : CutPlan) : Bool :=
  let w := pkgWeightBytes (Tab.get {} s.models pl.modelSlot).package
  let cs := s.planCores pl
  decide (33554432 < w) ||
    cs.any (fun x =>
      let n := (cs.filter (fun y => y.1 = x.1)).length
      decide (n * (if n = 1 then 8 else 7) * 65536 < w))

/-- A video model beyond R172: its cost per luma pixel of the coded area, its latent channels or its carry channels. -/
def modelBeyond (pkg : Bytes) (f : SeqFmt) (encode : Bool) : Bool :=
  let pixels := f.codedW * f.codedH
  let macs (nets : List Nat) : Nat := (programOf pkg).macs f.geometry nets
  decide (256 < pkgLatentChannels pkg) || decide (64 < pkgCarryChannels pkg) ||
    (if encode then decide (60000 * pixels < macs [0, 1, 2, 3, 4]) else decide (30000 * pixels < macs [0, 3, 4]))

/-- The rows of R299 after the generation check, in order. -/
def State.planOwnChecks (s : State) (pl : CutPlan) (old : Option CutPlan) : List (Bool × Answer) :=
  let cfg := (s.session pl.session).cfg
  let m : ModelSlot := Tab.get {} s.models pl.modelSlot
  let home := decide (pl.homeRank = s.rank)
  let off (o : Option Nat) : Nat := o.getD 0
  let fenced := ((s.namedDies pl).find? (fun x => s.dieFenced x.2)).map (·.1)
  let unpowered := ((s.namedDies pl).find? (fun x => !s.diePowered x.2)).map (·.1)
  let audio := isAudioKind pl.kind
  [s.handoverBusy, (decide (pl.recipe ≠ 1 ∧ pl.recipe ≠ 2), refusal stUnsupportedRecipe 3),
   (s.security.reloading.contains pl.modelSlot, refusal stBusy 8),
   (decide (m.package = []) || decide (m.kind ≠ (if audio then 2 else 1)) || decide (m.recipe ≠ pl.recipe), refusal stModelUnknown 8),
   (isVideoKind pl.kind && modelBeyond m.package cfg.fmt (isEncodeKind pl.kind), refusal stBadArg 8), (s.ringsTooSmall pl, refusal stBadArg 8),
   (fenced.isSome, refusal stFenced (off fenced)), ((s.namedRetired pl).isSome, refusal stFenced (off (s.namedRetired pl))),
   (home && decide (pl.minReserve < s.floorOf cfg pl), refusal stBadArg 0x28),
   (decide (pl.reserveBytes < pl.minReserve), refusal stBadArg 0x20),
   (unpowered.isSome, refusal stNoResource (off unpowered)),
   ((s.coreHeld pl).isSome, refusal stNoResource (off (s.coreHeld pl))),
   (home && decide (s.poolFreeBytes pl.memDie < s.reserveGrowth pl old), refusal stNoResource 0x20),
   (home && old.isNone && s.cxlBad pl cfg, refusal stNoResource 0x30), (home && s.guardFull pl, refusal stNoResource 6),
   (old.isNone && s.audioFull pl.session cfg, refusal stNoResource 0), (s.notAdmitted pl cfg, refusal stNoResource 0),
   (tooFewCores pl cfg, refusal stNoResource 0xA)]

/-! ## A loaded layer program (R100, R161) -/

/-- Handovers at once, as a load-time check sees them. -/
def Core.handNow (c : Core) (hs : List (Nat × Nat)) : Core :=
  hs.foldl (fun c h =>
    let k := c.requestOwn h.1 h.2 0
    if (k.bank h.1).pending then k.takeOwn h.1 else k) c

/-- Reserved bits and bytes of a boundary entry that are not 0 (R8, R159). -/
def entryReserved (e : QueueEntry) : Bool :=
  (List.range 8).any (fun k => bitAt (e.b k 1) 6) || !zeroAt e.boundary 0x19 7

/-- An entry that moves rows gives their length as a multiple of 64 from 64 to 16,384 (R159). -/
def entryRowBad (e : QueueEntry) : Bool :=
  decide (e.recvUp + e.recvDn + e.teeUp + e.teeDn ≠ 0) &&
    (decide (e.rowLen % 64 ≠ 0) || decide (e.rowLen < 64) || decide (16384 < e.rowLen))

/-- The pour ring as a program's descriptor finds it: at the step it waits for, and after a cinch at step 0 of the next layer. -/
def Core.atWait (c : Core) (e : QueueEntry) : Core := { c with pour := { c.pour with step := e.pourWait.getD c.pour.step } }
def Core.pastCinch (c : Core) (e : QueueEntry) : Core :=
  if e.d.cinchAfter then { c with pour := { c.pour with step := 0, layer := c.pour.layer + 1 } } else c

/-- One descriptor of a program at load (R100, R159, R161): the core after it, and the status of its first failing check; `free` is
that of a check without a code. -/
def Core.loadStep (c : Core) (e : QueueEntry) (free : Nat) : Core × Option Nat :=
  let k := c.handNow e.pre
  let places := rowPlaces e.upBase e.recvPitch e.rowLen e.recvUp ++ rowPlaces e.dnBase e.recvPitch e.rowLen e.recvDn
  if entryReserved e then (k, some csReservedNonzero)
  else if entryRowBad e then (k, some free)
  else if !(places.all k.seamMayWrite) then (k, some csBankNotOwned)
  else
    let k := (k.handNow e.post).atWait e
    (k.pastCinch e, (e.d.validate k k.recipe).map (·.2))

/-- Index and status of the first descriptor that fails. -/
def Core.loadFault (c : Core) (free : Nat) : Nat → List QueueEntry → Option (Nat × Nat)
  | _, [] => none
  | i, e :: rest =>
    let (k, st) := c.loadStep e free
    match st with
    | some x => some (i, x)
    | none => k.loadFault free (i + 1) rest

/-- Index of the first descriptor whose tee rows exceed half a receive buffer on some port. -/
def teeFault (a : List QueueEntry) : Option Nat :=
  (List.range a.length).find? (fun i => match a[i]? with
    | some x => decide (16384 < x.teeUp * x.rowLen) || decide (16384 < x.teeDn * x.rowLen)
    | none => false)

/-- Index of the first descriptor whose tee rows disagree with what the neighbour below copies in. -/
def seamFault (a b : List QueueEntry) : Option Nat :=
  (List.range a.length).find? (fun i =>
    match a[i]?, b[i]? with
    | some x, some y =>
      (match b[i + 1]? with | some z => decide (x.teeDn * x.rowLen ≠ z.recvUp * z.rowLen) || (decide (x.teeDn ≠ 0) && decide (x.rowLen ≠ z.rowLen)) | none => false) ||
        (match a[i + 1]? with | some z => decide (y.teeUp * y.rowLen ≠ z.recvDn * z.rowLen) || (decide (y.teeUp ≠ 0) && decide (y.rowLen ≠ z.rowLen)) | none => false)
    | _, _ => true)

/-- Two descriptors work on one product: the same operation, rows and columns. -/
def Desc.sameProduct (a b : Desc) : Bool :=
  decide (a.opcode = b.opcode) && decide (a.opcode ≤ dMATMUL) && decide (a.rows = b.rows) && decide (a.cols = b.cols)

/-- The producers of the finisher at place `i` of its core: those of its product since an earlier finisher of that product. Which
descriptors these are is not stated (DESIGN CHOICE, log entry 15). -/
def producersOf (progs : List (List QueueEntry)) (f : Desc) (i : Nat) : List Desc :=
  progs.flatMap (fun p =>
    let before := (p.take i).map (·.d)
    let last := (List.range before.length).foldl (fun n k =>
      if progs.any (fun q => match q[k]? with | some e => decide (e.d.split = 2) && e.d.sameProduct f | none => false) then k + 1 else n) 0
    (before.drop last).filter (fun d => decide (d.split = 1) && d.sameProduct f))

/-- A finisher's producers chain from 0 to K without gap or overlap and agree on form and tile count (R70). -/
def Desc.chainOk (f : Desc) (ps : List Desc) : Bool :=
  let sorted := ps.foldl (fun l p => l.filter (fun q => decide (q.kFirst ≤ p.kFirst)) ++ [p] ++ l.filter (fun q => decide (p.kFirst < q.kFirst))) []
  let reach := sorted.foldl (fun (a : Option Nat) p => if a = some p.kFirst then some (p.kFirst + p.kCount) else none) (some 0)
  decide (reach = some f.kTotal) && decide (ps.length = f.partialCount) && ps.all (fun p => decide (p.form = f.form) && decide (p.tiles = f.tiles))

/-- Index of the first finisher of a program whose producers break R70. -/
def finisherFault (progs : List (List QueueEntry)) : Option Nat :=
  progs.findSome? (fun p => (List.range p.length).find? (fun i => match p[i]? with
    | some e => decide (e.d.opcode ≤ dMATMUL) && decide (e.d.split = 2) && !e.d.chainOk (producersOf progs e.d i)
    | none => false))

/-- A core as a load finds it: one that joins the cut is free, one that the session holds keeps its scratch. -/
def State.loadBase (s : State) (pl : CutPlan) (fresh : Bool) (l : CoreLoad) : Core :=
  let c := s.core l.die.val l.core.val
  let t := pkgSectionBytes (Tab.get {} s.models pl.modelSlot).package 1
  let c := if c.session = some pl.session then c else (c.leave).join pl.session pl.recipe
  let c := if fresh && !t.isEmpty then { c with sfu := c.sfu.install t } else c
  (c.load l).handNow (l.owners.map (fun o => (o.1.val, o.2.val)))

/-- What the firmware's checks of a loaded program find: the descriptor's index and a core status (R70, R161, R337). -/
def State.programRefused (s : State) (pl : CutPlan) (fresh : Bool) (ls : List CoreLoad) : Option (Nat × Nat) :=
  let free := Config.freeLoadStatus s.freeTick
  let at_ (c : Nat × Nat) : List QueueEntry := ((ls.find? (fun l => decide (l.die.val = c.1) && decide (l.core.val = c.2))).map (·.entries)).getD []
  let cs := s.planCores pl
  let progs := cs.map at_
  let near := (pl.cores.zip (pl.cores.drop 1)).filter (fun p => decide (p.1.1 = s.rank) && decide (p.2.1 = s.rank))
  let uneven := progs.any (fun p => decide (p.map (fun e => e.d.cinchAfter) ≠ (progs.headD []).map (fun e => e.d.cinchAfter)))
  let own := ls.findSome? (fun l => (s.loadBase pl fresh l).loadFault free 0 l.entries)
  (own.orElse (fun _ => (finisherFault progs).map (fun i => (i, csBadKSplit)))).orElse (fun _ =>
    if uneven then some (0, free)
    else ((progs.findSome? teeFault).orElse (fun _ => near.findSome? (fun p => seamFault (at_ p.1.2) (at_ p.2.2)))).map (fun i => (i, free)))

end Sys2Proof.Machine
end

