-- ==== Sys2Proof/Machine/Sessions.lean ====
section
/-! DEFINITION. Session commands and the session's own events (R301 to R319, R332, R337 to R341, R453). -/

namespace Sys2Proof.Machine

/-! ## The frame of a session command -/

/-- An answer that names a session carries its state and generation (R327). -/
def State.ansFor (s : State) (i : Nat) (a : Answer) : Answer :=
  if i ≤ 255 then { a with stateNow := (s.session i).st.code, genNow := (s.session i).gen } else a

def State.answerFor (s : State) (p k i : Nat) (a : Answer) : State := s.answer p k (s.ansFor i a)

/-- The checks of a session command, in order. -/
def State.sessionChecked (s : State) (p k i : Nat) (checks : List (Bool × Answer)) (ok : State → State) : State :=
  match firstFail checks with
  | some a => s.answerFor p k i a
  | none => ok s

/-- The session a payload names. -/
def sessOf (req : Bytes) : Nat := leAt req 0 2

/-- The session works on a command that takes long, or others already wait for it (R303). -/
def Session.busyWith (ss : Session) : Bool := ss.recut.isSome || !ss.parked.isEmpty

/-- The frame of a session command (R303, R330): an accepted command waits in its slot while the session's running one lasts, or
while `late` holds it; the same row then carries it out. `ask` says what a re-cut asks for, should it have to wait. -/
def State.sessionRow (s : State) (dt : Nat) (p : Port) (k : Slot) (op : Nat) (late : State → Nat → Bool)
    (body : State → Bytes → State) (ask : State → Bytes → Option (Recut × Bool) := fun _ _ => none) : Result :=
  let t := s.elapse dt
  let sl := t.slot p.val k.val
  let i := sessOf sl.request
  if sl.st = 2 then
    if t.serves p.val && decide (sl.opcode.toNat = op) && ((t.session i).parked.head?).any (fun x => decide (x.port = p.val) && decide (x.slot = k.val)) &&
        (t.session i).recut.isNone && !late t i then
      .next (body (t.updSession i (fun ss => { ss with parked := ss.parked.drop 1 })) sl.request)
    else .next t
  else
    .next (t.command p.val k.val (isOpcode op) (fun a req =>
      let i := sessOf req
      if decide (i ≤ 255) && ((a.session i).busyWith || late a i) then
        a.updSession i (fun ss => { ss with parked := ss.parked ++ [{ port := p.val, slot := k.val, recut := ask a req }] })
      else body a req))

/-- Nothing holds a command but the session's running one. -/
def neverLate : State → Nat → Bool := fun _ _ => false

/-- A session index out of range. -/
def sessionRange (req : Bytes) : Bool × Answer := (decide (255 < sessOf req), refusal stBadArg 0)

/-- The session is in none of the states a command is legal in (R341). -/
def State.wrongState (s : State) (i : Nat) (ok : List SessState) : Bool × Answer := (!ok.contains (s.session i).st, refusal stBadState 0)

/-- The generation is not the current one (R302). -/
def State.staleGen (s : State) (i gen off : Nat) : Bool × Answer := (decide (gen ≠ (s.session i).gen), refusal stStale off)

/-- Checks of START, DRAIN, ABORT and UNBIND. -/
def State.genChecks (s : State) (p k : Nat) (req : Bytes) (ok : List SessState) : List (Bool × Answer) :=
  s.ownerChecks p k 4 ++
    [sessionRange req, tailZero req 4, s.wrongState (sessOf req) ok, s.staleGen (sessOf req) (leAt req 2 2) 2, s.handoverBusy]

/-! ## CONFIGURE, BIND, START (R338, R341) -/

/-- CONFIGURE. -/
def execConfigure (dt : Nat) (p : Port) (k : Slot) (s : State) : Result :=
  s.sessionRow dt p k 0x20 neverLate (fun s req =>
    let i := sessOf req
    let cfg := configOf req p.val
    s.sessionChecked p.val k.val i
      (s.ownerChecks p.val k.val (configLayout req) ++ s.configChecks req p.val ++
        [s.wrongState i [.idle, .configured], s.handoverBusy, (s.audioFull i cfg, refusal stNoResource 0)])
      (fun s => (s.updSession i (fun ss => { ss with st := .configured, cfg := cfg })).answerFor p.val k.val i {}))

/-- The groups of an audio session as its configuration starts them (R277). -/
def groupsOf (cfg : SessionCfg) : Tab AudioGroup :=
  (List.range 64).foldl (fun t g =>
    match cfg.groups.find? (fun x => x.group = g) with
    | some x => Tab.set {} t g { frame := x.frame }
    | none => t) []

/-- The plan's home is this device: its stream die, pool reserve, rings and CXL region are here (R322). -/
def State.isHome (s : State) (pl : CutPlan) : Bool := decide (pl.homeRank = s.rank)

/-- Rings of the other sessions at home here. -/
def State.ringsUsed (s : State) (i : Nat) : List (Nat × Nat) :=
  (s.sessions.filter (fun e => decide (e.1 ≠ i) && e.2.bound && s.isHome e.2.plan && !e.2.poolLost)).flatMap (fun e =>
    [(e.2.recBase, recRingBytes), (e.2.outBase, outRingBytes e.2.cfg.outRingKib)])

/-- Bases of a session's record and output rings in the plan's sub-pool (R307, R333). -/
def State.ringPlaces (s : State) (i : Nat) (pl : CutPlan) (place : Placement) : Nat × Nat :=
  let used := s.ringsUsed i
  let r := regionPlace used pl.memDie place.recBase recRingBytes
  (r, regionPlace ((r, recRingBytes) :: used) pl.memDie place.outBase (outRingBytes (s.session i).cfg.outRingKib))

/-- A valid plan is bound: cores joined and loaded, rings laid out, generation 1 (R296, R301, R306, R322, R333). -/
def State.bindPlan (s : State) (i : Nat) (pl : CutPlan) (place : Placement) : State :=
  let home := s.isHome pl
  let q := if home then s.fixedChargeOf (s.session i).cfg pl else 0
  let rings := s.ringPlaces i pl place
  let s := s.updSession i (fun ss => { ss with
    st := .bound, heldAtFault := .bound, gen := 1, plan := { pl with generation := 1 }, charge := q, fixedCharge := q
    poolLost := false, needRap := false, abandoned := false, lastRecut := none, recut := none, rerunning := false
    recBase := rings.1, outBase := rings.2, recProduced := 0, outProduced := 0, recHeld := [], recStalled := false
    outHeld := [], stallSince := none, pics := [], captures := [], bufs := [], lib := [], rapOrder := 0, lostRefs := [], dec := {}, picTrouble := false
    groups := groupsOf ss.cfg, cinch := [], cinchAt := none })
  let s := (s.bindCores i [] pl).applyLoads i place.loads
  if !home then s
  else
    let s := if pl.guard then s.bindGuard i pl.streamDie else s
    ((s.moveLanes i {} pl).initRing rings.1 0).initRing rings.2 0

/-- BIND. A refused layer program is named by its descriptor index and its core status (R337). -/
def execBind (dt : Nat) (p : Port) (k : Slot) (pl : Placement) (s : State) : Result :=
  s.sessionRow dt p k 0x21 neverLate (fun s req =>
    let i := sessOf req
    let plan := s.planOf req
    let prog := s.programRefused plan true pl.loads
    s.sessionChecked p.val k.val i
      (s.ownerChecks p.val k.val (planLayout req) ++ s.planChecks req ++ [s.wrongState i [.configured]] ++ s.fixedChecks plan none ++
        s.planOwnChecks plan none ++
        [(prog.isSome, { status := stBadArg, detail := (prog.getD (0, 0)).1, resp := natLE 1 (prog.getD (0, 0)).2 })])
      (fun s =>
        let t := (s.bindPlan i plan pl).applyToMembers plan 0x21 req
        t.answerFor p.val k.val i { resp := natLE 2 1 ++ zeros 6 ++ natLE 8 (t.session i).recBase ++ natLE 8 (t.session i).outBase }))

/-- START. -/
def execStart (dt : Nat) (p : Port) (k : Slot) (s : State) : Result :=
  s.sessionRow dt p k 0x22 neverLate (fun s req =>
    let i := sessOf req
    s.sessionChecked p.val k.val i (s.genChecks p.val k.val req [.bound]) (fun s =>
      (s.updSession i (fun ss => { ss with st := .running })).answerFor p.val k.val i {}))

/-! ## RECUT and re-map (R303 to R306, R312, R318) -/

/-- Pictures whose core stages run on a changed core list are cancelled and run again on the new cut (R305, R318). -/
def Session.rerunCores (ss : Session) (t : Nat) : Session :=
  { ss with
    rerunning := ss.rerunning || ss.pics.any (·.phase1)
    pics := ss.pics.map (fun p =>
      if p.phase1 then (let q := p.rewind t; if isEncodeKind ss.cfg.kind then q.rewindEncode else q) else p) }

/-- A re-map ends FAULTED: back to the state the fault met, and the ring says so (R318, R334, R341). A decode picture that runs again
restarts its watchdog (R253). -/
def State.endFault (s : State) (i : Nat) : State :=
  (s.updSession i (fun ss => { ss with
    st := ss.heldAtFault, abandoned := false
    pics := ss.pics.map (fun p => if p.rerun then { p with wdUsed := 0, wdFrom := p.wdFrom.map (fun _ => s.time) } else p) })).sessionEvent i 3 0xFF

/-- Cores that failed the known-answer self-check of a re-map are retired (R133). -/
def State.retireAll (s : State) (l : List (CoreDie × CoreIx)) : State := l.foldl (fun s c => s.retire c.1.val c.2.val) s

/-- A re-map takes effect at once, wherever it finds the session's work (R318). -/
def State.remap (s : State) (p k i : Nat) (pl : CutPlan) (place : Placement) (mismatch : List (CoreDie × CoreIx)) : State :=
  let s := if (s.session i).poolLost then
      (s.moveRings i (s.ringPlaces i pl place)).updSession i (fun ss => { ss with poolLost := false, needRap := isEncodeKind ss.cfg.kind }) else s
  let s := ((s.takeCut i pl place true).endFault i).retireAll (mismatch.filter (fun c => pl.cores.contains (s.rank, c.1.val, c.2.val)))
  s.answerFor p k i { resp := natLE 2 (s.session i).gen }

/-- An accepted re-cut: the generation advances, `now` cancels the work on cores that move, and the cut changes when every resource of
the new plan is ready (R301, R305). -/
def State.recut (s : State) (p k i : Nat) (pl : CutPlan) (place : Placement) (mismatch : List (CoreDie × CoreIx)) : State :=
  let ss := s.session i
  let s := s.updSession i (fun x => { x with gen := nextGen x.gen, lastRecut := some s.time, rerunning := x.rerunning && x.pics.any (·.rerun) })
  if ss.st = .faulted then s.remap p k i pl place mismatch
  else
    let s := if pl.now && decide (ss.plan.cores ≠ pl.cores) then
        (s.cancelCores i (s.planCores ss.plan)).updSession i (fun x => x.rerunCores s.time) else s
    let rings := s.ringPlaces i pl place
    let s := s.updSession i (fun x => { x with recut := some { plan := pl, port := p, slot := k, place := { place with recBase := rings.1, outBase := rings.2 } } })
    if s.recutReady i pl then s.finishRecut i else s

/-- A generation-advancing command of the session was accepted less than 1 ms ago (R352). -/
def State.recutLate (s : State) (i : Nat) : Bool :=
  match (s.session i).lastRecut with
  | some t => decide (s.time < t + 1000000)
  | none => false

/-- Checks of a RECUT. -/
def State.recutChecks (s : State) (p : Port) (k : Slot) (req : Bytes) (loads : List CoreLoad) : List (Bool × Answer) :=
  let i := sessOf req
  let plan := s.planOf req
  let ss := s.session i
  let prog := s.programRefused plan true loads
  s.ownerChecks p.val k.val (planLayout req) ++ s.planChecks req ++ [s.wrongState i [.bound, .running, .draining, .faulted]] ++
    s.fixedChecks plan (some ss.plan) ++ [s.staleGen i plan.generation 4] ++ s.planOwnChecks plan (some ss.plan) ++
    [(plan.now && ss.rerunning && ss.pics.any (·.rerun), refusal stBusy 0),
     (prog.isSome, { status := stBadArg, detail := (prog.getD (0, 0)).1, resp := natLE 1 (prog.getD (0, 0)).2 })]

/-- RECUT; in FAULTED it is a re-map. -/
def execRecut (dt : Nat) (p : Port) (k : Slot) (pl : Placement) (mismatch : List (CoreDie × CoreIx)) (s : State) : Result :=
  s.sessionRow dt p k 0x23 State.recutLate
    (fun s req =>
      let i := sessOf req
      s.sessionChecked p.val k.val i (s.recutChecks p k req pl.loads) (fun s =>
        (s.recut p.val k.val i (s.planOf req) pl mismatch).applyToMembers (s.planOf req) 0x23 req))
    (fun s req => some ({ plan := s.planOf req, port := p.val, slot := k.val, place := pl }, (firstFail (s.recutChecks p k req pl.loads)).isSome))

/-- RECUT_CORE_RELEASE: the last work that began on the old cut is done, and the waiting re-cut takes effect (R305). -/
def execRecutCoreRelease (dt : Nat) (sess : SessionIx) (s : State) : Result :=
  s.event dt (fun s => s.power.running && (s.session sess.val).recut.any (fun r => s.recutReady sess.val r.plan))
    (fun s => s.finishRecut sess.val)

/-! ## ABORT, UNBIND, CLOSE, SESSION_STATUS -/

/-- Every accepted picture and frame is abandoned, with the stream data and the buffers handed over for them (R316, R341). -/
def State.abandonAll (s : State) (i : Nat) : State :=
  (s.abandon i).updSession i (fun ss => { ss with
    rerunning := false
    dec := { ss.dec with input := [], outSlots := [], hunting := none, offset := ss.dec.offset + (ss.dec.input.map (fun b => b.bytes.length)).sum }
    groups := Tab.mapAll {} ss.groups (fun _ g => { g with blocks := [] }) })

/-- ABORT: the answer counts the pictures abandoned. -/
def execAbort (dt : Nat) (p : Port) (k : Slot) (s : State) : Result :=
  s.sessionRow dt p k 0x25 neverLate (fun s req =>
    let i := sessOf req
    s.sessionChecked p.val k.val i (s.genChecks p.val k.val req [.running, .draining, .faulted]) (fun s =>
      let n := (s.session i).pics.length
      let s := s.abandonAll i
      let s := s.updSession i (fun ss => { ss with st := if ss.st = .faulted then .faulted else .bound })
      let s := if n = 0 then s else s.sessionEvent i 4 0xFF
      s.answerFor p.val k.val i { resp := natLE 4 n }))

/-- A session gives up its cut (R296, R311). -/
def State.unbind (s : State) (i : Nat) : State :=
  let cs := s.planCores (s.session i).plan
  let s := cs.foldl (fun s (d, c) => s.leaveCore d c) s
  let s := ((s.releaseGuards i).dropGrants i none).moveLanes i (s.session i).plan {}
  s.updSession i (fun ss => { ss with
    st := .configured, gen := 0, plan := {}, charge := 0, fixedCharge := 0, pics := [], captures := [], bufs := [], lib := [], rapOrder := 0, lostRefs := [], dec := {}, picTrouble := false
    groups := [], recHeld := [], recStalled := false, outHeld := [], stallSince := none, poolLost := false
    needRap := false, abandoned := false, lastRecut := none, rerunning := false, cinch := [], cinchAt := none, vectorHeld := false })

/-- UNBIND. -/
def execUnbind (dt : Nat) (p : Port) (k : Slot) (s : State) : Result :=
  s.sessionRow dt p k 0x26 neverLate (fun s req =>
    let i := sessOf req
    s.sessionChecked p.val k.val i (s.genChecks p.val k.val req [.bound, .faulted]) (fun s =>
      let s := if (s.session i).st = .faulted then s.abandonAll i else s
      (s.unbind i).answerFor p.val k.val i {}))

/-- CLOSE: counters are cleared with the session (R272). -/
def execClose (dt : Nat) (p : Port) (k : Slot) (s : State) : Result :=
  s.sessionRow dt p k 0x27 neverLate (fun s req =>
    let i := sessOf req
    s.sessionChecked p.val k.val i
      (s.ownerChecks p.val k.val 4 ++ [sessionRange req, reservedAt req 2 2, tailZero req 4, s.wrongState i [.configured], s.handoverBusy])
      (fun s => ({ s with sessions := Tab.set {} s.sessions i {} }).answerFor p.val k.val i {}))

/-- SESSION_STATUS's response (R337). -/
def Session.statusBytes (ss : Session) : Bytes :=
  natLE 2 ss.st.code ++ natLE 2 ss.gen ++ natLE 4 ss.inFlight ++ natLE 8 ss.charge ++ natLE 8 ss.plan.reserveBytes ++ ss.counterBytes ++
    totalsBytes ss.trouble ++ totalsBytes ss.troubleEnc

/-- SESSION_STATUS: never refused for a generation, and not held behind the session's running command (R302). -/
def execSessionStatus (dt : Nat) (p : Port) (k : Slot) (s : State) : Result :=
  s.mailboxRow dt p k (isOpcode 0x28) (fun s req =>
    let i := sessOf req
    s.sessionChecked p.val k.val i [(s.shortReq p.val k.val 4, refusal stBadArg 8), sessionRange req, reservedAt req 2 2, tailZero req 4]
      (fun s => s.answerFor p.val k.val i { resp := (s.session i).statusBytes }))

/-! ## The session's own events -/

/-- OUTPUT_STALL: an encode session's output ring has stayed full for longer than `drain_bound_ms`; logged with the ring's fill,
and again each further bound (R315). -/
def execOutputStall (dt : Nat) (sess : SessionIx) (s : State) : Result :=
  s.event dt (fun s =>
      let ss := s.session sess.val
      s.power.running && isEncodeKind ss.cfg.kind &&
        (match ss.stallSince with | some t => decide (t + ss.plan.drainBoundMs * 1000000 < s.time) | none => false)) (fun s =>
    let ss := s.session sess.val
    let s := s.updSession sess.val (fun x => { x with stallSince := x.stallSince.map (fun t => t + ss.plan.drainBoundMs * 1000000) })
    s.moduleEvent 2 0x0009 (logArg 0 sess.val) (ss.outProduced - s.ringConsumed ss.outBase))

/-- The session's commands that wait for an earlier one are completed with FENCED (R316). A work command completes when it is accepted
(R337), so no other command of an abandoned picture is open. -/
def State.fenceParked (s : State) (i : Nat) : State :=
  (s.session i).parked.foldl (fun s k => s.answerFor k.port k.slot i (refusal stFenced 0)) (s.updSession i (fun x => { x with parked := [] }))

/-- REMAP_GRACE_EXPIRY: no re-map came within `remap_grace_ms`. A re-map in the same clock wins, so the expiry acts after it (R316). -/
def execRemapGraceExpiry (dt : Nat) (sess : SessionIx) (s : State) : Result :=
  s.event dt (fun s =>
      let ss := s.session sess.val
      s.power.running && decide (ss.st = .faulted) && !ss.abandoned && decide (ss.faultedAt + ss.plan.remapGraceMs * 1000000 < s.time))
    (fun s =>
      let n := (s.session sess.val).pics.length
      let s := ((s.abandon sess.val).fenceParked sess.val).updSession sess.val (fun x => { x with abandoned := true })
      if n = 0 then s else s.sessionEvent sess.val 4 0xFF)

/-- SESSION_VECTOR_COALESCE: the held signal goes out 5 µs after the last raise (R332). -/
def execSessionVectorCoalesce (dt : Nat) (sess : SessionIx) (s : State) : Result :=
  s.event dt (fun s =>
      let ss := s.session sess.val
      s.power.running && ss.vectorHeld && (match ss.lastVector with | some t => decide (t + 5000 ≤ s.time) | none => true))
    (fun s => (s.updSession sess.val (fun x => { x with lastVector := some s.time, vectorHeld := false })).notify sess.val)

/-- COUNTER_WINDOW_REFRESH: at least every 1 ms while the session is bound (R453). -/
def execCounterWindowRefresh (dt : Nat) (sess : SessionIx) (s : State) : Result :=
  s.event dt (fun s => s.power.running && (s.session sess.val).bound) (fun s => s.refreshWindow sess.val)

/-- Shared use of a session with another charge. -/
def Session.sharedUseAt (ss : Session) (charge : Nat) : Nat := charge - ss.plan.reserveBytes

/-- Free shared space covers the growth in the session's shared use that a grant brings (R310). -/
def State.grantFits (s : State) (m : Nat) (g : GrantReq) : Bool :=
  let ss := s.session g.session
  decide (ss.sharedUseAt (ss.charge + g.need) - ss.sharedUse ≤ s.poolFreeBytes m)

/-- Grants a picture its need. -/
def State.grantPic (s : State) (i order need : Nat) : State :=
  s.updSession i (fun ss => { ss with
    charge := ss.charge + need
    pics := ss.pics.map (fun p => if p.order = order then { p with granted := true, waiting := false } else p) })

/-- A picture requests its need: granted at once within the reserve, else queued (R310). -/
def State.requestNeed (s : State) (i order need : Nat) : State :=
  let ss := s.session i
  if ss.charge + need ≤ ss.plan.reserveBytes then s.grantPic i order need
  else
    let m := ss.plan.memDie
    let s := s.updSession i (fun ss => { ss with pics := ss.pics.map (fun p => if p.order = order then { p with waiting := true } else p) })
    s.setGrantQueue m (s.grantQueue m ++ [{ session := i, order := order, need := need }])

end Sys2Proof.Machine
end

