-- ==== Sys2Proof/Machine/Motion.lean ====
section
/-! DEFINITION. Feeder, searcher and predictor: source rows and pyramids (R173, R183), motion search (R184 to R186), the fixed
interpolation filter (R187 to R189), prediction and carry gather (R198, R242), and the library candidate (R196, R197). -/

namespace Sys2Proof.Machine

/-! ## Shared engines and lanes take turns (R186, R295, R313) -/

/-- Keys of the shared units: searchers and predictors by engine, lanes by stream die and lane. -/
def searcherTurn (e : Nat) : Nat := e
def predictorTurn (e : Nat) : Nat := 24 + e
def laneTurn (sd l : Nat) : Nat := 48 + 32 * sd + l

/-- A session may be served by a shared unit: the one that holds it goes on; a free one goes to the first session, from the one whose
turn it is, that has work for it. -/
def State.mayServe (s : State) (key i : Nat) (holds wants : Nat → Bool) : Bool :=
  let ahead (j : Nat) : Nat := (j + 256 - Tab.get 0 s.turns key) % 256
  if s.sessions.any (fun e => holds e.1) then holds i else wants i && s.sessions.all (fun e => !wants e.1 || decide (ahead i ≤ ahead e.1))

/-- A unit has served a session: the next turn is the session's after it. -/
def State.tookTurn (s : State) (key i : Nat) : State := { s with turns := Tab.set 0 s.turns key ((i + 1) % 256) }

/-- The stream die of a session works: its assembler writes and reads units (R395). -/
def State.streamServes (s : State) (i : Nat) : Bool := s.power.running && s.dieRuns (streamDieIx (s.session i).plan.streamDie)

/-- The core has nothing left of the program it was loaded with. -/
def Core.idle (c : Core) : Bool :=
  c.queue.isEmpty && c.backlog.isEmpty && c.finishing.isNone && c.draining.isEmpty && !c.atCinch && decide (c.phase ≠ 3)

/-- The loaded program is done on every local core of a session's cut (R180). -/
def State.coresDone (s : State) (i : Nat) : Bool := (s.planCores (s.session i).plan).all (fun x => (s.core x.1 x.2).idle)

/-- Of `done` CB rows of a picture some but not all those of an engine's part are done: it holds the engine. -/
def holdsEngine (es : List Nat) (rows done e : Nat) : Bool :=
  match engineFor es rows done with
  | some (x, a, _) => decide (x = e) && decide (a < done)
  | none => false

/-! ## Planes -/

/-- A coordinate clamped to [0, n - 1] (R189). -/
def clampIx (v : Int) (n : Nat) : Nat := min v.toNat (n - 1)

/-- A sample of a plane with the edge clamp; an absent plane reads as a constant. -/
def planeGet (grey : Nat) (pl : Plane) (y x : Int) : Nat :=
  match pl with
  | [] => grey
  | _ =>
    let row := pl.getD (clampIx y pl.length) []
    row.getD (clampIx x row.length) 0

/-- Replicates the last element up to `n` of them (R173). -/
def extendTo {α : Type} (d : α) (n : Nat) (l : List α) : List α := l ++ List.replicate (n - l.length) (l.getLastD d)

/-- Samples of one row of a slot plane: one byte each, or the low bits of 16-bit containers (R173). -/
def rowSamples (bd : Nat) : Bytes → List Nat
  | [] => []
  | b :: bs =>
    if bd = 8 then b.toNat :: rowSamples bd bs
    else match bs with
      | [] => []
      | c :: cs => (b.toNat + 256 * c.toNat) % 2 ^ bd :: rowSamples bd cs

/-- Bytes of one row as the feeder writes it: container bits above the value are 0 (R173). -/
def rowBytes (bd : Nat) (row : List Nat) : Bytes := row.flatMap (fun v => if bd = 8 then natLE 1 v else natLE 2 v)

/-- Subsampling of plane `k`: 0 luma, 1 and 2 chroma. -/
def SeqFmt.planeSubX (f : SeqFmt) (k : Nat) : Nat := if k = 0 then 1 else f.subX
def SeqFmt.planeSubY (f : SeqFmt) (k : Nat) : Nat := if k = 0 then 1 else f.subY

/-- The mid-grey sample (R242, R263). -/
def SeqFmt.grey (f : SeqFmt) : Nat := 2 ^ (f.bitDepth - 1)

/-! ## Source rows and pyramids (R173, R177, R183) -/

/-- Means of 4 × 4 squares, rounded: one pyramid level from the one below it. -/
def shrink4 (pl : Plane) : Plane :=
  (List.range (pl.length / 4)).map (fun y =>
    (List.range ((pl.getD (4 * y) []).length / 4)).map (fun x =>
      (((List.range 4).map (fun i => ((List.range 4).map (fun j => (pl.getD (4 * y + i) []).getD (4 * x + j) 0)).sum)).sum + 8) / 16))

/-- Rows of plane `k` that CB row `r` of a slot holds, extended to the coded area; none when the feeder cannot reach them. -/
def State.sourceRows (s : State) (f : SeqFmt) (p : Picture) (r k : Nat) : Option Plane :=
  let n := 64 / f.planeSubY k
  let h := f.height / f.planeSubY k
  let w := f.width / f.planeSubX k
  let pitch := if k = 0 then p.yPitch else p.cPitch
  let base := (p.addrs.getD k 0).toNat
  let rows := (List.range n).filterMap (fun y => if r * n + y < h then some (s.fetchForm (base + (r * n + y) * pitch) (w * f.sampleBytes)) else none)
  if rows.any (·.isNone) then none
  else some (extendTo [] n (rows.map (fun b => extendTo 0 (f.codedW / f.planeSubX k) (rowSamples f.bitDepth (b.getD [])))))

/-- A picture with the planes of one more CB row in the pool and its pyramid rows built. -/
def Picture.addSource (p : Picture) (planes : List Plane) : Picture :=
  let l1 := shrink4 (planes.getD 0 [])
  { p with
    landed := p.landed + 1
    source := (List.range 3).map (fun k => p.source.getD k [] ++ planes.getD k [])
    levels := [[], p.levels.getD 1 [] ++ l1, p.levels.getD 2 [] ++ shrink4 l1] }

/-- The picture a command names, when the session is of the given kind. -/
def State.picOf (s : State) (i kind : Nat) (poc : W32) : Option Picture :=
  if (s.session i).cfg.kind = kind then (s.session i).pic poc else none

/-- Applies a condition to a picture and an effect to the state. -/
def picReady (p : Option Picture) (f : Picture → Bool) : Bool :=
  match p with
  | some q => f q
  | none => false

/-- Pictures before this one in acceptance order that have not finished a stage: the stage serves pictures in order (R179). -/
def Session.earlierAll (ss : Session) (order : Nat) (f : Picture → Bool) : Bool :=
  ss.pics.all (fun q => !decide (q.order < order) || f q)

/-- FEEDER_ROW_LANDED: the next CB row of a source slot lands in the pool and is published (R173, R177, R179). -/
def execFeederRowLanded (dt : Nat) (sess : SessionIx) (poc : W32) (s : State) : Result :=
  let rowsOf (s : State) (p : Picture) : List (Option Plane) :=
    (List.range 3).map (s.sourceRows (s.session sess.val).fmt p p.landed)
  s.event dt (fun s => s.power.running && picReady (s.picOf sess.val 1 poc) (fun p =>
      p.granted && decide (p.landed < (s.session sess.val).fmt.cbRows) &&
        (s.session sess.val).earlierAll p.order (fun q => decide (q.landed = (s.session sess.val).fmt.cbRows)) &&
        (rowsOf s p).all (·.isSome)))
    (fun s => s.updSession sess.val (fun ss => ss.updPic poc (fun p => p.addSource ((rowsOf s p).map (·.getD [])))))

/-! ## The interpolation filter (R187, R188) -/

def filterTaps (phase : Nat) : List Int :=
  match phase with
  | 0 => [0, 0, 0, 64, 0, 0, 0, 0]
  | 1 => [-1, 3, -8, 58, 17, -6, 2, -1]
  | 2 => [-2, 5, -12, 41, 41, -12, 5, -2]
  | _ => [-1, 2, -6, 17, 58, -8, 3, -1]

/-- Σ c_k × s_k. -/
def tapSum (c s : List Int) : Int := ((c.zip s).map (fun p => p.1 * p.2)).sum

/-- Limits to [0, 2^bd - 1]. -/
def clipSample (bd : Nat) (v : Int) : Nat := min v.toNat (2 ^ bd - 1)

/-- The predicted sample at (x, y) for a vector in quarter samples, from a reader of reference samples. -/
def interp (bd : Nat) (rd : Int → Int → Nat) (x y : Nat) (mvx mvy : Int) : Nat :=
  let ix : Int := x + mvx / 4
  let iy : Int := y + mvy / 4
  let fx := (mvx % 4).toNat
  let fy := (mvy % 4).toNat
  let row (yy : Int) : List Int := (List.range 8).map (fun (k : Nat) => (rd yy (ix + (k : Int) - 3) : Int))
  if fx = 0 && fy = 0 then rd iy ix
  else if fy = 0 then clipSample bd ((tapSum (filterTaps fx) (row iy) + 32) / 64)
  else if fx = 0 then clipSample bd ((tapSum (filterTaps fy) ((List.range 8).map (fun (j : Nat) => (rd (iy + (j : Int) - 3) ix : Int))) + 32) / 64)
  else
    clipSample bd ((tapSum (filterTaps fy) ((List.range 8).map (fun (j : Nat) => tapSum (filterTaps fx) (row (iy + (j : Int) - 3)))) + 2048) / 4096)

/-! ## References -/

/-- What the predictor and the searcher read of a reference. Absent planes are the grey picture (R263). -/
structure RefPic where
  planes : List Plane := []
  carry : List (List (List W16)) := []
  levels : List Plane := []
  deriving DecidableEq, Repr

def FrameBuf.refPic (b : FrameBuf) : RefPic := { planes := b.recon, carry := b.carry, levels := b.levels }

/-- The levels of a library entry: its reconstruction's luma, the level built from it, and the stored thumbnail. -/
def LibEntry.refPic (e : LibEntry) : RefPic :=
  { planes := e.recon, carry := e.carry, levels := [e.recon.getD 0 [], shrink4 (e.recon.getD 0 []), e.thumbnail] }

/-- The buffer that a picture reads for a POC. -/
def Session.bufFor (ss : Session) (reader poc : W32) : Option FrameBuf :=
  ss.bufs.find? (fun b => decide (b.poc = poc) && b.readers.contains reader)

/-- The reference a picture reads for an entry of its list, once it can be read: the frame buffer, the staged library entry, or
what replaced it. -/
def Session.refPic (ss : Session) (p : Picture) (r : Ref) : Option RefPic :=
  match r.replaced with
  | some 0 => some {}
  | some (n + 1) => (ss.bufFor p.poc (BitVec.ofNat 32 n)).map FrameBuf.refPic
  | none =>
    if r.kind = 0 then (ss.bufFor p.poc r.id).map FrameBuf.refPic
    else if r.kind = 1 then (p.staged.find? (fun e => e.1 = r.id.toNat)).map (fun e => e.2.refPic)
    else none

/-- The source pyramid of a reference, which an in-flight picture has as soon as its rows have landed (R183). -/
def Session.searchLevels (ss : Session) (p : Picture) (r : Ref) : Option (List Plane) :=
  match ss.refPic p r with
  | some x => some x.levels
  | none =>
    if r.kind = 0 then
      (ss.pics.find? (fun q => decide (q.poc = r.id) && decide (q.order < p.order) && decide (q.landed = ss.fmt.cbRows))).map
        (fun q => [q.source.getD 0 [], q.levels.getD 1 [], q.levels.getD 2 []])
    else none

/-! ## Motion fields (R185, R188) -/

def motionKey (y x : Nat) : Nat := y * 4096 + x

/-- The vector of a sub-block; one wholly outside the picture takes that of the sub-block directly above it (R185). Right of the picture
every sub-block above is outside too, up to the first row, and the spec states no vector there: zero and reference 0 (DESIGN CHOICE,
log entry 44). -/
def motionAt (f : SeqFmt) (m : Tab MotionVec) (y x : Nat) : MotionVec :=
  if f.subCols ≤ x then {} else Tab.get {} m (motionKey (min y (f.subRows - 1)) x)

/-- The vector of the sub-block to the left in the same row, or zero at the left edge (R184, R241). -/
def motionLeft (m : Tab MotionVec) (y x : Nat) : MotionVec := if x = 0 then {} else Tab.get {} m (motionKey y (x - 1))

/-- Gives the four sub-block rows of CB row `r` the vectors of sub-block row `y` (R204, R259), or zero motion. -/
def inheritRow (f : SeqFmt) (m : Tab MotionVec) (r : Nat) (y : Option Nat) : Tab MotionVec :=
  let src (x : Nat) : MotionVec := match y with | some yy => motionAt f m yy x | none => {}
  (List.range 4).foldl (fun m k =>
    if f.subRows ≤ 4 * r + k then m
    else (List.range f.subCols).foldl (fun m x => Tab.set {} m (motionKey (4 * r + k) x) (src x)) m) m

/-- A legal vector range (R184, R241). -/
def vecInRange (x y : Int) : Bool := decide (-4096 ≤ x) && decide (x ≤ 4096) && decide (-2048 ≤ y) && decide (y ≤ 2048)

/-! ## The searcher (R184, R185) -/

/-- A candidate displacement with its cost. -/
structure Cand where
  cost : Nat
  x : Int
  y : Int
  deriving DecidableEq, Repr

/-- Lower cost, then smaller |dx| + |dy|, then smaller dy, then smaller dx (R184). -/
def Cand.better (a b : Cand) : Bool :=
  let la := a.x.natAbs + a.y.natAbs
  let lb := b.x.natAbs + b.y.natAbs
  decide (a.cost < b.cost) || (decide (a.cost = b.cost) &&
    (decide (la < lb) || (decide (la = lb) && (decide (a.y < b.y) || (decide (a.y = b.y) && decide (a.x < b.x))))))

def bestCand : List Cand → Option Cand
  | [] => none
  | c :: cs =>
    match bestCand cs with
    | none => some c
    | some d => if d.better c then some d else some c

/-- The two best candidates of a list of distinct ones. -/
def bestTwo (l : List Cand) : List Cand :=
  match bestCand l with
  | none => []
  | some a => a :: (bestCand (l.filter (· ≠ a))).toList

/-- SAD of a block of the source at (y0, x0) with a reader of reference samples. -/
def sadBlock (src : Plane) (y0 x0 h w : Nat) (rd : Nat → Nat → Nat) : Nat :=
  ((List.range h).map (fun i => ((List.range w).map (fun j =>
    let a := (src.getD (y0 + i) []).getD (x0 + j) 0
    let b := rd (y0 + i) (x0 + j)
    (a - b) + (b - a))).sum)).sum

/-- Integers from -n to n. -/
def spanInt (n : Nat) : List Int := (List.range (2 * n + 1)).map (fun (k : Nat) => (k : Int) - (n : Int))

/-- SAD of a square block at one level for an integer displacement. -/
def levelCand (grey : Nat) (src ref : Plane) (y0 x0 size : Nat) (dx dy : Int) : Cand :=
  { cost := sadBlock src y0 x0 size size (fun y x => planeGet grey ref (y + dy) (x + dx)), x := dx, y := dy }

/-- Levels 2 and 1 of one CB: the two displacements kept, in level-1 samples. R184's final range is applied to final vectors only: a level-1
displacement beyond it may be kept, and is skipped as a level-0 candidate (DESIGN CHOICE, log entry 44). -/
def searchBlock (grey : Nat) (src ref : List Plane) (row col : Nat) : List Cand :=
  let l2 := bestTwo ((spanInt 32).flatMap (fun dy => (spanInt 64).map (fun dx =>
    levelCand grey (src.getD 2 []) (ref.getD 2 []) (4 * row) (4 * col) 4 dx dy)))
  let ds := (l2.flatMap (fun c => (spanInt 4).flatMap (fun dy => (spanInt 4).map (fun dx => (4 * c.x + dx, 4 * c.y + dy))))).eraseDups
  bestTwo (ds.map (fun d => levelCand grey (src.getD 1 []) (ref.getD 1 []) (16 * row) (16 * col) 16 d.1 d.2))

/-- Cost of a quarter-sample vector for one sub-block: SAD of its in-picture samples and the vector's cost. -/
def vectorCand (f : SeqFmt) (lambda : Nat) (src ref : Plane) (sy sx : Nat) (left : MotionVec) (mx my : Int) : Cand :=
  let h := min 16 (f.height - 16 * sy)
  let w := min 16 (f.width - 16 * sx)
  { cost := sadBlock src (16 * sy) (16 * sx) h w (fun y x => interp f.bitDepth (planeGet f.grey ref) x y mx my) +
      lambda * ((mx - left.x).natAbs + (my - left.y).natAbs)
    x := mx, y := my }

/-- Level 0 of one sub-block against one reference. -/
def searchSub (f : SeqFmt) (lambda : Nat) (src ref : Plane) (kept : List Cand) (sy sx : Nat) (left : MotionVec) : Cand :=
  let cost := vectorCand f lambda src ref sy sx left
  let pick (l : List (Int × Int)) (c : Cand) : Cand :=
    (bestCand (c :: (l.filter (fun v => vecInRange v.1 v.2)).map (fun v => cost v.1 v.2))).getD c
  let start := pick ([(left.x, left.y)] ++ kept.map (fun c => (16 * c.x, 16 * c.y))) (cost 0 0)
  let ring (c : Cand) (d : Int) : List (Int × Int) :=
    [(-d, -d), (0, -d), (d, -d), (-d, 0), (d, 0), (-d, d), (0, d), (d, d)].map (fun v => (c.x + v.1, c.y + v.2))
  let whole := (spanInt 2).flatMap (fun dy => (spanInt 2).map (fun dx => (4 * (start.x / 4 + dx), 4 * (start.y / 4 + dy))))
  let a := pick whole start
  let b := pick (ring a 2) a
  pick (ring b 1) b

/-- The lowest cost over the search set, with ties to the lower reference index. -/
def bestRef : List (Nat × Cand) → MotionVec
  | [] => {}
  | (k, c) :: rest =>
    (rest.foldl (fun (b : Nat × Cand) x => if x.2.cost < b.2.cost then x else b) (k, c)) |> fun b => { x := b.2.x, y := b.2.y, ref := b.1 }

/-- The motion of a CB row against the pyramids of the search set. -/
def searchRow (f : SeqFmt) (lambda : Nat) (src : List Plane) (refs : List (List Plane)) (r : Nat) (m : Tab MotionVec) : Tab MotionVec :=
  let kept := refs.map (fun ref => (List.range f.cbCols).map (searchBlock f.grey src ref r))
  (List.range 4).foldl (fun m k =>
    let y := 4 * r + k
    if f.subRows ≤ y then m
    else (List.range f.subCols).foldl (fun m x =>
      let left := motionLeft m y x
      let best := bestRef ((List.range refs.length).map (fun n =>
        (n, searchSub f lambda (src.getD 0 []) ((refs.getD n []).getD 0 []) ((kept.getD n []).getD (x / 4) []) y x left)))
      Tab.set {} m (motionKey y x) best) m) m

/-- The search set of a picture: the first two entries of its reference list. -/
def Picture.searchSet (p : Picture) : List Ref := p.refs.take 2

/-- The search set is complete; in a session with library search the candidate has been chosen (R179, R196). -/
def Session.searchReady (ss : Session) (p : Picture) : Bool :=
  (!ss.cfg.libSearch || p.sigDone) && p.searchSet.all (fun r => (ss.searchLevels p r).isSome)

/-- The next row of a picture can be searched, but for the engine's turn. A waiting re-cut lets no picture begin (R305). -/
def Session.searchDue (ss : Session) (p : Picture) : Bool :=
  decide (ss.cfg.kind = 1) && decide (p.searched < p.landed) && ss.searchReady p && (ss.recut.isNone || decide (p.searched ≠ 0)) &&
    ss.earlierAll p.order (fun q => decide (q.searched = ss.fmt.cbRows))

/-- It is a session's turn on the searcher of CB row `r` (R186). -/
def State.searcherTurnOf (s : State) (i r : Nat) : Bool :=
  let es (x : Session) : List Nat := engineList x.plan.searchers
  match engineFor (es (s.session i)) (s.session i).fmt.cbRows r with
  | none => false
  | some (e, _) =>
    let on (x : Session) (p : Picture) : Bool := ((engineFor (es x) x.fmt.cbRows p.searched).map (·.1)) = some e
    s.dieRuns (streamDieIx (e / 12)) && s.mayServe (searcherTurn e) i
      (fun j => (s.session j).pics.any (fun p => holdsEngine (es (s.session j)) (s.session j).fmt.cbRows p.searched e))
      (fun j => (s.session j).pics.any (fun p => on (s.session j) p && (s.session j).searchDue p))

/-- SEARCH_ROW: the searcher completes a CB row and publishes it. -/
def execSearchRow (dt : Nat) (sess : SessionIx) (poc : W32) (s : State) : Result :=
  s.event dt (fun s => s.power.running && picReady ((s.session sess.val).pic poc) (fun p =>
      (s.session sess.val).searchDue p && s.searcherTurnOf sess.val p.searched))
    (fun s =>
      let ss := s.session sess.val
      let e := ((ss.pic poc).bind (fun p => engineFor (engineList ss.plan.searchers) ss.fmt.cbRows p.searched)).map (·.1)
      (s.tookTurn (searcherTurn (e.getD 0)) sess.val).updSession sess.val (fun ss => ss.updPic poc (fun p =>
        { p with
          motion := searchRow ss.fmt ss.cfg.lambda [p.source.getD 0 [], p.levels.getD 1 [], p.levels.getD 2 []]
            (p.searchSet.map (fun r => (ss.searchLevels p r).getD [])) p.searched p.motion
          searched := p.searched + 1 })))

/-! ## The predictor (R188, R189, R198, R242) -/

/-- The vector of plane `k` (R189). -/
def SeqFmt.planeVec (f : SeqFmt) (k : Nat) (v : MotionVec) : Int × Int :=
  (if f.planeSubX k = 2 then v.x / 2 else v.x, if f.planeSubY k = 2 then v.y / 2 else v.y)

/-- Rows of plane `k` of CB row `r` of the prediction. -/
def predictPlane (f : SeqFmt) (refs : List RefPic) (m : Tab MotionVec) (r k : Nat) : Plane :=
  let n := 64 / f.planeSubY k
  (List.range n).map (fun y => (List.range (f.codedW / f.planeSubX k)).map (fun x =>
    let yy := r * n + y
    let v := motionAt f m (yy * f.planeSubY k / 16) (x * f.planeSubX k / 16)
    let pv := f.planeVec k v
    interp f.bitDepth (planeGet f.grey ((refs.getD v.ref {}).planes.getD k [])) x yy pv.1 pv.2))

/-- Rows of the carry gather of CB row `r` (R198). -/
def gatherRow (f : SeqFmt) (channels : Nat) (refs : List RefPic) (m : Tab MotionVec) (r : Nat) : List (List (List W16)) :=
  (List.range 16).map (fun y => (List.range (f.codedW / 4)).map (fun x =>
    let yy := 16 * r + y
    let v := motionAt f m (yy / 4) (x / 4)
    match (refs.getD v.ref {}).carry with
    | [] => List.replicate channels 0
    | c =>
      let row := c.getD (clampIx (yy + v.y / 16) c.length) []
      row.getD (clampIx (x + v.x / 16) row.length) []))

/-- The intra prediction and gather of a CB row (R242). -/
def intraPlane (f : SeqFmt) (k : Nat) : Plane :=
  List.replicate (64 / f.planeSubY k) (List.replicate (f.codedW / f.planeSubX k) f.grey)

def intraGather (f : SeqFmt) (channels : Nat) : List (List (List W16)) :=
  List.replicate 16 (List.replicate (f.codedW / 4) (List.replicate channels 0))

/-- Replaces the rows of CB row `r` in a list that holds `n` rows per CB row. -/
def putRows {α : Type} (l : List α) (n r : Nat) (rows : List α) : List α := l.take (r * n) ++ rows ++ l.drop (r * n + n)

/-- Forms one CB row of a picture's prediction and carry gather. A concealed row of an intra picture reads its concealment
source, which stands as the only entry of `refs`. -/
def Picture.formRow (f : SeqFmt) (channels : Nat) (refs : List RefPic) (r : Nat) (p : Picture) : Picture :=
  let planes := if refs.isEmpty then (List.range 3).map (intraPlane f) else (List.range 3).map (predictPlane f refs p.motion r)
  let carry := if refs.isEmpty then intraGather f channels else gatherRow f channels refs p.motion r
  { p with
    pred := (List.range 3).map (fun k => putRows (p.pred.getD k []) (64 / f.planeSubY k) r (planes.getD k []))
    carryGather := putRows p.carryGather 16 r carry }

/-- The references of a picture, when every one of them can be read. -/
def Session.refPics (ss : Session) (p : Picture) : Option (List RefPic) :=
  let l := p.refs.map (ss.refPic p)
  if l.all (·.isSome) then some (l.map (·.getD {})) else none

/-- The nearest CB row above `r` that is not in a list, or the nearest below (R204, R259). -/
def nearestAbove (skip : List Nat) (r : Nat) : Option Nat := ((List.range r).filter (fun k => !skip.contains k)).getLast?
def nearestBelow (skip : List Nat) (n r : Nat) : Option Nat := (List.range n).find? (fun k => decide (r < k) && !skip.contains k)

/-- The sub-block row whose motion a concealed row takes, and whether it is known yet (R259). -/
def Picture.concealMotion (p : Picture) (f : SeqFmt) (r : Nat) : Option (Option Nat) :=
  match nearestAbove p.concealed r with
  | some a => some (some (4 * a + 3))
  | none =>
    if p.decoded < f.cbRows then none
    else some ((nearestBelow p.concealed f.cbRows r).map (4 * ·))

/-- The concealment source for an intra picture's concealed row (R259, R264): the most recently decoded picture held, in a
guarded session. -/
def Session.lastHeld (ss : Session) : Option FrameBuf :=
  (ss.bufs.filter (fun b => decide (b.mark = 1) || decide (b.mark = 2))).foldl (fun best b =>
    match best with
    | none => some b
    | some a => if a.order < b.order then some b else some a) none

/-- The next row of a picture's prediction can be formed. -/
def Session.predictReady (ss : Session) (p : Picture) : Bool :=
  let r := p.predicted
  decide (r < (if ss.cfg.kind = 2 then p.decoded else p.searched)) && (ss.refPics p).isSome &&
    (!p.concealed.contains r || (p.concealMotion ss.fmt r).isSome)

/-- Forms the next row: a concealed row first takes the motion it inherits. -/
def Session.predictRow (ss : Session) (channels : Nat) (p : Picture) : Picture :=
  let f := ss.fmt
  let r := p.predicted
  let q : Picture := if p.concealed.contains r then { p with motion := inheritRow f p.motion r ((p.concealMotion f r).getD none) } else p
  let refs := (ss.refPics q).getD []
  let refs := if q.concealed.contains r && refs.isEmpty then (ss.lastHeld.map FrameBuf.refPic).toList else refs
  { q.formRow f channels refs r with predicted := r + 1 }

/-- The next row of a picture can be predicted, but for the engine's turn. -/
def Session.predictDue (ss : Session) (p : Picture) : Bool :=
  ss.predictReady p && (ss.recut.isNone || decide (p.predicted ≠ 0)) && ss.earlierAll p.order (fun q => decide (q.predicted = ss.fmt.cbRows))

/-- It is a session's turn on the predictor of CB row `r` (R186). Several predictors split the rows as searchers do. -/
def State.predictorTurnOf (s : State) (i r : Nat) : Bool :=
  let es (x : Session) : List Nat := engineList x.plan.predictors
  match engineFor (es (s.session i)) (s.session i).fmt.cbRows r with
  | none => false
  | some (e, _) =>
    let on (x : Session) (p : Picture) : Bool := ((engineFor (es x) x.fmt.cbRows p.predicted).map (·.1)) = some e
    s.dieRuns (streamDieIx (e / 12)) && s.mayServe (predictorTurn e) i
      (fun j => (s.session j).pics.any (fun p => holdsEngine (es (s.session j)) (s.session j).fmt.cbRows p.predicted e))
      (fun j => (s.session j).pics.any (fun p => on (s.session j) p && (s.session j).predictDue p))

/-- PREDICT_ROW: the predictor forms a CB row of prediction and carry gather and publishes it. -/
def execPredictRow (dt : Nat) (sess : SessionIx) (poc : W32) (s : State) : Result :=
  s.event dt (fun s => s.power.running && picReady ((s.session sess.val).pic poc) (fun p =>
      (s.session sess.val).predictDue p && s.predictorTurnOf sess.val p.predicted))
    (fun s =>
      let ss := s.session sess.val
      let ch := pkgCarryChannels (s.sessionModel ss).package
      let e := ((ss.pic poc).bind (fun p => engineFor (engineList ss.plan.predictors) ss.fmt.cbRows p.predicted)).map (·.1)
      (s.tookTurn (predictorTurn (e.getD 0)) sess.val).updSession sess.val (fun ss => ss.updPic poc (ss.predictRow ch)))

/-! ## The library candidate (R196, R197) -/

/-- Sum of absolute differences of two lists. -/
def sadList (a b : List Nat) : Nat := ((a.zip b).map (fun p => (p.1 - p.2) + (p.2 - p.1))).sum

/-- The 8 × 8 means of a thumbnail (R196). -/
def signatureOf (bd : Nat) (t : Plane) : List Nat :=
  let h := t.length
  let w := (t.getD 0 []).length
  (List.range 64).map (fun c =>
    let rows := (List.range h).filter (fun y => decide (c / 8 * h / 8 ≤ y) && decide (y < (c / 8 + 1) * h / 8))
    let cols := (List.range w).filter (fun x => decide (c % 8 * w / 8 ≤ x) && decide (x < (c % 8 + 1) * w / 8))
    let area := rows.length * cols.length
    let sum := (rows.map (fun y => (cols.map (fun x => (t.getD y []).getD x 0)).sum)).sum
    if area = 0 then 0 else (sum + 2 * area) / (4 * area) / 2 ^ (bd - 10))

/-- Keeps a list sorted by score, an earlier entry ahead of an equal later one. -/
def insertScore (x : Nat × Nat) : List (Nat × Nat) → List (Nat × Nat)
  | [] => [x]
  | y :: ys => if x.1 < y.1 then x :: y :: ys else y :: insertScore x ys

/-- The library candidate: the lowest thumbnail SAD of the four entries with the lowest signature SAD, ties to the lower index. Entries
written before the last random-access point are no candidates: a decoder that starts there does not hold them (R248; DEDUCED, log
entry 43). -/
def Session.candidate (ss : Session) (point : Nat) (thumb : Plane) : Option Nat :=
  let sig := signatureOf ss.fmt.bitDepth thumb
  let held := ss.lib.filter (fun e => e.2.held && decide (point ≤ e.2.order))
  let ranked := (held.map (fun e => (sadList e.2.signature sig, e.1))).foldl (fun l x => insertScore x l) []
  let four := (ranked.take 4).map (·.2)
  let scored := (held.filter (fun e => four.contains e.1)).map (fun e => (sadList e.2.thumbnail.flatten thumb.flatten, e.1))
  ((scored.foldl (fun l x => insertScore x l) []).head?).map (·.2)

/-- Writes the candidate into the list in place of its `ref_kind` 2 entry; with an empty library the entry goes (R339). -/
def takeCandidate (c : Option Nat) (refs : List Ref) : List Ref :=
  refs.filterMap (fun r => if r.kind = 2 then c.map (fun j => { kind := 1, id := BitVec.ofNat 32 j }) else some r)

/-- LIBRARY_SEARCH: the completed thumbnail is scored against the library. -/
def execLibrarySearch (dt : Nat) (sess : SessionIx) (poc : W32) (s : State) : Result :=
  s.event dt (fun s => s.power.running && (s.session sess.val).cfg.libSearch && picReady (s.picOf sess.val 1 poc) (fun p =>
      decide (p.landed = (s.session sess.val).fmt.cbRows) && !p.sigDone))
    (fun s => s.updSession sess.val (fun ss => ss.updPic poc (fun p =>
      { p with refs := takeCandidate (ss.candidate p.point (p.levels.getD 2 [])) p.refs, sigDone := true })))

/-- The picture that waits for a library entry: the first in order whose list names it and that has not staged it; an encoder
stages once its list is settled. -/
def Session.stagingPic (ss : Session) (index : Nat) : Option Picture :=
  ss.pics.find? (fun p => p.refs.any (fun r => decide (r.kind = 1) && decide (r.id.toNat = index) && r.replaced.isNone) &&
    !p.staged.any (fun e => decide (e.1 = index)))

/-- The session's one staging buffer is free for a picture: none of another picture's entries lie in it. It holds every entry that one
picture's list names, until that picture leaves (R197; DESIGN CHOICE, log entry 44). -/
def Session.stagingFree (ss : Session) (p : Picture) : Bool := ss.pics.all (fun q => decide (q.poc = p.poc) || q.staged.isEmpty)

/-- An earlier picture has still to write the entry (R197). -/
def Session.writesFirst (ss : Session) (index order : Nat) : Bool :=
  (Tab.get {} ss.lib index).writing ||
    ss.pics.any (fun q => decide (q.order < order) && q.marks.any (fun m => decide (m.op = 2) && decide (m.arg.toNat = index)))

/-- The reference list after an entry proved empty: a decoder replaces it (R263, R264), an encoder, which has not yet written its
PIC unit, drops it from the list. -/
def Session.missingEntry (ss : Session) (guarded : Bool) (p : Picture) (index : Nat) : Picture :=
  let hit (r : Ref) : Bool := decide (r.kind = 1) && decide (r.id.toNat = index) && r.replaced.isNone
  if isEncodeKind ss.cfg.kind then { p with refs := p.refs.filter (fun r => !hit r) }
  else
    let src := if guarded then match ss.lastHeld with | some b => b.poc.toNat + 1 | none => 0 else 0
    { p with greyRef := true, refs := p.refs.map (fun r => if hit r then { r with replaced := some src } else r) }

/-- Makes a picture a reader of the buffers its list names. -/
def Session.readBufs (ss : Session) (p : Picture) : Session :=
  let named (b : FrameBuf) : Bool := p.refs.any (fun r => match r.replaced with
    | some n => decide (n = b.poc.toNat + 1)
    | none => decide (r.kind = 0) && decide (r.id = b.poc))
  { ss with bufs := ss.bufs.map (fun b => if named b && (decide (b.mark = 1) || decide (b.mark = 2)) && !b.readers.contains p.poc then { b with readers := b.readers ++ [p.poc] } else b) }

/-- Tells of a library reference that was replaced (R262, R271, R272). -/
def State.reportMissingLib (s : State) (i : Nat) (p : Picture) (index : Nat) : State :=
  if isEncodeKind (s.session i).cfg.kind then s
  else ((s.count i cRefsReplaced 1).count i cLibMissing 1).report i
    { tag := p.tag, cause := 4, unitType := 0x50, action := 5, poc := p.poc, count := 1
      offset := ((p.refs.find? (fun r => decide (r.kind = 1) && decide (r.id.toNat = index) && r.replaced.isNone)).map (·.off)).getD 0 }

/-- LIBRARY_STAGE_COMPLETE: an entry is staged for the next picture that names it; a read error empties the entry (R197, R265). -/
def execLibraryStageComplete (dt : Nat) (sess : SessionIx) (index : Nat) (ecc : Bool) (s : State) : Result :=
  s.event dt (fun s =>
      let ss := s.session sess.val
      s.power.running && picReady (ss.stagingPic index) (fun p => !ss.writesFirst index p.order && ss.stagingFree p && (!ss.cfg.libSearch || p.sigDone)))
    (fun s =>
      let ss := s.session sess.val
      match ss.stagingPic index with
      | none => s
      | some p =>
        let e := Tab.get {} ss.lib index
        if e.held && !ecc then
          s.updSession sess.val (fun ss => ss.updPic p.poc (fun q => { q with staged := q.staged ++ [(index, e)] }))
        else
          let s := s.updSession sess.val (fun ss =>
            let q := ss.missingEntry (s.guarded sess.val) p index
            let x : Session := { ss with lib := Tab.set {} ss.lib index {} }
            (x.updPic p.poc (fun _ => q)).readBufs q)
          s.reportMissingLib sess.val p index)

end Sys2Proof.Machine
end

