-- ==== Sys2Proof/Machine/Rans.lean ====
section
/-! DEFINITION. The rANS coder (R213 to R215), elements and their symbols (R216 to R218), element order and substreams (R239 to
R243), and the encoding lanes (R244, R250). -/

namespace Sys2Proof.Machine

/-! ## The coder (R214, R215) -/

/-- One symbol (start, freq) enters the coder: state and words written so far, first word first. -/
def ransPush (sf : Nat × Nat) (acc : Nat × List Nat) : Nat × List Nat :=
  let (x, ws) := if sf.2 * 65536 ≤ acc.1 then (acc.1 / 65536, (acc.1 % 65536) :: acc.2) else acc
  (x / sf.2 * 65536 + x % sf.2 + sf.1, ws)

/-- The substream of an ordered list of symbols. -/
def ransEncode (syms : List (Nat × Nat)) : Bytes :=
  let (x, ws) := syms.foldr ransPush (65536, [])
  natBE 4 x ++ ws.flatMap (natBE 2)

/-- A decoder's place in a substream: its state, the bytes left, the bytes taken, and whether a refill ran past the end. -/
structure RansState where
  x : Nat
  rest : Bytes
  p : Nat
  past : Bool
  deriving DecidableEq, Repr

def ransInit (bs : Bytes) : RansState := { x := beNat (bs.take 4), rest := bs.drop 4, p := 4, past := false }

def RansState.slot (r : RansState) : Nat := r.x % 65536

/-- Takes the symbol (start, freq) that holds the slot; a refill past the end supplies 0x0000 (R252). -/
def RansState.take (r : RansState) (start freq : Nat) : RansState :=
  let x := freq * (r.x / 65536) + r.slot - start
  if 65536 ≤ x then { r with x := x }
  else
    match r.rest with
    | a :: b :: t => { r with x := x * 65536 + a.toNat * 256 + b.toNat, rest := t, p := r.p + 2 }
    | _ => { r with x := x * 65536, past := true }

/-- The substream ended well formed (R215). -/
def RansState.endsWell (r : RansState) : Bool := decide (r.x = 65536) && r.rest.isEmpty

/-! ## Tables and symbols (R216 to R218) -/

/-- The entry that holds a slot: index, start and frequency. -/
def tableFind (slot : Nat) : List Nat → Nat → Nat → Nat × Nat × Nat
  | [], n, start => (n, start, 1)
  | f :: fs, n, start => if slot < start + f then (n, start, f) else tableFind slot fs (n + 1) (start + f)

/-- Start of entry `s`. -/
def tableStart (t : List Nat) (s : Nat) : Nat := (t.take s).sum

def tableSymbol (t : List Nat) (s : Nat) : Nat × Nat := (tableStart t s, t.getD s 1)

/-- A raw k-bit symbol. -/
def rawSymbol (k v : Nat) : Nat × Nat := (v * 2 ^ (16 - k), 2 ^ (16 - k))

/-- Half-width h of a latent or hyper-latent table of 2h + 2 entries. -/
def halfWidth (t : List Nat) : Nat := t.length / 2 - 1

/-- Symbols of a latent or hyper-latent. -/
def latentSymbols (t : List Nat) (q : Int) : List (Nat × Nat) :=
  let h := halfWidth t
  if q.natAbs ≤ h then [tableSymbol t (q + h).toNat] else [tableSymbol t (2 * h + 1), rawSymbol 16 (q + 32768).toNat]

/-- Symbols of a motion delta. -/
def motionSymbols (t : List Nat) (d : Int) : List (Nat × Nat) :=
  if d.natAbs ≤ 31 then [tableSymbol t (d + 31).toNat] else [tableSymbol t 63, rawSymbol 15 (d + 8192).toNat]

def elemSymbols (t : EntropyTables) : Elem → List (Nat × Nat)
  | .raw k v => if k = 0 then [] else [rawSymbol k v]
  | .hyper c q => latentSymbols (t.hyper.getD c []) q
  | .latent i q => latentSymbols (t.latent.getD i []) q
  | .motionX d => motionSymbols t.mx d
  | .motionY d => motionSymbols t.my d

/-- Syntax classes of R247. -/
def clBadUnit : Nat := 1
def clBadEmulation : Nat := 2
def clBadOrder : Nat := 3
def clBadLength : Nat := 4
def clBadValue : Nat := 5
def clSubstreamEnd : Nat := 6
def clOverrun : Nat := 7
def clBadEscape : Nat := 8

/-- Decodes a latent or hyper-latent: value, state, and whether its escape is illegal. -/
def decodeLatent (t : List Nat) (r : RansState) : Int × RansState × Bool :=
  let h := halfWidth t
  let (s, st, f) := tableFind r.slot t 0 0
  let r := r.take st f
  if s ≤ 2 * h then ((s : Int) - h, r, false)
  else
    let q : Int := (r.slot : Int) - 32768
    (q, r.take r.slot 1, decide (q.natAbs ≤ h))

/-- Decodes a motion delta. -/
def decodeMotion (t : List Nat) (r : RansState) : Int × RansState × Bool :=
  let (s, st, f) := tableFind r.slot t 0 0
  let r := r.take st f
  if s ≤ 62 then ((s : Int) - 31, r, false)
  else
    let v := r.slot / 2
    let d : Int := (v : Int) - 8192
    (d, r.take (v * 2) 2, decide (d.natAbs ≤ 31) || decide (16384 < v))

/-- Decodes one element. -/
def decodeElem (t : EntropyTables) (e : Elem) (r : RansState) : Elem × RansState × Bool :=
  match e with
  | .raw k _ =>
    if k = 0 then (.raw 0 0, r, false)
    else
      let v := r.slot / 2 ^ (16 - k)
      (.raw k v, r.take (v * 2 ^ (16 - k)) (2 ^ (16 - k)), false)
  | .hyper c _ =>
    let (q, r, bad) := decodeLatent (t.hyper.getD c []) r
    (.hyper c q, r, bad)
  | .latent i _ =>
    let (q, r, bad) := decodeLatent (t.latent.getD i []) r
    (.latent i q, r, bad)
  | .motionX _ =>
    let (d, r, bad) := decodeMotion t.mx r
    (.motionX d, r, bad)
  | .motionY _ =>
    let (d, r, bad) := decodeMotion t.my r
    (.motionY d, r, bad)

/-- What a lane made of a substream: elements with the offset each reached, the syntax errors met with their offsets, and its
two flags (R245). -/
structure SubResult where
  elems : List (Elem × Nat)
  errors : List (Nat × Nat)
  endErr : Bool
  overrun : Bool
  deriving DecidableEq, Repr

/-- Decodes the elements in order from a state; offsets count from the substream's position `base`. -/
def decodeElems (t : EntropyTables) (base : Nat) : List Elem → RansState → SubResult
  | [], r =>
    { elems := [], errors := if r.endsWell then [] else [(clSubstreamEnd, base + r.p)], endErr := !r.endsWell, overrun := r.past }
  | e :: es, r =>
    let (v, r', bad) := decodeElem t e r
    let rest := decodeElems t base es r'
    { rest with
      elems := (v, base + r'.p) :: rest.elems
      errors := (if bad then [(clBadEscape, base + r'.p)] else []) ++ (if r'.past && !r.past then [(clOverrun, base + r'.p)] else []) ++
        rest.errors }

def decodeSubstream (t : EntropyTables) (base : Nat) (es : List Elem) (bs : Bytes) : SubResult := decodeElems t base es (ransInit bs)

/-! ## Element order (R239, R240, R243) -/

/-- Elements of substream `j` of `n`: those whose index is j modulo n. -/
def substreamElems {α : Type} (n j : Nat) (l : List α) : List α :=
  ((List.range l.length).zip l).filterMap (fun p => if p.1 % n = j then some p.2 else none)

/-- Puts the elements of the substreams back in element order. -/
def interleave {α : Type} (n total : Nat) (subs : Nat → List α) : List α :=
  (List.range total).filterMap (fun k => (subs (k % n))[k / n]?)

/-- Hyper-latents of a PIC with the given symbols (R239). -/
def hyperElems (f : SeqFmt) (channels : Nat) (q : List Int) : List Elem :=
  (List.range (f.cbCols * f.cbRows * channels)).map (fun k => .hyper (k % channels) (q.getD k 0))

/-- Bits of a reference index (R240). -/
def refBits (n : Nat) : Nat := if n ≤ 1 then 0 else if n = 2 then 1 else 2

/-- Elements of a coded ROW with the given gains, motion and latent symbols (R240). -/
def rowElems (f : SeqFmt) (nrefs channels : Nat) (gains sigma : List Nat) (q : List Int) (m : Tab MotionVec) (r : Nat) : List Elem :=
  let gs := (List.range f.cbCols).map (fun c => Elem.raw 2 (gains.getD (r * f.cbCols + c) 0))
  let mv := if nrefs = 0 then [] else
    (List.range 4).flatMap (fun k => if f.subRows ≤ 4 * r + k then [] else (List.range f.subCols).flatMap (fun x =>
      let v := motionAt f m (4 * r + k) x
      let l := motionLeft m (4 * r + k) x
      (if refBits nrefs = 0 then [] else [Elem.raw (refBits nrefs) v.ref]) ++ [.motionX (v.x - l.x), .motionY (v.y - l.y)]))
  let ls := (List.range (4 * f.latentCols * channels)).map (fun k =>
    Elem.latent (sigma.getD (4 * r * f.latentCols * channels + k) 0) (q.getD k 0))
  gs ++ mv ++ ls

/-! ## Encoding lanes (R244, R245, R250) -/

/-- A lane finishes a substream. -/
def State.laneDone (s : State) (sd l i : Nat) (encode endErr overrun : Bool) : State :=
  (s.tookTurn (laneTurn sd l) i).updLane sd l (fun x => { x with
    encode := encode, endErr := x.endErr.raiseIf endErr s.wall, overrun := x.overrun.raiseIf overrun s.wall, session := i
    substreams := (x.substreams + 1) % 65536 })

/-- The picture an encode session's cores and lanes work on. -/
def Session.codingPic (ss : Session) : Option Picture := if ss.cfg.kind = 1 then ss.pics.find? (·.phase1) else none

/-- The elements of the unit the lanes are coding: its symbols are those that QUANT formed (R96, R239, R240). -/
def State.codingElems (s : State) (ss : Session) (p : Picture) : List Elem :=
  let pkg := (s.sessionModel ss).package
  if p.picDone then
    let n := 4 * ss.fmt.latentCols * pkgLatentChannels pkg
    rowElems ss.fmt p.refs.length (pkgLatentChannels pkg) p.gains p.sigma (Tab.get [] p.latents p.rowsCommitted |>.take n) p.motion p.rowsCommitted
  else hyperElems ss.fmt (entropyTables pkg).means.length p.hyper

/-- The lanes have a unit to code: hyper-latents before the PIC unit is committed; rows after the gains are set and the latents
quantised, until a row falls to floor mode (R244). A full output ring stalls them (R315). -/
def State.lanesWork (s : State) (i : Nat) (p : Picture) : Bool :=
  let ss := s.session i
  ss.outHeld.isEmpty && (!p.picDone ||
    (p.gainsDone && !p.floored && decide (p.rowsCommitted < ss.fmt.cbRows) && (decide (p.phase2 ≠ 0) || s.coresDone i)))

/-- The next substream of a lane in the unit. -/
def nextSubstream (pl : CutPlan) (done : List Nat) (lane : Nat) (n : Nat) : Option Nat :=
  (List.range n).find? (fun j => !done.contains j && decide (pl.laneOf j = some lane))

/-- The picture a lane may code a substream of for an encode session, and the substream. -/
def State.encodeJob (s : State) (i lane : Nat) : Option (Picture × Nat) :=
  let ss := s.session i
  match ss.codingPic with
  | none => none
  | some p =>
    if s.lanesWork i p then (nextSubstream ss.plan (p.substreams.map (·.1)) lane (p.subCount ss.plan)).map (fun j => (p, j)) else none

/-- The next substream of a lane in the unit that a session's stream has in the lanes. -/
def State.decodeJob (s : State) (i lane : Nat) : Option (UnitJob × SubJob) :=
  match (s.session i).dec.unit with
  | none => none
  | some u => (u.jobs.find? (fun j => decide ((s.session u.owner).plan.laneOf j.index = some lane))).map (fun j => (u, j))

/-- Some unit waits for a lane on behalf of a session's cut. -/
def State.wantsLane (s : State) (i sd l : Nat) : Bool :=
  (s.session i).plan.listsLane sd l && decide ((s.session i).plan.homeRank = s.rank) &&
    ((s.encodeJob i l).isSome || s.sessions.any (fun e => e.2.dec.unit.any (fun u => decide (u.owner = i)) && (s.decodeJob e.1 l).isSome))

/-- It is a session's turn on a lane: a lane listed in several cuts serves their units in turn (R186, R244, R295). -/
def State.laneTurnOf (s : State) (i sd l : Nat) : Bool :=
  s.dieRuns (streamDieIx sd) && s.mayServe (laneTurn sd l) i (fun j => s.holdsLane j sd l) (fun j => s.wantsLane j sd l)

/-- SUBSTREAM_ENCODE: a lane codes its next substream of the unit from the quantised elements. -/
def execSubstreamEncode (dt : Nat) (sess : SessionIx) (lane : LaneIx) (s : State) : Result :=
  let i := sess.val
  let l := lane.val
  s.event dt (fun s => s.power.running && (s.encodeJob i l).isSome && s.laneTurnOf i (s.session i).plan.streamDie l) (fun s =>
    match s.encodeJob i l with
    | none => s
    | some (p, j) =>
      let ss := s.session i
      let n := p.subCount ss.plan
      let elems := substreamElems n j (s.codingElems ss p)
      let bs := ransEncode (elems.flatMap (elemSymbols (entropyTables (s.sessionModel ss).package)))
      let s := s.updSession i (fun ss => ss.updPic p.poc (fun q => { q with
        substreams := q.substreams ++ [(j, bs)], sCounts := if q.sCounts.length ≤ q.unitIx then q.sCounts ++ [n] else q.sCounts }))
      s.laneDone ss.plan.streamDie l i true false false)

end Sys2Proof.Machine
end

