-- ==== Sys2Proof/Machine/Codec.lean ====
section
/-! DEFINITION. What a model's networks give a picture or an audio frame (R176 to R178, R198, R199, R278 to R280, R284, R432). The pipeline
binds what it has formed, the networks run in the order of R177, R178 and R280, and what they form is read by its binding. -/

namespace Sys2Proof.Machine

/-! ## Video (R176 to R178) -/

/-- A session's video model: its program, the format of the session's pictures, its hyper means, and its latent and carry channels. -/
structure VideoModel where
  prog : Program
  fmt : SeqFmt
  means : List W32
  channels : Nat
  carry : Nat
  deriving DecidableEq, Repr

def State.videoModel (s : State) (i : Nat) : VideoModel :=
  let ss := s.session i
  let pkg := (s.sessionModel ss).package
  { prog := programOf pkg, fmt := ss.fmt, means := (entropyTables pkg).means, channels := pkgLatentChannels pkg, carry := pkgCarryChannels pkg }

/-- CBs of a picture, latents of a CB row, and latents of a picture (R174). -/
def VideoModel.cbs (m : VideoModel) : Nat := m.fmt.cbCols * m.fmt.cbRows
def VideoModel.rowLatents (m : VideoModel) : Nat := 4 * m.fmt.latentCols * m.channels
def VideoModel.latents (m : VideoModel) : Nat := m.rowLatents * m.fmt.cbRows

/-- The patterns of FP32 values. -/
def wordPatterns (l : List W32) : List Nat := l.map (·.toNat)

/-- The prediction and the gathered carry feature; of an encoder's picture also the source (R432). -/
def Picture.inputs (p : Picture) (source : Bool) : Formed :=
  let f : Formed := (List.range 3).foldl (fun f k => f.bind (4 + k) fmtINT16 (p.pred.getD k []).flatten) {}
  let f := f.bind 7 fmtBF16 (p.carryGather.flatten.flatten.map (·.toNat))
  if source then (List.range 3).foldl (fun f k => f.bind (1 + k) fmtINT16 (p.source.getD k []).flatten) f else f

/-- ẑ of a picture (R205, R221, R260). -/
def VideoModel.hyperLatents (m : VideoModel) (p : Picture) : List W32 :=
  hyperHat m.means (m.cbs * m.means.length) (if p.hyperFloor || p.hyperLost then none else some p.hyper)

/-- Hyper-synthesis and the probability model (R198): they read the decoded hyper-latents alone. -/
def VideoModel.scaleNet (m : VideoModel) (p : Picture) (f : Formed) : Formed :=
  m.prog.networks m.fmt.geometry (f.bind 0xD fmtFP32 (wordPatterns (m.hyperLatents p))) [3]

/-- Rows of `w` elements. -/
def chunk {α : Type} (w : Nat) : Nat → List α → List (List α)
  | 0, _ => []
  | n + 1, l => l.take w :: chunk w n (l.drop w)

/-- Gives a picture the mean and the sigma index of each latent. -/
def VideoModel.scale (m : VideoModel) (p : Picture) : Picture :=
  let (mu, sigma) := (m.scaleNet p {}).meanScale 0xE 0xF m.latents
  { p with mu := mu, sigma := sigma }

/-- Phase 1 of an encode picture up to the gain: context, analysis with the rate head, hyper-analysis and its QUANT; then the means and
sigma indices that its decoder will have (R177). -/
def VideoModel.analyse (m : VideoModel) (p : Picture) : Picture :=
  let f := m.prog.networks m.fmt.geometry (p.inputs true) [0, 1, 2, 5]
  m.scale { p with
    scores := f.words 0xA m.cbs, estimates := chunk 4 m.cbs (f.ints 0xB (4 * m.cbs)), hyper := m.prog.symbols f 0xC (m.cbs * m.means.length) }

/-- CB row `r` is in floor mode or concealed: its latents are at mu and its gain level is 0 (R204, R259). -/
def Picture.atMean (p : Picture) (r : Nat) : Bool := p.rowsFloor.contains r || p.concealed.contains r

/-- Gain level of each CB. -/
def VideoModel.gainMap (m : VideoModel) (p : Picture) : List Nat :=
  (List.range m.cbs).map (fun k => if p.atMean (k / m.fmt.cbCols) then 0 else p.gains.getD k 0)

/-- Symbols by CB row. -/
def VideoModel.byRow (m : VideoModel) (l : List Int) : Tab (List Int) :=
  (List.range m.fmt.cbRows).foldl (fun t r => Tab.set [] t r ((l.drop (r * m.rowLatents)).take m.rowLatents)) []

/-- The gain multiply and the QUANT of the latents, once the gain levels are set (R177, R202). -/
def VideoModel.quantise (m : VideoModel) (p : Picture) : Picture :=
  let g := m.fmt.geometry
  let f := m.scaleNet p (m.prog.networks g (p.inputs true) [0, 1, 2])
  let f := m.prog.networks g (f.bind 0x10 fmtINT8 (m.gainMap p)) [5]
  { p with latents := m.byRow (m.prog.symbols f 0x11 m.latents) }

/-- ŷ of a picture, in the gained domain (R204, R221, R259). -/
def VideoModel.latentHat (m : VideoModel) (p : Picture) : List W32 :=
  ((List.range m.latents).zip p.mu).map (fun x =>
    let r := x.1 / m.rowLatents
    if p.atMean r then x.2 else addSymbol x.2 ((Tab.get [] p.latents r).getD (x.1 % m.rowLatents) 0))

/-- Synthesis: the reconstruction, clamped to the bit depth (R432), and the carry feature. It reads what a decoder has, so an encoder's
picture gets a decoder's (R199). -/
def VideoModel.synthesise (m : VideoModel) (p : Picture) : List Plane × List (List (List W16)) :=
  let f := m.scaleNet p (p.inputs false)
  let f := (f.bind 0x10 fmtINT8 (m.gainMap p)).bind 0x12 fmtFP32 (wordPatterns (m.latentHat p))
  let f := m.prog.networks m.fmt.geometry f [0, 4]
  let plane (k : Nat) : Plane :=
    let w := m.fmt.codedW / m.fmt.planeSubX k
    let h := m.fmt.codedH / m.fmt.planeSubY k
    (chunk w h (f.ints (0x13 + k) (w * h))).map (fun r => r.map (clipSample m.fmt.bitDepth))
  let w := m.fmt.codedW / 4
  let h := m.fmt.codedH / 4
  let carry := (f.nums 0x16 (w * h * m.carry)).map (fun x => BitVec.ofNat 16 (inFormat fmtBF16 x))
  ((List.range 3).map plane, (chunk (w * m.carry) h carry).map (chunk m.carry w))

/-! ## Audio (R278 to R280) -/

/-- A group's audio model: its program, the channels of the group, its latents, and the elements of its carry state. -/
structure AudioModel where
  prog : Program
  channels : Nat
  latents : Nat
  carry : Nat
  deriving DecidableEq, Repr

def AudioModel.geometry (m : AudioModel) : Geometry := { width := 0, height := 0, channels := m.channels }

/-- The model of a group of `c` channels. -/
def State.audioModel (s : State) (i c : Nat) : AudioModel :=
  let pkg := (s.sessionModel (s.session i)).package
  let prog := programOf pkg
  let m : AudioModel := { prog := prog, channels := c, latents := 60 * (leAt pkg 9 1 * c), carry := 0 }
  { m with carry := ((prog.entries.find? (fun e => decide (e.role = 2) && decide (e.binding = 0x22))).map (·.count m.geometry)).getD 0 }

/-- The carry state that a frame starts from: +0 at a reset (R279). -/
def AudioModel.carryIn (m : AudioModel) (reset : Bool) (carry : List W32) : List W32 := if reset then List.replicate m.carry 0 else carry

/-- One PCM sample as FP32 (R276): the b-bit value times 2^-(b-1). -/
def pcmIn (bits raw : Nat) : W32 := BitVec.ofNat 32 (fp32.encode ((Ext.ofInt (signed bits raw)).scale (-((bits : Int) - 1))))

/-- The samples of a frame, interleaved by channel: 16 bits each, or the low 24 bits of 32-bit containers. -/
def pcmSamples (bits : Nat) (bs : Bytes) : List W32 :=
  let n := if bits = 16 then 2 else 4
  (List.range (bs.length / n)).map (fun k => pcmIn bits (leAt bs (n * k) n % 2 ^ bits))

/-- What networks of every frame read: the carry state and the operating point. -/
def audioInputs (carry : List W32) (q : Nat) : Formed :=
  (({} : Formed).bind 0x21 fmtFP32 (wordPatterns carry)).bind 0x23 fmtFP32 [fp32.encode (.ofInt q)]

/-- Mean and sigma index of each latent, from the carry state and the operating point (R278). -/
def AudioModel.scale (m : AudioModel) (carry : List W32) (q : Nat) : List W32 × List Nat :=
  (m.prog.networks m.geometry (audioInputs carry q) [1]).meanScale 0x26 0x27 m.latents

/-- The analysis of a frame's samples, and its byte estimates e[0 … 15] (R278). -/
def AudioModel.analysis (m : AudioModel) (pcm : List W32) : Formed :=
  m.prog.networks m.geometry (({} : Formed).bind 0x20 fmtFP32 (wordPatterns pcm)) [0]
def AudioModel.estimates (m : AudioModel) (pcm : List W32) : List Int := (m.analysis pcm).ints 0x25 16

/-- The symbols of a frame at its operating point (R280, R285). -/
def AudioModel.quantise (m : AudioModel) (pcm carry : List W32) (q : Nat) : List Int :=
  let f := m.analysis pcm
  let f := (f.bind 0x21 fmtFP32 (wordPatterns carry)).bind 0x23 fmtFP32 [fp32.encode (.ofInt q)]
  m.prog.symbols (m.prog.networks m.geometry f [1, 5]) 0x24 m.latents

/-- ŷ of a frame: mu + q, or mu alone for a frame that carries no symbols (R221, R284). -/
def AudioModel.latentHat (m : AudioModel) (carry : List W32) (q : Nat) (symbols : Option (List Int)) : List W32 :=
  let mu := (m.scale carry q).1
  match symbols with
  | none => mu
  | some l => ((List.range mu.length).zip mu).map (fun x => addSymbol x.2 (l.getD x.1 0))

/-- Synthesis: the frame's samples and the carry state it leaves (R278, R279). -/
def AudioModel.synthesise (m : AudioModel) (carry : List W32) (q : Nat) (symbols : Option (List Int)) : List W32 × List W32 :=
  let f := (audioInputs carry q).bind 0x28 fmtFP32 (wordPatterns (m.latentHat carry q symbols))
  let f := m.prog.networks m.geometry f [1, 2]
  (f.words 0x29 (960 * m.channels), f.words 0x22 m.carry)

/-- The carry state after `n` frames that are concealed at an operating point (R291). -/
def AudioModel.concealedCarry (m : AudioModel) (q : Nat) : Nat → List W32 → List W32
  | 0, carry => carry
  | n + 1, carry => m.concealedCarry q n (m.synthesise carry q none).2

end Sys2Proof.Machine
end

