-- ==== Sys2Proof/Machine/Feeder.lean ====
section
/-! DEFINITION. The feeder queues (R147 to R154) and the press (R166 to R171). -/

namespace Sys2Proof.Machine

/-! ## The press (R166 to R170) -/

/-- Sign, exponent field and significand field of a BF16 pattern. -/
def bfSign (x : Nat) : Nat := bits x 15 15
def bfExp (x : Nat) : Nat := bits x 14 7
def bfFrac (x : Nat) : Nat := bits x 6 0
def bfNaN (x : Nat) : Bool := decide (bfExp x = 255) && decide (bfFrac x ≠ 0)
def bfInf (x : Nat) : Bool := decide (bfExp x = 255) && decide (bfFrac x = 0)

/-- Step 1 of R169: subnormals become zero of their sign, infinities the largest finite value. -/
def pressFlush (x : Nat) : Nat :=
  if bfExp x = 0 then 0x8000 * bfSign x else if bfInf x then 0x7F7F + 0x8000 * bfSign x else x

/-- Group shifts of a block with exponent `e`: d_g of R169. -/
def pressShift (vals : List Nat) (e g : Nat) : Nat :=
  min 3 (e - ((vals.drop (16 * g)).take 16).foldl (fun m x => max m (bfExp x)) 0)

/-- Magnitude and sign code of a value whose group exponent is `gexp` (steps 4 to 6 of R169). -/
def pressCode (b gexp x : Nat) : Nat :=
  if bfExp x = 0 then 0
  else
    let n := gexp + 8 - b - bfExp x
    let q := min (2 ^ b - 1) ((128 + bfFrac x + 2 ^ (n - 1)) / 2 ^ n)
    if q = 0 then 0 else q + bfSign x * 2 ^ b

/-- A pressed block of 64 BF16 values (R168, R169), with the infinities replaced and whether it is a NaN block. -/
def pressBlock (rate4 : Bool) (raw : List Nat) : Bytes × Nat × Bool :=
  let b := pressBits rate4
  let sat := (raw.filter bfInf).length
  if raw.any bfNaN then (natLE (pressBlockBytes rate4) (255 + 2 ^ 16), sat, true)
  else
    let vals := raw.map pressFlush
    let e := vals.foldl (fun m x => max m (bfExp x)) 0
    let d := (List.range 4).map (pressShift vals e)
    let dByte := ((List.range 4).map (fun g => d.getD g 0 * 4 ^ g)).sum
    let payload := ((List.range 64).map (fun i =>
      pressCode b (e - d.getD (i / 16) 0) (vals.getD i 0) * 2 ^ ((b + 1) * i))).sum
    (natLE (pressBlockBytes rate4) (e + 2 ^ 8 * dByte + 2 ^ 64 * payload), sat, false)

/-- BF16 values of a byte string, little-endian. -/
def bfValues : Bytes → List Nat
  | a :: b :: rest => (a.toNat + 256 * b.toNat) :: bfValues rest
  | _ => []

/-- Cuts a list into blocks of `n`, the last one filled. -/
def blocksOf {α : Type} (fill : α) (n : Nat) : Nat → List α → List (List α)
  | 0, _ => []
  | k + 1, l => if l.isEmpty then [] else
    (l.take n ++ List.replicate (n - (l.take n).length) fill) :: blocksOf fill n k (l.drop n)

/-- Presses gathered bytes: the blocks, `saturated` and `nan_blocks` (R167, R171). -/
def pressBytes (rate4 : Bool) (bs : Bytes) : Bytes × Nat × Nat :=
  (blocksOf 0 64 (bs.length + 1) (bfValues bs)).foldl (fun acc blk =>
    let (o, s, n) := pressBlock rate4 blk
    (acc.1 ++ o, acc.2.1 + s, acc.2.2 + b2n n)) ([], 0, 0)

/-- A pressed block is faulty (R170). -/
def blockFaulty (rate4 : Bool) (blk : Bytes) : Bool :=
  let x := leNat blk
  let e := bits x 7 0
  let d := bits x 15 8
  let payload := x / 2 ^ 64
  let _ := rate4
  decide (bits x 63 17 ≠ 0) || (List.range 4).any (fun g => decide (e < bits d (2 * g + 1) (2 * g))) ||
    (if bitAt x 16 then decide (e ≠ 255) || decide (d ≠ 0) || decide (payload ≠ 0) else decide (e = 255))

/-- The BF16 value of a code in a group of exponent `gexp` (R170). -/
def unpressCode (b gexp code : Nat) : Nat :=
  let q := code % 2 ^ b
  if q = 0 then 0
  else
    let p := Nat.log2 q
    let biased := p + gexp + 1 - b
    let sign := 0x8000 * (code / 2 ^ b)
    if p + gexp + 1 ≤ b then sign else sign + 128 * biased + (q * 2 ^ (7 - p)) % 128

/-- The 64 values of a legal block, and whether it is a NaN block. -/
def unpressBlock (rate4 : Bool) (blk : Bytes) : List Nat × Bool :=
  let b := pressBits rate4
  let x := leNat blk
  if bitAt x 16 then (List.replicate 64 0x7FC0, true)
  else
    let e := bits x 7 0
    ((List.range 64).map (fun i =>
      let d := bits x (9 + 2 * (i / 16)) (8 + 2 * (i / 16))
      unpressCode b (e - d) ((x / 2 ^ (64 + (b + 1) * i)) % 2 ^ (b + 1))), false)

/-- Unpresses `n` bytes of values: none when a block is faulty (R170). -/
def unpressBytes (rate4 : Bool) (bs : Bytes) (n : Nat) : Option (Bytes × Nat) :=
  let blks := blocksOf 0 (pressBlockBytes rate4) (bs.length + 1) bs
  if blks.any (blockFaulty rate4) then none
  else
    let vs := blks.map (unpressBlock rate4)
    some (((vs.flatMap (·.1)).flatMap (natLE 2)).take n, (vs.filter (·.2)).length)

/-! ## Transfer descriptors (R148) -/

def transferDesc (b : Bytes) : TransferDesc :=
  { src := BitVec.ofNat 64 (leAt b 0 8), dst := BitVec.ofNat 64 (leAt b 8 8)
    counts := leAt b 0x10 4 :: (List.range 4).map (fun k => leAt b (0x14 + 2 * k) 2)
    fence := bitAt (leAt b 0x1C 1) 0, notify := bitAt (leAt b 0x1C 1) 1, press := leAt b 0x1D 1
    tag := BitVec.ofNat 16 (leAt b 0x1E 2)
    reserved := decide (4 ≤ leAt b 0x1C 1) || addrReserved (leAt b 0 8) || addrReserved (leAt b 8 8)
    srcStrides := (List.range 4).map (fun k => signed 32 (leAt b (0x20 + 4 * k) 4))
    dstStrides := (List.range 4).map (fun k => signed 32 (leAt b (0x30 + 4 * k) 4)) }

/-- BAD_DESC of R150. -/
def TransferDesc.bad (d : TransferDesc) : Bool :=
  d.reserved || d.counts.any (· == 0) || decide (16777216 < d.counts.headD 0) || decide (4 < d.press) ||
    (decide (d.press ≠ 0) && decide (d.total % 2 = 1)) || decide (5 < addrSpace d.src.toNat) || decide (5 < addrSpace d.dst.toNat) ||
    (decide (addrSpace d.src.toNat = 5) && decide (addrSpace d.dst.toNat = 5))

/-- The check of one side: the lowest address may not be negative, and every piece must lie in its space and its banks (R148, R149). -/
def State.sideStatus (s : State) (d : TransferDesc) (source : Bool) (ok : Core → Nat → Bool) : Nat :=
  if (d.reach source).1 < 0 then tsAddrFault
  else
    let sts := (d.spans source).map (fun p => s.spanStatus (addrSpace (d.form source)) p.1 p.2 ok)
    if sts.contains tsAddrFault then tsAddrFault else if sts.contains tsBankNotOwned then tsBankNotOwned else tsOK

/-- The feeder's checks (R148 to R150, R359, R366); `ok` tells which banks it may use. -/
def State.transferStatus (s : State) (d : TransferDesc) (ok : Core → Nat → Bool) : Nat :=
  if d.bad then tsBadDesc
  else
    let a := s.sideStatus d true ok
    if a ≠ tsOK then a else s.sideStatus d false ok

/-- Spreads a byte string over the destination runs. -/
def spread (n : Nat) : List Nat → Bytes → List (Nat × Bytes)
  | [], _ => []
  | a :: as, bs => (a, bs.take n) :: spread n as (bs.drop n)

/-- What a transfer would write, with its counts. -/
structure Moved where
  pieces : List (Nat × Bytes)
  saturated : Nat := 0
  nanBlocks : Nat := 0
  deriving DecidableEq, Repr

/-- The bytes a transfer gathers from its source. -/
def State.gather (s : State) (d : TransferDesc) : Bytes := (d.spans true).flatMap (fun p => s.readSpace (addrSpace d.src.toNat) p.1 p.2)

/-- The data of a transfer; none when an unpress meets a faulty block (R167, R170, R171). -/
def State.transferData (s : State) (d : TransferDesc) : Option Moved :=
  let got := s.gather d
  if d.presses then
    let (bs, sat, nan) := pressBytes d.rate4 got
    some { pieces := [(addrOffset d.dst.toNat, bs)], saturated := sat, nanBlocks := nan }
  else if d.unpresses then
    (unpressBytes d.rate4 got d.total).map (fun x =>
      { pieces := spread (d.counts.headD 0) (d.runs false) x.1, nanBlocks := x.2 })
  else some { pieces := spread (d.counts.headD 0) (d.runs false) got }

/-- The first `n` bytes of a list of pieces. -/
def takePieces : Nat → List (Nat × Bytes) → List (Nat × Bytes)
  | _, [] => []
  | 0, _ => []
  | n + 1, (a, bs) :: rest => (a, bs.take (n + 1)) :: takePieces (n + 1 - bs.length) rest

def piecesLength (ps : List (Nat × Bytes)) : Nat := (ps.map (fun p => p.2.length)).sum

def State.writePieces (s : State) (space : Nat) (ps : List (Nat × Bytes)) : State :=
  ps.foldl (fun s p => s.writeSpace space p.1 p.2) s

/-! ## Queues (R151 to R154) -/

/-- Entries of a queue's rings: 2^log2_size. -/
def FeederQueue.logSize (f : FeederQueue) : Nat := bits f.ringLo.toNat 3 0
def FeederQueue.ringBase (f : FeederQueue) : Nat := (f.ringLo.toNat + 2 ^ 32 * f.ringHi.toNat) / 64 * 64
def FeederQueue.cplBase (f : FeederQueue) : Nat := (f.cplLo.toNat + 2 ^ 32 * f.cplHi.toNat) / 16 * 16

def State.queueLive (s : State) (md : Nat) : Bool := s.power.running && s.dieRuns (memDieIx md) && s.memory.trained

/-- A completion entry (R150). -/
def completionEntry (tag : W16) (status nbytes saturated nan : Nat) : Bytes :=
  natLE 2 tag.toNat ++ natLE 1 status ++ [0] ++ natLE 4 nbytes ++ natLE 4 saturated ++ natLE 4 nan

/-- Writes the queue's next completion entry. -/
def State.completeEntry (s : State) (md q : Nat) (e : Bytes) : State :=
  let f := s.feeder md q
  let s := s.gddrWrite (f.cplBase + 16 * f.cplIndex) e
  s.updFeeder md q (fun f => { f with cplIndex := (f.cplIndex + 1) % 2 ^ f.logSize, done := (f.done + 1) % 65536 })

/-- QUEUE_ENABLE. -/
def FeederQueue.enabled (f : FeederQueue) (now : Nat) : FeederQueue :=
  { f with enable := true, askedAt := if f.enable then f.askedAt else now }

def execQueueEnable (dt : Nat) (md : MemDie) (q : QueueIx) (s : State) : Result :=
  s.event dt (fun s => s.queueLive md.val) (fun s => s.updFeeder md.val q.val (fun f => f.enabled s.wall))

/-- The descriptor a queue would fetch next. -/
def State.nextTransfer (s : State) (md q : Nat) : TransferDesc :=
  let f := s.feeder md q
  transferDesc (s.gddrRead (f.ringBase + 64 * f.head) 64)

/-! ### Arbitration (R151 to R153; log entry 32) -/

/-- A transfer of the stitch path (R152). -/
def TransferDesc.stitch (d : TransferDesc) : Bool := decide (d.total ≤ 256)

/-- Bulk transfers of a queue that have requests outstanding. -/
def FeederQueue.bulkOut (f : FeederQueue) : Nat := (f.inFlight.filter (fun t => t.atWork && !t.desc.stitch)).length

/-- A queue has a request to make: enabled, not being cancelled, a usable `max_out` and ring, and a descriptor waiting that does not
exceed `max_out`. What a `log2_size` outside 4 to 12 does is not stated: the queue is held idle, as a `max_out` out of range
holds it (DESIGN CHOICE, log entry 32). -/
def State.asks (s : State) (md q : Nat) : Bool :=
  let f := s.feeder md q
  f.enable && !f.cancelling && decide (1 ≤ f.maxOut) && decide (f.maxOut ≤ 64) && decide (4 ≤ f.logSize) &&
    decide (f.logSize ≤ 12) && decide (f.head ≠ f.tail) && ((s.nextTransfer md q).stitch || decide (f.bulkOut < f.maxOut))

/-- The queues of a memory die that wait for a grant of the bulk or of the stitch path. -/
def State.askers (s : State) (md : Nat) (stitch : Bool) : List Nat :=
  (List.range 64).filter (fun q => s.asks md q && ((s.nextTransfer md q).stitch == stitch))

/-- Bulk grants that a memory die has made. -/
def State.grantCount (s : State) (md : Nat) : Nat := (List.range 64).foldl (fun n q => max n (s.feeder md q).granted) 0

/-- The queue of a priority that was granted last, 63 before any. -/
def State.lastGranted (s : State) (md prio : Nat) : Nat :=
  ((List.range 64).foldl (fun (b : Nat × Nat) q =>
    let f := s.feeder md q
    if f.priority = prio ∧ b.1 < f.granted then (f.granted, q) else b) (0, 63)).2

/-- The element of a list with the least measure, the first of equals. -/
def leastBy (m : Nat → Nat) : List Nat → Option Nat
  | [] => none
  | x :: rest => match leastBy m rest with | none => some x | some y => if m x ≤ m y then some x else some y

/-- The queue that the next bulk grant goes to (R151): every 32nd to the oldest request, else to the highest priority, queues of equal
priority in turn. -/
def State.nextGrant (s : State) (md : Nat) : Option Nat :=
  let qs := s.askers md false
  if (s.grantCount md + 1) % 32 = 0 then leastBy (fun q => (s.feeder md q).askedAt) qs
  else
    let top := qs.foldl (fun p q => max p (s.feeder md q).priority) 0
    leastBy (fun q => (q + 63 - s.lastGranted md top) % 64) (qs.filter (fun q => (s.feeder md q).priority = top))

/-- The queue may fetch and start its next transfer: a stitch transfer at any time, a bulk one when no stitch request waits and the
grant is its own. -/
def State.mayFetch (s : State) (md q : Nat) : Bool :=
  s.queueLive md && s.asks md q &&
    ((s.nextTransfer md q).stitch || ((s.askers md true).isEmpty && decide (s.nextGrant md = some q)))

/-! ### Transfers -/

/-- The sessions that hold the cores a transfer reaches. -/
def State.holdersOf (s : State) (d : TransferDesc) : List (Option Nat) :=
  (d.banks true ++ d.banks false).map (fun x => (s.core x.1 x.2.1).session)

/-- A transfer starts: its checks are made before anything moves (R148). -/
def State.startTransfer (s : State) (t : Transfer) : Transfer :=
  { t with started := true, status := s.transferStatus t.desc Core.bankOpen, holders := s.holdersOf t.desc }

/-- FEEDER_DESCRIPTOR_FETCH: with `fence` the transfer starts only after every earlier one of the queue has completed. -/
def execFeederDescriptorFetch (dt : Nat) (md : MemDie) (q : QueueIx) (s : State) : Result :=
  s.event dt (fun s => s.mayFetch md.val q.val) (fun s =>
    let d := s.nextTransfer md.val q.val
    let t : Transfer := { desc := d, status := tsOK, started := false }
    let n := s.grantCount md.val + 1
    s.updFeeder md.val q.val (fun f => { f with
      head := (f.head + 1) % 2 ^ f.logSize, askedAt := s.wall, granted := if d.stitch then f.granted else n
      inFlight := f.inFlight ++ [if d.fence && !f.inFlight.isEmpty then t else s.startTransfer t] }))

/-- A bank that the transfer reaches is still being handed to FEEDER: its accesses are held (R139, R153). -/
def State.transferHeld (s : State) (t : Transfer) : Bool :=
  t.atWork && (t.desc.banks true ++ t.desc.banks false).any (fun x =>
    (s.core x.1 x.2.1).bankDue ownFeeder x.2.2 && decide ((s.core x.1 x.2.1).bankOwner x.2.2 ≠ ownFeeder))

/-- Uncorrectable data in what a transfer reads: from GDDR7 a word of the poison list, from an expander what the read returned
(R366, R370). -/
def State.sourceEcc (s : State) (d : TransferDesc) (badRead : Bool) : Bool :=
  match addrSpace d.src.toNat with
  | 0 => (d.spans true).any (fun p => s.poisonedRange p.1 p.2)
  | 3 => badRead
  | 4 => badRead
  | _ => false

/-- Counts an uncorrectable read of a transfer: against the memory die under R28, or in HUB_CXL_POISON_x (R366). -/
def State.countEcc (s : State) (d : TransferDesc) : State :=
  match addrSpace d.src.toNat with
  | 0 =>
    match (d.spans true).find? (fun p => s.poisonedRange p.1 p.2) with
    | some p => s.uncorrectable (gddrDie p.1) (gddrChannelOf p.1)
    | none => s
  | 3 => s.cxlPoisoned 0
  | 4 => s.cxlPoisoned 1
  | _ => s

/-- The `saturated` and `nan_blocks` of a transfer of which only the first `n` bytes landed: those of every block that landed in
whole or in part (R171; DESIGN CHOICE, log entry 32). -/
def State.shortCounts (s : State) (d : TransferDesc) (n : Nat) : Nat × Nat :=
  let size := pressBlockBytes d.rate4
  if d.presses then (pressBytes d.rate4 ((s.gather d).take (128 * ceilDiv n size))).2
  else if d.unpresses then
    (0, ((blocksOf 0 size (ceilDiv n 128) ((s.gather d).take (size * ceilDiv n 128))).filter (fun b => (unpressBlock d.rate4 b).2)).length)
  else (0, 0)

/-- A transfer ends after only its first `landed` bytes: what that leaves, and its completion entry. -/
def State.landShort (s : State) (t : Transfer) (status landed : Nat) : State × Bytes :=
  let ps := takePieces landed (((s.transferData t.desc).map (·.pieces)).getD [])
  let n := piecesLength ps
  let c := s.shortCounts t.desc n
  (s.writePieces (addrSpace t.desc.dst.toNat) ps, completionEntry t.desc.tag status n c.1 c.2)

/-- Status with which the data of a started transfer meets the machine as it now is: FEEDER still owns its banks, one that it is giving
up included (R139), and their cores are still held by the same sessions. -/
def State.landStatus (s : State) (t : Transfer) : Nat :=
  let now := s.transferStatus t.desc (fun c b => decide (c.bankOwner b = ownFeeder))
  if now = tsOK && decide (s.holdersOf t.desc ≠ t.holders) then tsBankNotOwned else now

/-- The data of a transfer lands (R150, R170, R171): what that leaves, its completion entry, and whether uncorrectable data is to be
counted. A read outside the block that fails ends it with ADDR_FAULT (R359), uncorrectable data with MEM_ECC. -/
def State.landTransfer (s : State) (t : Transfer) (badRead : Bool) (landed : Nat) : State × Bytes × Bool :=
  let space := addrSpace t.desc.src.toNat
  let tag := t.desc.tag
  let short (status n : Nat) (ecc : Bool) : State × Bytes × Bool :=
    let r := s.landShort t status n
    (r.1, r.2, ecc)
  if t.status ≠ tsOK then (s, completionEntry tag t.status 0 0 0, false)
  else if s.landStatus t ≠ tsOK then short (s.landStatus t) (if s.landStatus t = tsAddrFault then landed else 0) false
  else if (decide (space = 1) || decide (space = 2)) && badRead then short tsAddrFault landed false
  else if s.sourceEcc t.desc badRead then short tsMemEcc landed true
  else
    match s.transferData t.desc with
    | none => (s, completionEntry tag tsBadDesc 0 0 0, false)
    | some m => (s.writePieces (addrSpace t.desc.dst.toNat) m.pieces,
        completionEntry tag tsOK (piecesLength m.pieces) m.saturated m.nanBlocks, false)

/-- The oldest transfer of a queue ends and writes its entry. -/
def State.finishTransfer (s : State) (md q : Nat) (t : Transfer) (badRead : Bool) (landed : Nat) : State :=
  match t.entry with
  | some e => s.completeEntry md q e
  | none =>
    let l := s.landTransfer t badRead landed
    let u := l.1.completeEntry md q l.2.1
    if l.2.2 then u.countEcc t.desc else u

/-- The data of a queue's first stitch transfer that has not landed lands ahead of its turn (R152). -/
def State.landStitch (s : State) (md q : Nat) (badRead : Bool) (landed : Nat) : State :=
  let f := s.feeder md q
  match f.inFlight.findIdx? (fun t => t.atWork && t.desc.stitch && !s.transferHeld t) with
  | none => s
  | some n =>
    match f.inFlight[n]? with
    | none => s
    | some t =>
      let l := s.landTransfer t badRead landed
      let u := l.1.updFeeder md q (fun f => { f with inFlight := f.inFlight.set n { t with entry := some l.2.1 } })
      if l.2.2 then u.countEcc t.desc else u

/-- The oldest transfer of a queue has left, and the next one may start. -/
def State.dropHead (s : State) (md q : Nat) : State :=
  s.updFeeder md q (fun f => { f with
    askedAt := if f.maxOut ≤ f.bulkOut then s.wall else f.askedAt
    inFlight := match f.inFlight.drop 1 with
      | [] => []
      | t :: rest => (if t.started then t else s.startTransfer t) :: rest })

/-- The oldest transfer of a queue may end: it has started and no bank of it is still to be handed over. -/
def State.headDue (s : State) (md q : Nat) : Bool :=
  match (s.feeder md q).inFlight with
  | [] => false
  | t :: _ => t.started && !s.transferHeld t

/-- TRANSFER_COMPLETE: entries are written in descriptor order (R150); with `stitch`, a stitch transfer's data lands ahead of its
turn (R152). -/
def execTransferComplete (dt : Nat) (md : MemDie) (q : QueueIx) (stitch badRead : Bool) (landed : Nat) (s : State) : Result :=
  s.event dt (fun s => s.queueLive md.val && !(s.feeder md.val q.val).cancelling && (stitch || s.headDue md.val q.val)) (fun s =>
    if stitch then s.landStitch md.val q.val badRead landed
    else
      match (s.feeder md.val q.val).inFlight with
      | [] => s
      | t :: _ => (s.finishTransfer md.val q.val t badRead landed).dropHead md.val q.val)

/-- QUEUE_CANCEL (R154). -/
def execQueueCancel (dt : Nat) (md : MemDie) (q : QueueIx) (s : State) : Result :=
  s.event dt (fun s => s.queueLive md.val) (fun s => s.updFeeder md.val q.val (fun f => { f with cancelling := true }))

/-- The entry of a transfer of a cancelled queue: of one whose data landed ahead of its turn its own, of the running one the bytes
that landed, else none; one that had already failed its check never started. -/
def State.cancelTransfer (s : State) (md q : Nat) (t : Transfer) (landed : Nat) : State :=
  match t.entry with
  | some e => s.completeEntry md q e
  | none =>
    let l := s.landShort t tsCancelled (if t.atWork && decide (s.landStatus t = tsOK) then landed else 0)
    l.1.completeEntry md q l.2

/-- CANCEL_DRAINED: CANCELLED entries in descriptor order, then `cancel_done` is set and `enable` cleared (R154). -/
def execCancelDrained (dt : Nat) (md : MemDie) (q : QueueIx) (landed : Nat) (s : State) : Result :=
  s.event dt (fun s => s.queueLive md.val && (s.feeder md.val q.val).cancelling) (fun s =>
    let s := match (s.feeder md.val q.val).inFlight with
      | [] => s
      | t :: rest => rest.foldl (fun (s : State) (u : Transfer) => s.cancelTransfer md.val q.val u 0) (s.cancelTransfer md.val q.val t landed)
    s.updFeeder md.val q.val (fun f => { f with inFlight := [], cancelling := false, cancelDone := Flag.raise s.wall, enable := false }))

/-- MD_FQ_CFG (R151). -/
def FeederQueue.cfgReg (f : FeederQueue) : Nat :=
  f.priority + 8 * f.maxOut + 1024 * b2n f.enable + 4096 * b2n f.cancelDone.isSet + 65536 * f.done

end Sys2Proof.Machine
end

