-- ==== Sys2Proof/Machine/Units.lean ====
section
/-! DEFINITION. Tutik units on the wire: emulation prevention (R223), the units an encoder writes (R228, R231 to R238), how a
decoder finds its next unit (R222, R224), and the syntax checks of each unit (R247, R252). -/

namespace Sys2Proof.Machine

/-! ## Emulation prevention (R223) -/

/-- Inserts 0x03 after two zeros that a byte of 0x00 to 0x03 would follow; `z` counts the zeros just before. -/
def protectFrom : Nat → Bytes → Bytes
  | _, [] => []
  | z, b :: bs =>
    let z' := if b = 0 then 1 else 0
    if 2 ≤ z && decide (b.toNat ≤ 3) then 3 :: b :: protectFrom z' bs
    else b :: protectFrom (if b = 0 then z + 1 else 0) bs

/-- A payload as it goes on the wire. -/
def protect (payload : Bytes) : Bytes :=
  let w := protectFrom 0 payload
  match w.getLast? with
  | some b => if b = 0 || b = 3 then w ++ [3] else w
  | none => w

/-- Drops the trailing byte an encoder appended. -/
def dropTrailing (w : Bytes) : Bytes :=
  let n := w.length
  if 2 ≤ n && decide (w.getD (n - 1) 0 = 3) && (decide (w.getD (n - 2) 0 = 0) || decide (w.getD (n - 2) 0 = 3)) then w.take (n - 1) else w

/-- Removes the inserted bytes: payload bytes with their wire index, and the index of the first byte that breaks R223. -/
def unprotectFrom : Nat → Nat → Bytes → List (Byte × Nat) × Option Nat
  | _, _, [] => ([], none)
  | z, i, b :: bs =>
    if 2 ≤ z && decide (b = 3) then
      let (l, e) := unprotectFrom 0 (i + 1) bs
      match bs with
      | c :: _ => (l, if 3 < c.toNat then some i else e)
      | [] => (l, e)
    else
      let (l, e) := unprotectFrom (if b = 0 then z + 1 else 0) (i + 1) bs
      ((b, i) :: l, if 2 ≤ z && decide (b.toNat < 3) then some i else e)

def unprotect (wire : Bytes) : List (Byte × Nat) × Option Nat := unprotectFrom 0 0 (dropTrailing wire)

/-! ## Units an encoder writes -/

def tMDL : Nat := 0x4D
def tSEQ : Nat := 0x51
def tPIC : Nat := 0x50
def tROW : Nat := 0x52
def tAUD : Nat := 0x41
def tLIB : Nat := 0x4C
def tEND : Nat := 0x45

/-- A unit: start code, type byte and protected payload (R222). -/
def unitBytes (ty : Nat) (payload : Bytes) : Bytes := [0, 0, 1, BitVec.ofNat 8 ty] ++ protect payload

/-- Substream count, lengths and substreams in index order. -/
def subSection (subs : List Bytes) : Bytes := natBE 1 subs.length ++ subs.flatMap (fun b => natBE 3 b.length) ++ subs.flatten

def mdlPayload (id recipe kind : Nat) (hash : Bytes) : Bytes := natBE 1 id ++ natBE 1 recipe ++ natBE 1 kind ++ slice hash 0 64

def seqPayload (f : SeqFmt) (id : Nat) : Bytes :=
  natBE 1 id ++ natBE 1 f.profile ++ natBE 1 f.chroma ++ natBE 1 f.bitDepth ++ natBE 2 f.width ++ natBE 2 f.height ++
    natBE 4 f.rateNum ++ natBE 4 f.rateDen ++ natBE 1 f.maxShort ++ natBE 1 f.press ++ natBE 2 f.libSize

/-- A PIC payload; without substreams it is the `hyper_floor` form (R232, R233). A candidate not yet chosen counts as entry 0. -/
def picPayload (poc : W32) (refs : List Ref) (marks : List Mark) (nonref : Bool) (subs : List Bytes) : Bytes :=
  natBE 4 poc.toNat ++ natBE 1 refs.length ++
    refs.flatMap (fun r => natBE 1 (min r.kind 1) ++ natBE 4 (if r.kind = 2 then 0 else r.id.toNat)) ++
    natBE 1 marks.length ++ marks.flatMap (fun m => natBE 1 m.op ++ natBE 4 m.arg.toNat) ++
    natBE 1 (0x80 + b2n nonref + 2 * b2n subs.isEmpty) ++ subSection subs

/-- H_pic (R233). -/
def hPic (poc : W32) (refs : List Ref) (marks : List Mark) (nonref : Bool) : Nat := (unitBytes tPIC (picPayload poc refs marks nonref [])).length

def rowPayload (row : Nat) (poc : W32) (subs : List Bytes) : Bytes :=
  natBE 1 row ++ [0x80] ++ natBE 2 (poc.toNat % 65536) ++ subSection subs

def floorRowPayload (row : Nat) (poc : W32) : Bytes :=
  natBE 1 row ++ [0x81] ++ natBE 2 (poc.toNat % 65536) ++ List.replicate 8 0xFF

/-- An AUD payload (R236, R282). -/
def audPayload (mdl group : Nat) (frame : W32) (channels layout pcmBits : Nat) (floor reset : Bool) (q : Nat) (syncPoc syncNs : W32)
    (subs : List Bytes) : Bytes :=
  natBE 1 mdl ++ natBE 1 group ++ natBE 4 frame.toNat ++ natBE 1 channels ++ natBE 1 layout ++ natBE 1 pcmBits ++
    natBE 1 (0x80 + b2n floor + 2 * b2n reset) ++ natBE 1 q ++ natBE 4 syncPoc.toNat ++ natBE 4 syncNs.toNat ++ subSection subs

/-- The empty substream (R215). -/
def emptySubstream : Bytes := [0, 1, 0, 0]

/-- Bytes of a reconstruction as a LIB CHECK reads them (R237). -/
def reconBytes (bd : Nat) (planes : List Plane) : Bytes := planes.flatMap (fun p => p.flatMap (rowBytes bd))

/-- The `check` of a library entry. -/
def libCheck (bd : Nat) (planes : List Plane) : Bytes := shake256 (reconBytes bd planes) 8

def libCheckPayload (index : Nat) (check : Bytes) : Bytes := [1, 2] ++ natBE 2 index ++ check

/-! ## Finding the next unit (R222, R224) -/

/-- Index of the first start code. -/
def startCode : Bytes → Option Nat
  | [] => none
  | a :: rest =>
    if a = 0 && decide (rest.take 2 = [0, 1]) then some 0 else (startCode rest).map (· + 1)

/-- Drops trailing zero bytes. -/
def dropZeros (bs : Bytes) : Bytes := (bs.reverse.dropWhile (· == 0)).reverse

def maxPayload : Nat := 16777216

/-- What stands next in a decoder's input. -/
structure NextUnit where
  /-- bytes before the start code; when some is not 0 they are what is next, and no unit is -/
  lead : Nat
  junk : Bool
  /-- the type byte, none where the start code has none -/
  type : Option Nat
  wire : Bytes
  /-- bytes up to the next start code, or to the end of the stream -/
  total : Nat
  offset : Nat
  tag : W32
  /-- the payload goes beyond its bound on the wire -/
  tooLong : Bool := false
  deriving DecidableEq, Repr

def Decoder.bytes (d : Decoder) : Bytes := d.input.flatMap (·.bytes)

/-- The tag of the stream slot that held a byte of the input. -/
def tagAt : List StreamBuf → Nat → W32
  | [], _ => 0
  | b :: bs, n => if n < b.bytes.length || bs.isEmpty then b.tag else tagAt bs (n - b.bytes.length)

/-- The unit at a start code, from the bytes after it up to its end: of one whose payload goes beyond the bound, what lies within it
(R224). -/
def Decoder.unitAt (d : Decoder) (k : Nat) (after : Bytes) (total : Nat) : NextUnit :=
  let body := dropZeros after
  let tooLong := decide (maxPayload < body.length - 1)
  { lead := k, junk := false, type := body.head?.map (·.toNat), wire := (body.drop 1).take maxPayload
    total := if tooLong then k + 4 + maxPayload else total, offset := d.offset + k, tag := tagAt d.input k, tooLong := tooLong }

/-- Bytes that belong to no unit: `n` of them, in error when some is not 0, unless they are the rest of an oversized unit. -/
def Decoder.noUnit (d : Decoder) (bs : Bytes) (n : Nat) : NextUnit :=
  { lead := n, junk := !d.discarding && (bs.take n).any (· != 0), type := none, wire := [], total := n, offset := d.offset, tag := tagAt d.input 0 }

/-- The next unit, once its end is known: at the next start code, at the payload's bound, or at the end of the data when that ends the
stream (R224, R254). -/
def Decoder.next (d : Decoder) (ended : Bool) : Option NextUnit :=
  let bs := d.bytes
  match startCode bs with
  | none => if ended && !bs.isEmpty then some (d.noUnit bs bs.length) else none
  | some k =>
    if (bs.take k).any (· != 0) then some (d.noUnit bs k)
    else
      let after := bs.drop (k + 3)
      match startCode after with
      | none => if ended || decide (maxPayload < (dropZeros after).length - 1) then some (d.unitAt k after bs.length) else none
      | some e => some (d.unitAt k (after.take e) (k + 3 + e))

/-- Bytes of the unit on the wire. -/
def NextUnit.size (u : NextUnit) : Nat := 4 + u.wire.length

/-- Takes bytes off the front of the input. -/
def dropBufs : Nat → List StreamBuf → List StreamBuf
  | _, [] => []
  | n, b :: bs => if n < b.bytes.length then { b with bytes := b.bytes.drop n } :: bs else dropBufs (n - b.bytes.length) bs

def Decoder.consume (d : Decoder) (n : Nat) : Decoder := { d with input := dropBufs n d.input, offset := d.offset + n }

/-- A unit, or bytes that are none, leave the input; what follows the bound of an oversized unit is discarded up to the next start code. -/
def Decoder.take (d : Decoder) (u : NextUnit) : Decoder := { d.consume u.total with discarding := u.tooLong }

/-! ## Syntax checks (R247, R252) -/

/-- A failed check: its class, its payload offset, whether it is one of the bounds of R252, and whether it says the unit is
shorter than its fields. -/
structure Bad where
  cls : Nat
  pos : Nat
  bound : Bool
  short : Bool := false
  deriving DecidableEq, Repr

/-- A unit's payload. -/
structure Payload where
  bytes : Bytes
  /-- stream byte offset of each payload byte, and of the end -/
  map : List Nat
  emulation : Option Nat
  /-- it is cut off at its bound -/
  tooLong : Bool := false
  deriving DecidableEq, Repr

def NextUnit.payload (u : NextUnit) : Payload :=
  let wire := if u.tooLong then u.wire else dropTrailing u.wire
  let (l, e) := unprotectFrom 0 0 wire
  { bytes := l.map (·.1), map := l.map (fun x => u.offset + 4 + x.2) ++ [u.offset + 4 + wire.length],
    emulation := e.map (u.offset + 4 + ·), tooLong := u.tooLong }

/-- A big-endian field (R212). -/
def Payload.u (p : Payload) (pos n : Nat) : Nat := beNat (slice p.bytes pos n)

def Payload.len (p : Payload) : Nat := p.bytes.length

/-- A field's check: it fails only where the field lies within the payload. -/
def Payload.chk (p : Payload) (pos n : Nat) (bound bad : Bool) (cls : Nat := clBadValue) : List Bad :=
  if bad && decide (pos + n ≤ p.len) then [{ cls := cls, pos := pos, bound := bound }] else []

/-- The check that a payload ends where its fields do. -/
def Payload.exact (p : Payload) (n : Nat) : List Bad :=
  if p.len < n then [{ cls := clBadLength, pos := p.len, bound := true, short := true }]
  else if n < p.len then [{ cls := clBadLength, pos := n, bound := true }]
  else []

/-- The first of the failed checks in byte order; of two at one place the earlier listed. -/
def firstBad : List Bad → Option Bad
  | [] => none
  | b :: bs =>
    match firstBad bs with
    | some c => if c.pos < b.pos then some c else some b
    | none => some b

/-- A substream section at a position: count, lengths, and the positions of the substreams. -/
structure SubSection where
  count : Nat
  lens : List Nat
  start : Nat
  deriving DecidableEq, Repr

def Payload.subs (p : Payload) (pos : Nat) : SubSection :=
  let n := p.u pos 1
  let k := if 32 < n then 0 else n
  { count := n, lens := (List.range k).map (fun j => p.u (pos + 1 + 3 * j) 3), start := pos + 1 + 3 * k }

def SubSection.ending (x : SubSection) : Nat := x.start + x.lens.sum

/-- Checks of a substream section whose count lies in [lo, hi]: an illegal count or length ends the reading of the section. Lengths
that do not account for the payload fail at the substreams, the last of the fields that the check reads (R247). -/
def Payload.subChecks (p : Payload) (pos lo hi : Nat) : List Bad :=
  let x := p.subs pos
  if p.len ≤ pos then [{ cls := clBadLength, pos := p.len, bound := true, short := true }]
  else if x.count < lo || hi < x.count then [{ cls := clBadValue, pos := pos, bound := true }]
  else
    let odd := (List.range x.lens.length).flatMap (fun j =>
      p.chk (pos + 1 + 3 * j) 3 true (decide (x.lens.getD j 0 % 2 = 1) || decide (x.lens.getD j 0 < 4)) clBadLength)
    if !odd.isEmpty then odd
    else if p.len < x.start then p.exact x.start
    else if p.len = x.ending then []
    else [{ cls := clBadLength, pos := x.start, bound := true, short := decide (p.len < x.ending) }]

/-- The substreams of a section, with their positions. -/
def Payload.subJobs (p : Payload) (pos : Nat) : List SubJob :=
  let x := p.subs pos
  (List.range x.lens.length).map (fun j =>
    let at_ := x.start + (x.lens.take j).sum
    { index := j, pos := at_, bytes := slice p.bytes at_ (x.lens.getD j 0) })

/-! ### MDL, SEQ, LIB, END -/

def Payload.mdlChecks (p : Payload) (ids : List Nat) : List Bad :=
  p.chk 0 1 false (decide (7 < p.u 0 1)) ++ p.chk 0 1 true (ids.contains (p.u 0 1)) ++ p.chk 1 1 false (decide (p.u 1 1 = 0)) ++
    p.chk 2 1 false (decide (p.u 2 1 ≠ 1 ∧ p.u 2 1 ≠ 2)) ++ p.exact 67

/-- A SEQ's fields (R231). -/
def Payload.seqFmt (p : Payload) : SeqFmt :=
  { mdlId := p.u 0 1, profile := p.u 1 1, chroma := p.u 2 1, bitDepth := p.u 3 1, width := p.u 4 2, height := p.u 6 2,
    rateNum := p.u 8 4, rateDen := p.u 12 4, maxShort := p.u 16 1, press := p.u 17 1, libSize := p.u 18 2 }

/-- Checks of a SEQ against R172, and of a video one against the geometry the session was bound with. -/
def Payload.seqChecks (p : Payload) (mdls : List (Nat × Nat × Nat × Bytes)) (bound : SeqFmt) : List Bad :=
  let f := p.seqFmt
  let v := decide (f.mdlId ≠ 0xFF)
  p.chk 0 1 false (v && !(mdls.any (fun m => decide (m.1 = f.mdlId) && decide (m.2.2.1 = 1)))) ++
    p.chk 1 1 false (decide (f.profile ≠ 1 ∧ f.profile ≠ 2)) ++
    p.chk 2 1 true (decide ((if f.profile = 2 then 2 else 1) < f.chroma) || (v && decide (bound.chroma < f.chroma))) ++
    p.chk 3 1 true (!(decide (f.bitDepth = 8) || decide (f.bitDepth = 10) || (decide (f.bitDepth = 12) && decide (f.profile = 2))) ||
      (v && decide (bound.bitDepth < f.bitDepth))) ++
    p.chk 4 2 true (decide (f.width < 64) || decide (4096 < f.width) || decide (f.width % 2 = 1) || (v && decide (bound.width < f.width))) ++
    p.chk 6 2 true (decide (f.height < 64) || decide (2176 < f.height) || decide (f.height % 2 = 1) || (v && decide (bound.height < f.height))) ++
    p.chk 8 4 false (decide (f.rateNum = 0)) ++
    p.chk 12 4 false (decide (f.rateDen = 0) || decide (60 * f.rateDen < f.rateNum)) ++
    p.chk 16 1 true (decide (f.maxShort = 0) || decide (8 < f.maxShort) || (v && decide (bound.maxShort < f.maxShort))) ++
    p.chk 17 1 false (decide (4 ≤ f.press)) ++
    p.chk 18 2 true (decide (4096 < f.libSize) || (v && decide (bound.libSize < f.libSize))) ++ p.exact 20

/-- Operations of a LIB unit: (op, index, check, position). -/
def Payload.libOps (p : Payload) : Nat → Nat → List (Nat × Nat × Bytes × Nat)
  | 0, _ => []
  | n + 1, pos =>
    let op := p.u pos 1
    (op, p.u (pos + 1) 2, slice p.bytes (pos + 3) 8, pos) :: p.libOps n (if op = 2 then pos + 11 else pos + 3)

def Payload.libOpList (p : Payload) : List (Nat × Nat × Bytes × Nat) := p.libOps (min 64 (p.u 0 1)) 1

/-- Bytes of a LIB operation. -/
def libOpSize (op : Nat) : Nat := if op = 2 then 11 else 3

def Payload.libChecks (p : Payload) (libSize : Nat) : List Bad :=
  let ops := p.libOpList
  p.chk 0 1 true (decide (p.u 0 1 = 0) || decide (64 < p.u 0 1)) ++
    ops.flatMap (fun o => p.chk o.2.2.2 1 false (decide (o.1 ≠ 1 ∧ o.1 ≠ 2)) ++ p.chk (o.2.2.2 + 1) 2 true (decide (libSize ≤ o.2.1))) ++
    p.exact (1 + (ops.map (fun o => libOpSize o.1)).sum)

def Payload.endChecks (p : Payload) : List Bad := p.chk 0 1 false (decide (p.u 0 1 ≠ 0x80)) ++ p.exact 1

/-! ### PIC -/

/-- A PIC's fields; counts beyond their bounds are read as 0. -/
structure PicFields where
  poc : W32
  refs : List Ref
  marks : List Mark
  flags : Nat
  /-- positions of `mark_count`, `pic_flags` and `s_count` -/
  markAt : Nat
  flagAt : Nat
  subAt : Nat
  deriving DecidableEq, Repr

def Payload.pic (p : Payload) : PicFields :=
  let rc := if 4 < p.u 4 1 then 0 else p.u 4 1
  let ma := 5 + 5 * rc
  let mc := if 16 < p.u ma 1 then 0 else p.u ma 1
  let fa := ma + 1 + 5 * mc
  { poc := BitVec.ofNat 32 (p.u 0 4)
    refs := (List.range rc).map (fun k => { kind := p.u (5 + 5 * k) 1, id := BitVec.ofNat 32 (p.u (6 + 5 * k) 4) })
    marks := (List.range mc).map (fun k => { op := p.u (ma + 1 + 5 * k) 1, arg := BitVec.ofNat 32 (p.u (ma + 2 + 5 * k) 4) })
    flags := p.u fa 1, markAt := ma, flagAt := fa, subAt := fa + 1 }

def PicFields.floor (x : PicFields) : Bool := bitAt x.flags 1
def PicFields.nonref (x : PicFields) : Bool := bitAt x.flags 0

/-- Two POCs that R194 does not order. -/
def unordered (a b : W32) : Bool := decide (serialGap 32 a.toNat b.toNat = 0) || decide (serialGap 32 a.toNat b.toNat = 2 ^ 31)

def Payload.picChecks (p : Payload) (libSize : Nat) (held : List W32) : List Bad :=
  let x := p.pic
  let pocBad := p.chk 0 4 false (held.any (unordered x.poc))
  if 4 < p.u 4 1 && decide (5 ≤ p.len) then pocBad ++ p.chk 4 1 true true
  else
    let refBad := (List.range x.refs.length).flatMap (fun k =>
      let r := x.refs.getD k { kind := 0, id := 0 }
      p.chk (5 + 5 * k) 1 false (decide (1 < r.kind)) ++ p.chk (6 + 5 * k) 4 true (decide (r.kind = 1) && decide (libSize ≤ r.id.toNat)))
    if 16 < p.u x.markAt 1 && decide (x.markAt < p.len) then pocBad ++ refBad ++ p.chk x.markAt 1 true true
    else
      let markBad := (List.range x.marks.length).flatMap (fun k =>
        let m := x.marks.getD k { op := 1, arg := 0 }
        let o := x.markAt + 1 + 5 * k
        p.chk o 1 false (decide (m.op = 0) || decide (3 < m.op)) ++ p.chk (o + 1) 4 false (decide (m.op = 1) && decide (7 < m.arg.toNat)) ++
          p.chk (o + 1) 4 true (decide (m.op = 2) && decide (libSize ≤ m.arg.toNat)))
      pocBad ++ refBad ++ markBad ++
        p.chk x.flagAt 1 false (!bitAt x.flags 7 || decide (bits x.flags 6 2 ≠ 0) || (x.nonref && !x.marks.isEmpty)) ++
        (if x.floor then p.subChecks x.subAt 0 0 else p.subChecks x.subAt 1 32)

/-! ### ROW -/

def Payload.rowIndex (p : Payload) : Nat := p.u 0 1
def Payload.rowFloor (p : Payload) : Bool := bitAt (p.u 1 1) 0
def Payload.rowPoc (p : Payload) : Nat := p.u 2 2

/-- Checks of a ROW other than its place in its picture group. -/
def Payload.rowChecks (p : Payload) : List Bad :=
  p.chk 1 1 false (!bitAt (p.u 1 1) 7 || decide (bits (p.u 1 1) 6 1 ≠ 0)) ++
    (if p.rowFloor then p.chk 4 8 false ((slice p.bytes 4 8).any (· != 0xFF)) ++ p.exact 12 else p.subChecks 4 1 32)

/-! ### AUD -/

/-- Checks of an AUD (R236, R282, R284), with the audio models of the coded sequence and what the group is bound to. -/
def Payload.audChecks (p : Payload) (mdlBad : Bool) (g : GroupCfg) : List Bad :=
  let afl := p.u 9 1
  let floor := bitAt afl 0
  p.chk 0 1 true mdlBad ++ p.chk 6 1 true (decide (p.u 6 1 = 0) || decide (16 < p.u 6 1) || decide (p.u 6 1 ≠ g.channels)) ++
    p.chk 7 1 false (!layoutFits (p.u 7 1) (p.u 6 1)) ++ p.chk 8 1 true (decide (p.u 8 1 ≠ g.pcmBits)) ++
    p.chk 9 1 false (!bitAt afl 7 || decide (bits afl 6 2 ≠ 0)) ++ p.chk 10 1 false (decide (15 < p.u 10 1)) ++
    p.chk 15 4 false (decide (p.u 11 4 = 0xFFFFFFFF) && decide (p.u 15 4 ≠ 0)) ++ p.subChecks 19 1 (if floor then 1 else 32) ++
    (if floor && decide (p.u 19 1 = 1) then p.chk 20 3 false (decide (p.u 20 3 ≠ 4)) clBadLength ++ p.chk 23 4 false (slice p.bytes 23 4 ≠ emptySubstream) clSubstreamEnd
     else [])

end Sys2Proof.Machine
end

