-- ==== Sys2Proof/Machine/Video.lean ====
section
/-! DEFINITION. The video pipeline's pictures: PICTURE (R201, R339), the core phases (R180, R211), rate control (R202 to R206),
marking and frame buffers (R191 to R194), the reference library's writes (R197), and picture records (R207, R208). -/

namespace Sys2Proof.Machine

/-- Carry-feature channels of a session's model. -/
def State.carryChannels (s : State) (i : Nat) : Nat := pkgCarryChannels (s.sessionModel (s.session i)).package

/-! ## PICTURE (R193, R194, R201, R319, R339) -/

def pictureLayout (req : Bytes) : Nat := 0x40 + 5 * leAt req 0x1D 1 + 5 * leAt req 0x1E 1

/-- The references and marks of a PICTURE payload. -/
def pictureRefs (req : Bytes) : List Ref :=
  (List.range (leAt req 0x1D 1)).map (fun k => { kind := leAt req (0x40 + 5 * k) 1, id := BitVec.ofNat 32 (leAt req (0x41 + 5 * k) 4) })

def pictureMarks (req : Bytes) : List Mark :=
  let o := 0x40 + 5 * leAt req 0x1D 1
  (List.range (leAt req 0x1E 1)).map (fun k => { op := leAt req (o + 5 * k) 1, arg := BitVec.ofNat 32 (leAt req (o + 5 * k + 1) 4) })

/-- Ranges and reserved fields of a PICTURE payload, with their offsets. -/
def pictureChecks (req : Bytes) : List (Bool × Answer) :=
  let fl := leAt req 0x1C 1
  let rc := leAt req 0x1D 1
  let mc := leAt req 0x1E 1
  [sessionRange req, (decide (leAt req 0x10 4 < leAt req 0xC 4), refusal stBadArg 0xC), (decide (16 ≤ fl), refusal stBadArg 0x1C),
   (decide (4 < rc) || (bitAt fl 0 && decide (rc ≠ 0)), refusal stBadArg 0x1D),
   (decide (16 < mc) || (bitAt fl 1 && decide (mc ≠ 0)), refusal stBadArg 0x1E), reservedAt req 0x1F 1] ++
  [0x20, 0x28, 0x30].map (fun o => (addrBad (leAt req o 8), refusal stBadArg o)) ++
  [0x38, 0x3C].map (fun o => (decide (leAt req o 4 % 64 ≠ 0), refusal stBadArg o)) ++
  (List.range rc).map (fun k => (decide (2 < leAt req (0x40 + 5 * k) 1) || (decide (leAt req (0x40 + 5 * k) 1 = 2) && decide (k ≠ 1)),
    refusal stBadArg (0x40 + 5 * k))) ++
  (List.range mc).map (fun k =>
    let o := 0x40 + 5 * rc + 5 * k
    (decide (leAt req o 1 = 0) || decide (3 < leAt req o 1) || (decide (leAt req o 1 = 1) && decide (7 < leAt req (o + 1) 4)), refusal stBadArg o)) ++
  [tailZero req (pictureLayout req)]

/-- R201's bound on the cap at a picture rate. -/
def SeqFmt.maxCap (f : SeqFmt) : Nat := 2000000000 * f.rateDen / (8 * f.rateNum)

/-- A coded sequence is open in an encoder's stream. -/
def Session.sequenceOpen (ss : Session) : Bool := !ss.dec.mdls.isEmpty

/-- Where the stream will stand behind the accepted pictures: the first picture of its coded sequence and the last random-access point,
by acceptance order, and whether the sequence is open (R226, R248). -/
structure StreamEnd where
  seqFrom : Nat
  point : Nat
  isOpen : Bool
  deriving DecidableEq, Repr

def StreamEnd.step (e : StreamEnd) (p : Picture) : StreamEnd :=
  let fresh := p.rap || !e.isOpen
  { seqFrom := if fresh then p.order else e.seqFrom, point := if fresh && p.refs.isEmpty then p.order else e.point, isOpen := !p.endAfter }

def Session.streamEnd (ss : Session) : StreamEnd :=
  ss.pics.foldl StreamEnd.step { seqFrom := 0, point := ss.rapOrder, isOpen := ss.sequenceOpen }

/-- A picture that the encoder holds or will hold, of the coded sequence that a new picture joins (R226). -/
def Session.reachesPoc (ss : Session) (poc : W32) : Bool :=
  let e := ss.streamEnd
  e.isOpen && (ss.bufs.any (fun b => decide (b.poc = poc) && (decide (b.mark = 1) || decide (b.mark = 2)) && decide (e.seqFrom ≤ b.order)) ||
    ss.pics.any (fun q => decide (q.poc = poc) && decide (e.seqFrom ≤ q.order)))

/-- A library entry that was written, or will be, since the last random-access point (R248). -/
def Session.reachesEntry (ss : Session) (index : Nat) : Bool :=
  let e := ss.streamEnd
  let x : LibEntry := Tab.get {} ss.lib index
  ((x.held || x.writing) && decide (e.point ≤ x.order)) ||
    ss.pics.any (fun q => decide (e.point ≤ q.order) && q.marks.any (fun m => decide (m.op = 2) && decide (m.arg.toNat = index)))

/-- What a reference of a new picture names is held by a decoder that starts at the last random-access point (R248). -/
def Session.reachable (ss : Session) (r : Ref) : Bool :=
  if r.kind = 0 then ss.reachesPoc r.id else if r.kind = 1 then ss.reachesEntry r.id.toNat else true

/-- So is what a mark names. -/
def Session.markable (ss : Session) (poc : W32) (m : Mark) : Bool := decide (m.op ≠ 3) || decide (m.arg = poc) || ss.reachesPoc m.arg

/-- Checks of a PICTURE against its session (R194, R201, R319, R339, R366). -/
def State.pictureOwn (s : State) (i : Nat) (req : Bytes) : List (Bool × Answer) :=
  let ss := s.session i
  let f := ss.cfg.fmt
  let refs := pictureRefs req
  let marks := pictureMarks req
  let poc : W32 := BitVec.ofNat 32 (leAt req 8 4)
  let rap := bitAt (leAt req 0x1C 1) 0
  let cap := leAt req 0x10 4
  let mo := 0x40 + 5 * refs.length
  let live := (if rap then [] else (ss.bufs.filter (fun b => decide (b.mark = 1) || decide (b.mark = 2))).map (·.poc)) ++ ss.pics.map (·.poc)
  [s.handoverBusy, (decide (ss.cfg.kind ≠ 1), refusal stBadArg 0)] ++
  (List.range refs.length).map (fun k =>
    let r := refs.getD k { kind := 0, id := 0 }
    ((decide (r.kind = 1) && decide (f.libSize ≤ r.id.toNat)) || (decide (r.kind = 2) && !ss.cfg.libSearch), refusal stBadArg (0x40 + 5 * k))) ++
  (List.range marks.length).map (fun k =>
    let m := marks.getD k { op := 1, arg := 0 }
    (decide (m.op = 2) && decide (f.libSize ≤ m.arg.toNat), refusal stBadArg (mo + 5 * k))) ++
  [(live.any (unordered poc), refusal stBadArg 8),
   (decide (f.maxCap < cap) || decide (cap < hPic poc refs marks (bitAt (leAt req 0x1C 1) 1) + 16 * f.cbRows), refusal stBadArg 0x10),
   (ss.needRap && !rap, refusal stFenced 0),
   (refs.any (fun r => decide (r.kind = 0) && ss.lostRefs.contains r.id && !ss.reachable r), refusal stFenced 0),
   (refs.any (fun r => decide (r.kind = 1)) && !s.cxlServes ss.plan.cxlPort, refusal stFenced 0)]

/-- The picture of an accepted PICTURE. References and marks that R248 does not allow leave its lists (log entry 43). -/
def State.pictureOf (s : State) (i : Nat) (req : Bytes) : Picture :=
  let ss := s.session i
  let fl := leAt req 0x1C 1
  let poc : W32 := BitVec.ofNat 32 (leAt req 8 4)
  let refs := (pictureRefs req).filter ss.reachable
  let fresh := bitAt fl 0 || !ss.streamEnd.isOpen
  { poc := poc, tag := BitVec.ofNat 32 (leAt req 4 4), order := s.accepted
    target := leAt req 0xC 4, cap := leAt req 0x10 4, tCapture := leAt req 0x14 8
    rap := bitAt fl 0, nonref := bitAt fl 1, check := bitAt fl 2, endAfter := bitAt fl 3
    refs := refs, marks := (pictureMarks req).filter (ss.markable poc)
    point := if fresh && refs.isEmpty then s.accepted else ss.streamEnd.point
    addrs := [0x20, 0x28, 0x30].map (fun o => BitVec.ofNat 64 (leAt req o 8)), yPitch := leAt req 0x38 4, cPitch := leAt req 0x3C 4
    need := s.needOf ss.cfg ss.plan }

/-- Accepts a picture into a session: it reads the buffers it names and asks for its need (R193, R310). -/
def State.addPicture (s : State) (i : Nat) (p : Picture) : State :=
  let s := { s with accepted := s.accepted + 1 }
  s.updSession i (fun ss => ({ ss with pics := ss.pics ++ [p] } : Session).readBufs p)

/-- PICTURE: hands an encoder a picture slot. -/
def execPicture (dt : Nat) (p : Port) (k : Slot) (s : State) : Result :=
  s.sessionRow dt p k 0x30 neverLate (fun s req =>
    let i := sessOf req
    s.sessionChecked p.val k.val i
      (s.ownerChecks p.val k.val (pictureLayout req) ++ pictureChecks req ++
        [s.wrongState i [.running], s.staleGen i (leAt req 2 2) 2] ++ s.pictureOwn i req)
      (fun s =>
        let q := s.pictureOf i req
        let s := s.addPicture i q
        let s := s.updSession i (fun ss => { ss with needRap := ss.needRap && !q.rap, captures := ss.captures ++ [(q.tCapture, q.poc)] })
        (s.requestNeed i q.order q.need).answerFor p.val k.val i {}))

/-! ## The decode watchdog's clock (R253) -/

/-- The watchdog stops counting, or counts again. -/
def Picture.pauseWatch (p : Picture) (t : Nat) : Picture :=
  match p.wdFrom with
  | some f => { p with wdUsed := p.wdUsed + (t - f), wdFrom := none }
  | none => p
def Picture.resumeWatch (p : Picture) (t : Nat) : Picture := if p.wdFrom.isSome then p else { p with wdFrom := some t }

/-- The picture group lacks rows and the session holds no unparsed byte: input starvation. -/
def Session.starved (ss : Session) : Bool := ss.dec.group.isSome && ss.dec.input.all (fun b => b.bytes.isEmpty)

/-- Sets every decode picture's watchdog: it stops while the session starves or the in-flight limit holds the picture. -/
def Session.setWatch (ss : Session) (t : Nat) : Session :=
  if ss.cfg.kind = 2 then { ss with pics := ss.pics.map (fun p => if ss.starved || p.limited then p.pauseWatch t else p.resumeWatch t) } else ss

/-! ## Phase 1 (R180, R211) -/

/-- Pictures in flight in the module (R211). -/
def State.inFlightAll (s : State) : Nat := (s.sessions.map (fun e => (e.2.pics.filter (·.phase1)).length)).sum

/-- A picture's inputs of phase 1 are ready: an encoder's prediction whole, a decoder's hyper-latents decoded. -/
def Session.phase1Inputs (ss : Session) (p : Picture) : Bool :=
  if ss.cfg.kind = 1 then decide (p.predicted = ss.fmt.cbRows) else p.picDone

/-- A picture may enter phase 1 but for the in-flight limit and the record ring: its session runs, its cores are free, it is
the next in order, and no re-cut waits for the cores (R180, R305). -/
def Session.phase1Due (ss : Session) (p : Picture) : Bool :=
  (decide (ss.st = .running) || decide (ss.st = .draining)) && isVideoKind ss.cfg.kind && ss.recut.isNone && !p.phase1 && p.granted && !p.wholeConcealed &&
    ss.phase1Inputs p && ss.pics.all (fun q => !q.phase1 && (decide (q.order = p.order) || decide (p.order < q.order)))

/-- Some other picture accepted earlier waits for the last place in flight (R211). -/
def State.earlierWaits (s : State) (order : Nat) : Bool :=
  s.sessions.any (fun e => e.2.pics.any (fun q => decide (q.order < order) && e.2.phase1Due q && s.recRoom e.1 && e.2.recHeld.isEmpty))

/-- The in-flight limit holds a picture back: 64 pictures in flight, or one place left and an earlier picture waiting for it. -/
def State.limitHolds (s : State) (order : Nat) : Bool :=
  decide (64 ≤ s.inFlightAll) || (decide (s.inFlightAll = 63) && s.earlierWaits order)

/-- What phase 1 gives a picture (R177, R178). -/
def State.phase1Result (s : State) (i : Nat) (p : Picture) : Picture :=
  let m := s.videoModel i
  if (s.session i).cfg.kind = 1 then m.analyse p else m.scale p

/-- Phase 1 starts. Its results stand in the picture from the start; the lanes take the hyper-latents' symbols from there (log entry 67). -/
def State.startPhase1 (s : State) (i : Nat) (poc : W32) (loads : List CoreLoad) : State :=
  let s := s.updSession i (fun ss => { (ss.updPic poc (fun p =>
    { s.phase1Result i p with phase1 := true, limited := false, tStart := s.time, substreams := [] })) with picTrouble := false })
  (s.applyLoads i loads).updSession i (fun ss => ss.setWatch s.time)

/-- The programs that the firmware loads for a phase pass its checks (R161). -/
def State.loadsPass (s : State) (i : Nat) (loads : List CoreLoad) : Bool := (s.programRefused (s.session i).plan false loads).isNone

/-- PHASE1_START. A full record ring or the in-flight limit keeps the picture waiting (R211, R333); a picture whose PIC unit fell
to its floor has hyper-synthesis and the probability model run again (R205). -/
def execPhase1Start (dt : Nat) (sess : SessionIx) (poc : W32) (loads : List CoreLoad) (s : State) : Result :=
  s.event dt (fun s => s.power.running && s.loadsPass sess.val loads &&
      picReady ((s.session sess.val).pic poc) (fun p => (s.session sess.val).phase1Due p || (p.phase1 && p.probRerun)))
    (fun s =>
      let i := sess.val
      match (s.session i).pic poc with
      | none => s
      | some p =>
        if p.phase1 then
          (s.updSession i (fun ss => ss.updPic poc (fun q => { (s.videoModel i).scale q with probRerun := false }))).applyLoads i loads
        else if !(s.session i).recHeld.isEmpty || !s.recRoom i then s.recordStall i
        else if s.limitHolds p.order then
          if (s.session i).cfg.kind = 2 then s.updSession i (fun ss => (ss.updPic poc (fun q => { q with limited := true })).setWatch s.time) else s
        else s.startPhase1 i poc loads)

/-! ## Committing units (R181, R233, R287) -/

/-- Appends bytes to a session's stream. -/
def State.appendStream (s : State) (i : Nat) (bs : Bytes) : State := s.outPut i (s.session i).outCursor bs

/-- Commits unit `n` of a picture at its place, with the AUD units an earlier run placed after it (R181, R287). -/
def State.commitUnit (s : State) (i : Nat) (poc : W32) (n : Nat) (bs : Bytes) : State :=
  match (s.session i).pic poc with
  | none => s
  | some p =>
    let all := bs ++ (p.audPlaced.filter (fun a => decide (a.1 = n))).flatMap (·.2)
    (s.outPut i (p.outStart + p.written) all).updSession i (fun ss => ss.updPic poc (fun q => { q with written := q.written + all.length }))

/-- Attached audio encode sessions of a video session, in index order (R274). -/
def State.attachedTo (s : State) (v : Nat) : List (Nat × Session) :=
  s.sessions.filter (fun e => e.2.bound && decide (e.2.cfg.attach = some v))

/-- Models of the coded sequence a video session opens: its own as 0, those of its attached audio sessions from 1 on. -/
def State.sequenceModels (s : State) (i : Nat) : List (Nat × Nat × Nat × Bytes) :=
  let m := s.sessionModel (s.session i)
  let audio := (((s.attachedTo i).filter (fun e => decide (e.2.cfg.kind = 3))).map (fun e => let a := s.sessionModel e.2; (a.recipe, a.hash))).eraseDups.take 7
  (0, m.recipe, 1, m.hash) :: ((List.range audio.length).zip audio).map (fun x => (x.1 + 1, x.2.1, 2, x.2.2))

/-- MDL units of a list of models. -/
def mdlUnits (l : List (Nat × Nat × Nat × Bytes)) : Bytes := l.flatMap (fun m => unitBytes tMDL (mdlPayload m.1 m.2.1 m.2.2.1 m.2.2.2))

def endUnit : Bytes := unitBytes tEND [0x80]

/-- END clears every SHORT and LONG reference (R226). -/
def Session.clearRefs (ss : Session) : Session :=
  { ss with bufs := ss.bufs.map (fun b => if b.mark = 1 ∨ b.mark = 2 then { b with mark := 0 } else b) }

/-- A picture opens a coded sequence (R226). -/
def Picture.opens (p : Picture) (ss : Session) : Bool := p.rap || !ss.sequenceOpen

/-- Opens a picture's place in the stream: a random-access point, and any picture with no coded sequence open, is preceded by MDL
and SEQ, and END closes a coded sequence that is still open (R225, R226). -/
def State.beginPicture (s : State) (i : Nat) (p : Picture) : State :=
  if p.began then s
  else
    let ss := s.session i
    let fresh := p.opens ss
    let mdls := s.sequenceModels i
    let head := (if fresh && ss.sequenceOpen then endUnit else []) ++
      (if fresh then mdlUnits mdls ++ unitBytes tSEQ (seqPayload ss.cfg.fmt 0) else [])
    let s := s.updSession i (fun x =>
      let x := if fresh && x.sequenceOpen then x.clearRefs else x
      let x := if fresh then { x with dec := { x.dec with mdls := mdls, seq := some x.cfg.fmt } } else x
      let x := if fresh && p.refs.isEmpty then { x with rapOrder := p.order } else x
      x.updPic p.poc (fun q => { q with began := true, outStart := x.outCursor, head := head }))
    if fresh then
      { s with sessions := Tab.mapAll {} s.sessions (fun _ x =>
          if x.cfg.attach = some i && decide (x.cfg.kind = 3) then
            { x with groups := Tab.mapAll {} x.groups (fun _ g => { g with seen := g.seen && g.busy && g.coded }) }
          else x) }
    else s

/-- Accepted pictures whose first byte is still to come and that will open a coded sequence (R226). -/
def Session.freshPics (ss : Session) : List Picture :=
  (ss.pics.foldl (fun (a : List Picture × StreamEnd) q =>
      (if (q.rap || !a.2.isOpen) && !q.began then a.1 ++ [q] else a.1, a.2.step q))
    ([], { seqFrom := 0, point := 0, isOpen := ss.sequenceOpen })).1

/-- An attached AUD that is no reset frame and whose sync picture's PIC is committed: it goes ahead of a random-access point (R283, R287). -/
def State.audAhead (s : State) (v : Nat) : Bool :=
  (s.attachedTo v).any (fun e => decide (e.2.cfg.kind = 3) && e.2.groups.any (fun x =>
    x.2.busy && x.2.coded && !x.2.reset && (decide (x.2.syncPoc = 0xFFFFFFFF) || ((s.session v).pic x.2.syncPoc).all (·.picDone))))

/-- Every substream of the unit is coded. -/
def Session.unitCoded (ss : Session) (p : Picture) : Bool := decide (p.substreams.length = p.subCount ss.plan)

/-- The coded substreams in index order. -/
def Picture.subsInOrder (p : Picture) : List Bytes :=
  (List.range p.substreams.length).map (fun j => ((p.substreams.find? (fun x => x.1 = j)).map (·.2)).getD [])

/-- PIC_COMMIT: the PIC unit is committed; in `hyper_floor` form when its coded form leaves no room for floor rows (R205). -/
def execPicCommit (dt : Nat) (sess : SessionIx) (poc : W32) (s : State) : Result :=
  s.event dt (fun s => s.streamServes sess.val && picReady (s.session sess.val).codingPic (fun p =>
      decide (p.poc = poc) && !p.picDone && (s.session sess.val).unitCoded p && (s.session sess.val).outHeld.isEmpty &&
        (p.began || !p.opens (s.session sess.val) || !s.audAhead sess.val)))
    (fun s =>
      let i := sess.val
      match (s.session i).pic poc with
      | none => s
      | some p =>
        let s := s.beginPicture i p
        let p := ((s.session i).pic poc).getD p
        let rows := (s.session i).fmt.cbRows
        let h := hPic p.poc p.refs p.marks p.nonref
        let full := unitBytes tPIC (picPayload p.poc p.refs p.marks p.nonref p.subsInOrder)
        let floor := decide (p.cap < full.length + 16 * rows)
        let unit := if floor then unitBytes tPIC (picPayload p.poc p.refs p.marks p.nonref []) else full
        let hyper := unit.length - h
        let s := s.updSession i (fun ss => ss.updPic poc (fun q => { q with
          picDone := true, hyperFloor := floor, probRerun := floor, hyperBytes := hyper, bytes := unit.length, substreams := []
          room := (q.cap : Int) - (h : Int) - (hyper : Int) - 16 * (rows : Int) }))
        s.commitUnit i poc 0 (p.head ++ unit))

/-! ## Gain allocation (R202) -/

/-- One step of the allocation: CB `c` rises to `level` when the estimate stays within the target. -/
def gainStep (est : List (List Int)) (target : Int) (level : Nat) (g : List Nat × Int) (c : Nat) : List Nat × Int :=
  let e := est.getD c []
  let next := g.2 - e.getD (level - 1) 0 + e.getD level 0
  if g.1.getD c 0 + 1 = level && decide (next ≤ target) then (g.1.set c level, next) else g

/-- Gain levels per CB: from the scores, the estimates, the target T, the PIC unit's bytes h, over n CBs. -/
def allocGains (scores : List W32) (est : List (List Int)) (t h n : Nat) : List Nat :=
  let ranked := ((List.range n).map (fun c => (c, fp32.decode (scores.getD c 0).toNat))).foldl (fun l x => insertRanked true x l) []
  let top := (ranked.take (min 1024 n)).map (·.1)
  let order := top ++ (List.range n).filter (fun c => !top.contains c)
  let start := ((List.range n).map (fun c => (est.getD c []).getD 0 0)).sum
  ([1, 2, 3].foldl (fun g level => order.foldl (gainStep est ((t - h : Nat) : Int) level) g) (List.replicate n 0, start)).1

/-- GAIN_ALLOCATION: once the PIC unit is committed and the scores are sorted; the latents are then multiplied and quantised (R177, R202). -/
def execGainAllocation (dt : Nat) (sess : SessionIx) (poc : W32) (s : State) : Result :=
  s.event dt (fun s => s.power.running && picReady (s.session sess.val).codingPic (fun p =>
      decide (p.poc = poc) && p.picDone && !p.probRerun && !p.gainsDone))
    (fun s => s.updSession sess.val (fun ss => ss.updPic poc (fun p =>
      let m := s.videoModel sess.val
      m.quantise { p with gains := allocGains p.scores p.estimates p.target p.bytes m.cbs, gainsDone := true })))

/-! ## Rows and phase 2 (R180, R199, R203, R204, R206) -/

/-- PHASE2_START: an encoder's once the QUANT of the latents is done on every core and no row has fallen, a decoder's once every row is
decoded and predicted (R180). -/
def execPhase2Start (dt : Nat) (sess : SessionIx) (poc : W32) (loads : List CoreLoad) (s : State) : Result :=
  s.event dt (fun s => s.power.running && picReady ((s.session sess.val).pic poc) (fun p =>
      let ss := s.session sess.val
      s.loadsPass sess.val loads && p.phase1 && decide (p.phase2 = 0) && (if ss.cfg.kind = 1 then p.gainsDone && !p.floored && s.coresDone sess.val
        else decide (p.decoded = ss.fmt.cbRows) && decide (p.predicted = ss.fmt.cbRows))))
    (fun s => (s.updSession sess.val (fun ss => ss.updPic poc (fun p => { p with phase2 := 1 }))).applyLoads sess.val loads)

/-- The next row of a picture can be committed. -/
def Session.rowReady (ss : Session) (p : Picture) : Bool :=
  p.picDone && p.gainsDone && ss.outHeld.isEmpty && decide (p.rowsCommitted < ss.fmt.cbRows) && (p.floored || ss.unitCoded p)

/-- ROW_COMMIT: the next row is committed as coded when it fits, else it and every later row in floor mode (R203). -/
def execRowCommit (dt : Nat) (sess : SessionIx) (poc : W32) (s : State) : Result :=
  s.event dt (fun s => s.streamServes sess.val && picReady (s.session sess.val).codingPic (fun p => decide (p.poc = poc) && (s.session sess.val).rowReady p))
    (fun s =>
      let i := sess.val
      match (s.session i).pic poc with
      | none => s
      | some p =>
        let r := p.rowsCommitted
        let full := unitBytes tROW (rowPayload r p.poc p.subsInOrder)
        let fits := !p.floored && decide ((full.length : Int) - 16 ≤ p.room)
        let unit := if fits then full else unitBytes tROW (floorRowPayload r p.poc)
        let stops := !fits && decide (p.phase2 = 1)
        let s := s.updSession i (fun ss => ss.updPic poc (fun q => { q with
          rowsCommitted := r + 1, bytes := q.bytes + unit.length, substreams := []
          room := if fits then q.room - ((full.length : Int) - 16) else q.room
          floored := q.floored || !fits, rowsFloor := if fits then q.rowsFloor else q.rowsFloor ++ [r]
          phase2 := if stops then 2 else q.phase2 }))
        let s := if stops then s.cancelCores i (s.planCores (s.session i).plan) else s
        s.commitUnit i poc (r + 1) unit)

/-- The predictor re-forms the floor rows with the motion they inherit (R204, R206); the motion found for them is kept, for a re-run
codes the same bits (R181). -/
def Session.reformFloor (ss : Session) (channels : Nat) (p : Picture) : Picture :=
  let f := ss.fmt
  let refs := (ss.refPics p).getD []
  let q := p.rowsFloor.foldl (fun q r =>
    let m := inheritRow f q.motion r ((nearestAbove p.rowsFloor r).map (fun a => 4 * a + 3))
    Picture.formRow f channels refs r { q with motion := m }) p
  { q with motion := p.motion }

/-- PHASE2_RERUN: after the floor rows are predicted anew, phase 2 runs again with the context network (R206). -/
def execPhase2Rerun (dt : Nat) (sess : SessionIx) (poc : W32) (loads : List CoreLoad) (s : State) : Result :=
  s.event dt (fun s => s.power.running && s.loadsPass sess.val loads && picReady (s.session sess.val).codingPic (fun p =>
      decide (p.poc = poc) && p.floored && decide (p.rowsCommitted = (s.session sess.val).fmt.cbRows) && (decide (p.phase2 = 0) || decide (p.phase2 = 2))))
    (fun s =>
      let ch := s.carryChannels sess.val
      (s.updSession sess.val (fun ss => ss.updPic poc (fun p => { ss.reformFloor ch p with phase2 := 3, synthRerun := true }))).applyLoads sess.val loads)

/-! ## Marking (R191, R192) -/

/-- What the marking process works on: the picture's own buffer, the others, the library, the index written, and the
UNUSED marks that name nothing held. -/
structure Marking where
  self : FrameBuf
  others : List FrameBuf
  lib : Tab LibEntry
  libIndex : Option Nat
  missing : List Mark
  deriving DecidableEq, Repr

def FrameBuf.libEntry (b : FrameBuf) : LibEntry :=
  { held := false, recon := b.recon, carry := b.carry, thumbnail := b.levels.getD 2 [], signature := b.signature, tainted := b.tainted, writing := true, order := b.order }

/-- One marking command of R232. -/
def Marking.apply (x : Marking) (m : Mark) : Marking :=
  let j := m.arg.toNat
  if m.op = 1 then
    { x with others := x.others.map (fun b => if b.mark = 2 ∧ b.index = j then { b with mark := 0 } else b)
             self := { x.self with mark := 2, index := j } }
  else if m.op = 2 then
    { x with self := { x.self with mark := 3, index := j, markOff := m.off }, lib := Tab.set {} x.lib j x.self.libEntry, libIndex := some j }
  else if m.op = 3 then
    if x.self.poc = m.arg then { x with self := { x.self with mark := 0 } }
    else if x.others.any (fun b => decide (b.poc = m.arg) && decide (b.mark ≠ 0)) then
      { x with others := x.others.map (fun b => if b.poc = m.arg then { b with mark := 0 } else b) }
    else { x with missing := x.missing ++ [m] }
  else x

/-- The SHORT buffer with the earliest POC (R194). -/
def earliestShort (bufs : List FrameBuf) : Option FrameBuf :=
  (bufs.filter (fun b => b.mark = 1)).foldl (fun best b =>
    match best with
    | none => some b
    | some a => if precedes 32 b.poc.toNat a.poc.toNat then some b else some a) none

/-- The sliding window (R192). -/
def slideWindow (maxShort : Nat) : Nat → List FrameBuf → List FrameBuf
  | 0, bufs => bufs
  | n + 1, bufs =>
    let short := (bufs.filter (fun b => b.mark = 1)).length
    let long := (bufs.filter (fun b => b.mark = 2)).length
    if maxShort < short || 8 < short + long then
      match earliestShort bufs with
      | none => bufs
      | some a => slideWindow maxShort n (bufs.map (fun b => if b.poc = a.poc ∧ b.order = a.order then { b with mark := 0 } else b))
    else bufs

/-- The marking process on a new buffer. -/
def markProcess (maxShort : Nat) (nonref : Bool) (marks : List Mark) (self : FrameBuf) (others : List FrameBuf) (lib : Tab LibEntry) : Marking :=
  if nonref then { self := { self with mark := 0 }, others := others, lib := lib, libIndex := none, missing := [] }
  else
    let x := marks.foldl Marking.apply { self := { self with mark := 1 }, others := others, lib := lib, libIndex := none, missing := [] }
    let all := slideWindow maxShort (x.others.length + 2) (x.others ++ [x.self])
    { x with others := all.dropLast, self := all.getLastD x.self }

/-! ## The end of a picture (R173, R200, R207, R208, R259, R269, R311) -/

/-- The carry feature as a frame buffer keeps it: pressed at the header's rate when the press bit is set (R200). -/
def SeqFmt.keepCarry (f : SeqFmt) (carry : List (List (List W16))) : List (List (List W16)) :=
  if !f.pressed then carry
  else
    let flat := carry.flatMap (fun r => r.flatMap (fun c => c.flatMap (fun v => natLE 2 v.toNat)))
    let back := bfValues (((unpressBytes f.press4 (pressBytes f.press4 flat).1 flat.length).map (·.1)).getD flat)
    let w := (carry.headD []).length
    let ch := ((carry.headD []).headD []).length
    (List.range carry.length).map (fun y => (List.range w).map (fun x => (List.range ch).map (fun c =>
      BitVec.ofNat 16 (back.getD ((y * w + x) * ch + c) 0))))

/-- Overwrites the concealed rows with the prediction and the carry gather (R259). -/
def Picture.replaceConcealed (p : Picture) (f : SeqFmt) (recon : List Plane) (carry : List (List (List W16))) :
    List Plane × List (List (List W16)) :=
  p.concealed.foldl (fun x r =>
    ((List.range 3).map (fun k =>
        let n := 64 / f.planeSubY k
        putRows (x.1.getD k []) n r (((p.pred.getD k []).drop (r * n)).take n)),
      putRows x.2 16 r ((p.carryGather.drop (16 * r)).take 16))) (recon, carry)

/-- Writes the cropped picture to an output slot (R173). -/
def State.writeSlotPlanes (s : State) (f : SeqFmt) (planes : List Plane) (slot : W32 × List W64 × Nat × Nat) : State :=
  (List.range 3).foldl (fun s k =>
    let pitch := if k = 0 then slot.2.2.1 else slot.2.2.2
    let base := (slot.2.1.getD k 0).toNat
    (List.range (f.height / f.planeSubY k)).foldl (fun s y =>
      s.storeForm (base + y * pitch) (rowBytes f.bitDepth (((planes.getD k []).getD y []).take (f.width / f.planeSubX k)))) s) s

/-- A decoder's picture goes to the next output slot, in decode order (R337). -/
def State.outputPicture (s : State) (i : Nat) (planes : List Plane) : State :=
  let ss := s.session i
  match ss.dec.outSlots with
  | [] => s
  | o :: rest =>
    (s.writeSlotPlanes ss.fmt planes o).updSession i (fun x => { x with dec := { x.dec with outSlots := rest } })

/-- A picture is tainted (R269). -/
def Session.taints (ss : Session) (p : Picture) : Bool :=
  !p.concealed.isEmpty || p.wholeConcealed || p.refs.any (fun r => r.replaced.isSome) ||
    p.refs.any (fun r => if r.kind = 0 then (ss.bufFor p.poc r.id).any (·.tainted) else p.staged.any (fun e => decide (e.1 = r.id.toNat) && e.2.tainted))

/-- `flags` of R208. -/
def Picture.flags (p : Picture) (trouble : Bool) : Nat :=
  b2n (!p.rowsFloor.isEmpty) + 2 * b2n p.hyperFloor + 4 * b2n p.synthRerun + 8 * b2n p.rerun + 16 * b2n p.greyRef +
    32 * b2n (!p.concealed.isEmpty || p.hyperLost || p.wholeConcealed) + 64 * b2n trouble

/-- The 64-byte picture record (R207). -/
def Picture.record (p : Picture) (f : SeqFmt) (gen t libIndex : Nat) (trouble : Bool) : Bytes :=
  let lost := if p.wholeConcealed then f.cbRows else p.rowsFloor.length + p.concealed.length
  natLE 4 p.tag.toNat ++ natLE 4 p.poc.toNat ++ natLE 4 p.bytes ++ natLE 4 p.hyperBytes ++ natLE 2 (f.cbRows - lost) ++
    natLE 2 p.rowsFloor.length ++ natLE 4 (p.flags trouble) ++ natLE 8 p.tStart ++ natLE 8 t ++ natLE 2 libIndex ++ natLE 2 gen ++ zeros 20

/-- The new frame buffer of a picture, read by the accepted pictures that list it (R193). A decoder has no source picture: the thumbnail and
signature of its library entries are those of the reconstruction (R195; DESIGN CHOICE, log entry 44). -/
def State.newBuffer (s : State) (i : Nat) (p : Picture) (recon : List Plane) (carry : List (List (List W16))) : FrameBuf :=
  let ss := s.session i
  let f := ss.fmt
  let encode := isEncodeKind ss.cfg.kind
  let thumb := if encode then p.levels.getD 2 [] else shrink4 (shrink4 (recon.getD 0 []))
  { poc := p.poc, tag := p.tag, mark := 1, index := 0, order := p.order, recon := recon, carry := carry
    levels := if encode then [p.source.getD 0 [], p.levels.getD 1 [], p.levels.getD 2 []] else [[], [], thumb]
    signature := signatureOf f.bitDepth thumb
    tainted := ss.taints p
    readers := (ss.pics.filter (fun q => decide (p.order < q.order) && q.refs.any (fun r => decide (r.kind = 0) && decide (r.id = p.poc)))).map (·.poc)
    bytes := f.frameBytes encode (s.carryChannels i) }

/-- Reports UNUSED marks that name nothing the decoder holds (R265). -/
def State.reportMarks (s : State) (i : Nat) (p : Picture) (missing : List Mark) : State :=
  if isEncodeKind (s.session i).cfg.kind then s
  else missing.foldl (fun s m => s.report i { tag := p.tag, cause := 5, unitType := 0x50, action := 8, poc := p.poc, offset := m.off }) s

/-- An encoder's units after a picture: the LIB CHECK of its library entry, and END (R237, R339). -/
def State.afterPicture (s : State) (i : Nat) (p : Picture) (recon : List Plane) (libIndex : Option Nat) : State :=
  if !isEncodeKind (s.session i).cfg.kind then s
  else
    let s := match libIndex with
      | some j => if p.check then s.appendStream i (unitBytes tLIB (libCheckPayload j (libCheck (s.session i).fmt.bitDepth recon))) else s
      | none => s
    if p.endAfter then
      (s.appendStream i endUnit).updSession i (fun ss => { ss.clearRefs with dec := { ss.dec with mdls := [], seq := none } })
    else s

/-- Ends a picture: buffer, marks, output, working set returned, record (R192, R207, R311). -/
def State.finishPicture (s : State) (i : Nat) (p : Picture) (recon : List Plane) (carry : List (List (List W16))) (trouble : Bool) : State :=
  let ss := s.session i
  let f := ss.fmt
  let b := s.newBuffer i p recon carry
  let x := markProcess f.maxShort p.nonref p.marks b ss.bufs ss.lib
  let s := s.reportMarks i p x.missing
  let s := s.outputPicture i recon
  let s := s.updSession i (fun ss => { ss with
    bufs := x.others ++ [x.self], lib := x.lib, charge := ss.charge - p.need + b.bytes, picTrouble := false })
  let s := if b.tainted then s.count i cTainted 1 else s
  let s := if !p.concealed.isEmpty || p.hyperLost || p.wholeConcealed then s.count i cConcealed 1 else s
  let s := s.afterPicture i p recon x.libIndex
  let s := s.updSession i (fun ss => ({ ss with pics := ss.pics.filter (fun q => q.poc ≠ p.poc) } : Session).unread p.poc)
  s.ringPut i 1 (p.record f ss.gen s.time (x.libIndex.getD 0xFFFF) trouble)

/-- The records of a session's cores, collected before a picture's record says whether a counter of R62 was reported (R208, R335). -/
def State.collectCores (s : State) (i : Nat) : State := (s.planCores (s.session i).plan).foldl (fun s x => s.collect x.1 x.2) s

/-- PHASE2_DONE: the programs of the phase are done, the frame buffer is written, marking applies and the picture record is written. An
encoder's picture is synthesised from what its decoder has (R199). -/
def execPhase2Done (dt : Nat) (sess : SessionIx) (poc : W32) (s : State) : Result :=
  s.event dt (fun s => s.power.running && s.coresDone sess.val && picReady ((s.session sess.val).pic poc) (fun p =>
      let ss := s.session sess.val
      if ss.cfg.kind = 1 then decide (p.rowsCommitted = ss.fmt.cbRows) && ss.outHeld.isEmpty && (decide (p.phase2 = 3) || (decide (p.phase2 = 1) && !p.floored))
      else decide (p.phase2 = 1)))
    (fun s =>
      let i := sess.val
      let s := s.collectCores i
      match (s.session i).pic poc with
      | none => s
      | some p =>
        let f := (s.session i).fmt
        let made := (s.videoModel i).synthesise p
        let (recon, carry) := p.replaceConcealed f made.1 made.2
        s.finishPicture i p recon (f.keepCarry carry) (s.session i).picTrouble)

/-! ## Buffers and library writes (R193, R197, R311) -/

/-- The UNUSED buffer of a POC that no picture in flight reads. -/
def Session.releasable (ss : Session) (poc : W32) : Option FrameBuf :=
  ss.bufs.find? (fun b => decide (b.poc = poc) && decide (b.mark = 0) && b.readers.isEmpty)

/-- FRAME_BUFFER_RELEASE: the buffer's space returns to the pool. -/
def execFrameBufferRelease (dt : Nat) (sess : SessionIx) (poc : W32) (s : State) : Result :=
  s.event dt (fun s => s.power.running && ((s.session sess.val).releasable poc).isSome)
    (fun s => s.updSession sess.val (fun ss =>
      match ss.releasable poc with
      | none => ss
      | some b => { ss with bufs := ss.bufs.erase b, charge := ss.charge - b.bytes }))

/-- Reports a library write that failed on the CXL port (R265). -/
def State.reportWriteFail (s : State) (i index : Nat) : State :=
  if isEncodeKind (s.session i).cfg.kind then s
  else
    let b := (s.session i).bufs.find? (fun b => decide (b.mark = 3) && decide (b.index = index))
    (s.count i cLibMissing 1).report i
      { tag := (b.map (·.tag)).getD 0, cause := 4, unitType := 0x50, action := 8, poc := (b.map (·.poc)).getD 0xFFFFFFFF
        offset := (b.map (·.markOff)).getD 0 }

/-- LIBRARY_WRITE_COMPLETE: the entry holds the picture, or stays empty where the write failed; the buffer becomes UNUSED. -/
def execLibraryWriteComplete (dt : Nat) (sess : SessionIx) (index : Nat) (ok : Bool) (s : State) : Result :=
  s.event dt (fun s => s.power.running && (Tab.get {} (s.session sess.val).lib index).writing)
    (fun s =>
      let i := sess.val
      let good := ok && s.cxlServes (s.session i).plan.cxlPort
      let s := if good then s else s.reportWriteFail i index
      s.updSession i (fun ss => { ss with
        lib := Tab.upd {} ss.lib index (fun e => if good then { e with held := true, writing := false } else {})
        bufs := ss.bufs.map (fun b => if b.mark = 3 ∧ b.index = index then { b with mark := 0 } else b) }))

end Sys2Proof.Machine
end

