-- ==== Sys2Proof/Machine/Tutik.lean ====
section
/-! DEFINITION. The decoder's stream: its slots (R337, R456), the units it takes (R222 to R238, R247), and what it does with damaged
and incomplete streams (R251 to R273). One picture of a decode session is decoded at a time: a unit that waits for the picture
before it stays in the input. -/

namespace Sys2Proof.Machine

/-! ## Places in a stream -/

/-- What a failed check says of a unit: class, stream offset and payload offset of the error, and whether the unit is too short. -/
structure Damage where
  cls : Nat
  offset : Nat
  pos : Nat
  short : Bool
  deriving DecidableEq, Repr

/-- Stream offset of a payload position (R223). -/
def Payload.at (p : Payload) (pos : Nat) : Nat := p.map.getD (min pos p.len) 0

/-- The first error of a unit in byte order: an unguarded session looks only at the bounds of R252 (R255, R258). Of an oversized unit the
decoder has seen the bytes up to the bound, so it finds there no length that the payload falls short of. -/
def Payload.damage (p : Payload) (guarded : Bool) (bads : List Bad) : Option Damage :=
  let all := if p.tooLong then bads.filter (fun b => !b.short) ++ [{ cls := clBadUnit, pos := p.len, bound := true }] else bads
  let found := (firstBad (if guarded then all else all.filter (·.bound))).map (fun b =>
    { cls := b.cls, offset := p.at b.pos, pos := b.pos, short := b.short : Damage })
  match (if guarded then p.emulation else none) with
  | none => found
  | some e =>
    let em : Damage := { cls := clBadEmulation, offset := e, pos := (p.map.filter (fun o => decide (o < e))).length, short := false }
    match found with
    | none => some em
    | some d => if d.offset < e then some d else some em

/-- `cause` of a damaged unit's report (R271). -/
def Damage.cause (d : Damage) : Nat := if d.short then 2 else 1

/-- Types of the units whose start codes stand in some bytes. -/
def unitTypes : Bytes → List Nat
  | [] => []
  | a :: rest =>
    match rest with
    | b :: c :: t :: _ => if a = 0 && b = 0 && c = 1 then t.toNat :: unitTypes rest else unitTypes rest
    | _ => []

/-- Units that end a picture group (R225). -/
def endsGroup (t : Nat) : Bool := [tPIC, tMDL, tSEQ, tLIB, tEND].contains t

def isExtension (t : Nat) : Bool := decide (0x60 ≤ t) && decide (t ≤ 0x7F)

/-- With `n` rows still to come, the picture group is complete within the units that follow. -/
def groupEnd (ended : Bool) : Nat → List Nat → Bool
  | _, [] => ended
  | 0, _ :: _ => true
  | n + 1, t :: ts => if t = tROW then groupEnd ended n ts else endsGroup t || groupEnd ended (n + 1) ts

/-- The end of the data is the end of the stream (R254). -/
def Session.ended (ss : Session) : Bool := decide (ss.st = .draining)

/-- A picture group is being taken. -/
def Session.groupOpen (ss : Session) : Bool := ss.dec.group.isSome && decide (ss.dec.nextRow < ss.fmt.cbRows)

/-- A unit that ended a picture group early stands next: it is in its place (R225). -/
def Session.groupCut (ss : Session) : Bool := ss.dec.group.isSome && !ss.groupOpen

/-- The picture group being taken is complete in the pool, or truncated (R310). -/
def Session.groupComplete (ss : Session) : Bool :=
  !ss.groupOpen || groupEnd ss.ended (ss.fmt.cbRows - ss.dec.nextRow) (unitTypes ss.dec.bytes)

def State.updDec (s : State) (i : Nat) (f : Decoder → Decoder) : State := s.updSession i (fun ss => { ss with dec := f ss.dec })

/-! ## Loss of pictures and rows (R225, R255, R258 to R260) -/

/-- A picture is dropped (R255): its output slot is returned unwritten and a report takes the place of its record. -/
def State.dropPicture (s : State) (i : Nat) (poc : W32) (r : Report) : State :=
  let s := (s.report i { r with action := 3, poc := poc }).count i cDropped 1
  let s := match (s.session i).pic poc with
    | some p => s.dropGrants i (some p.order)
    | none => s
  s.updSession i (fun ss => { ss.dropPic poc with
    dec := { ss.dec with group := none, lostPic := true, outSlots := ss.dec.outSlots.drop 1 } })

/-- Rows of the group's picture are concealed in place (R259). -/
def State.concealRows (s : State) (i : Nat) (poc : W32) (row n : Nat) : State :=
  (s.updSession i (fun ss => ss.updPic poc (fun p =>
    { p with concealed := p.concealed ++ (List.range n).map (row + ·), decoded := p.decoded + n }))).count i cRowsConcealed n

/-- A picture group ends before its last row (R225): its missing rows are the error, and it is resolved under R255 or R258. -/
def State.truncateGroup (s : State) (i : Nat) (tag : W32) (offset : Nat) : State :=
  let ss := s.session i
  match ss.dec.group with
  | none => s
  | some poc =>
    let row := ss.dec.nextRow
    let n := ss.fmt.cbRows - row
    let rep : Report := { tag := tag, cause := 2, cls := clBadOrder, unitType := tROW, action := 4, poc := poc, row := row, count := n, offset := offset }
    let s := s.count i cSyntax 1
    let s := if s.guarded i then (s.report i rep).concealRows i poc row n else s.dropPicture i poc rep
    s.updDec i (fun d => { d with group := some poc, nextRow := ss.fmt.cbRows, lostPic := false })

/-- Serial distance of two POCs (R264). -/
def pocDistance (a b : W32) : Nat := min (serialGap 32 a.toNat b.toNat) (serialGap 32 b.toNat a.toNat)

/-- The held SHORT or LONG picture nearest to a POC; a tie goes to the one that precedes it (R264). -/
def Session.nearestHeld (ss : Session) (poc : W32) : Option FrameBuf :=
  (ss.bufs.filter (fun b => decide (b.mark = 1) || decide (b.mark = 2))).foldl (fun best b =>
    match best with
    | none => some b
    | some a =>
      if pocDistance b.poc poc < pocDistance a.poc poc then some b
      else if decide (pocDistance b.poc poc = pocDistance a.poc poc) && precedes 32 b.poc.toNat poc.toNat then some b
      else some a) none

/-- Planes and carry feature of a whole concealed picture (R260). -/
def Session.wholeCopy (ss : Session) (poc : W32) : List Plane × List (List (List W16)) :=
  let f := ss.fmt
  match ss.nearestHeld poc with
  | some b => (b.recon, b.carry)
  | none =>
    ((List.range 3).map (fun k => List.replicate (f.codedH / f.planeSubY k) (List.replicate (f.codedW / f.planeSubX k) f.grey)), [])

/-- A lost picture is output as a concealed one: marked SHORT, no marks applied, the sliding window runs (R260). -/
def State.concealWhole (s : State) (i : Nat) (p : Picture) : State :=
  let (recon, carry) := (s.session i).wholeCopy p.poc
  s.finishPicture i { p with hyperLost := false, concealed := [], rowsFloor := [], marks := [], nonref := false, bytes := 0, hyperBytes := 0 }
    recon carry (s.session i).picTrouble

/-- A lost picture waits for its need in its turn (R310); once granted it is output. -/
def State.settleLost (s : State) (i : Nat) : State :=
  match (s.session i).pics.find? (fun p => p.wholeConcealed && p.granted) with
  | none => s
  | some p => s.concealWhole i p

/-- At the end of the stream an incomplete picture group is truncated (R254). -/
def State.settleEnd (s : State) (i : Nat) : State :=
  let ss := s.session i
  if ss.ended && ss.groupOpen && ss.dec.unit.isNone && (ss.dec.next true).isNone then
    let tag := ((ss.dec.group.bind ss.pic).map (·.tag)).getD 0
    (s.truncateGroup i tag ss.dec.offset).updDec i (fun d => { d with group := none })
  else s

/-- A decode picture asks for its need: at once within the reserve, else when its group is complete (R310). -/
def State.settleNeed (s : State) (i : Nat) : State :=
  (s.session i).pics.foldl (fun s p =>
    let ss := s.session i
    if p.granted || p.waiting then s
    else if decide (ss.charge + p.need ≤ ss.plan.reserveBytes) || ss.groupComplete || p.wholeConcealed then s.requestNeed i p.order p.need
    else s) s

/-- What follows every change of a decoder's input: the end of the stream, grant requests, watchdogs. -/
def State.settleDecode (s : State) (i : Nat) : State :=
  if (s.session i).cfg.kind = 2 then (((s.settleEnd i).settleNeed i).settleLost i).updSession i (fun ss => ss.setWatch s.time) else s

/-- POOL_GRANT: the head of a sub-pool's queue is granted when it fits (R310). -/
def execPoolGrant (dt : Nat) (md : MemDie) (s : State) : Result :=
  s.event dt (fun s => s.power.running && (match s.grantQueue md.val with | [] => false | g :: _ => s.grantFits md.val g)) (fun s =>
    match s.grantQueue md.val with
    | [] => s
    | g :: rest => ((s.setGrantQueue md.val rest).grantPic g.session g.order g.need).settleLost g.session)

/-! ## STREAM_SLOT and OUT_SLOT (R337, R456) -/

/-- A session that is fed a stream: an attached audio session takes its units from its video session's stream (R274). -/
def Session.takesStream (ss : Session) : Bool := decide (ss.cfg.kind = 2) || (decide (ss.cfg.kind = 4) && ss.cfg.attach.isNone)

/-- STREAM_SLOT: the buffer's bytes join the session's stream; a buffer that cannot be reached adds none. -/
def execStreamSlot (dt : Nat) (p : Port) (k : Slot) (s : State) : Result :=
  s.sessionRow dt p k 0x31 neverLate (fun s req =>
    let i := sessOf req
    let len := leAt req 0x10 4
    s.sessionChecked p.val k.val i
      (s.ownerChecks p.val k.val 0x18 ++
        [sessionRange req, (addrBad (leAt req 8 8), refusal stBadArg 8), (decide (len = 0) || decide (maxPayload < len), refusal stBadArg 0x10),
         reservedAt req 0x14 4, tailZero req 0x18, s.wrongState i [.running], s.staleGen i (leAt req 2 2) 2, s.handoverBusy,
         (!(s.session i).takesStream, refusal stBadArg 0)])
      (fun s =>
        let b : StreamBuf := { tag := BitVec.ofNat 32 (leAt req 4 4), bytes := (s.fetchForm (leAt req 8 8) len).getD [] }
        ((s.updDec i (fun d => { d with input := d.input ++ [b] })).settleDecode i).answerFor p.val k.val i {}))

/-- OUT_SLOT: a buffer for one decoded picture. -/
def execOutSlot (dt : Nat) (p : Port) (k : Slot) (s : State) : Result :=
  s.sessionRow dt p k 0x32 neverLate (fun s req =>
    let i := sessOf req
    s.sessionChecked p.val k.val i
      (s.ownerChecks p.val k.val 0x28 ++ [sessionRange req] ++
        [8, 0x10, 0x18].map (fun o => (addrBad (leAt req o 8), refusal stBadArg o)) ++
        [0x20, 0x24].map (fun o => (decide (leAt req o 4 % 64 ≠ 0), refusal stBadArg o)) ++
        [tailZero req 0x28, s.wrongState i [.running], s.staleGen i (leAt req 2 2) 2, s.handoverBusy,
         (decide ((s.session i).cfg.kind ≠ 2), refusal stBadArg 0)])
      (fun s =>
        let addrs := [8, 0x10, 0x18].map (fun o => BitVec.ofNat 64 (leAt req o 8))
        (s.updDec i (fun d => { d with
          outSlots := d.outSlots ++ [(BitVec.ofNat 32 (leAt req 4 4), addrs, leAt req 0x20 4, leAt req 0x24 4)] })).answerFor p.val k.val i {}))

/-! ## Taking units -/

/-- A session's next unit, when it is whole and the session may take it: no unit is in its lanes. -/
def State.unitAhead (s : State) (i : Nat) : Option NextUnit :=
  let ss := s.session i
  if s.streamServes i && ss.takesStream && (decide (ss.st = .running) || ss.ended) && ss.dec.unit.isNone then ss.dec.next ss.ended else none

/-- The unit leaves the input; with it goes the mark of a group it cut short. -/
def State.takeUnit (s : State) (i : Nat) (u : NextUnit) : State :=
  s.updSession i (fun ss => { ss with dec := { ss.dec.take u with group := if ss.groupCut then none else ss.dec.group } })

/-- A unit is discarded with a report (R258, R271, R272). -/
def State.skipUnit (s : State) (i : Nat) (u : NextUnit) (r : Report) : State :=
  let ss := s.session i
  let poc := if decide (r.poc = 0xFFFFFFFF) && ss.groupOpen then ss.dec.group.getD r.poc else r.poc
  ((s.takeUnit i u).count i cSyntax 1 |>.count i cUnitsSkipped 1).report i { r with tag := u.tag, action := 2, poc := poc }

/-- An unguarded session does not look at the place of a PIC, LIB or AUD (R255): one that it cannot use is discarded without a report
(log entry 48). -/
def State.passUnit (s : State) (i : Nat) (u : NextUnit) : State := (s.takeUnit i u).count i cUnitsSkipped 1

/-- A unit out of place is discarded. -/
def State.misplaced (s : State) (i : Nat) (u : NextUnit) (r : Report) : State := if s.guarded i then s.skipUnit i u r else s.passUnit i u

/-- An unguarded session drops the picture in whose group an oversized unit stands (R255). -/
def State.overDrops (s : State) (i : Nat) (u : NextUnit) : Bool := u.tooLong && !s.guarded i && (s.session i).groupOpen
def State.dropGroup (s : State) (i : Nat) (u : NextUnit) (r : Report) : State :=
  match (s.session i).dec.group with
  | none => s.skipUnit i u r
  | some poc => ((s.takeUnit i u).count i cSyntax 1 |>.count i cUnitsSkipped 1).dropPicture i poc { r with tag := u.tag }

/-- A report about a unit. -/
def NextUnit.rep (u : NextUnit) (d : Damage) (action : Nat) (poc : W32 := 0xFFFFFFFF) : Report :=
  { tag := u.tag, cause := d.cause, cls := d.cls, unitType := u.type.getD 0, action := action, poc := poc, offset := d.offset }

/-- The damage of a unit that is out of place: found at its type byte. -/
def NextUnit.outOfPlace (u : NextUnit) : Damage := { cls := clBadOrder, offset := u.offset + 3, pos := 0, short := false }

/-- Every group of a session awaits a first frame again (R290). -/
def Session.unseeGroups (ss : Session) : Session := { ss with groups := Tab.mapAll {} ss.groups (fun _ g => { g with seen := false }) }

/-- A hunt begins (R256): SHORT and LONG references are cleared. -/
def State.startHunt (s : State) (i : Nat) (h : Hunt) : State :=
  let s := s.updSession i (fun ss => { ss.clearRefs.unseeGroups with
    dec := { ss.dec with hunting := some h, mdls := [], seq := none, group := none, lostPic := false } })
  { s with sessions := Tab.mapAll {} s.sessions (fun _ x => if x.cfg.attach = some i && decide (x.cfg.kind = 4) then x.unseeGroups else x) }

/-- A damaged or misplaced MDL or SEQ starts a hunt, and is the first unit it discards (R255, R261). -/
def State.huntFrom (s : State) (i : Nat) (u : NextUnit) (d : Damage) : State :=
  (((s.takeUnit i u).count i cSyntax 1).count i cUnitsSkipped 1).startHunt i
    { skipped := 1, tag := u.tag, cause := d.cause, cls := d.cls, unitType := u.type.getD 0, offset := d.offset }

/-- A unit met in a hunt is discarded. -/
def State.huntPast (s : State) (i : Nat) (u : NextUnit) : State :=
  ((s.takeUnit i u).count i cUnitsSkipped 1).updDec i (fun d => { d with hunting := d.hunting.map (fun h => { h with skipped := h.skipped + 1 }) })

/-- An MDL ends the hunt, and one report tells of it (R256, R271). -/
def State.endHunt (s : State) (i : Nat) : State :=
  match (s.session i).dec.hunting with
  | none => s
  | some h =>
    (s.updDec i (fun d => { d with hunting := none })).report i
      { tag := h.tag, cause := h.cause, cls := h.cls, unitType := h.unitType, action := 6, count := min h.skipped 0xFFFF, offset := h.offset }

/-! ### Refused sequences (R230, R267) -/

/-- The session holds a declared model: a video model is the one its cut is bound to, an audio model stands in the model store. -/
def State.holdsModel (s : State) (ss : Session) (m : Nat × Nat × Nat × Bytes) : Bool :=
  if m.2.2.1 = 1 then
    let own := s.sessionModel ss
    decide (ss.cfg.kind = 2) && decide (own.hash = m.2.2.2) && decide (own.recipe = m.2.1)
  else s.models.any (fun e => !e.2.package.isEmpty && decide (e.2.kind = 2) && decide (e.2.hash = m.2.2.2) && decide (e.2.recipe = m.2.1))

/-- The cause with which the collected MDL units refuse their coded sequence. -/
def State.refusedCause (s : State) (ss : Session) : Option Nat :=
  if ss.dec.mdls.any (fun m => !(decide (m.2.1 = 1) || decide (m.2.1 = 2))) then some 7
  else if ss.dec.mdls.any (fun m => !s.holdsModel ss m) then some 8
  else none

/-- The unit after the last MDL has come into view, or the stream has ended. -/
def Session.mdlsOver (ss : Session) : Bool :=
  !ss.dec.mdls.isEmpty && ss.dec.seq.isNone &&
    (match (unitTypes ss.dec.bytes).head? with
     | some t => decide (t ≠ tMDL) && !isExtension t
     | none => ss.ended)

/-- A refused coded sequence is reported once, after its last MDL, and a hunt follows. -/
def State.settleRefused (s : State) (i : Nat) : State :=
  let ss := s.session i
  if !ss.takesStream || !ss.mdlsOver then s
  else
    match s.refusedCause ss with
    | none => s
    | some c =>
      let r : Report := { tag := ss.dec.mdlAt.2, cause := c, unitType := tMDL, action := 7, offset := ss.dec.mdlAt.1 }
      ((s.count i cRefused 1).report i r).startHunt i
        { skipped := 0, tag := r.tag, cause := c, cls := 0, unitType := tMDL, offset := r.offset }

/-- The frame of every unit row: the session's next unit has the row's type. In a hunt it is discarded, unless it is the MDL that
ends the hunt; a unit that cuts a picture group short first has the group resolved and is taken by a later command. `body`
answers none while the unit has to wait. -/
def State.unitRow (s : State) (dt i : Nat) (want : Nat → Bool) (body : State → NextUnit → Nat → Option State) : Result :=
  let s := s.elapse dt
  .next (match s.unitAhead i with
    | none => s
    | some u =>
      match u.type with
      | none => s
      | some t =>
        if u.junk || !want t then s
        else
          let a := s.settleRefused i
          let ss := a.session i
          if ss.dec.hunting.isSome && decide (t ≠ tMDL) then (a.huntPast i u).settleDecode i
          else if endsGroup t && ss.groupOpen then (a.truncateGroup i u.tag u.offset).settleDecode i
          else
            match body a u t with
            | none => s
            | some b => b.settleDecode i)

/-- No picture of the session is in work and no library write is under way: what came before in stream order is done. -/
def Session.quiet (ss : Session) : Bool := ss.pics.isEmpty && ss.lib.all (fun e => !e.2.writing)

/-! ## MDL and SEQ (R225, R226, R228, R231) -/

/-- MDL. -/
def execUnitMdl (dt : Nat) (sess : SessionIx) (s : State) : Result :=
  s.unitRow dt sess.val (· = tMDL) (fun s u _ =>
    let i := sess.val
    let s := s.endHunt i
    let ss := s.session i
    let p := u.payload
    let fresh := ss.groupCut || ss.dec.seq.isSome || ss.dec.mdls.isEmpty
    if !ss.quiet then none
    else if ss.dec.seq.isSome && !ss.groupCut then some (s.huntFrom i u u.outOfPlace)
    else
      match p.damage (s.guarded i) (p.mdlChecks (if fresh then [] else ss.dec.mdls.map (·.1))) with
      | some d => some (s.huntFrom i u d)
      | none =>
        let m := (p.u 0 1, p.u 1 1, p.u 2 1, slice p.bytes 3 64)
        let t := (s.takeUnit i u).updSession i (fun x =>
          let x := if fresh then x.clearRefs.unseeGroups else x
          { x with dec := { x.dec with mdls := if fresh then [m] else x.dec.mdls ++ [m], seq := none, seenMdl := true, mdlAt := (u.offset, u.tag),
                                       lostPic := false } })
        some (t.settleRefused i))

/-- The library persists into the coded sequence of a SEQ (R226). -/
def libPersists (last : Option (SeqFmt × Nat × Bytes)) (f : SeqFmt) (recipe : Nat) (hash : Bytes) : Bool :=
  match last with
  | none => false
  | some (g, r, h) =>
    decide (f.width = g.width) && decide (f.height = g.height) && decide (f.chroma = g.chroma) && decide (f.bitDepth = g.bitDepth) &&
      decide (f.press = g.press) && decide (f.libSize = g.libSize) && decide (recipe = r) && decide (hash = h)

/-- A SEQ is accepted. -/
def Session.acceptSeq (ss : Session) (f : SeqFmt) : Session :=
  let m := ss.dec.mdls.find? (fun m => decide (m.1 = f.mdlId))
  let recipe := (m.map (·.2.1)).getD 0
  let hash := (m.map (·.2.2.2)).getD []
  let ss := if ss.dec.seq.isSome then ss.clearRefs else ss
  { ss with
    lib := if libPersists ss.dec.lastSeq f recipe hash then ss.lib else []
    dec := { ss.dec with seq := some f, lastSeq := some (f, recipe, hash), lostPic := false } }

/-- SEQ. -/
def execUnitSeq (dt : Nat) (sess : SessionIx) (s : State) : Result :=
  s.unitRow dt sess.val (· = tSEQ) (fun s u _ =>
    let i := sess.val
    let ss := s.session i
    let p := u.payload
    if !ss.quiet then none
    else if ss.dec.mdls.isEmpty || (ss.dec.seq.isSome && !ss.groupCut) then some (s.huntFrom i u u.outOfPlace)
    else
      match p.damage (s.guarded i) (p.seqChecks ss.dec.mdls ss.cfg.fmt) with
      | some d => some (s.huntFrom i u d)
      | none => some ((s.takeUnit i u).updSession i (fun x => x.acceptSeq p.seqFmt)))

/-! ## PIC (R232, R260, R262 to R264) -/

/-- The session holds what a reference names. -/
def Session.holdsRef (ss : Session) (r : Ref) : Bool :=
  if r.kind = 1 then (Tab.get {} ss.lib r.id.toNat).held
  else ss.bufs.any (fun b => decide (b.poc = r.id) && (decide (b.mark = 1) || decide (b.mark = 2)))

/-- A reference never received reads grey, or in a guarded session its concealment source (R263, R264). -/
def Session.replaceRef (ss : Session) (guarded : Bool) (r : Ref) : Ref :=
  if ss.holdsRef r then r
  else
    let src := if !guarded then none else if r.kind = 1 then ss.lastHeld else ss.nearestHeld r.id
    { r with replaced := some (match src with | some b => b.poc.toNat + 1 | none => 0) }

/-- Tells of each replaced reference of a PIC (R262, R271, R272); of a damaged one the report says so instead (R273). -/
def State.reportRefs (s : State) (i : Nat) (u : NextUnit) (poc : W32) (refs : List Ref) : State :=
  refs.foldl (fun s r =>
    if r.replaced.isNone then s
    else
      let lib := decide (r.kind = 1)
      let s := s.count i cRefsReplaced 1
      let s := if lib then s.count i cLibMissing 1 else s
      s.report i { tag := u.tag, cause := if lib then 4 else 3, unitType := tPIC, action := 5, poc := poc, count := 1, offset := r.off }) s

/-- The picture of an accepted PIC, with its references resolved. -/
def State.pictureFrom (s : State) (i : Nat) (u : NextUnit) (p : Payload) (hyperLost : Bool) : Picture :=
  let ss := s.session i
  let x := p.pic
  let placed := ((List.range x.refs.length).zip x.refs).map (fun e => { e.2 with off := p.at (5 + 5 * e.1), kind := if e.2.kind = 1 then 1 else 0 })
  let refs := placed.map (ss.replaceRef (s.guarded i))
  { poc := x.poc, tag := u.tag, order := s.accepted, nonref := x.nonref, refs := refs
    marks := ((List.range x.marks.length).zip x.marks).map (fun e => { e.2 with off := p.at (x.markAt + 1 + 5 * e.1) })
    need := ss.fmt.need false (s.planCarry ss.plan), hyperFloor := x.floor, hyperLost := hyperLost, picDone := x.floor || hyperLost
    greyRef := refs.any (·.replaced.isSome), bytes := u.size, hyperBytes := u.size - hPic x.poc x.refs x.marks x.nonref
    wdFrom := some s.time }

/-- A PIC opens its picture group; its hyper-latents go to the lanes. -/
def State.acceptPic (s : State) (i : Nat) (u : NextUnit) (p : Payload) (lost : Option Damage) : State :=
  let x := p.pic
  let ss := s.session i
  let q := s.pictureFrom i u p lost.isSome
  let f := ss.fmt
  let t := entropyTables (s.sessionModel ss).package
  let job : UnitJob :=
    { kind := tPIC, row := 0, owner := i, tag := u.tag, map := p.map, specs := hyperElems f t.means.length [], sCount := (p.subs x.subAt).count,
      jobs := p.subJobs x.subAt, all := p.subJobs x.subAt }
  let s := ((s.takeUnit i u).addPicture i q).updDec i (fun d => { d with
    group := some q.poc, nextRow := 0, lostPic := false, unit := if q.picDone then none else some job })
  match lost with
  | none => s.reportRefs i u q.poc q.refs
  | some d => (s.count i cSyntax 1).report i (u.rep d 4 q.poc)

/-- PIC. A damaged one keeps its picture when only its hyper-latents are lost, is output as a concealed picture when its POC was
read, and else is dropped; an unguarded session drops it (R255, R260). -/
def execUnitPic (dt : Nat) (sess : SessionIx) (s : State) : Result :=
  s.unitRow dt sess.val (· = tPIC) (fun s u _ =>
    let i := sess.val
    let ss := s.session i
    let p := u.payload
    let x := p.pic
    let f := ss.fmt
    let held := (ss.bufs.filter (fun b => decide (b.mark = 1) || decide (b.mark = 2))).map (·.poc)
    if !ss.quiet then none
    else if ss.dec.seq.isNone || decide (f.mdlId = 0xFF) then some (s.misplaced i u (u.rep u.outOfPlace 2))
    else
      match p.damage (s.guarded i) (p.picChecks f.libSize held) with
      | none => some (s.acceptPic i u p none)
      | some d =>
        if !s.guarded i then some (((s.takeUnit i u).count i cSyntax 1).dropPicture i (if p.len < 4 then 0xFFFFFFFF else x.poc) (u.rep d 3))
        else if x.subAt ≤ d.pos then some (s.acceptPic i u p (some d))
        else if p.len < 4 then some (((s.takeUnit i u).count i cSyntax 1).dropPicture i 0xFFFFFFFF (u.rep d 3))
        else
          let t := ((s.takeUnit i u).count i cSyntax 1).addPicture i
            { poc := x.poc, tag := u.tag, order := s.accepted, tStart := s.time, need := f.need false (s.planCarry ss.plan), wholeConcealed := true }
          some ((t.report i (u.rep d 4 x.poc)).updDec i (fun e => { e with group := none, lostPic := true })))

/-! ## ROW (R234, R235, R258) -/

/-- The group's picture moves on to the next row; after the last one the group is closed. -/
def State.rowTaken (s : State) (i row : Nat) : State :=
  s.updSession i (fun ss => { ss with dec := { ss.dec with
    nextRow := row + 1, group := if row + 1 < ss.fmt.cbRows then ss.dec.group else none } })

/-- A floor row: no gain, and the motion of the nearest row above that is not in floor mode (R204). -/
def Picture.placeFloor (f : SeqFmt) (row bytes : Nat) (p : Picture) : Picture :=
  let skip := p.rowsFloor ++ p.concealed
  { p with
    motion := inheritRow f p.motion row ((nearestAbove skip row).map (fun a => 4 * a + 3))
    rowsFloor := p.rowsFloor ++ [row], decoded := p.decoded + 1, bytes := p.bytes + bytes }

/-- A good ROW of the group's picture is placed; a coded one goes to the lanes. -/
def State.placeRow (s : State) (i : Nat) (poc : W32) (u : NextUnit) (p : Payload) : State :=
  let ss := s.session i
  let row := p.rowIndex
  let q := (ss.pic poc).getD { poc := poc }
  let f := ss.fmt
  let s := (s.takeUnit i u).rowTaken i row
  if p.rowFloor then s.updSession i (fun x => x.updPic poc (Picture.placeFloor f row u.size))
  else
    let job : UnitJob :=
      { kind := tROW, row := row, owner := i, tag := u.tag, map := p.map
        specs := rowElems f q.refs.length (pkgLatentChannels (s.sessionModel ss).package) [] q.sigma [] [] row
        sCount := (p.subs 4).count, jobs := p.subJobs 4, all := p.subJobs 4 }
    (s.updSession i (fun x => x.updPic poc (fun q => { q with bytes := q.bytes + u.size }))).updDec i (fun d => { d with unit := some job })

/-- A damaged ROW takes the place of the next expected row, which is concealed (R258, R259). -/
def State.concealNext (s : State) (i : Nat) (poc : W32) (u : NextUnit) (d : Damage) : State :=
  let row := (s.session i).dec.nextRow
  let s := ((s.takeUnit i u).rowTaken i row).count i cSyntax 1
  (s.report i { u.rep d 4 poc with row := row, count := 1 }).concealRows i poc row 1

/-- Rows skipped over by a higher one are missing (R258). -/
def State.skipRows (s : State) (i : Nat) (poc : W32) (u : NextUnit) (p : Payload) : State :=
  let row := (s.session i).dec.nextRow
  let n := p.rowIndex - row
  if n = 0 then s
  else
    let s := s.report i { tag := u.tag, cause := 2, unitType := tROW, action := 4, poc := poc, row := row, count := n, offset := p.at 0 }
    (s.concealRows i poc row n).updDec i (fun d => { d with nextRow := row + n })

/-- Checks of a ROW against its picture group (R234): a guarded session takes a higher row within the picture as it comes. -/
def Payload.rowOrder (p : Payload) (guarded : Bool) (next rows : Nat) (poc : W32) : List Bad :=
  (if guarded then p.chk 0 1 false (decide (rows ≤ p.rowIndex)) ++ p.chk 0 1 true (decide (p.rowIndex < next)) clBadOrder
   else p.chk 0 1 true (decide (p.rowIndex ≠ next)) clBadOrder) ++
    p.chk 2 2 true (decide (p.rowPoc ≠ poc.toNat % 65536)) clBadOrder

/-- ROW. -/
def execUnitRow (dt : Nat) (sess : SessionIx) (s : State) : Result :=
  s.unitRow dt sess.val (· = tROW) (fun s u _ =>
    let i := sess.val
    let ss := s.session i
    let p := u.payload
    if !ss.groupOpen then
      if ss.dec.lostPic then some ((s.takeUnit i u).count i cUnitsSkipped 1) else some (s.skipUnit i u (u.rep u.outOfPlace 2))
    else
      match ss.dec.group.bind ss.pic with
      | none => some (s.skipUnit i u (u.rep u.outOfPlace 2))
      | some q =>
        let g := s.guarded i
        if !q.phase1 then none
        else
          match p.damage g (p.rowOrder g ss.dec.nextRow ss.fmt.cbRows q.poc ++ p.rowChecks) with
          | none => some ((s.skipRows i q.poc u p).placeRow i q.poc u p)
          | some d =>
            if d.cls = clBadOrder then some (s.skipUnit i u { u.rep d 2 q.poc with row := p.rowIndex })
            else if g then some (s.concealNext i q.poc u d)
            else some (((s.takeUnit i u).count i cSyntax 1).dropPicture i q.poc { u.rep d 3 with row := p.rowIndex }))

/-! ## LIB, END, extensions and reserved types (R227, R237, R238, R261, R266) -/

/-- One LIB operation. -/
def State.libOp (i : Nat) (u : NextUnit) (p : Payload) (s : State) (o : Nat × Nat × Bytes × Nat) : State :=
  let ss := s.session i
  let e := Tab.get {} ss.lib o.2.1
  if o.1 = 1 then s.updSession i (fun x => { x with lib := Tab.set {} x.lib o.2.1 {} })
  else if o.1 ≠ 2 then s
  else if e.held && decide (libCheck ss.fmt.bitDepth e.recon = o.2.2.1) then s
  else
    let g := s.guarded i
    let s := (s.count i cLibCheckFail 1).report i
      { tag := u.tag, cause := 6, unitType := tLIB, action := if g then 8 else 1, offset := p.at o.2.2.2 }
    if g then s.updSession i (fun x => { x with lib := Tab.set {} x.lib o.2.1 {} }) else s

/-- LIB: it takes effect after the library writes of the pictures before it. One in a coded sequence without video is out of place: R225
says only that such a sequence holds no picture group (DESIGN CHOICE, log entry 48). -/
def execUnitLib (dt : Nat) (sess : SessionIx) (s : State) : Result :=
  s.unitRow dt sess.val (· = tLIB) (fun s u _ =>
    let i := sess.val
    let ss := s.session i
    let p := u.payload
    if !ss.quiet then none
    else if ss.dec.seq.isNone || decide (ss.fmt.mdlId = 0xFF) then some (s.misplaced i u (u.rep u.outOfPlace 2))
    else
      match p.damage (s.guarded i) (p.libChecks ss.fmt.libSize) with
      | none => some (p.libOpList.foldl (State.libOp i u p) (s.takeUnit i u))
      | some d =>
        let good := if s.guarded i then p.libOpList.filter (fun o => decide (o.2.2.2 + libOpSize o.1 ≤ d.pos)) else []
        if d.pos < 1 || good.isEmpty then some (s.skipUnit i u (u.rep d 2))
        else some (good.foldl (State.libOp i u p) (((s.takeUnit i u).count i cSyntax 1).report i (u.rep d 8))))

/-- END: a damaged one, and one out of place, is taken as END (R255, R261). -/
def execUnitEnd (dt : Nat) (sess : SessionIx) (s : State) : Result :=
  s.unitRow dt sess.val (· = tEND) (fun s u _ =>
    let i := sess.val
    let ss := s.session i
    let p := u.payload
    if !ss.quiet then none
    else
      let misplaced := s.guarded i && ss.dec.seq.isNone && !ss.groupCut
      let t := (s.takeUnit i u).updSession i (fun x => { x.clearRefs.unseeGroups with dec := { x.dec with mdls := [], seq := none, lostPic := false } })
      some (match (if misplaced then some u.outOfPlace else p.damage (s.guarded i) p.endChecks) with
        | none => t
        | some d => (t.count i cSyntax 1).report i (u.rep d 1)))

/-- EXTENSION_UNIT: skipped unread; before the first MDL it is out of place, which a guarded session reports; one beyond the payload bound
is an error in every session (R252). -/
def execExtensionUnit (dt : Nat) (sess : SessionIx) (s : State) : Result :=
  s.unitRow dt sess.val isExtension (fun s u _ =>
    let i := sess.val
    let excess : Damage := { cls := clBadUnit, offset := u.offset + 4 + maxPayload, pos := maxPayload, short := false }
    some (if s.overDrops i u then s.dropGroup i u (u.rep excess 3)
      else if s.guarded i && !(s.session i).dec.seenMdl then s.skipUnit i u (u.rep u.outOfPlace 2)
      else if u.tooLong then ((s.takeUnit i u).count i cSyntax 1).report i { u.rep excess 2 with poc := ((s.session i).dec.group.filter (fun _ => (s.session i).groupOpen)).getD 0xFFFFFFFF }
      else (s.takeUnit i u).settleRefused i))

/-- A type byte that R222 names. -/
def knownType (t : Nat) : Bool := [tMDL, tSEQ, tPIC, tROW, tAUD, tLIB, tEND].contains t || isExtension t

/-- RESERVED_UNIT_TYPE: what is next is a reserved type, or bytes that belong to no unit (R222, R224, R255). An oversized one drops the
picture of the group in an unguarded session, as any oversized unit does. -/
def execReservedUnitType (dt : Nat) (sess : SessionIx) (s : State) : Result :=
  let i := sess.val
  s.event dt (fun s => (s.unitAhead i).any (fun u => u.junk || !(u.type.any knownType))) (fun s =>
    match s.unitAhead i with
    | none => s
    | some u =>
      let s := s.settleRefused i
      let r := u.rep { cls := clBadUnit, offset := if u.junk then u.offset else u.offset + 3, pos := 0, short := false } 2
      let bare := u.type.isNone && decide (u.lead = u.total)
      (if bare && !u.junk then s.takeUnit i u
       else if (s.session i).dec.hunting.isSome && !u.junk then s.huntPast i u
       else if s.overDrops i u then s.dropGroup i u { r with action := 3 }
       else s.skipUnit i u r).settleDecode i)

/-! ## The watchdog (R253, R260) -/

/-- Watchdog time a picture has used. -/
def Picture.watchTime (p : Picture) (t : Nat) : Nat := p.wdUsed + (match p.wdFrom with | some f => t - f | none => 0)

/-- The limit: `wd_periods` picture periods of the SEQ, at least 20 ms. -/
def Session.watchLimit (ss : Session) : Nat :=
  max 20000000 (if ss.fmt.rateNum = 0 then 0 else ss.cfg.wdPeriods * ss.fmt.rateDen * 1000000000 / ss.fmt.rateNum)

/-- PICTURE_WATCHDOG: the picture's work is cancelled, the expiry logged, and the picture is lost. A record in the same clock wins, so the
expiry acts after it (R253). -/
def execPictureWatchdog (dt : Nat) (sess : SessionIx) (poc : W32) (s : State) : Result :=
  s.event dt (fun s => s.power.running && picReady (s.picOf sess.val 2 poc) (fun p =>
      !p.wholeConcealed && decide ((s.session sess.val).watchLimit < p.watchTime s.time) &&
        (decide ((s.session sess.val).st = .running) || (s.session sess.val).ended))) (fun s =>
    let i := sess.val
    match (s.session i).pic poc with
    | none => s
    | some p =>
      let s := s.cancelCores i (s.planCores (s.session i).plan)
      let s := (s.moduleEvent 2 0x000C (logArg 0 i) 0).count i cWatchdog 1
      let own (u : UnitJob) : Bool := decide (u.kind ≠ tAUD)
      let s := s.updDec i (fun d => { d with
        unit := ((d.unit.toList ++ d.redo).filter (fun u => !own u)).head?, redo := ((d.unit.toList ++ d.redo).filter (fun u => !own u)).drop 1
        lostPic := d.lostPic || d.group.isSome, group := none })
      let rep : Report := { tag := p.tag, cause := 9, unitType := tPIC, action := 4, poc := poc }
      let lost := (s.session i).dec.lostPic
      (if s.guarded i then
         (s.report i rep).updSession i (fun ss => ss.updPic poc (fun q => { q with wholeConcealed := true, phase1 := false, phase2 := 0 }))
       else (s.dropPicture i poc rep).updDec i (fun d => { d with lostPic := lost })).settleDecode i)

end Sys2Proof.Machine
end

