-- ==== Sys2Proof/Machine/Audio.lean ====
section
/-! DEFINITION. Learned audio coding (R274 to R294): sample blocks, frames coded and committed, AUD units taken, synthesis, lost and
damaged frames, and frame records. -/

namespace Sys2Proof.Machine

def frameSamples : Nat := 960
def frameNs : Nat := 20000000

def Session.audio (ss : Session) (g : Nat) : AudioGroup := Tab.get {} ss.groups g
def Session.updAudio (ss : Session) (g : Nat) (f : AudioGroup → AudioGroup) : Session := { ss with groups := Tab.upd {} ss.groups g f }
def State.updAudio (s : State) (i g : Nat) (f : AudioGroup → AudioGroup) : State := s.updSession i (fun ss => ss.updAudio g f)

/-- A group as configured. -/
def Session.groupCfg (ss : Session) (g : Nat) : Option GroupCfg := ss.cfg.groups.find? (fun x => x.group = g)

/-- Bytes of one frame of samples (R276). -/
def GroupCfg.frameBytes (c : GroupCfg) : Nat := frameSamples * c.channels * (if c.pcmBits = 16 then 2 else 4)

/-- Elements of a coded AUD: 60 latent steps of A channels, each with its table (R280). -/
def audElems (sigma : List Nat) (symbols : List Int) : List Elem :=
  ((List.range sigma.length).zip sigma).map (fun e => .latent e.2 (symbols.getD e.1 0))

def unsynced : W32 := 0xFFFFFFFF

/-! ## AUDIO_BLOCK (R276, R285, R286, R337) -/

/-- Sync fields of a frame that starts at `t`, from the accepted pictures of the attached session (R286). -/
def syncOf (captures : List (Nat × W32)) (t : Nat) : W32 × W32 :=
  let best := captures.foldl (fun (b : Option (Nat × W32)) c =>
    if t < c.1 then b
    else match b with
      | none => some c
      | some x => if x.1 ≤ c.1 then some c else some x) none
  match best with
  | none => (unsynced, 0)
  | some (c, poc) => if t - c < 2 ^ 32 then (poc, BitVec.ofNat 32 (t - c)) else (unsynced, 0)

/-- Sync fields of the frames of a block. -/
def State.syncsOf (s : State) (i frames tFirst : Nat) : List (W32 × W32) :=
  let caps := match (s.session i).cfg.attach with
    | some v => (s.session v).captures
    | none => []
  (List.range frames).map (fun k => syncOf caps (tFirst + frameNs * k))

/-- The session's own checks of an AUDIO_BLOCK. -/
def State.blockOwn (s : State) (i : Nat) (req : Bytes) : List (Bool × Answer) :=
  let ss := s.session i
  let t := leAt req 0x20 4
  let c := leAt req 0x24 4
  let ch := ((ss.groupCfg (leAt req 8 1)).map (·.channels)).getD 0
  [s.handoverBusy, (!isAudioKind ss.cfg.kind, refusal stBadArg 0), ((ss.groupCfg (leAt req 8 1)).isNone, refusal stBadArg 8)] ++
    (if isEncodeKind ss.cfg.kind then
       [(decide (t < 30 * ch), refusal stBadArg 0x20), (decide (c < t), refusal stBadArg 0x24), (decide (640 * ch + 64 < c), refusal stBadArg 0x24)]
     else [(decide (t ≠ 0), refusal stBadArg 0x20), (decide (c ≠ 0), refusal stBadArg 0x24)])

/-- AUDIO_BLOCK: samples to code, or where decoded samples go. -/
def execAudioBlock (dt : Nat) (p : Port) (k : Slot) (s : State) : Result :=
  s.sessionRow dt p k 0x33 neverLate (fun s req =>
    let i := sessOf req
    let g := leAt req 8 1
    let n := leAt req 9 1
    s.sessionChecked p.val k.val i
      (s.ownerChecks p.val k.val 0x28 ++
        [sessionRange req, (decide (63 < g), refusal stBadArg 8), (decide (n = 0) || decide (50 < n), refusal stBadArg 9), reservedAt req 0xA 6,
         (addrBad (leAt req 0x10 8), refusal stBadArg 0x10), tailZero req 0x28, s.wrongState i [.running], s.staleGen i (leAt req 2 2) 2] ++
        s.blockOwn i req)
      (fun s =>
        let encode := isEncodeKind (s.session i).cfg.kind
        let b : AudioBlock := { tag := BitVec.ofNat 32 (leAt req 4 4), addr := leAt req 0x10 8, left := n, time := leAt req 0x18 8
                                syncs := if encode then s.syncsOf i n (leAt req 0x18 8) else [] }
        (s.updAudio i g (fun x => { x with
          blocks := x.blocks ++ [b], target := leAt req 0x20 4, cap := leAt req 0x24 4 })).answerFor p.val k.val i {}))

/-- Takes one frame off the front of the blocks. -/
def popFrame (bytes : Nat) : List AudioBlock → List AudioBlock
  | [] => []
  | b :: bs => if b.left ≤ 1 then bs
               else { b with left := b.left - 1, addr := b.addr + bytes, time := b.time + frameNs, syncs := b.syncs.drop 1 } :: bs

/-! ## Frame records (R289, R293) -/

/-- What a frame record says beside the group's own state. -/
structure FrameInfo where
  tag : W32 := 0
  frame : W32
  bytes : Nat := 0
  q : Nat := 0
  floor : Bool := false
  reset : Bool := false
  concealed : Bool := false
  muted : Bool := false
  rerun : Bool := false
  trouble : Bool := false
  tainted : Bool := false
  overCap : Bool := false
  syncPoc : W32 := unsynced
  syncNs : W32 := 0
  deriving DecidableEq, Repr

def FrameInfo.flags (x : FrameInfo) : Nat :=
  b2n x.floor + 2 * b2n x.reset + 4 * b2n x.concealed + 8 * b2n x.muted + 16 * b2n x.rerun + 32 * b2n x.trouble +
    64 * b2n (decide (x.syncPoc = unsynced)) + 128 * b2n x.tainted + 256 * b2n x.overCap

/-- The 48-byte frame record. -/
def FrameInfo.record (x : FrameInfo) (group t : Nat) : Bytes :=
  natLE 4 x.tag.toNat ++ natLE 4 x.frame.toNat ++ natLE 4 x.bytes ++ natLE 1 group ++ natLE 1 x.q ++ zeros 2 ++ natLE 4 x.flags ++
    natLE 4 x.syncPoc.toNat ++ natLE 4 x.syncNs.toNat ++ zeros 4 ++ natLE 8 t ++ zeros 8

/-- The conversion of decoded samples (R289): scale 2^(b − 1), bias +0, clipped to b bits. -/
def pcmConv (bits : Nat) : Conv :=
  { scale := .ofInt (2 ^ (bits - 1)), bias := .zero false, lo := .ofInt (-(2 ^ (bits - 1))), hi := .ofInt (2 ^ (bits - 1) - 1) }

/-- One sample: the bytes of its container and its counters. -/
def pcmSample (bits : Nat) (v : W32) : Bytes × ElemCount :=
  let c := pcmConv bits
  let a := (loadElem fmtFP32 v.toNat).1
  let raw := (a.v.mul c.scale).add c.bias
  let (b, sat) := narrowInt bits (c.clip raw)
  (if bits = 16 then natLE 2 b else natLE 4 (unsigned 32 (signed 24 b)), { saturated := sat, flushedOut := false, nan := raw.isNaN, inf := false })

/-- Writes one frame of samples to the group's next place, if the host has handed one over. -/
def State.writeSamples (s : State) (i g : Nat) (bs : Bytes) : State :=
  let ss := s.session i
  match (ss.audio g).blocks with
  | [] => s
  | b :: _ => (s.storeForm b.addr bs).updAudio i g (fun x => { x with blocks := popFrame bs.length x.blocks })

/-- Adds a frame's conversion counters to the session's totals. -/
def State.addSampleCounts (s : State) (i : Nat) (cs : List ElemCount) : State :=
  let r : Record := { saturated := (cs.filter (·.saturated)).length, nan := (cs.filter (·.nan)).length }
  s.updSession i (fun ss => { ss with trouble := addTrouble ss.trouble r })

/-- Reports of AUD events name the frame as POC and the group as row (R292). -/
def audReport (tag : W32) (cause cls action : Nat) (frame : W32) (g n offset : Nat) : Report :=
  { tag := tag, cause := cause, cls := cls, unitType := tAUD, action := action, poc := frame, row := g, count := n, offset := offset }

/-! ## Encoding (R279, R280, R283 to R285) -/

/-- The SEQ of a standalone audio sequence (R274). -/
def audioSeq : SeqFmt :=
  { mdlId := 0xFF, profile := 1, chroma := 0, bitDepth := 8, width := 64, height := 64, rateNum := 50, rateDen := 1, maxShort := 1, press := 0,
    libSize := 0 }

/-- `mdl_id` of a session's AUD units: 0 standalone, else the id that its video session declares for the model. -/
def State.audioMdlId (s : State) (i : Nat) : Nat :=
  let ss := s.session i
  match ss.cfg.attach with
  | none => 0
  | some v =>
    let open_ := (s.session v).dec.mdls
    let l := if open_.isEmpty then s.sequenceModels v else open_
    ((l.find? (fun m => decide (m.2.2.1 = 2) && decide (m.2.2.2 = (s.sessionModel ss).hash))).map (·.1)).getD 0

/-- The operating point of a frame (R285). -/
def chooseQ (est : List Int) (target : Int) (floorSize : Nat → Nat) : Nat :=
  ((List.range 16).filter (fun q => decide (est.getD q 0 ≤ target - (floorSize q : Int)))).getLast?.getD 0

/-- The group is to code a reset frame: the first of a coded sequence, one without a carry state, or one at the interval (R283). -/
def AudioGroup.resets (g : AudioGroup) (interval : Nat) : Bool := !g.seen || g.lostCarry || !g.carryHeld || decide (interval ≤ g.sinceReset)

/-- A frame follows a random-access point that is still to be written: one that its sync picture's PIC stands behind (R283, R287). -/
def State.afterPoint (s : State) (i : Nat) (sync : W32) : Bool :=
  match (s.session i).cfg.attach with
  | none => false
  | some v => ((s.session v).pic sync).any (fun p => (s.session v).freshPics.any (fun q => decide (q.order ≤ p.order)))

/-- The frame a group may start to code, with its samples. -/
def State.frameReady (s : State) (i g : Nat) : Option (GroupCfg × AudioBlock × Bytes) :=
  let ss := s.session i
  let x := ss.audio g
  match ss.groupCfg g, x.blocks with
  | some c, b :: _ =>
    if s.streamServes i && decide (ss.cfg.kind = 3) && (decide (ss.st = .running) || ss.ended) && !x.busy && (ss.plan.laneOf 0).isSome then
      (s.fetchForm b.addr c.frameBytes).map (fun bs => (c, b, bs))
    else none
  | _, _ => none

/-- Codes a frame from its samples: operating point, mean and sigma, symbols, and the AUD in coded or floor form (R276, R280, R285). -/
def State.codeFrame (s : State) (i g : Nat) (c : GroupCfg) (b : AudioBlock) (bs : Bytes) : State :=
  let ss := s.session i
  let x := ss.audio g
  let m := s.audioModel i c.channels
  let mdl := s.audioMdlId i
  let sync := b.syncs.headD (unsynced, 0)
  let reset := x.resets ss.cfg.resetInterval || s.afterPoint i sync.1
  let carry := m.carryIn reset x.carry
  let unit (floor : Bool) (q : Nat) (sub : Bytes) : Bytes :=
    unitBytes tAUD (audPayload mdl g x.frame c.channels c.layout c.pcmBits floor reset q sync.1 sync.2 [sub])
  let pcm := pcmSamples c.pcmBits bs
  let q := chooseQ (m.estimates pcm) x.target (fun q => (unit true q emptySubstream).length)
  let symbols := m.quantise pcm carry q
  let els := audElems (m.scale carry q).2 symbols
  let full := unit false q (ransEncode (els.flatMap (elemSymbols (entropyTables (s.sessionModel ss).package))))
  let floor := decide (x.cap < full.length)
  let wire := if floor then unit true q emptySubstream else full
  let s := s.updAudio i g (fun x => { x with
    busy := true, coded := true, seen := true, unitBytes := wire, bytes := wire.length, floor := floor, reset := reset
    overCap := decide (x.cap < wire.length), concealed := false, rerun := false, trouble := false, curFrame := x.frame, curQ := q, tag := b.tag
    syncPoc := sync.1, syncNs := sync.2, latents := if floor then [] else symbols, blocks := popFrame c.frameBytes x.blocks })
  match ss.plan.laneOf 0 with
  | some l => s.laneDone ss.plan.streamDie l i true false false
  | none => s

/-- AUDIO_FRAME_ENCODE: the networks give the byte estimates, the sigma indices at the operating point and the quantised latents. -/
def execAudioFrameEncode (dt : Nat) (sess : SessionIx) (group : GroupIx) (s : State) : Result :=
  let i := sess.val
  let g := group.val
  s.event dt (fun s => (s.frameReady i g).isSome) (fun s =>
    match s.frameReady i g with
    | some (c, b, bs) => s.codeFrame i g c b bs
    | none => s)

/-! ## AUD_COMMIT (R274, R287) -/

/-- An attached AUD may be committed: its model is declared, its sync picture's PIC is committed, the stream stands at its end, and no ROW
is ready, which goes first (R287). -/
def State.audMayCommit (s : State) (i v : Nat) (x : AudioGroup) : Bool :=
  let vs := s.session v
  vs.bound && !vs.poolLost && vs.outHeld.isEmpty &&
    vs.dec.mdls.any (fun m => decide (m.1 = (x.unitBytes.getD 4 0).toNat) && decide (m.2.2.1 = 2) &&
      decide (m.2.2.2 = (s.sessionModel (s.session i)).hash)) &&
    (decide (x.syncPoc = unsynced) || (vs.pic x.syncPoc).all (·.picDone)) &&
    vs.pics.all (fun p => !p.began || decide (p.outStart + p.written = vs.outCursor)) && !vs.codingPic.any vs.rowReady

/-- The lowest group whose AUD may be committed. -/
def State.commitGroup (s : State) (i : Nat) : Option Nat :=
  let ss := s.session i
  (ss.groups.find? (fun e => e.2.busy && e.2.coded && !e.2.unitBytes.isEmpty && (match ss.cfg.attach with
    | none => ss.outHeld.isEmpty
    | some v => s.audMayCommit i v e.2))).map (·.1)

/-- Puts an AUD at the end of a video session's stream; inside a picture group it is kept for a re-run (R287). -/
def State.placeAud (s : State) (v : Nat) (bs : Bytes) : State :=
  let t := s.appendStream v bs
  t.updSession v (fun x => { x with pics := x.pics.map (fun p =>
    if p.began && p.picDone then { p with audPlaced := p.audPlaced ++ [(p.rowsCommitted, bs)], written := p.written + bs.length } else p) })

/-- A standalone session opens its coded sequence before its first AUD (R274). -/
def State.openAudio (s : State) (i : Nat) : State :=
  let ss := s.session i
  if ss.sequenceOpen then s
  else
    let m := s.sessionModel ss
    let mdls := [(0, m.recipe, 2, m.hash)]
    (s.updDec i (fun d => { d with mdls := mdls, seq := some audioSeq })).appendStream i (mdlUnits mdls ++ unitBytes tSEQ (seqPayload audioSeq 0xFF))

/-- AUD_COMMIT. -/
def execAudCommit (dt : Nat) (sess : SessionIx) (s : State) : Result :=
  let i := sess.val
  s.event dt (fun s =>
      let ss := s.session i
      s.streamServes i && decide (ss.cfg.kind = 3) && (decide (ss.st = .running) || ss.ended) &&
        (s.commitGroup i).isSome) (fun s =>
    let ss := s.session i
    match s.commitGroup i with
    | none => s
    | some g =>
      let bs := (ss.audio g).unitBytes
      let s := match ss.cfg.attach with
        | none => (s.openAudio i).appendStream i bs
        | some v => s.placeAud v bs
      s.updAudio i g (fun x => { x with coded := false, unitBytes := [] }))

/-! ## Decoding (R290, R291) -/

/-- The session and group that decode an AUD of a stream: the session itself, or an audio session attached to it. -/
def State.audOwner (s : State) (i g : Nat) : Option (Nat × GroupCfg) :=
  let ss := s.session i
  if ss.cfg.kind = 4 then (ss.groupCfg g).map (fun c => (i, c))
  else
    ((s.attachedTo i).filter (fun e => decide (e.2.cfg.kind = 4) && (decide (e.2.st = .running) || e.2.ended))).findSome?
      (fun e => (e.2.groupCfg g).map (fun c => (e.1, c)))

/-- A muted frame: zeros, and its record at once (R291, R292). -/
def State.muteFrame (s : State) (i g : Nat) (c : GroupCfg) (x : FrameInfo) : State :=
  let y := (s.session i).audio g
  let tainted := y.tainted || y.lostCarry
  let s := ((s.writeSamples i g (zeros c.frameBytes)).count i cDropped 1).count i cTainted (b2n tainted)
  (s.updAudio i g (fun y => { y with frame := x.frame + 1, seen := true, muted := true, carryHeld := false, carry := [] })).ringPut i 2
    ({ x with muted := true, bytes := 0, tainted := tainted : FrameInfo }.record g s.time)

/-- `n` muted frames in a row. -/
def State.muteFrames (s : State) (i g : Nat) (c : GroupCfg) (tag frame : W32) (n : Nat) : State :=
  (List.range n).foldl (fun s k => s.muteFrame i g c { tag := tag, frame := frame + BitVec.ofNat 32 k }) s

/-- What an AUD's header says of its frame. -/
def Payload.frameInfo (p : Payload) (tag : W32) : FrameInfo :=
  { tag := tag, frame := BitVec.ofNat 32 (p.u 2 4), floor := bitAt (p.u 9 1) 0, reset := bitAt (p.u 9 1) 1, q := p.u 10 1,
    syncPoc := BitVec.ofNat 32 (p.u 11 4), syncNs := BitVec.ofNat 32 (p.u 15 4) }

/-- A frame of the group is taken for decoding: the group waits for no first frame any more, and a reset frame ends its muting (R290, R291). -/
def AudioGroup.take (x : AudioGroup) : AudioGroup := { x with coded := true, seen := true, muted := x.muted && !x.reset }

/-- A frame is begun: the missing ones before it are concealed first; the probability model gives its tables and its latents go to the
lanes (R280, R290). The tables follow from the carry state that those frames leave. -/
def State.startFrame (s : State) (i j g : Nat) (c : GroupCfg) (u : NextUnit) (p : Payload) (missing : Nat) : State :=
  let x := p.frameInfo u.tag
  let y := (s.session j).audio g
  let m := s.audioModel j c.channels
  let carry := m.carryIn x.reset (m.concealedCarry y.qLevel missing y.carry)
  let job : UnitJob :=
    { kind := tAUD, row := g, owner := j, tag := u.tag, map := p.map, specs := audElems (m.scale carry x.q).2 [], sCount := (p.subs 19).count,
      jobs := p.subJobs 19, all := p.subJobs 19 }
  let s := if missing = 0 then s else s.report j (audReport u.tag 2 0 4 y.frame g missing u.offset)
  let s := s.updAudio j g (fun y =>
    let z := { y with busy := true, curFrame := x.frame, curQ := x.q, tag := u.tag, bytes := u.size, floor := x.floor, reset := x.reset
                      concealed := false, overCap := false, rerun := false, trouble := false, coded := false, toConceal := missing
                      lostWork := false, parsedAt := some s.time, syncPoc := x.syncPoc, syncNs := x.syncNs, latents := [], kept := none }
    if x.floor then z.take else z)
  if x.floor then s else s.updDec i (fun d => { d with unit := some job })

/-- Takes a good AUD by its place among its group's frames (R290). -/
def State.takeFrame (s : State) (i j g : Nat) (c : GroupCfg) (u : NextUnit) (p : Payload) : State :=
  let y := (s.session j).audio g
  let x := p.frameInfo u.tag
  let gap := (x.frame - y.frame).toNat
  let fresh (s : State) : State :=
    let s := s.updAudio j g (fun y => { y with frame := x.frame })
    if x.reset then s.startFrame i j g c u p 0 else s.muteFrame j g c x
  if !y.seen then fresh s
  else if precedes 32 x.frame.toNat y.frame.toNat then
    ((s.count j cSyntax 1).count j cUnitsSkipped 1).report j (audReport u.tag 1 clBadOrder 2 x.frame g 0 (p.at 2))
  else if 50 < gap then
    fresh ((s.report j (audReport u.tag 2 0 3 y.frame g (min gap 0xFFFF) (p.at 2))).updAudio j g (fun y =>
      { y with muted := true, carryHeld := false, carry := [] }))
  else if y.muted then fresh (s.muteFrames j g c u.tag y.frame gap)
  else s.startFrame i j g c u p gap

/-- Frame index that an AUD names, when it reaches that far. -/
def Payload.audFrame (p : Payload) : W32 := if p.len < 6 then 0xFFFFFFFF else BitVec.ofNat 32 (p.u 2 4)

/-- AUD. A group takes one frame at a time (R279). One whose group no session decodes is skipped without a count, unless a guarded session
finds the group out of its range (R236, R247). -/
def execUnitAud (dt : Nat) (sess : SessionIx) (s : State) : Result :=
  s.unitRow dt sess.val (· = tAUD) (fun s u _ =>
    let i := sess.val
    let p := u.payload
    let g := p.u 1 1
    let t := s.takeUnit i u
    if p.len < 2 then some (s.skipUnit i u (u.rep { cls := clBadLength, offset := p.at p.len, pos := p.len, short := true } 2))
    else
      match s.audOwner i g with
      | none =>
        some (match (if 63 < g then p.damage (s.guarded i) (p.chk 1 1 false true) else none) with
          | some d => s.skipUnit i u { u.rep d 2 with poc := p.audFrame, row := g }
          | none => if s.overDrops i u then s.dropGroup i u (u.rep { cls := clBadUnit, offset := p.at p.len, pos := p.len, short := false } 3) else t)
      | some (j, c) =>
        let hash := (s.sessionModel (s.session j)).hash
        let mdlBad := !((s.session i).dec.mdls.any (fun m => decide (m.1 = p.u 0 1) && decide (m.2.2.1 = 2) && decide (m.2.2.2 = hash)))
        let lost (d : Damage) : State :=
          ((t.count j cSyntax 1).count j cUnitsSkipped 1).report j (audReport u.tag d.cause d.cls 2 p.audFrame g 0 d.offset)
        if (s.session i).dec.seq.isNone then some (if s.guarded i then lost u.outOfPlace else s.passUnit i u)
        else if ((s.session j).audio g).busy then none
        else
          match p.damage (s.guarded i) (p.audChecks mdlBad c) with
          | none => some (t.takeFrame i j g c u p)
          | some d => some (if s.overDrops i u && decide (d.cls = clBadUnit) then s.dropGroup i u (u.rep d 3) else lost d))

/-! ## Synthesis and the frame's end (R279, R289, R291 to R293) -/

/-- A frame that synthesis completes: the decoder's missing frames first, then the frame in work. -/
def AudioGroup.synthReady (x : AudioGroup) (encode : Bool) : Bool :=
  x.busy && (if encode then !x.coded else decide (0 < x.toConceal) || x.coded || x.concealed)

/-- The record of the frame that synthesis completes, before its trouble flag. -/
def AudioGroup.frameOut (x : AudioGroup) (encode : Bool) : FrameInfo :=
  if !encode && decide (0 < x.toConceal) then
    { tag := x.tag, frame := x.frame, q := x.qLevel, floor := true, concealed := true, tainted := true }
  else if x.concealed then
    { tag := x.tag, frame := x.curFrame, q := x.qLevel, floor := true, concealed := true, tainted := true, rerun := x.rerun }
  else
    { tag := x.tag, frame := x.curFrame, bytes := x.bytes, q := x.curQ, floor := x.floor, reset := x.reset, rerun := x.rerun
      tainted := !x.reset && x.tainted, overCap := x.overCap, syncPoc := x.syncPoc, syncNs := x.syncNs }

/-- The group after that frame: its carry state, its next frame index, and what is still in work. -/
def AudioGroup.afterFrame (x : AudioGroup) (encode : Bool) (carry : List W32) : AudioGroup :=
  let o := x.frameOut encode
  let more := !encode && decide (0 < x.toConceal)
  let y := { x with carry := carry, carryHeld := true, lostCarry := false, frame := o.frame + 1, tainted := o.tainted, qLevel := o.q, trouble := false }
  if more then
    let left := x.toConceal - 1
    { y with toConceal := left, busy := !(decide (left = 0) && x.lostWork), lostWork := x.lostWork && decide (left ≠ 0) }
  else
    { y with busy := false, coded := false, concealed := false, parsedAt := none, latents := [], rerun := false, kept := none
             sinceReset := if o.reset then 1 else x.sinceReset + 1 }

/-- What synthesis makes of the frame that is next: a concealed one as a floor frame at the last operating point (R279, R284, R291). -/
def AudioGroup.synthesis (x : AudioGroup) (encode : Bool) (m : AudioModel) : List W32 × List W32 :=
  if x.concealed || (!encode && decide (0 < x.toConceal)) then m.synthesise x.carry x.qLevel none
  else m.synthesise (m.carryIn x.reset x.carry) x.curQ (if x.floor then none else some x.latents)

/-- AUDIO_SYNTHESIS_DONE: the group's programs are done; synthesis leaves samples, which a decoder writes, and the carry state. -/
def execAudioSynthesisDone (dt : Nat) (sess : SessionIx) (group : GroupIx) (s : State) : Result :=
  let i := sess.val
  let g := group.val
  s.event dt (fun s =>
      let ss := s.session i
      s.power.running && isAudioKind ss.cfg.kind && (decide (ss.st = .running) || ss.ended) && (ss.audio g).synthReady (isEncodeKind ss.cfg.kind) &&
        (ss.groupCfg g).isSome && (s.groupCores i g).all (fun x => (s.core x.1 x.2).idle)) (fun s =>
    let s := (s.groupCores i g).foldl (fun s x => s.collect x.1 x.2) s
    let ss := s.session i
    let encode := isEncodeKind ss.cfg.kind
    let x := ss.audio g
    let c := (ss.groupCfg g).getD ⟨g, 1, 0, 16, 0⟩
    let (pcm, carry) := x.synthesis encode (s.audioModel i c.channels)
    let out := if encode then [] else pcm.map (pcmSample c.pcmBits)
    let counts := out.map (·.2)
    let o := { x.frameOut encode with trouble := x.trouble || counts.any (fun c => c.saturated || c.nan) }
    let s := if encode then s else (s.writeSamples i g (out.flatMap (·.1))).addSampleCounts i counts
    let s := s.updAudio i g (fun x => x.afterFrame encode carry)
    let s := if o.concealed then s.count i cConcealed 1 else s
    let s := if o.tainted then s.count i cTainted 1 else s
    s.ringPut i 2 (o.record g s.time))

/-- AUDIO_WATCHDOG: 80 ms after its header was parsed a frame that has left no record is concealed (R292). -/
def execAudioWatchdog (dt : Nat) (sess : SessionIx) (group : GroupIx) (s : State) : Result :=
  let i := sess.val
  let g := group.val
  s.event dt (fun s =>
      let x := (s.session i).audio g
      s.power.running && decide ((s.session i).cfg.kind = 4) && x.busy && x.parsedAt.any (fun t => decide (t + 4 * frameNs ≤ s.time))) (fun s =>
    let x := (s.session i).audio g
    let s := s.cancelCores i (s.groupCores i g)
    let own (u : UnitJob) : Bool := decide (u.owner = i) && u.isAud && decide (u.row = g)
    let s : State := { s with sessions := Tab.mapAll {} s.sessions (fun _ y =>
      let left := (y.dec.unit.toList ++ y.dec.redo).filter (fun u => !own u)
      { y with dec := { y.dec with unit := left.head?, redo := left.drop 1 } }) }
    let s := ((s.moduleEvent 2 0x000C (logArg 0 i) 0).count i cWatchdog 1).report i (audReport x.tag 9 0 4 x.curFrame g 1 0)
    s.updAudio i g (fun x => { x with concealed := !x.lostWork, coded := false, parsedAt := none }))

end Sys2Proof.Machine
end

