-- ==== Sys2Proof/Machine/Deliver.lean ====
section
/-! DEFINITION. What the DATA flits of a cascade link deliver (R162, R164, R322, R375, R376; log entry 14). -/

namespace Sys2Proof.Machine

/-- Channel 0: a unit of a seam row arrives at a port; the last one of a row makes it count, which its sender hears. -/
def State.deliverUnit (s : State) (d c : Nat) (down last : Bool) (bytes : Bytes) : State :=
  let n := rowUnits bytes
  if last then
    (s.updCore d c (fun k => k.updSeam down (fun m =>
      { m.receive (m.part ++ bytes) with part := [], credits := m.credits - n }))).creditBack d c down 0 1
  else s.updCore d c (fun k => k.updSeam down (fun m => { m with part := m.part ++ bytes, credits := m.credits - n }))

/-- Channel 0: credits, and counted rows, come back to the sending port. -/
def State.deliverCredits (s : State) (d c : Nat) (down : Bool) (credits rows : Nat) : State :=
  (s.updCore d c (fun k => k.updSeam down (fun m =>
    { m with grant := min 512 (m.grant + credits), flying := m.flying - rows }))).sendSeam d c down

/-- Channel 3: an arrival at this device's cinch root, or its release. -/
def State.deliverCinch (s : State) (src : Nat) (payload : Bytes) : State :=
  let i := leAt payload 0 2
  let flag := bitAt (leAt payload 4 1) 0
  if !(s.session i).bound then s
  else if bitAt (leAt payload 5 1) 0 then s.releaseCut i flag
  else s.updSession i (fun ss =>
    { ss.arrive (src * 32 + leAt payload 2 1, leAt payload 3 1) s.time with cinchUnready := ss.cinchUnready || !flag })

/-- A DATA flit for this device: channel 0 seams, channel 1 feeder bytes to the target die's space, channel 3 cinches. A die that
is fenced or without power takes nothing (R28). -/
def State.deliverData (s : State) (f : Flit) : State :=
  let die := f.target % 32
  let off := f.target / 256
  let core := off % 256
  match f.vc.val with
  | 0 =>
    if die < 24 && decide (core < 160) && s.coreUsable die core then
      if bitAt off 10 then s.deliverCredits die core (bitAt off 8) (leAt f.payload 0 2) (leAt f.payload 2 2)
      else s.deliverUnit die core (bitAt off 8) (bitAt off 9) f.payload
    else s
  | 1 =>
    if die < 24 then s.writeSpace 5 (die * 2 ^ 27 + off % 2 ^ 27) f.payload
    else if die < 28 then s.gddrWrite ((die - 24) * (24 * gib) + off % (24 * gib)) f.payload
    else s
  | 3 => s.deliverCinch f.srcRank.val f.payload
  | _ => s

/-- DATA. -/
def execCascadeData (dt : Nat) (q : Fin 4) (f : Flit) (s : State) : Result :=
  s.event dt (fun s => s.portUp q.val) (fun s => (s.decoded q.val f).takeSequenced q.val ftData f (fun s => s.deliverData f))

end Sys2Proof.Machine
end

