-- ==== Sys2Proof/Machine/Lanes.lean ====
section
/-! DEFINITION. Decoding lanes (R243 to R245, R252, R255, R258 to R260): what a decoded PIC, ROW or AUD gives its picture or frame; and
draining a session (R254, R341). -/

namespace Sys2Proof.Machine

/-! ## Decoded units -/

/-- A unit's elements in order, each with the payload offset its substream had reached (R243). -/
def UnitJob.elems (u : UnitJob) : List (Elem × Nat) :=
  interleave u.sCount u.specs.length (fun j => ((u.done.find? (fun d => d.1 = j)).map (·.2)).getD [])

/-- The first of the errors of a decoded unit, as damage. -/
def UnitJob.damage (u : UnitJob) (errors : List (Nat × Nat)) : Option Damage :=
  (firstBad (errors.map (fun e => { cls := e.1, pos := e.2, bound := false : Bad }))).map (fun b =>
    { cls := b.cls, offset := u.map.getD (min b.pos (u.map.length - 1)) 0, pos := b.pos, short := false })

/-- The lane errors that an unguarded session sees (R255). -/
def laneFlags (errors : List (Nat × Nat)) : List (Nat × Nat) := errors.filter (fun e => decide (e.1 = clSubstreamEnd) || decide (e.1 = clOverrun))

def UnitJob.rep (u : UnitJob) (d : Damage) (action : Nat) (poc : W32) (row : Nat := 0xFFFF) : Report :=
  { tag := u.tag, cause := d.cause, cls := d.cls, unitType := u.kind, action := action, poc := poc, row := row, offset := d.offset }

/-- An unguarded session takes the decoded values as they stand, and counts and reports the lane's error (R255). -/
def State.acceptFlags (s : State) (i : Nat) (u : UnitJob) (poc : W32) (row : Nat) : State :=
  match u.damage (laneFlags u.errors) with
  | none => s
  | some d => (s.count i cSyntax 1).report i (u.rep d 1 poc row)

/-- The integers of a list of elements. -/
def elemValue : Elem → Int
  | .raw _ v => v
  | .hyper _ q => q
  | .latent _ q => q
  | .motionX d => d
  | .motionY d => d

def UnitJob.symbols (u : UnitJob) : List Int := u.elems.map (fun e => elemValue e.1)

/-- The hyper-latents of a PIC are decoded; damaged ones are taken as means in a guarded session (R260). -/
def State.finishPic (s : State) (i : Nat) (u : UnitJob) (p : Picture) : State :=
  let keep (s : State) : State := s.updSession i (fun ss => ss.updPic p.poc (fun q =>
    { q with picDone := true, hyper := u.symbols, kept := q.kept ++ [u] }))
  if !s.guarded i then keep (s.acceptFlags i u p.poc 0xFFFF)
  else
    match u.damage u.errors with
    | none => keep s
    | some d =>
      ((s.count i cSyntax 1).report i (u.rep d 4 p.poc)).updSession i (fun ss => ss.updPic p.poc (fun q =>
        { q with picDone := true, hyperLost := true, kept := q.kept ++ [u] }))

/-- What the motion elements of a row give: vectors, errors with their offsets, and whether a reference index is out of its list. -/
structure RowMotion where
  map : Tab MotionVec
  errors : List (Nat × Nat) := []
  refBad : Bool := false
  rest : List (Elem × Nat)
  deriving DecidableEq, Repr

/-- A vector clamped to its range (R252). -/
def clampVec (v lim : Int) : Int := max (-lim) (min lim v)

/-- Elements of one sub-block: reference index and deltas, added to the vector on the left (R240, R241). -/
def RowMotion.step (nrefs y : Nat) (m : RowMotion) (x : Nat) : RowMotion :=
  let (ref, refAt, l) : Nat × Nat × List (Elem × Nat) := if refBits nrefs = 0 then (0, 0, m.rest) else
    match m.rest with
    | (.raw _ v, o) :: t => (v, o, t)
    | l => (0, 0, l)
  match l with
  | (.motionX dx, _) :: (.motionY dy, o) :: t =>
    let p := motionLeft m.map y x
    let vx := p.x + dx
    let vy := p.y + dy
    { map := Tab.set {} m.map (motionKey y x) { x := clampVec vx 4096, y := clampVec vy 2048, ref := ref }
      errors := m.errors ++ (if nrefs ≤ ref then [(clBadValue, refAt)] else []) ++ (if vecInRange vx vy then [] else [(clBadValue, o)])
      refBad := m.refBad || decide (nrefs ≤ ref)
      rest := t }
  | _ => m

/-- The motion of a row from its elements after the gains. -/
def rowMotion (f : SeqFmt) (nrefs row : Nat) (m : Tab MotionVec) (els : List (Elem × Nat)) : RowMotion :=
  if nrefs = 0 then { map := m, rest := els }
  else
    (List.range 4).foldl (fun (a : RowMotion) k =>
      if f.subRows ≤ 4 * row + k then a else (List.range f.subCols).foldl (RowMotion.step nrefs (4 * row + k)) a) { map := m, rest := els }

/-- Gain levels by CB with those of one more row, which its first elements carry. -/
def putGains (cols : Nat) (gains : List Nat) (row : Nat) (els : List Int) : List Nat :=
  (List.range ((row + 1) * cols)).map (fun k => if k < row * cols then gains.getD k 0 else (els.getD (k - row * cols) 0).toNat)

/-- A ROW is decoded: a guarded session conceals a damaged one, an unguarded one drops the picture for a reference index out of its
list and accepts the rest (R255, R258, R259). -/
def State.finishRow (s : State) (i : Nat) (u : UnitJob) (p : Picture) : State :=
  let f := (s.session i).fmt
  let els := u.elems
  let m := rowMotion f p.refs.length u.row p.motion (els.drop f.cbCols)
  let keep (s : State) : State := s.updSession i (fun ss => ss.updPic p.poc (fun q =>
    { q with
      motion := m.map, decoded := q.decoded + 1, kept := q.kept ++ [u], gains := putGains f.cbCols q.gains u.row (els.map (fun e => elemValue e.1))
      latents := Tab.set [] q.latents u.row (m.rest.map (fun e => elemValue e.1)) }))
  if s.guarded i then
    match u.damage (u.errors ++ m.errors) with
    | none => keep s
    | some d =>
      ((s.count i cSyntax 1).report i { u.rep d 4 p.poc u.row with count := 1 }).concealRows i p.poc u.row 1
  else if m.refBad then
    match u.damage (laneFlags u.errors ++ m.errors) with
    | some d => (s.count i cSyntax 1).dropPicture i p.poc (u.rep d 3 p.poc u.row)
    | none => s
  else keep (s.acceptFlags i u p.poc u.row)

/-- An AUD is decoded: a guarded session discards a damaged one, whose frame is then missing (R261, R290). `i` is the session whose
stream carries it. -/
def State.finishAud (s : State) (i : Nat) (u : UnitJob) : State :=
  let j := u.owner
  let g := u.row
  let x := (s.session j).audio g
  let keep (s : State) : State := s.updAudio j g (fun x => { x.take with latents := u.symbols, kept := some u })
  if !x.busy || x.concealed then s
  else if !s.guarded i then
    match u.damage (laneFlags u.errors) with
    | none => keep s
    | some d => keep ((s.count j cSyntax 1).report j (audReport u.tag d.cause d.cls 1 x.curFrame g 0 d.offset))
  else
    match u.damage u.errors with
    | none => keep s
    | some d =>
      (((s.count j cSyntax 1).count j cUnitsSkipped 1).report j (audReport u.tag d.cause d.cls 2 x.curFrame g 0 d.offset)).updAudio j g (fun x =>
        { x with busy := decide (0 < x.toConceal), lostWork := true, parsedAt := none })

/-- A unit is decoded a second time, after the lanes were lost: the results of the first time stand (R318). -/
def State.finishAgain (s : State) (i : Nat) (u : UnitJob) : State :=
  if u.isAud then s.updAudio u.owner u.row (fun x => { x with coded := x.busy && !x.concealed, kept := some u })
  else s.updSession i (fun ss =>
    let pics := match ss.pics with
      | p :: ps => (if u.kind = tPIC then { p with picDone := true } else { p with decoded := redoRow (ss.dec.unit.toList ++ ss.dec.redo) p.redoTo }) :: ps
      | [] => []
    { ss with pics := pics })

/-- Every substream of the unit in the lanes is decoded; a unit that is to be decoded again is next. -/
def State.finishUnit (s : State) (i : Nat) (u : UnitJob) : State :=
  let s := s.updDec i (fun d => { d with unit := d.redo.head?, redo := d.redo.drop 1 })
  if u.again then s.finishAgain i u
  else if u.kind = tAUD then s.finishAud i u
  else
    match (s.session i).pics.head? with
    | none => s
    | some p => if u.kind = tPIC then s.finishPic i u p else s.finishRow i u p

/-! ## SUBSTREAM_DECODE (R244, R245) -/

/-- The lanes may work on a unit: an AUD waits until the missing frames before it are concealed (R279, R280). -/
def State.laneMayStart (s : State) (u : UnitJob) : Bool := !u.isAud || decide (((s.session u.owner).audio u.row).toConceal = 0)

/-- SUBSTREAM_DECODE: a lane decodes its next substream of the unit; with the last one the unit is decoded. -/
def execSubstreamDecode (dt : Nat) (sess : SessionIx) (lane : LaneIx) (s : State) : Result :=
  let i := sess.val
  s.event dt (fun s => s.power.running && (decide ((s.session i).st = .running) || (s.session i).ended) && (match s.decodeJob i lane.val with
      | none => false
      | some (u, _) => s.laneMayStart u && s.laneTurnOf u.owner (s.session u.owner).plan.streamDie lane.val)) (fun s =>
    match s.decodeJob i lane.val with
    | none => s
    | some (u, j) =>
      let own := s.session u.owner
      let r := decodeSubstream (entropyTables (s.sessionModel own).package) j.pos (substreamElems u.sCount j.index u.specs) j.bytes
      let v := { u with jobs := u.jobs.erase j, done := u.done ++ [(j.index, r.elems)], errors := u.errors ++ r.errors }
      let s := s.laneDone own.plan.streamDie lane.val u.owner false r.endErr r.overrun
      (if v.jobs.isEmpty then s.finishUnit i v else s.updDec i (fun d => { d with unit := some v })).settleDecode i)

/-! ## DRAIN and its end (R254, R341) -/

/-- DRAIN: an incomplete picture group at the end of the data is truncated. -/
def execDrain (dt : Nat) (p : Port) (k : Slot) (s : State) : Result :=
  s.sessionRow dt p k 0x24 neverLate (fun s req =>
    let i := sessOf req
    s.sessionChecked p.val k.val i (s.genChecks p.val k.val req [.running]) (fun s =>
      let s := s.updSession i (fun ss => { ss with st := .draining })
      ((s.settleRefused i).settleDecode i).answerFor p.val k.val i {}))

/-- The work that a session accepted is done. -/
def Session.workDone (ss : Session) : Bool :=
  ss.pics.isEmpty && ss.outHeld.isEmpty && ss.recHeld.isEmpty && ss.groups.all (fun e => !e.2.busy) &&
    (match ss.cfg.kind with
     | 1 => ss.lib.all (fun e => !e.2.writing)
     | 2 => ss.dec.unit.isNone && (ss.dec.next true).isNone && ss.lib.all (fun e => !e.2.writing)
     | 3 => ss.groups.all (fun e => e.2.blocks.isEmpty)
     | _ => !ss.takesStream || (ss.dec.unit.isNone && (ss.dec.next true).isNone))

/-- DRAIN_COMPLETE: a standalone audio encoder first closes its coded sequence; then the entry is written and the session is
BOUND. -/
def execDrainComplete (dt : Nat) (sess : SessionIx) (s : State) : Result :=
  let i := sess.val
  s.event dt (fun s => s.power.running && (s.session i).ended && (s.session i).workDone) (fun s =>
    let ss := s.session i
    let s := if decide (ss.cfg.kind = 3) && ss.cfg.attach.isNone && ss.sequenceOpen then
        (s.appendStream i endUnit).updSession i (fun x => { x.unseeGroups with dec := { x.dec with mdls := [], seq := none } })
      else s
    if (s.session i).outHeld.isEmpty then (s.updSession i (fun x => { x with st := .bound })).ringPut i 5 [] else s)

end Sys2Proof.Machine
end

