-- ==== Sys2Proof/Machine/Regs.lean ====
section
/-! DEFINITION. The register map (R446 to R454): what every register reads, writes to registers through BAR0, the SMBus target and
the die windows, die status mirrors and session counter windows. -/

namespace Sys2Proof.Machine

/-! ## Hub registers (R448) -/

/-- The 64-bit poison and status words of a CXL port, and HUB_PCIE_STATUS_p, by offset within their block. -/
def State.pcieReg (s : State) (p o : Nat) : Nat := if o = 0 then (s.pciePort p).status else if o = 4 then (s.pciePort p).winGib else 0
def State.cxlReg (s : State) (x o : Nat) : Nat := if o = 0 then (s.cxlPort x).status else if o = 4 then (s.cxlPort x).poisoned else 0
def State.poolReg (s : State) (n o : Nat) : Nat := if o = 0 then s.hubPoolFree n else if o = 4 then s.hubPoolWait n else 0
def State.mbxReg (s : State) (p o : Nat) : Nat :=
  if o = 0 then s.hubMbxSeq p else if o = 4 then (s.port p).flags else if o = 8 then (s.port p).events else 0

/-- The hub register at an offset; reserved space reads 0. Reading HUB_TIME_LO and HUB_LOG_NEXT_LO also latches their upper halves:
those reads are commands of their own. -/
def State.hubReg (s : State) (o : Nat) : Nat :=
  if o = 0x10 then s.straps.toNat
  else if o = 0x20 then hubRcpSupport
  else if 0x100 ≤ o ∧ o < 0x140 then s.poolReg ((o - 0x100) / 16) (o % 16)
  else if o = 0x200 then s.hubOwner
  else if o = 0x204 then s.owner.nonce.toNat
  else if o = 0x208 then s.hubLeaseLeft
  else if 0x300 ≤ o ∧ o < 0x340 then s.mbxReg ((o - 0x300) / 16) (o % 16)
  else if o = 0x400 then s.time % 2 ^ 32
  else if o = 0x404 then s.log.timeHi.toNat
  else if o = 0x500 then s.log.next % 2 ^ 32
  else if o = 0x504 then s.log.nextHi.toNat
  else if 0x600 ≤ o ∧ o < 0x620 then s.pcieReg ((o - 0x600) / 16) (o % 16)
  else if 0x700 ≤ o ∧ o < 0x720 then s.cxlReg ((o - 0x700) / 16) (o % 16)
  else if o = 0x800 then s.clocks.status
  else if o = 0x804 then s.hubPllStable % 2 ^ 32
  else if o = 0x808 then s.hubPllStable / 2 ^ 32
  else if o = 0x810 then s.power.capW
  else if o = 0x814 then s.power.inputW % 65536 + 65536 * (s.power.inputMv10 % 65536)
  else if o = 0x818 then s.hubDiePwr
  else if o = 0x820 then s.thermal.status
  else if o = 0x824 then s.hubCoolant
  else if 0x900 ≤ o ∧ o < 0x980 ∧ o % 4 = 0 then s.hubDieTemp ((o - 0x900) / 4)
  else if o = 0xA00 then s.boot.resetReason
  else if o = 0xA04 then s.hubBootStatus
  else if o = 0xA08 then s.hubFuseStatus
  else 0

/-! ## Die registers (R454) -/

/-- CD_CORE_STATUS, CD_SFU_CTRL and the other registers of a core die at an offset of its window. CD_ROW_CANCEL and the shadow
window, whose reads act or are not allowed, are not here. -/
def State.coreDieReg (s : State) (d o : Nat) : Nat :=
  if 0x8000 ≤ o ∧ o < 0x8000 + 160 * 0x40 ∧ o % 0x40 = 0 then (s.core d ((o - 0x8000) / 0x40)).statusReg
  else if 0x10000 ≤ o ∧ o < 0x10000 + 160 * 0x10 ∧ o % 0x10 = 0 then (s.core d ((o - 0x10000) / 0x10)).sfu.ctrlReg
  else if 0x20000 ≤ o ∧ o < 0x20000 + 160 * 0x20 ∧ o % 4 = 0 then (s.core d ((o - 0x20000) / 0x20)).bankOwnReg (o % 0x20 / 4)
  else if 0x24000 ≤ o ∧ o < 0x24000 + 160 * 4 ∧ o % 4 = 0 then (s.core d ((o - 0x24000) / 4)).bankPwrReg
  else if 0x30000 ≤ o ∧ o < 0x30000 + 160 * 0x10 ∧ o % 8 = 0 then s.cdSeamStatus d ((o - 0x30000) / 0x10) (decide (o % 0x10 = 8))
  else 0

/-- A feeder queue's registers by their offset in the queue window (R151). -/
def FeederQueue.reg (f : FeederQueue) (o : Nat) : Nat :=
  if o = 0 then f.cfgReg
  else if o = 8 then f.ringLo.toNat
  else if o = 0xC then f.ringHi.toNat
  else if o = 0x10 then f.tail
  else if o = 0x14 then f.head
  else if o = 0x18 then f.cplLo.toNat
  else if o = 0x1C then f.cplHi.toNat
  else 0

def State.memDieReg (s : State) (m o : Nat) : Nat :=
  if 0x2000 ≤ o ∧ o < 0x2080 then
    let c := s.channel m ((o - 0x2000) / 16)
    if o % 16 = 0 then c.status else if o % 16 = 4 then c.err else 0
  else if 0x10000 ≤ o ∧ o < 0x11000 then (s.feeder m ((o - 0x10000) / 0x40)).reg (o % 0x40)
  else 0

/-- SD_LANE_STATUS (R245). -/
def LaneStatus.reg (l : LaneStatus) (busy : Bool) : Nat :=
  b2n busy + 2 * b2n l.encode + 4 * b2n l.endErr.isSet + 8 * b2n l.overrun.isSet + 256 * l.session + 65536 * l.substreams

def State.streamDieReg (s : State) (k o : Nat) : Nat :=
  if 0x20000 ≤ o ∧ o < 0x20200 ∧ o % 16 = 0 then (s.lane k ((o - 0x20000) / 16)).reg (s.laneBusy k ((o - 0x20000) / 16)) else 0

def State.linkDieReg (s : State) (o : Nat) : Nat :=
  if o = 0 then s.ldCascade
  else if 0x100 ≤ o ∧ o < 0x180 then
    let p := s.cascadePort ((o - 0x100) / 0x20)
    if o % 0x20 = 0 then p.status else if o % 0x20 = 4 then p.fecSymbols else if o % 0x20 = 8 then p.fecUncorrectable else 0
  else 0

/-- A firmware read of a die window: all ones from a fenced die. -/
def State.windowReg (s : State) (addr : Nat) : Nat :=
  let d := addr / 0x2000000
  let o := addr % 0x2000000
  if s.dieFenced d then 0xFFFFFFFF
  else if d < 24 then s.coreDieReg d o
  else if d < 28 then s.memDieReg (d - 24) o
  else if d < 30 then s.streamDieReg (d - 28) o
  else if d = linkDie then s.linkDieReg o
  else 0

/-! ## Die status mirrors (R450 to R452) -/

/-- `kind` of HUB_MIR_HDR. -/
def dieKind (d : Nat) : Nat := if d < 24 then 0 else if d < 28 then 1 else if d < 30 then 2 else if d = hubDie then 3 else 4

/-- HUB_MIR_HDR. -/
def State.mirrorHeader (s : State) (d : Nat) : Nat :=
  d + 32 * dieKind d + 256 * b2n (s.dieFenced d) + 512 * b2n (s.diePowered d) + 1024 * (s.die d).retired.length

/-- A block of `n` words from an offset. -/
def wordBlock (base n : Nat) (f : Nat → Nat) : List (Nat × Nat) := (List.range n).map (fun k => (base + 4 * k, f k))

/-- Corrected scratch errors of two neighbouring banks as the mirror packs them. -/
def State.errPair (s : State) (d k : Nat) : Nat :=
  let n (j : Nat) : Nat := min 0xFFFF (Tab.get 0 (s.core d (j / 8)).errCount (j % 8))
  n (2 * k) + 65536 * n (2 * k + 1)

/-- Guard engines bound, a bit per engine. -/
def State.guardMask (s : State) (sd : Nat) : Nat := ((List.range 8).map (fun e => if (s.guardOf sd e).isSome then 2 ^ e else 0)).sum

/-- A die's mirror body as its registers stand, in ascending offset (R452). -/
def State.mirrorWords (s : State) (d : Nat) : List (Nat × Nat) :=
  if d < 24 then
    wordBlock 0x100 160 (fun c => (s.core d c).statusReg) ++ wordBlock 0x400 160 (fun c => (s.core d c).sfu.ctrlReg) ++
      wordBlock 0x800 160 (fun c => (s.core d c).bankPwrReg) ++ wordBlock 0x1000 1280 (fun k => (s.core d (k / 8)).bankOwnReg (k % 8)) ++
      wordBlock 0x2800 320 (fun k => s.cdSeamStatus d (k / 2) (decide (k % 2 = 1))) ++ wordBlock 0x3000 640 (s.errPair d)
  else if d < 28 then
    let m := d - 24
    wordBlock 0x100 64 (fun q => (s.feeder m q).cfgReg) ++ wordBlock 0x200 64 (fun q => (s.feeder m q).head) ++
      wordBlock 0x300 64 (fun q => (s.feeder m q).tail) ++
      wordBlock 0x400 16 (fun k => if k % 2 = 0 then (s.channel m (k / 2)).status else (s.channel m (k / 2)).err) ++
      [(0x440, (s.poisonList m).length)]
  else if d < 30 then wordBlock 0x100 32 (fun l => (s.lane (d - 28) l).reg (s.laneBusy (d - 28) l)) ++ [(0x180, s.guardMask (d - 28))]
  else if d = linkDie then
    (0x100, s.ldCascade) :: (List.range 4).flatMap (fun q =>
      let p := s.cascadePort q
      [(0x110 + 16 * q, p.status), (0x114 + 16 * q, p.fecSymbols), (0x118 + 16 * q, p.fecUncorrectable)])
  else []

/-- The mirror a die pushes. -/
def State.pushedMirror (s : State) (d : Nat) : Mirror :=
  { pushed := true
    snapTime := s.time
    body := (s.mirrorWords d).filterMap (fun w => if w.2 = 0 then none else some (w.1, BitVec.ofNat 32 w.2))
    crc := (List.range 4).map (fun e => if (neighbour d e).isNone then 0 else Tab.get 0 (s.die d).edgeCrc e) }

/-- MIRROR_PUSH: a powered, unfenced die writes its body, HUB_MIR_TIME last. -/
def execMirrorPush (dt : Nat) (die : DieIx) (s : State) : Result :=
  s.event dt (fun s => s.power.running && s.dieRuns die.val) (fun s => s.updDie die.val (fun d => { d with mirror := s.pushedMirror die.val }))

/-- A word of a mirror: zero until its die's first push, but a fence or power-off shows in the header at once. -/
def State.mirrorReg (s : State) (d o : Nat) : Nat :=
  let m := (s.die d).mirror
  if o = 0 then (if m.pushed || s.dieFenced d || !s.diePowered d then s.mirrorHeader d else 0)
  else if o = 8 then m.snapTime % 2 ^ 32
  else if o = 0xC then m.snapTime / 2 ^ 32
  else if 0x10 ≤ o ∧ o < 0x20 ∧ o % 4 = 0 then m.crc.getD ((o - 0x10) / 4) 0
  else (Tab.get 0 m.body o).toNat

/-! ## Reads through BAR0 and the SMBus target (R446, R447, R449, R453) -/

/-- A session's counter window; that of an IDLE session reads zero. -/
def State.windowByte (s : State) (o : Nat) : Byte :=
  let ss := s.session (o / 256)
  if ss.st = .idle then 0 else ss.window.getD (o % 256) 0

/-- One aligned word of a region that takes only 4-byte and 8-byte accesses. -/
def State.bar0Word (s : State) (a : Nat) : Bytes :=
  if a < 0xA10 then natLE 4 (s.hubReg a)
  else if 0x400000 ≤ a ∧ a < 0x600000 then natLE 4 (s.mirrorReg ((a - 0x400000) / 0x10000) (a % 0x10000))
  else if 0x600000 ≤ a ∧ a < 0x610000 then (List.range 4).map (fun k => s.windowByte (a - 0x600000 + k))
  else zeros 4

/-- A byte of the MSI-X pending-bit array. -/
def PcieState.pbaByte (ps : PcieState) (o : Nat) : Byte :=
  BitVec.ofNat 8 ((List.range 8).map (fun k => if ps.pending.contains (8 * o + k) then 2 ^ k else 0)).sum

/-- A byte of the regions that take any access size. -/
def State.bar0Byte (s : State) (p a : Nat) : Byte :=
  if 0x80000 ≤ a ∧ a < 0x88000 then ((s.pciePort p).readMsix (a - 0x80000) 1).headD 0
  else if 0x88000 ≤ a ∧ a < 0x88100 then (s.pciePort p).pbaByte (a - 0x88000)
  else if 0x100000 ≤ a ∧ a < 0x200000 then (s.readBank ((a - 0x100000) / 0x40000) (a % 0x40000) 1).headD 0
  else 0

/-- What a read of BAR0 through a port returns, apart from what reading latches; a read of a wrong size or alignment returns zeros. -/
def State.readBar0 (s : State) (p a n : Nat) : Bytes :=
  if (0x80000 ≤ a ∧ a < 0x88100) ∨ (0x100000 ≤ a ∧ a < 0x200000) then (List.range n).map (fun k => s.bar0Byte p (a + k))
  else if n = 4 ∧ a % 4 = 0 then s.bar0Word a
  else if n = 8 ∧ a % 8 = 0 then s.bar0Word a ++ s.bar0Word (a + 4)
  else zeros n

/-- The register behind an SMBus command code, when it is answered. -/
def State.smbusReg (s : State) (code : Nat) : Option Nat :=
  if !s.board.aux then none
  else if code = 0x10 then some s.boot.resetReason
  else if code = 0x12 then some s.clocks.status
  else if !s.warmerRuns then none
  else if code = 0x11 then some s.hubBootStatus
  else if code = 0x13 then some s.thermal.status
  else if code = 0x14 then some s.hubCoolant
  else if code = 0x15 then some (s.power.inputW % 65536 + 65536 * (s.power.inputMv10 % 65536))
  else if code = 0x17 then some (if s.serves 2 then s.hubOwner else 0)
  else none

/-! ## Register writes -/

/-- Clears the W1C bits of HUB_CLK_STATUS, HUB_THERM_STATUS and HUB_CXL_STATUS_x. -/
def State.clearClk (s : State) (v : Nat) : State :=
  { s with clocks := { s.clocks with refclkLost := s.clocks.refclkLost.clear (bitAt v 1) s.wall, pllLost := s.clocks.pllLost.clear (bitAt v 2) s.wall } }

def State.clearTherm (s : State) (v : Nat) : State :=
  let t := if bitAt v 10 then s.clearTrip else s
  { t with thermal := { t.thermal with coolantWarn := t.thermal.coolantWarn.clear (bitAt v 11) s.wall } }

def State.clearCxl (s : State) (x v : Nat) : State := s.updCxl x (fun c => { c with portLost := c.portLost.clear (bitAt v 7) s.wall })

def PcieState.clearFlags (ps : PcieState) (v now : Nat) : PcieState :=
  { ps with linkLost := ps.linkLost.clear (bitAt v 12) now, bar2Hole := ps.bar2Hole.clear (bitAt v 13) now }

/-- A word written into the hub registers through port `p` (R447). -/
def State.writeHub (s : State) (p o v : Nat) : State :=
  if o = 0x304 + 16 * p then s.updPort p (fun m => m.clearFlags v s.wall)
  else if o = 0x600 + 16 * p then s.updPcie p (fun ps => ps.clearFlags v s.wall)
  else if o = 0x604 + 16 * p then s.updPcie p (fun ps => { ps with winGib := v % 128 })
  else if !s.ownerForWrite p then s
  else if o = 0x700 then s.clearCxl 0 v
  else if o = 0x710 then s.clearCxl 1 v
  else if o = 0x800 then s.clearClk v
  else if o = 0x820 then s.clearTherm v
  else s

/-- The 4-byte words of an aligned 4-byte or 8-byte access, lower address first (R447). -/
def accessWords (a : Nat) (bs : Bytes) : List (Nat × Nat) :=
  if bs.length = 4 ∧ a % 4 = 0 then [(a, leNat bs)]
  else if bs.length = 8 ∧ a % 8 = 0 then [(a, leNat (bs.take 4)), (a + 4, leNat (bs.drop 4))]
  else []

/-- A write through a port's BAR0; bank 1 is absent when the straps make one port (R326). -/
def State.writeBar0 (s : State) (p a : Nat) (bs : Bytes) : State :=
  if a < 0xA10 then (accessWords a bs).foldl (fun s w => s.writeHub p w.1 w.2) s
  else
    let s := match part a bs 0x80000 0x88000 with
      | some (o, b) => s.writeMsix p o b
      | none => s
    (List.range 4).foldl (fun s k =>
      match part a bs (0x100000 + k * 0x40000) (0x140000 + k * 0x40000) with
      | some (o, b) =>
        if k = p then s.writeBank p o b
        else if k = 1 && !s.portPresent 1 then s
        else s.updPort p (MbxPort.setForeign s.wall)
      | none => s) s

/-- A write through the SMBus target (R449): `wake`, the two W1C registers; a read-only code discards it, any other is refused. -/
def State.writeSmbus (s : State) (code v : Nat) : State :=
  if code = 0x12 then s.clearClk v
  else if code = 0x13 then s.clearTherm v
  else if code = 0x16 then (if bitAt v 0 then s.wakeUp else s)
  else if [0x10, 0x11, 0x14, 0x15, 0x17].contains code then s
  else s.nackBus

/-- CD_SFU_CTRL: `shadow_valid` is written, then `swap_now` acts (R123). -/
def Sfu.writeCtrl (u : Sfu) (v now : Nat) : Sfu :=
  let u : Sfu := { u with swapRefused := u.swapRefused.clear (bitAt v 4) now, swapDeferred := u.swapDeferred.clear (bitAt v 5) now
                          shadowValid := bitAt v 1 }
  if bitAt v 0 then u.requestSwap now else u

/-- CD_BANK_OWN: the flag is cleared, then the handover is requested (R140). -/
def Core.writeBankOwn (c : Core) (b v now : Nat) : Core :=
  (c.updBank b (fun o => { o with refused := o.refused.clear (bitAt v 8) now })).requestOwn b (bits v 6 4) now

/-- CD_BANK_PWR: the flag is cleared, then each group takes its mode (R144). -/
def Core.writeBankPwr (c : Core) (v now : Nat) : Core :=
  let c := { c with modeRefused := c.modeRefused.clear (bitAt v 6) now }
  (c.setMode 0 (bits v 1 0) now).setMode 1 (bits v 3 2) now

/-- A word into a shadow window (R121, R122). -/
def Sfu.writeShadow (u : Sfu) (word : Nat) (d : W32) : Sfu :=
  if u.swapPending then { u with held := u.held ++ [(word, d)] } else { u.writeWord u.shadow word d with shadowValid := false }

def State.writeCoreDie (s : State) (d o v : Nat) : State :=
  if 0x10000 ≤ o ∧ o < 0x10000 + 160 * 0x10 ∧ o % 0x10 = 0 then s.updCore d ((o - 0x10000) / 0x10) (fun c => c.updSfu (fun u => u.writeCtrl v s.wall))
  else if 0x20000 ≤ o ∧ o < 0x20000 + 160 * 0x20 then s.updCore d ((o - 0x20000) / 0x20) (fun c => c.writeBankOwn (o % 0x20 / 4) v s.wall)
  else if 0x24000 ≤ o ∧ o < 0x24000 + 160 * 4 then s.updCore d ((o - 0x24000) / 4) (fun c => c.writeBankPwr v s.wall)
  else if 0x1000000 ≤ o ∧ o < 0x1000000 + 160 * 0x4000 then
    s.updCore d ((o - 0x1000000) / 0x4000) (fun c => c.updSfu (fun u => u.writeShadow (o % 0x4000 / 4) (BitVec.ofNat 32 v)))
  else s

/-- A feeder queue's registers (R151). -/
def FeederQueue.write (f : FeederQueue) (o v now : Nat) : FeederQueue :=
  if o = 0 then
    { f with priority := bits v 2 0, maxOut := bits v 9 3, enable := bitAt v 10, cancelling := f.cancelling || bitAt v 11
             cancelDone := f.cancelDone.clear (bitAt v 12) now, askedAt := if f.enable then f.askedAt else now }
  else if o = 8 then { f with ringLo := BitVec.ofNat 32 v }
  else if o = 0xC then { f with ringHi := BitVec.ofNat 32 v }
  else if o = 0x10 then { f with tail := v, askedAt := if f.head = f.tail then now else f.askedAt }
  else if o = 0x18 then { f with cplLo := BitVec.ofNat 32 v }
  else if o = 0x1C then { f with cplHi := BitVec.ofNat 32 v }
  else f

def State.writeMemDie (s : State) (m o v : Nat) : State :=
  if 0x2000 ≤ o ∧ o < 0x2080 ∧ o % 16 = 0 then
    s.updChannel m ((o - 0x2000) / 16) (fun c => { c with retrainFail := c.retrainFail.clear (bitAt v 2) s.wall })
  else if 0x10000 ≤ o ∧ o < 0x11000 then s.updFeeder m ((o - 0x10000) / 0x40) (fun f => f.write (o % 0x40) v s.wall)
  else s

def State.writeStreamDie (s : State) (k o v : Nat) : State :=
  if 0x20000 ≤ o ∧ o < 0x20200 ∧ o % 16 = 0 then
    s.updLane k ((o - 0x20000) / 16) (fun l => { l with endErr := l.endErr.clear (bitAt v 2) s.wall, overrun := l.overrun.clear (bitAt v 3) s.wall })
  else s

def State.writeLinkDie (s : State) (o v : Nat) : State :=
  if o = 0 then { s with cascade := { s.cascade with timeUnlocked := s.cascade.timeUnlocked.clear (bitAt v 17) s.wall } }
  else if 0x100 ≤ o ∧ o < 0x180 ∧ o % 0x20 = 0 then s.updCascadePort ((o - 0x100) / 0x20) (fun p => { p with lost := p.lost.clear (bitAt v 8) s.wall })
  else s

/-- A firmware write into a die window (R454): a fenced die, and one without power, drops it. -/
def State.writeWindow (s : State) (addr v : Nat) : State :=
  let d := addr / 0x2000000
  let o := addr % 0x2000000
  if !s.diePowered d || decide (addr % 4 ≠ 0) then s
  else if d < 24 then s.writeCoreDie d o v
  else if d < 28 then s.writeMemDie (d - 24) o v
  else if d < 30 then s.writeStreamDie (d - 28) o v
  else if d = linkDie then s.writeLinkDie o v
  else s

/-- The writer's path to its registers is there. -/
def State.writerLive (s : State) : Writer → Bool
  | .bar0 p => s.power.running && s.pcieDecodes p.val
  | .smbus => s.warmerRuns
  | .firmware => s.power.running

/-- The effect of a register write. The SMBus target takes 4-byte block transfers and refuses any other count; the control processor
writes whole words (log entry 65). -/
def State.writeReg (s : State) (w : Writer) (addr : Nat) (data : Bytes) : State :=
  match w with
  | .bar0 p => s.writeBar0 p.val addr data
  | .smbus => if data.length = 4 then s.writeSmbus addr (leNat data) else s.nackBus
  | .firmware => if data.length = 4 then s.writeWindow addr (leNat data) else s

/-- REGISTER_WRITE: takes effect, clears W1C bits, or is dropped. -/
def execRegisterWrite (dt : Nat) (w : Writer) (addr : Nat) (data : Bytes) (s : State) : Result :=
  s.event dt (fun s => s.writerLive w) (fun s => s.writeReg w addr data)

end Sys2Proof.Machine
end

