-- ==== Sys2Proof/Machine/Dispatch.lean ====
section
/-! DEFINITION. The meaning of every command: one arm per row of the table. -/

namespace Sys2Proof.Machine

def exec (i : Instr) (s : State) : Host.Outcome State Fault Refusal :=
  match i with
  | .auxPowerOn dt => Sys2Proof.Machine.execAuxPowerOn dt s
  | .auxPowerOff dt => Sys2Proof.Machine.execAuxPowerOff dt s
  | .supply54vRemoved dt mv10 => Sys2Proof.Machine.execSupply54vRemoved dt mv10 s
  | .supply54vRestored dt mv10 => Sys2Proof.Machine.execSupply54vRestored dt mv10 s
  | .railSequence dt failing => Sys2Proof.Machine.execRailSequence dt failing s
  | .railFault dt rail => Sys2Proof.Machine.execRailFault dt rail s
  | .supplyWarn dt mv10 => Sys2Proof.Machine.execSupplyWarn dt mv10 s
  | .supplyFault dt mv10 => Sys2Proof.Machine.execSupplyFault dt mv10 s
  | .moduleReset dt => Sys2Proof.Machine.execModuleReset dt s
  | .boot dt straps => Sys2Proof.Machine.execBoot dt straps s
  | .pllStartTimeout dt domain => Sys2Proof.Machine.execPllStartTimeout dt domain s
  | .pllWindow dt domain count256 => Sys2Proof.Machine.execPllWindow dt domain count256 s
  | .perstAssert dt p => Sys2Proof.Machine.execPerstAssert dt p s
  | .perstRelease dt p => Sys2Proof.Machine.execPerstRelease dt p s
  | .refclkMissing dt cycles => Sys2Proof.Machine.execRefclkMissing dt cycles s
  | .refclkPresent dt windows => Sys2Proof.Machine.execRefclkPresent dt windows s
  | .tapReset dt => Sys2Proof.Machine.execTapReset dt s
  | .bypass dt tdi => Sys2Proof.Machine.execBypass dt tdi s
  | .idcode dt => Sys2Proof.Machine.execIdcode dt s
  | .samplePreload dt preload => Sys2Proof.Machine.execSamplePreload dt preload s
  | .extest dt => Sys2Proof.Machine.execExtest dt s
  | .flitCrcFail dt die edge attempts => Sys2Proof.Machine.execFlitCrcFail dt die edge attempts s
  | .sramUncorrectableEcc dt die core => Sys2Proof.Machine.execSramUncorrectableEcc dt die core s
  | .dieWatchdogExpiry dt die => Sys2Proof.Machine.execDieWatchdogExpiry dt die s
  | .hubWatchdogExpiry dt => Sys2Proof.Machine.execHubWatchdogExpiry dt s
  | .conv dt die core => Sys2Proof.Machine.execConv dt die core s
  | .matmul dt die core => Sys2Proof.Machine.execMatmul dt die core s
  | .pool dt die core => Sys2Proof.Machine.execPool dt die core s
  | .elem dt die core => Sys2Proof.Machine.execElem dt die core s
  | .act dt die core => Sys2Proof.Machine.execAct dt die core s
  | .softmax dt die core => Sys2Proof.Machine.execSoftmax dt die core s
  | .norm dt die core => Sys2Proof.Machine.execNorm dt die core s
  | .sort dt die core => Sys2Proof.Machine.execSort dt die core s
  | .quant dt die core => Sys2Proof.Machine.execQuant dt die core s
  | .micro dt die core => Sys2Proof.Machine.execMicro dt die core s
  | .completionRecord dt die core => Sys2Proof.Machine.execCompletionRecord dt die core s
  | .stepAdd dt die core st => Sys2Proof.Machine.execStepAdd dt die core st s
  | .stepSub dt die core st => Sys2Proof.Machine.execStepSub dt die core st s
  | .stepMul dt die core st => Sys2Proof.Machine.execStepMul dt die core st s
  | .stepFma dt die core st => Sys2Proof.Machine.execStepFma dt die core st s
  | .stepMin dt die core st => Sys2Proof.Machine.execStepMin dt die core st s
  | .stepMax dt die core st => Sys2Proof.Machine.execStepMax dt die core st s
  | .stepDiv dt die core st => Sys2Proof.Machine.execStepDiv dt die core st s
  | .stepSqrt dt die core st => Sys2Proof.Machine.execStepSqrt dt die core st s
  | .stepFloor dt die core st => Sys2Proof.Machine.execStepFloor dt die core st s
  | .stepLdexp dt die core st => Sys2Proof.Machine.execStepLdexp dt die core st s
  | .stepSellt dt die core st => Sys2Proof.Machine.execStepSellt dt die core st s
  | .stepLookup dt die core st => Sys2Proof.Machine.execStepLookup dt die core st s
  | .stepLookup2 dt die core st => Sys2Proof.Machine.execStepLookup2 dt die core st s
  | .stepCall dt die core st => Sys2Proof.Machine.execStepCall dt die core st s
  | .scratchCorrectedError dt die core bank word => Sys2Proof.Machine.execScratchCorrectedError dt die core bank word s
  | .shadowWrite dt die core word data => Sys2Proof.Machine.execShadowWrite dt die core word data s
  | .shadowValidSet dt die core withWrite => Sys2Proof.Machine.execShadowValidSet dt die core withWrite s
  | .swapNow dt die core => Sys2Proof.Machine.execSwapNow dt die core s
  | .explicitSwap dt die core => Sys2Proof.Machine.execExplicitSwap dt die core s
  | .rowCancelRead dt die core => Sys2Proof.Machine.execRowCancelRead dt die core s
  | .handoverRequest dt die core bank req lostRace => Sys2Proof.Machine.execHandoverRequest dt die core bank req lostRace s
  | .handoverEffect dt die core bank => Sys2Proof.Machine.execHandoverEffect dt die core bank s
  | .bankOn dt die core group => Sys2Proof.Machine.execBankOn dt die core group s
  | .bankRetain dt die core group => Sys2Proof.Machine.execBankRetain dt die core group s
  | .bankOff dt die core group => Sys2Proof.Machine.execBankOff dt die core group s
  | .bankGroupReady dt die core group => Sys2Proof.Machine.execBankGroupReady dt die core group s
  | .queueEnable dt md q => Sys2Proof.Machine.execQueueEnable dt md q s
  | .feederDescriptorFetch dt md q => Sys2Proof.Machine.execFeederDescriptorFetch dt md q s
  | .transferComplete dt md q stitch badRead landed => Sys2Proof.Machine.execTransferComplete dt md q stitch badRead landed s
  | .queueCancel dt md q => Sys2Proof.Machine.execQueueCancel dt md q s
  | .cancelDrained dt md q landed => Sys2Proof.Machine.execCancelDrained dt md q landed s
  | .pourStepAdvance dt die core => Sys2Proof.Machine.execPourStepAdvance dt die core s
  | .seamRowArrival dt die core down => Sys2Proof.Machine.execSeamRowArrival dt die core down s
  | .creditReturn dt die core down => Sys2Proof.Machine.execCreditReturn dt die core down s
  | .boundaryPre dt die core => Sys2Proof.Machine.execBoundaryPre dt die core s
  | .copyIn dt die core => Sys2Proof.Machine.execCopyIn dt die core s
  | .cinchArrive dt die core => Sys2Proof.Machine.execCinchArrive dt die core s
  | .cinchRelease dt sess => Sys2Proof.Machine.execCinchRelease dt sess s
  | .cinchTimeout dt sess => Sys2Proof.Machine.execCinchTimeout dt sess s
  | .feederRowLanded dt sess poc => Sys2Proof.Machine.execFeederRowLanded dt sess poc s
  | .searchRow dt sess poc => Sys2Proof.Machine.execSearchRow dt sess poc s
  | .predictRow dt sess poc => Sys2Proof.Machine.execPredictRow dt sess poc s
  | .librarySearch dt sess poc => Sys2Proof.Machine.execLibrarySearch dt sess poc s
  | .libraryStageComplete dt sess index ecc => Sys2Proof.Machine.execLibraryStageComplete dt sess index ecc s
  | .phase1Start dt sess poc loads => Sys2Proof.Machine.execPhase1Start dt sess poc loads s
  | .picCommit dt sess poc => Sys2Proof.Machine.execPicCommit dt sess poc s
  | .gainAllocation dt sess poc => Sys2Proof.Machine.execGainAllocation dt sess poc s
  | .phase2Start dt sess poc loads => Sys2Proof.Machine.execPhase2Start dt sess poc loads s
  | .rowCommit dt sess poc => Sys2Proof.Machine.execRowCommit dt sess poc s
  | .phase2Rerun dt sess poc loads => Sys2Proof.Machine.execPhase2Rerun dt sess poc loads s
  | .phase2Done dt sess poc => Sys2Proof.Machine.execPhase2Done dt sess poc s
  | .frameBufferRelease dt sess poc => Sys2Proof.Machine.execFrameBufferRelease dt sess poc s
  | .libraryWriteComplete dt sess index ok => Sys2Proof.Machine.execLibraryWriteComplete dt sess index ok s
  | .poolGrant dt md => Sys2Proof.Machine.execPoolGrant dt md s
  | .substreamEncode dt sess lane => Sys2Proof.Machine.execSubstreamEncode dt sess lane s
  | .substreamDecode dt sess lane => Sys2Proof.Machine.execSubstreamDecode dt sess lane s
  | .unitMdl dt sess => Sys2Proof.Machine.execUnitMdl dt sess s
  | .unitSeq dt sess => Sys2Proof.Machine.execUnitSeq dt sess s
  | .unitPic dt sess => Sys2Proof.Machine.execUnitPic dt sess s
  | .unitRow dt sess => Sys2Proof.Machine.execUnitRow dt sess s
  | .unitAud dt sess => Sys2Proof.Machine.execUnitAud dt sess s
  | .unitLib dt sess => Sys2Proof.Machine.execUnitLib dt sess s
  | .unitEnd dt sess => Sys2Proof.Machine.execUnitEnd dt sess s
  | .extensionUnit dt sess => Sys2Proof.Machine.execExtensionUnit dt sess s
  | .pictureWatchdog dt sess poc => Sys2Proof.Machine.execPictureWatchdog dt sess poc s
  | .audioFrameEncode dt sess group => Sys2Proof.Machine.execAudioFrameEncode dt sess group s
  | .audCommit dt sess => Sys2Proof.Machine.execAudCommit dt sess s
  | .audioSynthesisDone dt sess group => Sys2Proof.Machine.execAudioSynthesisDone dt sess group s
  | .audioWatchdog dt sess group => Sys2Proof.Machine.execAudioWatchdog dt sess group s
  | .outputStall dt sess => Sys2Proof.Machine.execOutputStall dt sess s
  | .remapGraceExpiry dt sess => Sys2Proof.Machine.execRemapGraceExpiry dt sess s
  | .recutCoreRelease dt sess => Sys2Proof.Machine.execRecutCoreRelease dt sess s
  | .drainComplete dt sess => Sys2Proof.Machine.execDrainComplete dt sess s
  | .mailboxSeal dt port slot seq opcode => Sys2Proof.Machine.execMailboxSeal dt port slot seq opcode s
  | .slotStateWrite dt port slot value => Sys2Proof.Machine.execSlotStateWrite dt port slot value s
  | .seqGap dt port => Sys2Proof.Machine.execSeqGap dt port s
  | .ping dt port slot => Sys2Proof.Machine.execPing dt port slot s
  | .deviceInfo dt port slot => Sys2Proof.Machine.execDeviceInfo dt port slot s
  | .claim dt port slot => Sys2Proof.Machine.execClaim dt port slot s
  | .heartbeat dt port slot => Sys2Proof.Machine.execHeartbeat dt port slot s
  | .handover dt port slot => Sys2Proof.Machine.execHandover dt port slot s
  | .accept dt port slot => Sys2Proof.Machine.execAccept dt port slot s
  | .release dt port slot => Sys2Proof.Machine.execRelease dt port slot s
  | .electionWindowClose dt => Sys2Proof.Machine.execElectionWindowClose dt s
  | .leaseExpired dt => Sys2Proof.Machine.execLeaseExpired dt s
  | .handoverLapsed dt => Sys2Proof.Machine.execHandoverLapsed dt s
  | .eventRead dt port slot => Sys2Proof.Machine.execEventRead dt port slot s
  | .modelLoad dt port slot sigOk => Sys2Proof.Machine.execModelLoad dt port slot sigOk s
  | .modelUnload dt port slot => Sys2Proof.Machine.execModelUnload dt port slot s
  | .modelList dt port slot => Sys2Proof.Machine.execModelList dt port slot s
  | .modelReload dt model sigOk => Sys2Proof.Machine.execModelReload dt model sigOk s
  | .stage dt port slot sigOk => Sys2Proof.Machine.execStage dt port slot sigOk s
  | .activate dt port slot => Sys2Proof.Machine.execActivate dt port slot s
  | .commitSvn dt port slot => Sys2Proof.Machine.execCommitSvn dt port slot s
  | .enrolModelKey dt port slot => Sys2Proof.Machine.execEnrolModelKey dt port slot s
  | .revokeKey dt port slot => Sys2Proof.Machine.execRevokeKey dt port slot s
  | .signQuote dt port slot => Sys2Proof.Machine.execSignQuote dt port slot s
  | .readQuoteChunk dt port slot => Sys2Proof.Machine.execReadQuoteChunk dt port slot s
  | .readLogChunk dt port slot => Sys2Proof.Machine.execReadLogChunk dt port slot s
  | .readCertChunk dt port slot => Sys2Proof.Machine.execReadCertChunk dt port slot s
  | .calRead dt port slot => Sys2Proof.Machine.execCalRead dt port slot s
  | .calWrite dt port slot presetsOk => Sys2Proof.Machine.execCalWrite dt port slot presetsOk s
  | .setCap dt port slot => Sys2Proof.Machine.execSetCap dt port slot s
  | .diesOff dt port slot => Sys2Proof.Machine.execDiesOff dt port slot s
  | .diesOn dt port slot => Sys2Proof.Machine.execDiesOn dt port slot s
  | .diePowerOnComplete dt die mismatch => Sys2Proof.Machine.execDiePowerOnComplete dt die mismatch s
  | .moduleStandby dt port slot => Sys2Proof.Machine.execModuleStandby dt port slot s
  | .standbyEntry dt => Sys2Proof.Machine.execStandbyEntry dt s
  | .configure dt port slot => Sys2Proof.Machine.execConfigure dt port slot s
  | .bind dt port slot pl => Sys2Proof.Machine.execBind dt port slot pl s
  | .start dt port slot => Sys2Proof.Machine.execStart dt port slot s
  | .recut dt port slot pl mismatch => Sys2Proof.Machine.execRecut dt port slot pl mismatch s
  | .drain dt port slot => Sys2Proof.Machine.execDrain dt port slot s
  | .abort dt port slot => Sys2Proof.Machine.execAbort dt port slot s
  | .unbind dt port slot => Sys2Proof.Machine.execUnbind dt port slot s
  | .close dt port slot => Sys2Proof.Machine.execClose dt port slot s
  | .sessionStatus dt port slot => Sys2Proof.Machine.execSessionStatus dt port slot s
  | .picture dt port slot => Sys2Proof.Machine.execPicture dt port slot s
  | .streamSlot dt port slot => Sys2Proof.Machine.execStreamSlot dt port slot s
  | .outSlot dt port slot => Sys2Proof.Machine.execOutSlot dt port slot s
  | .audioBlock dt port slot => Sys2Proof.Machine.execAudioBlock dt port slot s
  | .routeAdd dt port slot => Sys2Proof.Machine.execRouteAdd dt port slot s
  | .routeRemove dt port slot => Sys2Proof.Machine.execRouteRemove dt port slot s
  | .mbxOffset dt data pecOk => Sys2Proof.Machine.execMbxOffset dt data pecOk s
  | .mbxWrite dt data pecOk => Sys2Proof.Machine.execMbxWrite dt data pecOk s
  | .mbxRead dt => Sys2Proof.Machine.execMbxRead dt s
  | .alertResponse dt => Sys2Proof.Machine.execAlertResponse dt s
  | .wake dt => Sys2Proof.Machine.execWake dt s
  | .tripLatchedClear dt w => Sys2Proof.Machine.execTripLatchedClear dt w s
  | .timeLoRead dt => Sys2Proof.Machine.execTimeLoRead dt s
  | .logNextLoRead dt => Sys2Proof.Machine.execLogNextLoRead dt s
  | .registerWrite dt w addr data => Sys2Proof.Machine.execRegisterWrite dt w addr data s
  | .eventCommit dt => Sys2Proof.Machine.execEventCommit dt s
  | .dieProgressReport dt die => Sys2Proof.Machine.execDieProgressReport dt die s
  | .completionRingCollect dt die core => Sys2Proof.Machine.execCompletionRingCollect dt die core s
  | .mirrorPush dt die => Sys2Proof.Machine.execMirrorPush dt die s
  | .counterWindowRefresh dt sess => Sys2Proof.Machine.execCounterWindowRefresh dt sess s
  | .pcieLinkUp dt p width rate flit => Sys2Proof.Machine.execPcieLinkUp dt p width rate flit s
  | .flr dt p => Sys2Proof.Machine.execFlr dt p s
  | .surpriseLinkDown dt p => Sys2Proof.Machine.execSurpriseLinkDown dt p s
  | .pmStateWrite dt p d3hot => Sys2Proof.Machine.execPmStateWrite dt p d3hot s
  | .bar2Read dt p offset len => Sys2Proof.Machine.execBar2Read dt p offset len s
  | .bar2Write dt p offset data => Sys2Proof.Machine.execBar2Write dt p offset data s
  | .cxlPortUp dt x widthLog2 mode type3 capacity => Sys2Proof.Machine.execCxlPortUp dt x widthLog2 mode type3 capacity s
  | .cxlDown dt x => Sys2Proof.Machine.execCxlDown dt x s
  | .cxlRetrain dt x => Sys2Proof.Machine.execCxlRetrain dt x s
  | .memoryTrained dt seedFail trainFail mismatch => Sys2Proof.Machine.execMemoryTrained dt seedFail trainFail mismatch s
  | .gddr7Retrain dt md ch secondAttempt => Sys2Proof.Machine.execGddr7Retrain dt md ch secondAttempt s
  | .gddr7AccessError dt md addr err => Sys2Proof.Machine.execGddr7AccessError dt md addr err s
  | .patrolScrub dt md addr found => Sys2Proof.Machine.execPatrolScrub dt md addr found s
  | .cascadeData dt q f => Sys2Proof.Machine.execCascadeData dt q f s
  | .cascadeTime dt q f => Sys2Proof.Machine.execCascadeTime dt q f s
  | .cascadeRetry dt q f => Sys2Proof.Machine.execCascadeRetry dt q f s
  | .cascadeId dt q f rank peerPort => Sys2Proof.Machine.execCascadeId dt q f rank peerPort s
  | .cascadeIdle dt q f => Sys2Proof.Machine.execCascadeIdle dt q f s
  | .cascadeCrcFail dt q fecFailed => Sys2Proof.Machine.execCascadeCrcFail dt q fecFailed s
  | .cascadeMbxWrite dt offset data => Sys2Proof.Machine.execCascadeMbxWrite dt offset data s
  | .cascadeMbxRead dt offset len => Sys2Proof.Machine.execCascadeMbxRead dt offset len s
  | .mbxData dt => Sys2Proof.Machine.execMbxData dt s
  | .notice dt => Sys2Proof.Machine.execNotice dt s
  | .timeRequest dt => Sys2Proof.Machine.execTimeRequest dt s
  | .timeUnlocked dt => Sys2Proof.Machine.execTimeUnlocked dt s
  | .cascadePortTrained dt q rank peerPort => Sys2Proof.Machine.execCascadePortTrained dt q rank peerPort s
  | .linkLost dt q => Sys2Proof.Machine.execLinkLost dt q s
  | .linkRetrain dt q ok => Sys2Proof.Machine.execLinkRetrain dt q ok s
  | .masterLost dt => Sys2Proof.Machine.execMasterLost dt s
  | .masterElection dt reach => Sys2Proof.Machine.execMasterElection dt reach s
  | .throttleLower dt => Sys2Proof.Machine.execThrottleLower dt s
  | .throttleFastDrop dt watts1ms => Sys2Proof.Machine.execThrottleFastDrop dt watts1ms s
  | .throttleRaise dt => Sys2Proof.Machine.execThrottleRaise dt s
  | .junctionSensorRead dt die raw inputW inputMv10 => Sys2Proof.Machine.execJunctionSensorRead dt die raw inputW inputMv10 s
  | .gddr7TempRead dt md temps => Sys2Proof.Machine.execGddr7TempRead dt md temps s
  | .coolantSensorRead dt inlet outlet => Sys2Proof.Machine.execCoolantSensorRead dt inlet outlet s
  | .imageVerified dt sigOk => Sys2Proof.Machine.execImageVerified dt sigOk s
  | .mailboxServiceStart dt => Sys2Proof.Machine.execMailboxServiceStart dt s
  | .stageComplete dt => Sys2Proof.Machine.execStageComplete dt s
  | .calWriteComplete dt => Sys2Proof.Machine.execCalWriteComplete dt s
  | .quoteSigned dt signature => Sys2Proof.Machine.execQuoteSigned dt signature s
  | .sessionVectorCoalesce dt sess => Sys2Proof.Machine.execSessionVectorCoalesce dt sess s
  | .railSequenceRetry dt failing => Sys2Proof.Machine.execRailSequenceRetry dt failing s
  | .pcieControllersReady dt => Sys2Proof.Machine.execPcieControllersReady dt s
  | .reservedUnitType dt sess => Sys2Proof.Machine.execReservedUnitType dt sess s
  | .configurationWrite dt p w => Sys2Proof.Machine.execConfigurationWrite dt p w s

end Sys2Proof.Machine
end

