-- ==== Sys2Proof/WellFormed.lean ====
section
/-! DEFINITION. Which commands are transactions the spec allows: the byte-string operands whose length a bus fixes, and the
widths of the offsets. Every other operand is bounded by its type. -/

namespace Sys2Proof

/-- A command that some transaction of the spec can carry. -/
def Instr.wf : Instr → Bool
  /- R331: MBX_OFFSET is a block write of 3 bytes, MBX_WRITE one of 1 to 32. -/
  | .mbxOffset _ data _ => data.length == 3
  | .mbxWrite _ data _ => decide (1 ≤ data.length) && decide (data.length ≤ 32)
  /- R357: a memory write carries 1 to 4,096 bytes (the largest payload of R356). -/
  | .bar2Write _ _ _ data => decide (1 ≤ data.length) && decide (data.length ≤ 4096)
  /- R375: a CTRL flit carries at most 224 data bytes; a bank has 256 KiB (R326). -/
  | .cascadeMbxWrite _ offset data => decide (data.length ≤ 224) && decide (offset < 0x40000)
  /- R446, R447, R449: a BAR0 write carries 1 to 4,096 bytes (a wrong size or alignment is dropped, not ill-formed); an SMBus register
  write is a 4-byte block transfer, and the firmware writes whole 32-bit registers. -/
  | .registerWrite _ (.bar0 _) _ data => decide (1 ≤ data.length) && decide (data.length ≤ 4096)
  | .registerWrite _ _ _ data => data.length == 4
  | _ => true

end Sys2Proof
end

