-- ==== Sys2Proof/Safety.lean ====
section
/-! DEFINITION. What a safe run is: every command in the queue is one the spec's transactions allow, and no step stops. -/

namespace Sys2Proof.Machine

/-- Every waiting command is well formed. -/
def State.queueWf (s : State) : Bool := s.pending.all Instr.wf

/-- The step answers a next state. -/
def Runs (s : State) : Prop := ∃ t, step s = .next t

/-- The command answers a next state, of which this holds. -/
def Gives (c : Instr) (s : State) (p : State → Prop) : Prop := ∃ t, exec c s = .next t ∧ p t

/-- The event that the hub stamps now under die 0xFF: its order is the hub's own until it is committed (R350, R351). -/
def State.hubEntry (s : State) (severity code : Nat) (arg : W32) (info : Nat) : LogEntry :=
  { t := s.time, index := (s.die 30).events, die := 0xFF, severity := severity, code := code, arg := arg, info := BitVec.ofNat 64 info }

/-- From `s` to `t` the hub stamped exactly this event, and the log's other fields stay. -/
def HubLogged (s t : State) (severity code : Nat) (arg : W32) (info : Nat) : Prop :=
  t.log = { s.log with pending := s.log.pending ++ [s.hubEntry severity code arg info] }

/-- From `s` to `t` one measurement register was extended with this value (R435, R436), and a log that has room holds it. -/
def Measured (s t : State) (mr : Nat) (v : Bytes) : Prop :=
  t.mr mr = shake256 (s.mr mr ++ v) 64 ∧ (∀ i, i ≠ mr → t.mr i = s.mr i) ∧ t.security.extended = s.security.extended + 1 ∧
  (s.security.log.length < 4096 → ∃ e, t.security.log = s.security.log ++ [e] ∧ e.mr = mr ∧ e.v = v ∧ e.index = s.security.extended) ∧
  (4096 ≤ s.security.log.length → t.security.log = s.security.log) ∧
  { t.security with mrs := s.security.mrs, log := s.security.log, extended := s.security.extended } = s.security

/-- From `a` to `b` fuses were only blown (R419): the security version rises, revocation bits are set and none is cleared, a key slot
that holds a hash keeps it, and the fuses that nothing after manufacture sets are the same. -/
def FusesBurn (a b : Fuses) : Prop :=
  a.svnFused ≤ b.svnFused ∧ a.fwRevoked &&& b.fwRevoked = a.fwRevoked ∧ a.modelRevoked &&& b.modelRevoked = a.modelRevoked ∧
  (∀ k, Tab.get [] a.modelKeys k ≠ [] → Tab.get [] b.modelKeys k = Tab.get [] a.modelKeys k) ∧
  b.fwKeys = a.fwKeys ∧ b.debugLocked = a.debugLocked ∧ b.secret = a.secret ∧ b.identityPub = a.identityPub

/-- What a stop of the module leaves (R21): the board's pins apart, everything is at its value before the first boot except the
flash, the fuses, the memories outside the module, the warmer's sticky registers, the coolant readings and the TAP; an interrupted
CAL_WRITE leaves its record torn (R415). -/
def StopLeaves (s t : State) : Prop :=
  ({ t with pending := [], wall := 0, board := {}, tap := {}, power := {}, clocks := {}, thermal := {}, straps := 0, boot := {}
            flash := {}, fuses := {}, memory := {}, alertPending := false, bus := {}, freeTick := 0 } : State) = {} ∧
  t.pending = s.pending ∧ t.wall = s.wall ∧ t.tap = s.tap ∧ t.straps = s.straps ∧ t.fuses = s.fuses ∧
  t.bus = s.bus ∧ t.freeTick = s.freeTick ∧
  t.flash = { s.flash with calTorn := s.flash.calTorn || s.security.calJob.isSome } ∧
  t.memory = { host0 := s.memory.host0, host1 := s.memory.host1, cxlA := s.memory.cxlA, cxlB := s.memory.cxlB } ∧
  t.power.running = false ∧ t.power.standbyAt = none ∧ t.power.capW = 2400 ∧ t.power.inputW = 0 ∧ t.power.inputMv10 = 0 ∧
  t.clocks.plls = [] ∧ t.thermal = { tripLatched := t.thermal.tripLatched, coolantWarn := s.thermal.coolantWarn, inlet := t.thermal.inlet, outlet := t.thermal.outlet } ∧
  t.boot.boots = s.boot.boots ∧ t.boot.cal = s.boot.cal ∧ t.boot.calInvalid = s.boot.calInvalid

/-- The slot presents a command that the firmware accepts now (R328 to R330): SEALED with this opcode, its `seq` the port's next one and
in no lower SEALED slot, its payload at most 4,032 bytes and the request as given; the port's bank is served and its turn has come. -/
def State.Presents (s : State) (p : Port) (k : Slot) (opcode : Nat) (req : Bytes) : Prop :=
  let m := s.slot p.val k.val
  s.serves p.val = true ∧ m.st = 1 ∧ m.opcode.toNat = opcode ∧ m.seq = (s.port p.val).nextSeq ∧
  (∀ j, j < k.val → (s.slot p.val j).st = 1 → (s.slot p.val j).seq ≠ m.seq) ∧
  m.reqLen ≤ 4032 ∧ req = Mem.readBytes m.payload 0 m.reqLen ∧ s.turnOf p.val = true

/-- What a mailbox command may always change: the slots, sequence numbers and the ports' turn, and the signals of completed slots. -/
def State.withMailbox (t s : State) : State :=
  { t with mbx := s.mbx, ports := s.ports, mbxTurn := s.mbxTurn, pcie := s.pcie, alertPending := s.alertPending, cascade := s.cascade }

/-- From `s` to `t` the slot's command was accepted and completed at `t`'s device time with this answer (R327, R328): the payload area
reads the response, then zeros. The slots of other ports stay, and of this port's every slot that was not SEALED. -/
def Answered (s t : State) (p : Port) (k : Slot) (a : Answer) : Prop :=
  let m := s.slot p.val k.val
  let n := t.slot p.val k.val
  n.st = 3 ∧ n.status = a.status ∧ n.detail = a.detail ∧ n.stateNow = a.stateNow ∧ n.genNow = a.genNow ∧ n.seqEcho = m.seq ∧
  n.opEcho = m.opcode ∧ n.respLen = a.resp.length ∧ Mem.readBytes n.payload 0 a.resp.length = a.resp ∧
  (∀ o, a.resp.length ≤ o → Mem.read n.payload o = 0) ∧ n.tAccept = t.time ∧ n.tDone = t.time ∧
  (∀ (q : Port) (j : Slot), q ≠ p → t.slot q.val j.val = s.slot q.val j.val) ∧
  (∀ (j : Slot), j ≠ k → (s.slot p.val j.val).st ≠ 1 → t.slot p.val j.val = s.slot p.val j.val) ∧
  (∀ (q : Port), q ≠ p → t.port q.val = s.port q.val) ∧
  ((s.port p.val).consumed = [] → (t.port p.val).nextSeq = m.seq + 1)

/-- What writing to a session's rings may change beside the session itself: GDDR7, the session's signal and a stall in the log. -/
def State.withRings (t s : State) : State :=
  { t with sessions := s.sessions, memory := { t.memory with gddr := s.memory.gddr, poison := s.memory.poison }, pcie := s.pcie
           alertPending := s.alertPending, cascade := s.cascade, log := s.log, dies := s.dies }

/-- From `s` to `t` of all sessions only this one may have changed. -/
def OnlySession (s t : State) (i : Nat) : Prop := ∀ j, j ≠ i → t.session j = s.session j

/-- From `s` to `t` only one picture of one session changed, and nothing else of the module. -/
def OnlyPicture (s t : State) (i : Nat) (poc : W32) : Prop :=
  OnlySession s t i ∧ (∀ q, q ≠ poc → (t.session i).pic q = (s.session i).pic q) ∧
  (t.session i).pics.map (·.poc) = (s.session i).pics.map (·.poc) ∧
  { t.session i with pics := (s.session i).pics } = s.session i ∧ { t with sessions := s.sessions } = s

/-- From `x` to `y` a session's record ring took this entry (R333): it is written, or held back while the ring is full. -/
def Recorded (x y : Session) (e : RingEntry) : Prop :=
  x.poolLost = false → y.recHeld = x.recHeld ∧ y.recProduced = x.recProduced + 1 ∨ y.recHeld = x.recHeld ++ [e] ∧ y.recProduced = x.recProduced

end Sys2Proof.Machine
end

