-- ==== Sys2Proof/Certificates/Slice0/Obligations.lean ====
section
/-! DEFINITION. The statements for the provers. Each says what commands do, over every state and operand that meets its
hypotheses: the next state that `exec` answers, and what it leaves unchanged. A frame is said by putting the changed fields back:
`with` the old fields, the next state equals the state before it. `s.elapse dt` is `s` after the command's `dt` nanoseconds. -/

open Sys2Proof Sys2Proof.Machine

/-! ## The queue, the memories and the fuses -/

/-- A step of the block runs the command at the front of its queue, with the queue's rest; an empty queue idles (the model's choice,
log entry 1). -/
def Obligations.StepRunsTheFrontCommand : Prop :=
  ∀ (s : State),
    (∀ (c : Instr) (rest : List Instr), s.pending = c :: rest → step s = exec c { s with pending := rest }) ∧
    (s.pending = [] → step s = .next s)

/-- Every well-formed command runs: from any state whose waiting commands are all well formed, a step answers a next state whose queue
is the rest, still well formed. -/
def Obligations.WellFormedQueueRuns : Prop :=
  ∀ (s : State), s.queueWf = true → ∀ (c : Instr) (rest : List Instr), s.pending = c :: rest →
    ∃ t, step s = .next t ∧ t.pending = rest ∧ t.queueWf = true

/-- R419: "A fuse, once blown, stays blown, and no command and no mode restores it." From whatever fuses the module started with, what
has been blown so far stays blown through every step. -/
def Obligations.BlownFusesStayBlown : Prop :=
  ∀ (start : Fuses) (s t : State), FusesBurn start s.fuses → step s = .next t → FusesBurn start t.fuses

/-- Every step keeps the byte memories (GDDR7, host 0 and 1, CXL A and B) in their canonical form. -/
def Obligations.MemoriesStayCanonical : Prop :=
  ∀ (s t : State), s.memory.wf = true → step s = .next t → t.memory.wf = true

/-- The state right after reset meets the three invariants: its queue is well formed and empty, its memories are canonical and list
nothing, and its fuses are as they started. -/
def Obligations.ResetMeetsTheInvariants : Prop :=
  State.reset.pending = [] ∧ State.reset.queueWf = true ∧ State.reset.memory = {} ∧ State.reset.memory.wf = true ∧
  FusesBurn State.reset.fuses State.reset.fuses

/-! ## Supplies, resets and clocks -/

/-- 3.3 V auxiliary. Applying it gives every register its reset value, the sticky ones included, and checks the calibration record;
removing it leaves the module unpowered, which also clears pending alerts and the trip latch. The board's other pins, the flash, the
fuses and the memories outside the module stay.
R15, R17, R21, R412, R426: a falling edge of MOD_RESET_N stops a running module with reason MODULE_RESET and leaves the recorded reason
of one that had stopped; the coolant registers too go back to 0x8000; in standby, with the rails off, it is ignored. A rising edge boots it when PWR_GOOD and REFCLK are there, with device time 0, the straps latched, one more boot
counted and every PLL started at its time of R394 (dies without their rail are fenced at once), and is ignored otherwise. -/
def Obligations.PowerAndResetPulsesReinitialise : Prop :=
  (∀ (s : State) (dt : Nat), (∀ (on : Bool), s.board.aux = !on →
      ∃ t, exec (if on then .auxPowerOn dt else .auxPowerOff dt) s = .next t ∧
        t.board = { s.board with aux := on } ∧ t.fuses = s.fuses ∧
        t.flash = { s.flash with calTorn := s.flash.calTorn || s.security.calJob.isSome } ∧
        t.memory = { host0 := s.memory.host0, host1 := s.memory.host1, cxlA := s.memory.cxlA, cxlB := s.memory.cxlB } ∧
        t.boot = { calInvalid := !t.flash.calValid, cal := t.flash.cal } ∧
        t.pending = s.pending ∧ t.wall = s.wall + dt ∧ t.bus = s.bus ∧ t.freeTick = s.freeTick ∧
        ({ t with pending := [], wall := 0, board := {}, flash := {}, fuses := {}, memory := {}, boot := {}, bus := {}, freeTick := 0 } : State) = {})) ∧
  (∀ (s : State) (dt : Nat) (straps : BitVec 4), s.board.aux = true →
      (s.power.running = false → s.power.railsOn = false →
        exec (.moduleReset dt) s = .next { s.elapse dt with board := { s.board with modResetN := false } }) ∧
      (s.power.running = true ∨ s.power.railsOn = true →
        ∃ t, exec (.moduleReset dt) s = .next t ∧ StopLeaves (s.elapse dt) t ∧ t.board = { s.board with modResetN := false } ∧
        t.power.railsOn = s.power.railsOn ∧ t.power.pwrGood = s.power.pwrGood ∧ t.power.dieRailOff = s.power.dieRailOff ∧
        t.alertPending = s.alertPending ∧ t.thermal.tripLatched = s.thermal.tripLatched ∧
        t.thermal.inlet = -32768 ∧ t.thermal.outlet = -32768 ∧
        t.clocks = { s.clocks with plls := [] } ∧
        t.boot.lastStop = (if s.power.running then 1 else s.boot.lastStop) ∧
        t.boot.hubCause = (if s.power.running then 0 else s.boot.hubCause)) ∧
      (s.board.modResetN = false → (s.power.pwrGood && s.clocks.refclkOk) = false →
        exec (.boot dt straps) s = .next { s.elapse dt with board := { s.board with modResetN := true, straps := straps } }) ∧
      (s.board.modResetN = false → s.power.pwrGood = true → s.clocks.refclkOk = true →
        ∃ u : State, exec (.boot dt straps) s = .next (s.power.dieRailOff.foldl (fun v d => v.fence d 6) u) ∧
          u.power = { s.power with running := true, capW := 2400, inputW := 0, inputMv10 := 0, standbyAt := none } ∧
          u.time = 0 ∧ u.straps = straps ∧ u.board = { s.board with modResetN := true, straps := straps } ∧
          u.boot = { boots := (s.boot.boots + 1) % 65536, calInvalid := !u.flash.calValid, cal := u.flash.cal,
                     lastStop := s.boot.lastStop, hubCause := s.boot.hubCause } ∧
          u.flash = { s.flash with calTorn := s.flash.calTorn || s.security.calJob.isSome } ∧ u.fuses = s.fuses ∧
          u.sessions = [] ∧ u.cores = [] ∧ u.owner = {} ∧ u.log = {} ∧ u.mbx = [] ∧ u.dies = [] ∧ u.security = {} ∧ u.memory.gddr = [] ∧
          u.pending = s.pending ∧
          (∀ d : Fin 60, u.pll d.val = if d = 53 then {} else
            { running := true, starts := 1
              startedAt := if d.val < 24 then 180000 + d.val / 6 * 50000 else if d.val < 30 then 120000
                else if 48 ≤ d.val ∧ d.val ≤ 52 ∨ d.val = 59 then 1000 else 60000 })))

/-- R402, R403: the 54 V input. A fault turns every rail off with reason SUPPLY_FAULT; the input counted as removed also ends module
standby, and counts as restored when it re-enters 48 to 58 V; a warning is logged and the module runs on. With the rails already off
only the board's measurement changes. Voltages are in units of 10 mV.
R401, R402: the warmer powers the rails when auxiliary power, REFCLK and 54 V are good, the module is not in standby and no trip is
latched. When no shared rail fails PWR_GOOD rises, and the dies whose own rail failed are noted; a shared rail that fails leaves every
rail off with reason RAIL_FAULT, and one retry follows 1 s later, as it does when a shared rail fails in service. In service a die's own
rail is turned off alone. `wake` ends module
standby and lets the rails be tried again. -/
def Obligations.RailsFollowSuppliesAndConditions : Prop :=
  (∀ (s : State) (dt mv : Nat),
      (mv < 4500 → s.power.railsOn = true →
        ∃ t, exec (.supply54vRemoved dt mv) s = .next t ∧ StopLeaves (s.elapse dt) t ∧ t.boot.lastStop = 6 ∧ t.boot.hubCause = 0 ∧
          t.board = { s.board with v54 := mv, v54Removed := true } ∧ t.power.railsOn = false ∧ t.power.pwrGood = false ∧
          t.power.standby = false ∧ t.power.dieRailOff = [] ∧ t.thermal.tripLatched = s.thermal.tripLatched ∧
          t.alertPending = s.alertPending) ∧
      (mv < 4500 → s.power.railsOn = false →
        exec (.supply54vRemoved dt mv) s = .next { s.elapse dt with
          board := { s.board with v54 := mv, v54Removed := true }, power := { s.power with standby := false } }) ∧
      (4800 ≤ mv → mv ≤ 5800 →
        exec (.supply54vRestored dt mv) s = .next { s.elapse dt with board := { s.board with v54 := mv, v54Removed := false } }) ∧
      (mv < 4800 ∨ 5800 < mv → s.power.railsOn = true →
        ∃ t, exec (.supplyFault dt mv) s = .next t ∧ StopLeaves (s.elapse dt) t ∧ t.boot.lastStop = 6 ∧ t.boot.hubCause = 0 ∧
          t.board = { s.board with v54 := mv } ∧ t.power.railsOn = false ∧ t.power.pwrGood = false ∧ t.power.dieRailOff = [] ∧
          t.thermal.tripLatched = s.thermal.tripLatched ∧ t.alertPending = s.alertPending) ∧
      ((4500 ≤ mv ∧ mv < 4800) ∨ (5800 < mv ∧ mv ≤ 6000) → s.power.railsOn = true → s.power.running = true →
        ∃ t, exec (.supplyWarn dt mv) s = .next t ∧ t.board.v54 = mv ∧ t.power = { s.power with inputMv10 := mv } ∧
          t.log.pending = s.log.pending ++ [{ t := s.time + dt, index := (s.die 30).events, die := 0xFF, severity := 2, code := 0x0024, arg := 0, info := BitVec.ofNat 64 mv }] ∧
          { t with board := s.board, power := s.power, log := s.log, dies := s.dies } = s.elapse dt)) ∧
  (∀ (s : State) (dt : Nat) (failing : List Rail),
      let good := s.board.aux = true ∧ s.clocks.refclkOk = true ∧ 4800 ≤ s.board.v54 ∧ s.board.v54 ≤ 5800 ∧ s.board.v54Removed = false ∧
        s.power.standby = false ∧ s.thermal.tripLatched.isSet = false ∧ s.power.railsOn = false
      let up := { s.power with railsOn := true, pwrGood := true, railTry := 0, dieRailOff := failing.filterMap railDie }
      (good → s.power.railTry = 0 → (∀ r ∈ failing, railDie r ≠ none) →
        exec (.railSequence dt failing) s = .next { s.elapse dt with power := up }) ∧
      (good → s.power.railTry = 1 → s.power.railRetryAt ≤ s.wall + dt → (∀ r ∈ failing, railDie r ≠ none) →
        exec (.railSequenceRetry dt failing) s = .next { s.elapse dt with power := up }) ∧
      (good → s.power.railTry = 0 → (∃ r ∈ failing, railDie r = none) →
        ∃ t, exec (.railSequence dt failing) s = .next t ∧ StopLeaves (s.elapse dt) t ∧ t.boot.lastStop = 5 ∧ t.boot.hubCause = 0 ∧
          t.board = s.board ∧ t.power.railsOn = false ∧ t.power.pwrGood = false ∧ t.power.railTry = 1 ∧
          t.power.railRetryAt = s.wall + dt + 1000000000) ∧
      (good → s.power.railTry = 1 → s.power.railRetryAt ≤ s.wall + dt → (∃ r ∈ failing, railDie r = none) →
        ∃ t, exec (.railSequenceRetry dt failing) s = .next t ∧ StopLeaves (s.elapse dt) t ∧ t.boot.lastStop = 5 ∧ t.board = s.board ∧
          t.power.railsOn = false ∧ t.power.railTry = 2) ∧
      (∀ (r : Rail) (d : Nat), railDie r = some d → s.power.railsOn = true →
        exec (.railFault dt r) s = .next { s.elapse dt with power := { s.power with
          dieRailOff := if d ∈ s.power.dieRailOff then s.power.dieRailOff else s.power.dieRailOff ++ [d] } }) ∧
      (∀ (r : Rail), railDie r = none → s.power.railsOn = true →
        ∃ t, exec (.railFault dt r) s = .next t ∧ StopLeaves (s.elapse dt) t ∧ t.boot.lastStop = 5 ∧ t.board = s.board ∧
          t.power.railsOn = false ∧ t.power.pwrGood = false ∧ t.power.railTry = 1 ∧ t.power.railRetryAt = s.wall + dt + 1000000000) ∧
      (s.board.aux = true → s.clocks.refclkOk = true →
        exec (.wake dt) s = .next { s.elapse dt with power := { s.power with standby := false, railTry := 0 } }) ∧
      (∀ (due : Nat), s.power.running = true → s.power.standbyAt = some due → due ≤ s.wall + dt →
        ∃ t, exec (.standbyEntry dt) s = .next t ∧ StopLeaves (s.elapse dt) t ∧ t.boot.lastStop = 8 ∧ t.board = s.board ∧
          t.power.railsOn = false ∧ t.power.standby = true))


/-- R392, R394 to R396: a running PLL is judged by windows against the limits in effect. Four consecutive windows within the stable
limit make it stable, another window restarts the count; a stable PLL beyond the lost limit is gated and PLL_LOST logged, which for
an HD domain or the package-fabric root is a hub fault and for a link port loses the port; 500 µs without stability restart the PLL,
up to three starts, after which the dies it serves are fenced from boot, a link port is lost, and a hub PLL ends the boot with reason
PLL_FAIL. The boot ROM is taken as started already; its start is the second part. Domain 53, the warmer's, has no PLL.
R423, R424, R435: when the last of the hub's PLLs becomes stable after a boot, the ROM extends MR0 with the hash over its version, the
fuse status and the fused key hashes, takes the slot that is not preferred when `trial` is set (clearing it in flash) and the preferred
slot otherwise, and begins to verify it.
R16, R390, R391: REFCLK declared missing, whether it was there before or has not come since auxiliary power, turns a powered module's
rails off with reason CLOCK_LOST and asserts the alert; a module in standby stays there. Sixteen windows of 64 cycles or more declare it
present. -/
def Obligations.ClocksAreMonitored : Prop :=
  (∀ (s : State) (dt : Nat) (d : Fin 60) (count n stable lost : Nat), s.power.running = true → (s.pll d.val).running = true →
      (s.pll d.val).startedAt ≤ s.time + dt → s.limitsOf d.val = (n, stable, lost) → d.val ≠ 53 →
      let off := ((count : Int) - n).natAbs
      let p := s.pll d.val
      let hub := [48, 49, 50, 51, 52, 59]
      let late := p.stable = false ∧ p.startedAt + 500000 ≤ s.time + dt
      let lostEvent : LogEntry := { t := s.time + dt, index := (s.die 30).events, die := 0xFF, severity := 3, code := 0x0020,
                                    arg := logArg d.val 0, info := 0 }
      let gated (u : State) := u.clocks = { s.clocks with
          pllLost := { isSet := true, setAt := s.wall + dt }, lostDomain := d.val, clockEvents := (s.clocks.clockEvents + 1) % 65536
          plls := Tab.set {} s.clocks.plls d.val { p with running := false, stable := false, good := 0, lost := true } } ∧
        u.log.pending = s.log.pending ++ [lostEvent] ∧ { u with clocks := s.clocks, log := s.log, dies := s.dies } = s.elapse dt
      (s.security.extended ≠ 0 → off ≤ 256 * stable → (p.stable = true → off ≤ 256 * lost) →
        exec (.pllWindow dt d count) s = .next { s.elapse dt with clocks := { s.clocks with
          plls := Tab.set {} s.clocks.plls d.val { p with good := min 4 (p.good + 1), stable := p.stable || decide (3 ≤ p.good) } } }) ∧
      (s.security.extended ≠ 0 → 256 * stable < off → (p.stable = true → off ≤ 256 * lost) →
        exec (.pllWindow dt d count) s = .next { s.elapse dt with clocks := { s.clocks with
          plls := Tab.set {} s.clocks.plls d.val { p with good := 0 } } }) ∧
      (p.stable = true → 256 * lost < off → d.val < 48 ∨ d.val = 58 → ∃ t, exec (.pllWindow dt d count) s = .next t ∧ gated t) ∧
      (p.stable = true → 256 * lost < off → (54 ≤ d.val ∧ d.val ≤ 57) →
        ∃ u t, gated u ∧ exec (.pllWindow dt d count) s = .next t ∧ t = u.loseLink (d.val - 54) ∧
          (t.cascadePort (d.val - 54)).up = false ∧ (t.cascadePort (d.val - 54)).lost.isSet = true) ∧
      (p.stable = true → 256 * lost < off → d.val ∈ hub →
        ∃ t, exec (.pllWindow dt d count) s = .next t ∧ t.boot.lastStop = 2 ∧ t.boot.hubCause = 4 ∧ t.alertPending = true ∧
          t.power.running = false ∧ t.power.pwrGood = s.power.pwrGood ∧ t.sessions = [] ∧ t.fuses = s.fuses ∧ t.board = s.board) ∧
      (late → p.starts < 3 →
        exec (.pllStartTimeout dt d) s = .next { s.elapse dt with clocks := { s.clocks with
          plls := Tab.set {} s.clocks.plls d.val { p with starts := p.starts + 1, startedAt := s.time + dt, good := 0 } } }) ∧
      (late → 3 ≤ p.starts → d.val ∈ hub →
        ∃ t, exec (.pllStartTimeout dt d) s = .next t ∧ t.boot.lastStop = 4 ∧ t.power.running = false ∧ t.sessions = []) ∧
      (late → 3 ≤ p.starts → d.val ∉ hub →
        ∃ u : State, gated u ∧ exec (.pllStartTimeout dt d) s = .next (
          if d.val < 24 then u.fence d.val 6
          else if d.val < 30 then [d.val - 24, d.val - 18, d.val - 12, d.val - 6].foldl (fun v c => v.fence c 6) u
          else if d.val < 42 then u.fence (24 + (d.val - 30) % 4) 6
          else if d.val < 48 then u.fence (28 + (d.val - 42) / 3) 6
          else if d.val = 58 then u.fence 31 6
          else u.loseLink (d.val - 54))) ∧
      (off ≤ 256 * stable → p.stable = false → p.good = 3 → s.boot.stage = 0 → s.boot.trying = none → s.security.extended = 0 →
        d.val ∈ hub → (∀ e ∈ hub, e ≠ d.val → (s.pll e).stable = true) →
        let said := natLE 4 (Config.romVersion 0).toNat ++ natLE 4 s.hubFuseStatus
        let keys := (List.range 4).flatMap (fun k => slice (Tab.get [] s.fuses.fwKeys k) 0 32) ++
          (List.range 8).flatMap (fun k => slice (Tab.get [] s.fuses.modelKeys k) 0 32)
        ∃ t, exec (.pllWindow dt d count) s = .next t ∧ Measured s t 0 (shake256 (said ++ keys) 64) ∧
          t.boot = { s.boot with trying := some t.boot.slot, trial := s.flash.trial,
                                 slot := if s.flash.trial then 1 - s.flash.preferred else s.flash.preferred } ∧
          t.flash = { s.flash with trial := false } ∧ (t.pll d.val).stable = true ∧
          { t with boot := s.boot, flash := s.flash, security := s.security, clocks := s.clocks } = s.elapse dt)) ∧
  (∀ (s : State) (dt cycles : Nat) (windows : List Nat), s.board.aux = true →
      (s.clocks.missing = false → cycles < 64 →
        ∃ t, exec (.refclkMissing dt cycles) s = .next t ∧ t.alertPending = true ∧
          t.clocks = { s.clocks with refclkOk := false, missing := true, refclkLost := { isSet := true, setAt := s.wall + dt }
                                     clockEvents := (s.clocks.clockEvents + 1) % 65536, plls := t.clocks.plls } ∧
          (s.power.railsOn = true → StopLeaves (s.elapse dt) t ∧ t.boot.lastStop = 3 ∧ t.boot.hubCause = 0 ∧ t.board = s.board ∧
            t.power.railsOn = false ∧ t.power.pwrGood = false) ∧
          (s.power.railsOn = false → { t with clocks := s.clocks, alertPending := s.alertPending } = s.elapse dt ∧
            t.clocks.plls = s.clocks.plls)) ∧
      (s.clocks.refclkOk = false → windows.length = 16 → (∀ w ∈ windows, 64 ≤ w) →
        exec (.refclkPresent dt windows) s = .next { s.elapse dt with clocks := { s.clocks with refclkOk := true, missing := false } }))


/-- R15, R20, R443: the TAP works whenever 3.3 V auxiliary is present. TRST_N low resets it; BYPASS puts one bit between TDI and TDO, IDCODE reads
0x14E3_2C7B, SAMPLE/PRELOAD samples the pins of R15 and loads the output cells, EXTEST drives the outputs from them. -/
def Obligations.TapInstructionsSelectTheirRegister : Prop :=
  ∀ (s : State) (dt : Nat) (tdi : Bool) (preload : List Bool), s.board.aux = true →
    let released := { s.board with trstN := true }
    let pins := [s.board.perst0N, s.board.perst1N, s.board.modResetN, true, true, !s.alertPending, false, s.power.pwrGood, !s.thermal.tripLatched.isSet,
                 s.board.straps.getLsbD 0, s.board.straps.getLsbD 1, s.board.straps.getLsbD 2, s.board.straps.getLsbD 3]
    exec (.tapReset dt) s = .next { s.elapse dt with
      board := { s.board with trstN := false }
      tap := { inReset := true, instr := .idcode, dr := [], boundary := s.tap.boundary, driving := false } } ∧
    exec (.bypass dt tdi) s = .next { s.elapse dt with
      board := released
      tap := { inReset := false, instr := .bypass, dr := [tdi], boundary := s.tap.boundary, driving := false } } ∧
    (∃ dr, exec (.idcode dt) s = .next { s.elapse dt with
      board := released
      bus := { data := natLE 4 0x14E32C7B }
      tap := { inReset := false, instr := .idcode, dr := dr, boundary := s.tap.boundary, driving := false } } ∧
      dr = (List.range 32).map (fun i => (0x14E32C7B : BitVec 32).getLsbD i)) ∧
    exec (.samplePreload dt preload) s = .next { s.elapse dt with
      board := released
      tap := { inReset := false, instr := .samplePreload, dr := pins, boundary := preload, driving := false } } ∧
    exec (.extest dt) s = .next { s.elapse dt with
      board := released
      tap := { inReset := false, instr := .extest, dr := pins, boundary := s.tap.boundary, driving := true } }

/-! ## PCIe, GDDR7 and CXL -/

/-- R330, R360, R361, R388: a PERST_N assertion on a running module, an FLR and a surprise link down reset their port alone. Its SEALED
slots empty unexecuted, its ACCEPTED ones will complete unsignalled, its sequence numbers restart, its configuration and MSI-X state
return to their reset values, `link_lost` is set and counted and PCIE_LINK_LOST logged, and an owner on it loses ownership. After an
FLR the link is up as before; after a surprise link down it trains at once. Other ports' slots, and with the owner elsewhere
everything but the port and the log, stay.
R15, R353, R354: PERST_N low in reset or standby, or of a port that the straps do not make, changes only the pin; released, the port trains once the controllers are ready,
20 ms after the rising edge of MOD_RESET_N; a link that trains reports its width, its rate and FLIT mode, which 64 GT/s always uses. -/
def Obligations.PciePortsResetAndTrain : Prop :=
  (∀ (s : State) (dt : Nat) (p : PciePort), s.power.running = true → s.portPresent p.val = true →
      let old := s.pciePort p.val
      let fresh : PcieState := { linkLost := { isSet := true, setAt := s.wall + dt }, bar2Hole := old.bar2Hole, linkResets := (old.linkResets + 1) % 65536, winGib := old.winGib, sent := old.sent }
      let lost : LogEntry := { t := s.time + dt, index := (s.die 30).events, die := 0xFF, severity := 1, code := 0x0015,
                               arg := BitVec.ofNat 32 (p.val * 65536), info := 0 }
      let slots (t : State) := (∀ k : Slot, t.slot p.val k.val = (let m := s.slot p.val k.val
          if m.st = 1 then { m with st := 0 } else if m.st = 2 then { m with signal := false } else m)) ∧
        (∀ (q : Port) (k : Slot), q.val ≠ p.val → t.slot q.val k.val = s.slot q.val k.val) ∧
        t.port p.val = { s.port p.val with nextSeq := 0, consumed := [], gapSince := none }
      let rest (t : State) := { t with mbx := s.mbx, ports := s.ports, pcie := s.pcie, log := s.log, dies := s.dies, board := s.board } = s.elapse dt
      let away := s.owner.owned = false ∨ s.owner.port ≠ p.val
      let pin : Board := if p = 0 then { s.board with perst0N := false } else { s.board with perst1N := false }
      ((if p = 0 then s.board.perst0N else s.board.perst1N) = true → s.board.aux = true →
        ∃ t, exec (.perstAssert dt p) s = .next t ∧ t.board = pin ∧ slots t ∧ t.pciePort p.val = fresh ∧
          (s.owner.owned = true → s.owner.port = p.val → t.owner.owned = false ∧ t.alertPending = true) ∧
          (away → rest t ∧ t.log.pending = s.log.pending ++ [lost] ∧ t.pciePort (1 - p.val) = s.pciePort (1 - p.val))) ∧
      (old.linkUp = true →
        ∃ t, exec (.flr dt p) s = .next t ∧ t.board = s.board ∧ slots t ∧
          t.pciePort p.val = { fresh with linkUp := true, width := old.width, rate := old.rate, flit := old.flit } ∧
          (s.owner.owned = true → s.owner.port = p.val → t.owner.owned = false) ∧
          (away → rest t ∧ t.log.pending = s.log.pending ++ [lost])) ∧
      (old.linkUp = true → (if p = 0 then s.board.perst0N else s.board.perst1N) = true → s.boot.pcieReady = true →
        ∃ t, exec (.surpriseLinkDown dt p) s = .next t ∧ t.board = s.board ∧ slots t ∧
          t.pciePort p.val = { fresh with training := true } ∧
          (s.owner.owned = true → s.owner.port = p.val → t.owner.owned = false) ∧
          (away → rest t ∧ t.log.pending = s.log.pending ++ [lost]))) ∧
  (∀ (s : State) (dt : Nat) (p : PciePort),
      let high := if p = 0 then s.board.perst0N else s.board.perst1N
      let pin (v : Bool) : Board := if p = 0 then { s.board with perst0N := v } else { s.board with perst1N := v }
      (s.board.aux = true → high = true → s.power.running = false ∨ s.portPresent p.val = false →
        exec (.perstAssert dt p) s = .next { s.elapse dt with board := pin false }) ∧
      (s.board.aux = true → high = false →
        ∃ t, exec (.perstRelease dt p) s = .next t ∧ t.board = pin true ∧
          { t with board := s.board, pcie := s.pcie } = s.elapse dt ∧
          (∀ q, q ≠ p.val → t.pciePort q = s.pciePort q) ∧
          ((t.pciePort p.val).training = true ↔ (s.pciePort p.val).training = true ∨
            s.power.running = true ∧ s.boot.pcieReady = true ∧ s.portPresent p.val = true ∧ (s.pciePort p.val).linkUp = false)) ∧
      (s.power.running = true → s.boot.pcieReady = false → 20000000 ≤ s.time + dt →
        ∃ t, exec (.pcieControllersReady dt) s = .next t ∧ t.boot = { s.boot with pcieReady := true } ∧
          { t with boot := s.boot, pcie := s.pcie } = s.elapse dt ∧
          ∀ q, q < 2 → (t.pciePort q).training = ((s.pciePort q).training || (s.portPresent q &&
            (if q = 0 then s.board.perst0N else s.board.perst1N) && !(s.pciePort q).linkUp))) ∧
      (∀ (w : Fin 17) (r : Fin 7) (flit : Bool), s.power.running = true → s.boot.pcieReady = true → high = true →
        s.portPresent p.val = true → (s.pciePort p.val).training = true →
        w.val = 1 ∨ w.val = 2 ∨ w.val = 4 ∨ w.val = 8 ∨ w.val = 16 ∧ s.straps.getLsbD 0 = false → 1 ≤ r.val →
        exec (.pcieLinkUp dt p w r flit) s = .next { s.elapse dt with
          pcie := Tab.set {} s.pcie p.val
            { s.pciePort p.val with linkUp := true, training := false, width := w.val, rate := r.val, flit := flit || decide (r.val = 6) } }))


/-- R332, R356, R358, R360: configuration writes, and the power state: only the written setting changes, a size outside the standard's is
not taken, and the pending vectors that are then neither masked nor held by D3hot or a clear Bus Master Enable are raised.
R357, R362, R455: BAR2 offset o reaches GDDR7 at the aligned window base plus o. A read returns the bytes there, as poisoned data
when a touched word is in the poison list, which counts as one uncorrectable event (the third within 60 s fences the die); a write
lands there and nowhere else; unpopulated space, the system region, a die out of service and GDDR7 before training read as zeros and
drop writes, setting `bar2_hole`. The statement takes no ring of a session as holding anything back (what a freed `consumed` count
lets through has a statement of its own). -/
def Obligations.PciePortsConfigureAndReachMemory : Prop :=
  (∀ (s : State) (dt : Nat) (p : PciePort), (s.pciePort p.val).linkUp = true →
      let old := s.pciePort p.val
      let fire (q : PcieState) : PcieState := if q.d3hot = true ∨ q.busMaster = false then q else
        { q with pending := q.pending.filter (fun v => q.vectorMasked v)
                 sent := (q.pending.filter (fun v => !q.vectorMasked v)).foldl (fun n v => Tab.set 0 n v (Tab.get 0 n v + 1)) q.sent }
      let gives (c : Instr) (new : PcieState) := ∃ t, exec c s = .next t ∧ t.pciePort p.val = fire new ∧
        (∀ q, q ≠ p.val → t.pciePort q = s.pciePort q) ∧ { t with pcie := s.pcie } = s.elapse dt
      (∀ on, gives (.configurationWrite dt p (.busMaster on)) { old with busMaster := on }) ∧
      (∀ on, gives (.configurationWrite dt p (.relaxedOrdering on)) { old with relaxed := on }) ∧
      (∀ on, gives (.configurationWrite dt p (.tenBitTags on)) { old with tenBitTags := on }) ∧
      (∀ b, gives (.configurationWrite dt p (.maxPayload b))
        (if b = 128 ∨ b = 256 ∨ b = 512 then { old with maxPayload := b } else old)) ∧
      (∀ b, gives (.configurationWrite dt p (.maxReadRequest b))
        (if b = 128 ∨ b = 256 ∨ b = 512 ∨ b = 1024 ∨ b = 2048 ∨ b = 4096 then { old with maxReadRequest := b } else old)) ∧
      (∀ g, gives (.configurationWrite dt p (.bar2Size g)) (if (∃ n, n < 8 ∧ g = 2 ^ n) then { old with bar2Gib := g } else old)) ∧
      (∀ d3, gives (.pmStateWrite dt p d3) { old with d3hot := d3 })) ∧
  (∀ (s : State) (dt : Nat) (p : PciePort) (o : Nat),
      let ps := s.pciePort p.val
      let a := ps.winGib / ps.bar2Gib * ps.bar2Gib * 2 ^ 30 + o
      let md := a / (24 * 2 ^ 30)
      let usable (n : Nat) := s.memory.trained = true ∧ a + n ≤ 96 * 2 ^ 30 ∧ a % (24 * 2 ^ 30) + n ≤ 23 * 2 ^ 30 ∧ s.dieRuns (24 + md) = true
      let clean (n : Nat) := ∀ w ∈ s.poisonList md, w * 64 + 64 ≤ a ∨ a + n ≤ w * 64
      let recent := (s.die (24 + md)).eccTimes.filter (fun x => decide (s.time + dt < x + 60000000000))
      let marked := Tab.set {} s.pcie p.val { ps with bar2Hole := { isSet := true, setAt := s.wall + dt } }
      ps.linkUp = true → ps.d3hot = false →
      (∀ n : Fin 65, 0 < n.val → o + n.val ≤ ps.bar2Gib * 2 ^ 30 → usable n.val → clean n.val →
        exec (.bar2Read dt p o n) s = .next { s.elapse dt with bus := { data := Mem.readBytes s.memory.gddr a n.val } }) ∧
      (∀ n : Fin 65, 0 < n.val → o + n.val ≤ ps.bar2Gib * 2 ^ 30 → usable n.val → ¬ clean n.val →
        ∃ u : State, exec (.bar2Read dt p o n) s =
            .next { (if recent.length < 2 then u else u.fence (24 + md) 2) with bus := { data := Mem.readBytes s.memory.gddr a n.val, poisoned := true } } ∧
          (u.channel md (gddrChannelOf a)).uncorrectable = min 0xFF ((s.channel md (gddrChannelOf a)).uncorrectable + 1) ∧
          (u.die (24 + md)).eccTimes = recent ++ [s.time + dt] ∧
          { u with memory := s.memory, dies := s.dies } = s.elapse dt ∧ { u.memory with channels := s.memory.channels } = s.memory) ∧
      (∀ n : Fin 65, 0 < n.val → o + n.val ≤ ps.bar2Gib * 2 ^ 30 → ¬ usable n.val →
        exec (.bar2Read dt p o n) s = .next { s.elapse dt with pcie := marked, bus := { data := zeros n.val } }) ∧
      (∀ bs : Bytes, 0 < bs.length → o + bs.length ≤ ps.bar2Gib * 2 ^ 30 → usable bs.length →
        (∀ e ∈ s.sessions, e.2.recHeld = [] ∧ e.2.outHeld = []) → (∀ i, (s.session i).recHeld = [] ∧ (s.session i).outHeld = []) →
        ∃ t, exec (.bar2Write dt p o bs) s = .next t ∧ Mem.readBytes t.memory.gddr a bs.length = bs ∧
          (∀ x, x < a ∨ a + bs.length ≤ x → Mem.read t.memory.gddr x = Mem.read s.memory.gddr x) ∧
          { t with memory := s.memory, sessions := s.sessions } = s.elapse dt ∧
          { t.memory with gddr := s.memory.gddr, poison := s.memory.poison } = s.memory) ∧
      (∀ bs : Bytes, 0 < bs.length → o + bs.length ≤ ps.bar2Gib * 2 ^ 30 → ¬ usable bs.length →
        exec (.bar2Write dt p o bs) s = .next { s.elapse dt with pcie := marked }))


/-- R133, R369 to R371, R424: boot training puts every channel in service that did not fail it and reaches stage 3; a channel that failed
full training fences its memory die from boot, and the cores that mismatched in the start-up self-check are retired. A retraining is
counted, and a second attempt flagged. A corrected event and an uncorrectable one are counted on their channel up to their limits, an
uncorrectable word enters the die's poison list of at most 1,024 words, a read of a listed word counts again, and the third
uncorrectable event within 60 s fences the die (R28); a patrol scrub does what an access error does, and one that finds nothing
changes nothing.
R363 to R367: a CXL port that trains with a Type 3 expander maps min(capacity, 2 TiB) and reports it in whole GiB; a lost link sets
`port_lost`, logs CXL_DOWN and empties every library region on the port; each retraining is counted. -/
def Obligations.MemoriesTrainAndCountErrors : Prop :=
  (∀ (s : State) (dt : Nat) (md : MemDie) (ch : Fin 8), s.power.running = true →
      let c := s.channel md.val ch.val
      let setTo (new : GddrChannel) := Tab.set {} s.memory.channels (md.val * 8 + ch.val) new
      (∀ (seedFail trainFail : List (MemDie × Fin 8)) (mismatch : List (CoreDie × CoreIx)), s.boot.stage = 2 →
        ∃ u : State, u.boot = { s.boot with stage := 3 } ∧ u.memory.trained = true ∧
          (∀ (m : MemDie) (k : Fin 8), u.channel m.val k.val = { s.channel m.val k.val with
            trained := !decide ((m, k) ∈ trainFail)
            seeded := !s.boot.calInvalid && !decide ((m, k) ∈ seedFail) && !decide ((m, k) ∈ trainFail) }) ∧
          { u with boot := s.boot, memory := s.memory } = s.elapse dt ∧
          { u.memory with channels := s.memory.channels, trained := s.memory.trained } = s.memory ∧
          exec (.memoryTrained dt seedFail trainFail mismatch) s = .next (mismatch.foldl
            (fun v x => if v.diePowered x.1.val then v.retire x.1.val x.2.val else v) (trainFail.foldl (fun v x => v.fence (24 + x.1.val) 6) u))) ∧
      (∀ second : Bool, s.memory.trained = true → c.trained = true → s.dieRuns (24 + md.val) = true →
        exec (.gddr7Retrain dt md ch second) s = .next { s.elapse dt with memory := { s.memory with
          channels := setTo { c with retrains := (c.retrains + 1) % 65536
                                     retrainFail := if second then { isSet := true, setAt := s.wall + dt } else c.retrainFail } } }) ∧
      (∀ a : Nat, s.memory.trained = true → s.dieRuns (24 + md.val) = true → md.val * (24 * 2 ^ 30) ≤ a →
        a < (md.val + 1) * (24 * 2 ^ 30) → gddrChannelOf a = ch.val →
        let bad := s.poisonList md.val
        let recent := (s.die (24 + md.val)).eccTimes.filter (fun x => decide (s.time + dt < x + 60000000000))
        exec (.gddr7AccessError dt md a .corrected) s = .next { s.elapse dt with memory := { s.memory with
          channels := setTo { c with corrected := min 0xFFFFF (c.corrected + 1) } } } ∧
        exec (.patrolScrub dt md a none) s = .next (s.elapse dt) ∧
        (∀ e, exec (.patrolScrub dt md a (some e)) s = exec (.gddr7AccessError dt md a e) s) ∧
        (a / 64 ∉ bad → exec (.gddr7AccessError dt md a .poisonedRead) s = .next (s.elapse dt)) ∧
        (∀ (e : GddrError) (after : List Nat),
          e = .uncorrectable ∧ after = (if a / 64 ∈ bad ∨ 1024 ≤ bad.length then bad else bad ++ [a / 64]) ∨
            e = .poisonedRead ∧ a / 64 ∈ bad ∧ after = bad →
          ∃ u : State, exec (.gddr7AccessError dt md a e) s = .next (if recent.length < 2 then u else u.fence (24 + md.val) 2) ∧
            u.channel md.val ch.val = { c with uncorrectable := min 0xFF (c.uncorrectable + 1) } ∧
            (∀ (m : MemDie) (k : Fin 8), (m, k) ≠ (md, ch) → u.channel m.val k.val = s.channel m.val k.val) ∧
            u.poisonList md.val = after ∧ (∀ m, m ≠ md.val → u.poisonList m = s.poisonList m) ∧
            u.die (24 + md.val) = { s.die (24 + md.val) with eccTimes := recent ++ [s.time + dt] } ∧
            (∀ i, i ≠ 24 + md.val → u.die i = s.die i) ∧
            { u with memory := s.memory, dies := s.dies } = s.elapse dt ∧
            { u.memory with channels := s.memory.channels, poison := s.memory.poison } = s.memory))) ∧
  (∀ (s : State) (dt : Nat) (x : Fin 2), s.power.running = true →
      let c := s.cxlPort x.val
      (∀ (w : Fin 4) (m : Fin 3) (type3 : Bool) (capacity : Nat), 2 ≤ s.boot.stage → s.boot.stage ≤ 4 → c.linkUp = false →
        (m.val = 1 ∨ m.val = 2) → (w.val = 2 ∨ w.val = 3) →
        ∃ cap, cap = (if type3 then min capacity (2 * 2 ^ 40) else 0) ∧
          exec (.cxlPortUp dt x w m type3 capacity) s = .next { s.elapse dt with
            cxl := Tab.set {} s.cxl x.val
              { c with linkUp := true, widthLog2 := w.val, mode := m.val, expanderOk := type3, capacity := cap, capacityGib := cap / 2 ^ 30, tries := 0 } }) ∧
      (c.linkUp = true →
        ∃ t, exec (.cxlDown dt x) s = .next t ∧
          t.cxlPort x.val = { c with linkUp := false, widthLog2 := 0, mode := 0, expanderOk := false, capacity := 0, capacityGib := 0,
                                     portLost := { isSet := true, setAt := s.wall + dt }, tries := 0, downAt := s.time + dt } ∧
          t.cxlPort (1 - x.val) = s.cxlPort (1 - x.val) ∧
          (∀ i, t.session i = (let ss := s.session i
            if ss.plan.cxlSize ≠ 0 ∧ ss.plan.cxlPort = x.val then { ss with lib := ss.lib.filter (fun e => e.2.writing) } else ss)) ∧
          t.log.pending = s.log.pending ++ [{ t := s.time + dt, index := (s.die 30).events, die := 0xFF, severity := 2, code := 0x0014,
                                              arg := BitVec.ofNat 32 (x.val * 65536), info := 0 }] ∧
          { t with cxl := s.cxl, sessions := s.sessions, log := s.log, dies := s.dies } = s.elapse dt) ∧
      (c.linkUp = false → c.portLost.isSet = true → c.tries < 3 ∨ c.downAt + 10000000000 ≤ s.time + dt →
        exec (.cxlRetrain dt x) s = .next { s.elapse dt with cxl := Tab.set {} s.cxl x.val { c with tries := c.tries + 1, downAt := s.time + dt } }))


/-! ## Throttling, sensors, trips and die faults -/

/-- R406, R412, R417: while a demand is present k falls by one, at most once every 100 ms and not below 4; more than 2,640 W over 1 ms
drops it by 4 at once; it rises by one after 1 s with every release condition met. Every change counts a step and is logged with the
new k and the demand bits. -/
def Obligations.ThrottleLevelFollowsDemands : Prop :=
  ∀ (s : State) (dt : Nat), s.power.running = true →
    let th := s.thermal
    let demand := th.demandPower || th.demandOutlet || th.demandJunction || th.demandGddr
    let bitsOf := (if th.demandPower then 1 else 0) + (if th.demandOutlet then 2 else 0) + (if th.demandJunction then 4 else 0) +
      (if th.demandGddr then 8 else 0)
    let logged (k : Nat) : List LogEntry := s.log.pending ++ [{ t := s.time + dt, index := (s.die 30).events, die := 0xFF, severity := 2, code := 0x0021, arg := 0, info := BitVec.ofNat 64 (k + 256 * bitsOf) }]
    let rest (t : State) := { t with thermal := s.thermal, log := s.log, dies := s.dies } = s.elapse dt
    (demand = true → 4 < th.k → (∀ l, th.lastLower = some l → l + 100000000 ≤ s.time + dt) →
      ∃ t, exec (.throttleLower dt) s = .next t ∧
        t.thermal = { th with k := th.k - 1, steps := (th.steps + 1) % 65536, lastLower := some (s.time + dt) } ∧
        t.log.pending = logged (th.k - 1) ∧ rest t) ∧
    (∀ watts, 2640 < watts → 4 < th.k →
      ∃ t, exec (.throttleFastDrop dt watts) s = .next t ∧
        t.thermal = { th with k := max 4 (th.k - 4), steps := (th.steps + 1) % 65536 } ∧
        t.log.pending = logged (max 4 (th.k - 4)) ∧ rest t) ∧
    (∀ watts, 2640 < watts → th.k = 4 → exec (.throttleFastDrop dt watts) s = .next (s.elapse dt)) ∧
    (∀ since, demand = false → th.k < 16 → th.releaseSince = some since → since + 1000000000 ≤ s.time + dt →
      ∃ t, exec (.throttleRaise dt) s = .next t ∧
        t.thermal = { th with k := th.k + 1, steps := (th.steps + 1) % 65536, releaseSince := some (s.time + dt) } ∧
        t.log.pending = logged (th.k + 1) ∧ rest t)

/-- R31, R409 to R412, R416: a die's temperature is the highest of its corrected sensors; below 105 °C the reading only updates the
temperature, the power inputs and the demands, and the junction demand is present exactly when some die is at 95 °C or more; at 105 °C
another die is fenced, and the hub trips the module as a hub fault of cause 3. A coolant outlet at 65 °C trips the module too, and so
does a coolant sensor that reads open or shorted while the module is powered; a trip turns every rail off with reason THERMAL_TRIP and
latches, and in standby only latches and alerts. An inlet outside 15 to 40 °C is flagged, and logged once. The latch clears only below
45 °C. Under an invalid calibration record every threshold is 8 °C lower. -/
def Obligations.TemperatureReadingsThrottleAndTrip : Prop :=
  ∀ (s : State) (dt : Nat),
    let low : Int := if s.boot.calInvalid then 128 else 0
    let now : Flag := { isSet := true, setAt := s.wall + dt }
    (∀ (d : DieIx) (raw : List Int) (w mv : Nat), s.power.running = true → s.dieRuns d.val = true →
      raw.length = (if d.val < 24 then 4 else if d.val < 31 then 2 else 1) →
      let first := if d.val < 24 then 4 * d.val else if d.val < 30 then 96 + 2 * (d.val - 24) else if d.val = 30 then 108 else 110
      let ts := (List.range raw.length).map (fun i => (raw.getD i 0 + s.sensorOffset (first + i)).fdiv 4)
      (∀ temp, temp ∈ ts → (∀ x ∈ ts, x ≤ temp) → temp < 105 * 16 - low →
        ∃ t, exec (.junctionSensorRead dt d raw w mv) s = .next t ∧ t.dieTemperature d.val = temp ∧
          (∀ e, e ≠ d.val → t.dieTemperature e = s.dieTemperature e) ∧
          t.power = { s.power with inputW := w, inputMv10 := mv } ∧
          (t.thermal.demandPower = true ↔ s.power.capW < w) ∧
          (t.thermal.demandJunction = true ↔ ∃ e ∈ t.thermal.dieTemp, 95 * 16 - low ≤ e.2) ∧
          t.thermal.k = s.thermal.k ∧ { t with power := s.power, thermal := s.thermal } = s.elapse dt) ∧
      (∀ temp, temp ∈ ts → (∀ x ∈ ts, x ≤ temp) → 105 * 16 - low ≤ temp → d.val = 30 → s.power.railsOn = true →
        ∃ t, exec (.junctionSensorRead dt d raw w mv) s = .next t ∧ t.boot.lastStop = 2 ∧ t.boot.hubCause = 3 ∧ t.thermal.tripLatched = now ∧
          t.alertPending = true ∧ t.power.railsOn = false ∧ t.power.running = false ∧ t.sessions = [] ∧ t.fuses = s.fuses) ∧
      (∀ temp, temp ∈ ts → (∀ x ∈ ts, x ≤ temp) → 105 * 16 - low ≤ temp → d.val ≠ 30 →
        ∃ t, exec (.junctionSensorRead dt d raw w mv) s = .next t ∧ (t.die d.val).fenced = 5 ∧ t.dieTemperature d.val = -32768 ∧
          t.thermal.tripLatched = s.thermal.tripLatched ∧ t.power.railsOn = s.power.railsOn ∧ t.board = s.board ∧ t.fuses = s.fuses)) ∧
    (∀ (md : MemDie) (temps : List Int) (temp : Int), s.power.running = true → s.dieRuns (24 + md.val) = true → temps.length = 8 →
      temp ∈ temps → (∀ x ∈ temps, x ≤ temp) →
      (temp < 100 * 16 - low →
        ∃ t, exec (.gddr7TempRead dt md temps) s = .next t ∧
          (∀ i, i < 8 → Tab.get (-32768) t.thermal.gddrTemp (md.val * 8 + i) = temps.getD i 0) ∧
          (t.thermal.demandGddr = true ↔ ∃ e ∈ t.thermal.gddrTemp, 90 * 16 - low ≤ e.2) ∧
          { t with thermal := s.thermal } = s.elapse dt) ∧
      (100 * 16 - low ≤ temp →
        ∃ t, exec (.gddr7TempRead dt md temps) s = .next t ∧ (t.die (24 + md.val)).fenced = 5 ∧ t.board = s.board ∧ t.fuses = s.fuses)) ∧
    (∀ i o : Option Int, s.board.aux = true → s.clocks.refclkOk = true →
      let read (k : Nat) (x : Option Int) : Int := match x with | some r => (r + s.sensorOffset k).fdiv 4 | none => -32768
      let inn := read 111 i
      let out := read 112 o
      let warn := i ≠ none ∧ (inn < 15 * 16 - low ∨ 40 * 16 - low < inn)
      let trip := (i = none ∨ o = none) ∧ s.power.railsOn = true ∨ o ≠ none ∧ 65 * 16 - low ≤ out
      let seen (t : State) := t.thermal.inlet = inn ∧ t.thermal.outlet = out ∧ (t.thermal.demandOutlet = true ↔ 52 * 16 - low < out) ∧
        t.thermal.k = s.thermal.k
      (¬ trip → ¬ (warn ∧ s.thermal.coolantWarn.isSet = false ∧ s.power.running = true) →
        ∃ t, exec (.coolantSensorRead dt i o) s = .next t ∧ seen t ∧ (warn → t.thermal.coolantWarn = now) ∧
          (¬ warn → t.thermal.coolantWarn = s.thermal.coolantWarn) ∧ { t with thermal := s.thermal } = s.elapse dt) ∧
      (¬ trip → warn → s.power.running = true → s.thermal.coolantWarn.isSet = false →
        ∃ t, exec (.coolantSensorRead dt i o) s = .next t ∧ seen t ∧ t.thermal.coolantWarn = now ∧
          t.log.pending = s.log.pending ++ [{ t := s.time + dt, index := (s.die 30).events, die := 0xFF, severity := 2, code := 0x0023, arg := 0, info := BitVec.ofInt 64 inn }] ∧
          { t with thermal := s.thermal, log := s.log, dies := s.dies } = s.elapse dt) ∧
      (trip → s.power.railsOn = true →
        ∃ t, exec (.coolantSensorRead dt i o) s = .next t ∧ t.boot.lastStop = 7 ∧ t.boot.hubCause = 0 ∧ t.thermal.tripLatched = now ∧
          t.thermal.inlet = inn ∧ t.thermal.outlet = out ∧ t.alertPending = true ∧ t.power.railsOn = false ∧ t.sessions = []) ∧
      (trip → s.power.railsOn = false → s.power.running = false →
        ∃ t, exec (.coolantSensorRead dt i o) s = .next t ∧ seen t ∧ t.thermal.tripLatched = now ∧ t.alertPending = true ∧
          { t with thermal := s.thermal, alertPending := s.alertPending } = s.elapse dt)) ∧
    (∀ w : Writer, (s.elapse dt).mayClear w = true →
      (s.thermal.outlet ≠ -32768 → s.thermal.outlet < 45 * 16 - low → s.thermal.tripLatched.setAt ≠ s.wall + dt →
        exec (.tripLatchedClear dt w) s =
          .next { s.elapse dt with thermal := { s.thermal with tripLatched := { s.thermal.tripLatched with isSet := false } } }) ∧
      (s.thermal.outlet = -32768 ∨ 45 * 16 - low ≤ s.thermal.outlet → exec (.tripLatchedClear dt w) s = .next (s.elapse dt)))

/-- R26, R28, R29, R31: faults of a die. A flit retried up to four times counts once on its edge; below the limit of 32 retries
within 1 ms for either end it does nothing more, at the limit that end is fenced, and a fifth failing attempt fences both ends of the
edge (the hub apart). An uncorrectable SRAM error or an expired
watchdog fences the die; in the hub both are a hub fault, which stops the module with the cause recorded.
R28, R142, R317: what fencing a die does, whoever fences it. The die and its cores stop, sessions whose cut uses it are faulted,
guard engines of a stream die are given up, its temperature reads 0x8000, and nothing of the board, the
fuses, the flash, the owner or the power state changes; a die already fenced, and the hub, are left as they are. -/
def Obligations.DieFaultsFenceTheDieOrStopTheModule : Prop :=
  (∀ (s : State) (dt : Nat) (d : DieIx), s.power.running = true →
      let window (e : Nat) := ((s.die e).crcTimes.filter (fun x => decide (s.time + dt < x + 1000000))).length
      let stopped (t : State) := t.power.running = false ∧ t.power.pwrGood = s.power.pwrGood ∧ t.alertPending = true ∧ t.boot.lastStop = 2 ∧
        t.sessions = [] ∧ t.owner = {} ∧ t.fuses = s.fuses ∧ t.board = s.board ∧ t.boot.boots = s.boot.boots
      let kept (t : State) := t.board = s.board ∧ t.fuses = s.fuses ∧ t.flash = s.flash ∧ t.power = s.power ∧ t.owner = s.owner ∧
        t.pending = s.pending ∧ t.time = s.time + dt ∧ t.boot = s.boot
      (∀ (edge : Fin 4) (n : Fin 6) (other : Nat), neighbour d.val edge.val = some other → 1 ≤ n.val → n.val ≤ 4 →
        window d.val + n.val < 32 → window other + n.val < 32 →
        ∃ t, exec (.flitCrcFail dt d edge n) s = .next t ∧
          Tab.get 0 (t.die d.val).edgeCrc edge.val = min 0xFFFFFFFF (Tab.get 0 (s.die d.val).edgeCrc edge.val + 1) ∧
          (∀ e, e ≠ edge.val → Tab.get 0 (t.die d.val).edgeCrc e = Tab.get 0 (s.die d.val).edgeCrc e) ∧
          (∀ e, (t.die e).fenced = (s.die e).fenced) ∧ { t with dies := s.dies } = s.elapse dt) ∧
      (∀ (edge : Fin 4) (n : Fin 6) (other : Nat), neighbour d.val edge.val = some other → 1 ≤ n.val → n.val ≤ 4 →
        ∃ t, exec (.flitCrcFail dt d edge n) s = .next t ∧ kept t ∧
          (32 ≤ window d.val + n.val → d.val ≠ 30 → (t.die d.val).fenced ≠ 0) ∧
          (32 ≤ window other + n.val → other ≠ 30 → (t.die other).fenced ≠ 0)) ∧
      (∀ (edge : Fin 4) (other : Nat), neighbour d.val edge.val = some other →
        ∃ t, exec (.flitCrcFail dt d edge 5) s = .next t ∧ (d.val ≠ 30 → (t.die d.val).fenced ≠ 0) ∧ (other ≠ 30 → (t.die other).fenced ≠ 0) ∧
          (min d.val other, max d.val other) ∈ t.faultyEdges ∧ kept t) ∧
      (∀ core, d.val ≠ 30 → s.dieFenced d.val = false →
        ∃ t, exec (.sramUncorrectableEcc dt d core) s = .next t ∧ (t.die d.val).fenced = 1 ∧ kept t ∧
          (∀ c : CoreIx, core = some c → d.val < 24 → (t.core d.val c.val).stopped = true)) ∧
      (∀ core, d.val = 30 → s.dieFenced 30 = false →
        ∃ t, exec (.sramUncorrectableEcc dt d core) s = .next t ∧ stopped t ∧ t.boot.hubCause = 1) ∧
      (d.val ≠ 30 → s.dieFenced d.val = false →
        ∃ t, exec (.dieWatchdogExpiry dt d) s = .next t ∧ (t.die d.val).fenced = 4 ∧ kept t) ∧
      (d.val = 30 → ∃ t, exec (.dieWatchdogExpiry dt d) s = .next t ∧ stopped t ∧ t.boot.hubCause = 2) ∧
      (∃ t, exec (.hubWatchdogExpiry dt) s = .next t ∧ stopped t ∧ t.boot.hubCause = 2)) ∧
  (∀ (s : State) (d cause : Nat), cause ≠ 0 →
      (d = 30 ∨ (s.die d).fenced ≠ 0 → s.fence d cause = s) ∧
      (d ≠ 30 → d < 32 → (s.die d).fenced = 0 →
        let t := s.fence d cause
        (t.die d).fenced = cause ∧ t.dieTemperature d = -32768 ∧
        (∀ e, e ≠ d → (t.die e).fenced = (s.die e).fenced) ∧
        (∀ c, c < 160 → d < 24 → (t.core d c).queue = [] ∧ (t.core d c).finishing = none) ∧
        (∀ e, e < 8 → 28 ≤ d → d < 30 → t.guardOf (d - 28) e = none) ∧
        (∀ i : SessionIx, (s.session i.val).bound = true → (s.session i.val).recut = none →
          (∀ k ∈ (s.session i.val).parked, k.recut = none) → s.cutUses (s.session i.val).plan (.die d) = true →
          (t.session i.val).st = .faulted) ∧
        t.board = s.board ∧ t.power = s.power ∧ t.clocks = s.clocks ∧ t.boot = s.boot ∧ t.flash = s.flash ∧ t.fuses = s.fuses ∧
        t.owner = s.owner ∧ t.models = s.models ∧ t.feeders = s.feeders ∧ t.ports = s.ports ∧ t.pending = s.pending ∧ t.time = s.time))


/-! ## Mailbox slots, sequence numbers and commands for every master -/

/-- R328, R329, R348: a seal takes effect only on an EMPTY slot, which becomes SEALED with its `seq` and `opcode`; a number 64 or more
ahead of `next_seq` (or behind it) completes at once with BAD_ARG while the bank is served. A seal on any other slot is dropped, flagged
and counted. A `state` write of 0 empties a DONE slot and withdraws a SEALED command, whose number is then consumed; on an ACCEPTED slot,
or with any other value, it is dropped, flagged and counted. A master that does not reach its bank changes nothing.
R329: after a later number has waited 100 ms behind an unsealed `next_seq`, the firmware skips to the nearest waiting number, sets
and counts `seq_gap` and logs SEQ_GAP with the port. No slot changes. -/
def Obligations.SlotsFollowSealsAndGaps : Prop :=
  (∀ (s : State) (dt : Nat) (p : Port) (k : Slot) (seq opcode : W16) (v : W32), s.masterReaches p.val = false →
      exec (.mailboxSeal dt p k seq opcode) s = .next (s.elapse dt) ∧ exec (.slotStateWrite dt p k v) s = .next (s.elapse dt)) ∧
  (∀ (s : State) (dt : Nat) (p : Port) (k : Slot), s.masterReaches p.val = true →
      let now := s.elapse dt
      let raised : Flag := { isSet := true, setAt := s.wall + dt }
      let m := s.slot p.val k.val
      let ahead (j : Nat) := ((s.slot p.val j).seq - (s.port p.val).nextSeq).toNat
      let inWindow := ∀ j : Slot, j ≠ k → (s.slot p.val j.val).st = 1 → ahead j.val < 64
      let others (t : State) := ∀ (q : Port) (j : Slot), ¬ (q = p ∧ j = k) → t.slot q.val j.val = s.slot q.val j.val
      let rest (t : State) := { t with mbx := s.mbx, ports := s.ports } = now ∧ (∀ q : Port, q ≠ p → t.port q.val = s.port q.val) ∧
        { t.port p.val with gapSince := (s.port p.val).gapSince } = s.port p.val
      let flagged (c : Instr) (w : MbxPort) := exec c s = .next { now with ports := Tab.set {} s.ports p.val w }
      (∀ seq opcode : W16, m.st = 0 →
        let far := (seq - (s.port p.val).nextSeq).toNat
        (far < 64 ∨ s.serves p.val = false → inWindow →
          Gives (.mailboxSeal dt p k seq opcode) s fun t => t.slot p.val k.val = { m with st := 1, seq := seq, opcode := opcode, signal := true } ∧
            others t ∧ rest t) ∧
        (64 ≤ far → s.serves p.val = true → inWindow →
          Gives (.mailboxSeal dt p k seq opcode) s fun t => (t.slot p.val k.val).st = 3 ∧ (t.slot p.val k.val).status = 3 ∧
            (t.slot p.val k.val).seqEcho = seq ∧ (t.port p.val).nextSeq = (s.port p.val).nextSeq ∧ others t ∧ t.withMailbox s = now)) ∧
      (∀ seq opcode : W16, m.st ≠ 0 → flagged (.mailboxSeal dt p k seq opcode)
        { s.port p.val with sealDropped := raised, sealDroppedN := ((s.port p.val).sealDroppedN + 1) % 256 }) ∧
      (∀ v : W32, v.toNat % 4 ≠ 0 ∨ m.st = 2 → flagged (.slotStateWrite dt p k v)
        { s.port p.val with writeDropped := raised, writeDroppedN := ((s.port p.val).writeDroppedN + 1) % 256 }) ∧
      (∀ v : W32, v.toNat % 4 = 0 → m.st = 0 → exec (.slotStateWrite dt p k v) s = .next now) ∧
      (∀ v : W32, v.toNat % 4 = 0 → m.st = 3 →
        Gives (.slotStateWrite dt p k v) s fun t => t.slot p.val k.val = { m with st := 0 } ∧ others t ∧ { t with mbx := s.mbx } = now) ∧
      (∀ v : W32, v.toNat % 4 = 0 → m.st = 1 → inWindow →
        (∀ j : Slot, j ≠ k → (s.slot p.val j.val).st = 1 → (s.slot p.val j.val).seq ≠ m.seq ∧ (s.slot p.val j.val).seq ∉ (s.port p.val).consumed) →
        Gives (.slotStateWrite dt p k v) s fun t => t.slot p.val k.val = { m with st := 0 } ∧ others t ∧
          { t with mbx := s.mbx, ports := s.ports } = now ∧ (∀ q : Port, q ≠ p → t.port q.val = s.port q.val) ∧
          (ahead k.val = 0 → (s.port p.val).consumed = [] → (t.port p.val).nextSeq = (s.port p.val).nextSeq + 1) ∧
          (0 < ahead k.val → ahead k.val < 64 → (t.port p.val).nextSeq = (s.port p.val).nextSeq ∧ m.seq ∈ (t.port p.val).consumed))) ∧
  (∀ (s : State) (dt : Nat) (p : Port) (k : Slot) (since : Nat), s.serves p.val = true →
      let now := s.elapse dt
      let ahead (j : Nat) := ((s.slot p.val j).seq - (s.port p.val).nextSeq).toNat
      (s.port p.val).gapSince = some since → since + 100000000 ≤ now.time → (s.slot p.val k.val).st = 1 → 0 < ahead k.val →
      (s.slot p.val k.val).seq ∉ (s.port p.val).consumed →
      (∀ j : Slot, (s.slot p.val j.val).st = 1 → ahead k.val ≤ ahead j.val ∧ ahead j.val < 64) →
      Gives (.seqGap dt p) s fun t =>
        t.port p.val = { s.port p.val with
          nextSeq := (s.slot p.val k.val).seq, gapSince := none, seqGap := { isSet := true, setAt := s.wall + dt }, seqGapN := ((s.port p.val).seqGapN + 1) % 256
          consumed := (s.port p.val).consumed.filter (fun q => decide ((q - (s.slot p.val k.val).seq).toNat < 64)) } ∧
        (∀ q : Port, q ≠ p → t.port q.val = s.port q.val) ∧
        HubLogged now t 2 0x0008 (BitVec.ofNat 32 (p.val * 65536)) 0 ∧ { t with ports := s.ports, log := s.log, dies := s.dies } = now)


/-- R327, R328, R337, R351: commands that any master may send and that change nothing. PING answers the device time and the owner's
port, 0xFF when none owns the device; DEVICE_INFO the part number, the firmware's version and the module's state; EVENT_READ up to 125
log entries from the index asked for, or from the oldest held one. A non-zero byte beyond the layout is BAD_ARG.
R336, R342: from a port that does not own the device, every owner command is answered NOT_OWNER and changes nothing but the slots;
a session command so once the session's running command no longer holds it (R303). -/
def Obligations.MastersReadAndOnlyTheOwnerCommands : Prop :=
  (∀ (s : State) (dt : Nat) (p : Port) (k : Slot) (req : Bytes),
      let now := s.elapse dt
      let answers (c : Instr) (a : Answer) := Gives c s fun t => Answered s t p k a ∧ t.withMailbox s = now
      let held := s.log.entries
      (s.Presents p k 0x01 req → (∀ b ∈ req, b = 0) → answers (.ping dt p k)
        { resp := natLE 8 now.time ++ [BitVec.ofNat 8 (if s.owner.owned ∧ now.time ≤ s.owner.deadline then s.owner.port else 0xFF)] }) ∧
      (∀ o, s.Presents p k 0x01 req → o < req.length → req.getD o 0 ≠ 0 → (∀ i, i < o → req.getD i 0 = 0) →
        answers (.ping dt p k) { status := 3, detail := o }) ∧
      (s.Presents p k 0x02 req → (∀ b ∈ req, b = 0) →
        Gives (.deviceInfo dt p k) s fun t => t.withMailbox s = now ∧ ∃ a, Answered s t p k a ∧ a.status = 0 ∧ a.resp.length = 57 ∧
          a.resp.take 10 = [0x4F, 0x4A, 0x2D, 0x4E, 0x33, 0x32, 0x2D, 0x39, 0x36, 0x4C] ∧ leAt a.resp 16 4 = s.boot.fwVersion.toNat ∧
          leAt a.resp 20 4 = 6 ∧ (∀ d, d < 32 → (Nat.testBit (leAt a.resp 24 4) d = true ↔ (s.die d).fenced ≠ 0)) ∧
          (∀ d, d < 24 → leAt a.resp (28 + d) 1 = (s.die d).retired.length % 256) ∧ leAt a.resp 52 4 = s.straps.toNat ∧
          leAt a.resp 56 1 = s.straps.toNat / 2 % 8) ∧
      (∀ first count, s.Presents p k 0x08 req → s.boot.stage ≠ 7 → 12 ≤ req.length → (∀ b ∈ req.drop 10, b = 0) → leAt req 0 8 = first →
        leAt req 8 2 = count → 1 ≤ count → count ≤ 125 →
        let start := max first (s.log.next - 65536)
        let n := min count (s.log.next - start)
        answers (.eventRead dt p k) { resp := natLE 8 (start - first) ++ natLE 2 n ++ zeros 6 ++
          (held.filter (fun e => decide (start ≤ e.index ∧ e.index < start + n))).flatMap (fun e => natLE 8 e.t ++ natLE 8 e.index ++
            natLE 1 e.die ++ natLE 1 e.severity ++ natLE 2 e.code ++ natLE 4 e.arg.toNat ++ natLE 8 e.info.toNat) })) ∧
  (∀ (s : State) (dt : Nat) (p : Port) (k : Slot) (req : Bytes) (sig : Bool) (presets : Option (Fin 48)) (pl : Placement)
      (mis : List (CoreDie × CoreIx)),
      ¬ (s.owner.owned = true ∧ (s.elapse dt).time ≤ s.owner.deadline ∧ s.owner.port = p.val) → s.boot.stage ≠ 7 →
      let op := leAt req 0 1
      ∀ x ∈ ([(0x04, 0, .heartbeat dt p k), (0x05, 0, .handover dt p k), (0x07, 0, .release dt p k), (0x10, 0, .modelLoad dt p k sig),
          (0x11, 0, .modelUnload dt p k), (0x18, 0, .stage dt p k sig), (0x18, 1, .activate dt p k), (0x18, 2, .commitSvn dt p k),
          (0x18, 3, .enrolModelKey dt p k), (0x18, 4, .revokeKey dt p k), (0x1B, 0, .calWrite dt p k presets), (0x1C, 0, .setCap dt p k),
          (0x1C, 1, .diesOff dt p k), (0x1C, 2, .diesOn dt p k), (0x1C, 3, .moduleStandby dt p k), (0x20, 0, .configure dt p k),
          (0x21, 0, .bind dt p k pl), (0x22, 0, .start dt p k), (0x23, 0, .recut dt p k pl mis), (0x24, 0, .drain dt p k),
          (0x25, 0, .abort dt p k), (0x26, 0, .unbind dt p k), (0x27, 0, .close dt p k), (0x30, 0, .picture dt p k),
          (0x31, 0, .streamSlot dt p k), (0x32, 0, .outSlot dt p k), (0x33, 0, .audioBlock dt p k), (0x40, 0, .routeAdd dt p k),
          (0x41, 0, .routeRemove dt p k)] : List (Nat × Nat × Instr)),
        s.Presents p k x.1 req → (x.1 = 0x18 ∨ x.1 = 0x1C → op = x.2.1) →
        (0x20 ≤ x.1 → x.1 < 0x40 → leAt req 0 2 < 256 → (s.session (leAt req 0 2)).recut = none ∧ (s.session (leAt req 0 2)).parked = [] ∧
          (s.elapse dt).recutLate (leAt req 0 2) = false) →
        Gives x.2.2 s fun t => (t.slot p.val k.val).st = 3 ∧ (t.slot p.val k.val).status = 1 ∧ (t.slot p.val k.val).respLen = 0 ∧
          t.withMailbox s = s.elapse dt)

/-! ## Ownership -/

/-- R343: elections. Without an owner a CLAIM opens a window of 10 ms, or joins it, and stays ACCEPTED. The window's claim of highest
priority wins, of equal ones that of the lowest port; of one port's claims the last stands. A CLAIM from another port than the owner's
is BUSY, as is one of the owner with a lower priority; the owner's own nonce answers OK and changes nothing; a new nonce with at least
its priority takes ownership over at once with a fresh lease. -/
def Obligations.ClaimsElectOneOwner : Prop :=
  ∀ (s : State) (dt : Nat) (p : Port) (k : Slot) (req : Bytes) (priority : Nat) (nonce : W32),
    let now := s.elapse dt
    let live := s.owner.owned = true ∧ now.time ≤ s.owner.deadline
    let settled := (s.owner.owned = true → now.time ≤ s.owner.deadline) ∧ (∀ w, s.owner.window = some w → now.time < w) ∧
      (s.owner.successor = none ∨ s.owner.handoverBy < now.time)
    let told (won prio : Nat) (n : W32) (left : Nat) : Bytes := natLE 1 won ++ natLE 1 s.owner.port ++ natLE 1 prio ++ [0] ++ natLE 4 n.toNat ++ natLE 8 left
    let before := if s.owner.changedAt = some (s.wall + dt) then s.owner.before else if s.owner.owned then some s.owner.port else none
    let newOwner (q : Nat) (n : W32) (prio : Nat) : Owner := { s.owner with
      owned := true, port := q, nonce := n, priority := prio, deadline := now.time + 5000000000, lastRenewal := now.time
      successor := none, changes := (s.owner.changes + 1) % 65536, changedAt := some (s.wall + dt), before := before }
    let changed (cause q : Nat) (n : W32) (prio : Nat) (t : State) := HubLogged now t 1 0x0004 0 (q + 4 + n.toNat * 2 ^ 8 + prio * 2 ^ 40 + cause * 2 ^ 48) ∧
      ({ t with owner := s.owner, log := s.log, dies := s.dies } : State).withMailbox s = now
    (s.Presents p k 0x03 req → settled → 8 ≤ req.length → leAt req 0 1 = priority → leAt req 4 4 = nonce.toNat →
      (∀ b ∈ (req.drop 1).take 3 ++ req.drop 8, b = 0) →
      (s.owner.owned = false → Gives (.claim dt p k) s fun t => (t.slot p.val k.val).st = 2 ∧
        t.owner = { s.owner with
          window := some (match s.owner.window with | some w => w | none => now.time + 10000000)
          claims := s.owner.claims ++ [{ port := p.val, slot := k.val, priority := priority, nonce := nonce }] } ∧
        ({ t with owner := s.owner } : State).withMailbox s = now) ∧
      (live → s.owner.port ≠ p.val ∨ nonce ≠ s.owner.nonce ∧ priority < s.owner.priority → Gives (.claim dt p k) s fun t =>
        Answered s t p k { status := 6, resp := told 0 s.owner.priority s.owner.nonce (s.owner.deadline - now.time) } ∧ t.withMailbox s = now) ∧
      (live → s.owner.port = p.val → nonce = s.owner.nonce → Gives (.claim dt p k) s fun t =>
        Answered s t p k { resp := told 1 s.owner.priority nonce s.owner.deadline } ∧ t.withMailbox s = now) ∧
      (live → s.owner.port = p.val → nonce ≠ s.owner.nonce → s.owner.priority ≤ priority → Gives (.claim dt p k) s fun t =>
        Answered s t p k { resp := told 1 priority nonce (now.time + 5000000000) } ∧ t.owner = newOwner p.val nonce priority ∧
        changed 3 p.val nonce priority t)) ∧
    (∀ (c : Claim) (w : Nat), s.owner.window = some w → w ≤ now.time → (∀ d ∈ s.owner.claims, d.port < 4 ∧ d.slot < 64) →
      let standing (q : Nat) := (s.owner.claims.filter (fun d => d.port = q)).getLast?
      standing c.port = some c →
      (∀ q d, q ≠ c.port → standing q = some d → d.priority < c.priority ∨ d.priority = c.priority ∧ c.port < q) →
      Gives (.electionWindowClose dt) s fun t =>
        t.owner = { newOwner c.port c.nonce c.priority with window := none, claims := [] } ∧ changed 1 c.port c.nonce c.priority t ∧
        (∀ d ∈ s.owner.claims, (t.slot d.port d.slot).st = 3 ∧ (t.slot d.port d.slot).status = 0) ∧
        (∀ q j, q < 4 → j < 64 → (∀ d ∈ s.owner.claims, ¬ (d.port = q ∧ d.slot = j)) → t.slot q j = s.slot q j))

/-- R344, R345: the lease and its end. HEARTBEAT with the owner's nonce renews the lease for 5 s, and a renewal more than 1 s after the
last one logs LATE_HEARTBEAT with the interval; HANDOVER gives a successor 100 ms; its ACCEPT moves ownership at once; RELEASE ends it.
A lease past its deadline is lost and logged twice; a lapsed handover leaves the owner. -/
def Obligations.LeasesAreRenewedHandedOverAndLost : Prop :=
  ∀ (s : State) (dt : Nat) (p : Port) (k : Slot) (req : Bytes),
    let now := s.elapse dt
    let o := s.owner
    let owns := o.owned = true ∧ now.time ≤ o.deadline ∧ o.port = p.val
    let mine (n : Nat) := n ≤ req.length ∧ leAt req 0 4 = o.nonce.toNat ∧ (∀ b ∈ req.drop n, b = 0)
    let kept (t : State) := ({ t with owner := o, log := s.log, dies := s.dies } : State).withMailbox s = now
    let before := if o.changedAt = some (s.wall + dt) then o.before else if o.owned then some o.port else none
    let none_ : Owner := { o with
      owned := false, port := 0, nonce := 0, priority := 0, deadline := 0, successor := none, changes := (o.changes + 1) % 65536
      changedAt := some (s.wall + dt), before := before }
    (s.Presents p k 0x04 req → owns → mine 4 → Gives (.heartbeat dt p k) s fun t =>
      Answered s t p k { resp := natLE 8 (now.time + 5000000000) } ∧
      t.owner = { o with deadline := now.time + 5000000000, lastRenewal := now.time } ∧ kept t ∧
      (now.time - o.lastRenewal ≤ 1000000000 → t.log = s.log) ∧
      (1000000000 < now.time - o.lastRenewal → HubLogged now t 1 0x0007 0 ((now.time - o.lastRenewal) / 1000))) ∧
    (∀ next, s.Presents p k 0x05 req → owns → mine 8 → leAt req 4 1 = next → next < 4 → (∀ b ∈ (req.drop 5).take 3, b = 0) →
      (o.successor = none ∨ o.handoverBy < now.time) → Gives (.handover dt p k) s fun t =>
        Answered s t p k { resp := natLE 8 (now.time + 100000000) } ∧
        t.owner = { o with successor := some next, handoverBy := now.time + 100000000 } ∧ t.log = s.log ∧ kept t) ∧
    (∀ (prio : Nat) (nonce : W32), s.Presents p k 0x06 req → o.successor = some p.val → now.time ≤ o.handoverBy → o.owned = true →
      now.time ≤ o.deadline → 8 ≤ req.length → leAt req 0 1 = prio → leAt req 4 4 = nonce.toNat →
      (∀ b ∈ (req.drop 1).take 3 ++ req.drop 8, b = 0) → Gives (.accept dt p k) s fun t =>
        Answered s t p k { resp := natLE 8 (now.time + 5000000000) } ∧
        t.owner = { o with
          port := p.val, nonce := nonce, priority := prio, deadline := now.time + 5000000000, lastRenewal := now.time, successor := none
          changes := (o.changes + 1) % 65536, changedAt := some (s.wall + dt), before := before } ∧
        HubLogged now t 1 0x0004 0 (p.val + 4 + nonce.toNat * 2 ^ 8 + prio * 2 ^ 40 + 2 * 2 ^ 48) ∧ kept t) ∧
    (s.Presents p k 0x07 req → owns → mine 4 → Gives (.release dt p k) s fun t =>
      Answered s t p k {} ∧ t.owner = none_ ∧ HubLogged now t 1 0x0004 0 (5 * 2 ^ 48) ∧ kept t) ∧
    (o.owned = true → o.deadline < now.time → Gives (.leaseExpired dt) s fun t =>
      t.owner = none_ ∧ (t.log.pending.drop s.log.pending.length).map (fun e => (e.severity, e.code, e.info)) =
        [(2, 0x0005, 0), (1, 0x0004, BitVec.ofNat 64 (4 * 2 ^ 48))] ∧ t.log.pending.take s.log.pending.length = s.log.pending ∧ kept t) ∧
    (∀ n, o.successor = some n → o.handoverBy < now.time → Gives (.handoverLapsed dt) s fun t =>
      t.owner = { o with successor := none } ∧ HubLogged now t 1 0x0006 0 0 ∧
      { t with owner := o, log := s.log, dies := s.dies } = now)


/-! ## The model store, firmware update, attestation and calibration -/

/-- R434: MODEL_LOAD of a package that passes every check fills its slot with the package, its hash, kind and recipe, extends MR4, logs
MODEL_LOADED and answers the hash; with `persist` the flash keeps it too, or NO_RESOURCE says that it has no room. A package that fails
a check is refused with the first one's answer (a slot in use is BUSY, a key or signature that fails AUTH_FAIL), logs MODEL_REFUSED
and changes nothing; MODEL_UNLOAD empties a slot that no bound session names; MODEL_LIST lists the 32 slots;
after boot each persisted package is verified again, and one that fails leaves its slot as it was and logs MODEL_LOST. -/
def Obligations.ModelStoreHoldsVerifiedPackages : Prop :=
  ∀ (s : State) (dt : Nat) (p : Port) (k : Slot) (req : Bytes) (sig : Bool),
    let now := s.elapse dt
    let owns := s.owner.owned = true ∧ now.time ≤ s.owner.deadline ∧ s.owner.port = p.val ∧
      (s.owner.successor = none ∨ s.owner.handoverBy < now.time) ∧ s.boot.stage = 4
    let at_ (i : Nat) : ModelSlot := Tab.get {} s.models i
    let index (i : Nat) : ModelIndex := Tab.get {} s.flash.models i
    let holds (pkg : Bytes) : ModelSlot := { package := pkg, hash := modelHash pkg, kind := leAt pkg 6 1, recipe := leAt pkg 7 1 }
    let trusted (pkg : Bytes) := keyAccepted (Tab.get [] s.fuses.modelKeys (leAt pkg 8 1)) (s.fuses.modelRevoked.getLsbD (leAt pkg 8 1)) (slice pkg 0x10 64) && sig
    let sound (pkg : Bytes) (n : Nat) := (∀ c ∈ packageChecks pkg n, c.1 = false) ∧ (∀ c ∈ contentChecks pkg, c.1 = false)
    let extended (i : Nat) (pkg : Bytes) := shake256 (modelHash pkg ++ natLE 2 i ++ natLE 1 (leAt pkg 7 1)) 64
    let others (t : State) (i : Nat) := ∀ j, j ≠ i → Tab.get {} t.models j = at_ j
    let inUse (i : Nat) := ∃ e ∈ s.sessions, e.2.bound = true ∧ e.2.plan.modelSlot = i
    (∀ (pkg : Bytes) (i : Fin 32), s.Presents p k 0x10 req → owns → 16 ≤ req.length → (∀ b ∈ req.drop 16, b = 0) →
      addrBad (leAt req 0 8) = false → leAt req 12 2 = i.val → leAt req 14 2 < 2 → now.fetchForm (leAt req 0 8) (leAt req 8 4) = some pkg →
      let judged := firstFail (packageChecks pkg (leAt req 8 4) ++ [(s.modelInUse i.val, { status := 6 }), (!trusted pkg, { status := 8 })] ++
        contentChecks pkg)
      let told := modelHash pkg ++ natLE 1 (leAt pkg 6 1)
      (judged = none → Gives (.modelLoad dt p k sig) s fun t =>
        Tab.get {} t.models i.val = holds pkg ∧ others t i.val ∧ Measured s t 4 (extended i.val pkg) ∧
        HubLogged now t 0 0x0035 0 (leNat ((modelHash pkg).take 8)) ∧
        ({ t with models := s.models, security := s.security, log := s.log, dies := s.dies, flash := s.flash } : State).withMailbox s = now ∧
        (leAt req 14 2 = 0 → t.flash = s.flash ∧ Answered s t p k { resp := told }) ∧
        (leAt req 14 2 = 1 → (s.flash.persist i.val pkg).isSome = true → Answered s t p k { resp := told } ∧
          (Tab.get {} t.flash.models i.val).package = pkg ∧ (Tab.get {} t.flash.models i.val).used = true) ∧
        (leAt req 14 2 = 1 → s.flash.persist i.val pkg = none → Answered s t p k { status := 4, resp := told } ∧ t.flash = s.flash)) ∧
      (∀ a, judged = some a → Gives (.modelLoad dt p k sig) s fun t =>
        Answered s t p k a ∧ HubLogged now t 2 0x0036 0 (a.status + 2 ^ 8 * (a.detail % 2 ^ 32) + 2 ^ 40 * i.val) ∧
        ({ t with log := s.log, dies := s.dies } : State).withMailbox s = now)) ∧
    (∀ (i : Fin 32), s.Presents p k 0x11 req → owns → 4 ≤ req.length → leAt req 0 2 = i.val → (∀ b ∈ req.drop 2, b = 0) → ¬ inUse i.val →
      ((at_ i.val).package ≠ [] ∨ (index i.val).used = true → Gives (.modelUnload dt p k) s fun t =>
        Answered s t p k {} ∧ Tab.get {} t.models i.val = {} ∧ Tab.get {} t.flash.models i.val = {} ∧ others t i.val ∧
        (∀ j, j ≠ i.val → Tab.get {} t.flash.models j = index j) ∧ i.val ∉ t.security.reloading ∧
        ({ t with models := s.models, flash := s.flash, security := s.security } : State).withMailbox s = now) ∧
      ((at_ i.val).package = [] → (index i.val).used = false → Gives (.modelUnload dt p k) s fun t =>
        Answered s t p k { status := 0xA } ∧ t.withMailbox s = now)) ∧
    (s.Presents p k 0x12 req → s.boot.stage = 4 → (∀ b ∈ req, b = 0) → Gives (.modelList dt p k) s fun t => t.withMailbox s = now ∧
      Answered s t p k { resp := (List.range 32).flatMap (fun i => slice (at_ i).hash 0 64 ++ natLE 1 (at_ i).recipe ++ natLE 1 (at_ i).kind) }) ∧
    (∀ (i : Fin 32), s.power.running = true → s.boot.stage = 4 → i.val ∈ s.security.reloading →
      let pkg := (index i.val).package
      let waiting := s.security.reloading.filter (· ≠ i.val)
      (sound pkg (index i.val).length → trusted pkg = true → Gives (.modelReload dt i sig) s fun t =>
        Tab.get {} t.models i.val = holds pkg ∧ others t i.val ∧
        Measured { s with security := { s.security with reloading := waiting } } t 4 (extended i.val pkg) ∧ t.flash = s.flash ∧
        { t with models := s.models, security := s.security, log := s.log, dies := s.dies } = now) ∧
      ((∃ c ∈ packageChecks pkg (index i.val).length ++ contentChecks pkg, c.1 = true) ∨ trusted pkg = false → Gives (.modelReload dt i sig) s fun t =>
        t.security = { s.security with reloading := waiting } ∧ HubLogged now t 2 0x0037 (BitVec.ofNat 32 i.val) 0 ∧
        { t with security := s.security, log := s.log, dies := s.dies } = now))

/-- R423, R424, R425: the boot ROM starts a valid, correctly formed and trusted image, which reaches stage 2, extends MR1 to MR3 and takes
its version from the header; an image that fails has its slot's `valid` flag cleared, the other slot is tried once, and when that fails too
the ROM enters recovery (stage 7) with reason BOOT_FAIL and an alert. Mailbox service is stage 4: a trial image is promoted. -/
def Obligations.BootStartsTrustedFirmware : Prop :=
  ∀ (s : State) (dt : Nat) (sig : Bool), s.power.running = true →
    let now := s.elapse dt
    (∀ i : Nat, s.boot.stage = 0 → s.boot.trying = some i →
      let f : FwSlot := Tab.get {} s.flash.slots i
      let img := f.bytes
      let key := leAt img 0xD 1
      let good := f.valid = true ∧ imageFormatFault img = none ∧ sig = true ∧ s.fuses.svnFused ≤ leAt img 0xC 1 ∧
        keyAccepted (Tab.get [] s.fuses.fwKeys key) (bitAt s.fuses.fwRevoked.toNat key) (slice img 0x20 64) = true
      (good → Gives (.imageVerified dt sig) s fun t =>
        t.boot = { s.boot with
          stage := 2, slot := i, trying := none, svnRunning := leAt img 0xC 1, fwVersion := BitVec.ofNat 32 (leAt img 8 4), keySlot := key } ∧
        t.mr 1 = shake256 (s.mr 1 ++ imageMeasurement img) 64 ∧ t.mr 2 = shake256 (s.mr 2 ++ shake256 (calBytes s.flash.cal) 64) 64 ∧
        t.mr 3 = shake256 (s.mr 3 ++ shake256 (natLE 4 s.straps.toNat ++ natLE 1 (s.straps.toNat / 2 % 8)) 64) 64 ∧
        t.security.extended = s.security.extended + 3 ∧ { t with boot := s.boot, security := s.security } = now) ∧
      (f.valid = false ∨ imageFormatFault img ≠ none ∨ s.imageTrusted img sig = false →
        (s.boot.fellBack = false → Gives (.imageVerified dt sig) s fun t =>
          t.boot = { s.boot with fellBack := true, trial := false, trying := some (1 - i), slot := 1 - i } ∧
          t.flash = { s.flash with slots := Tab.set {} s.flash.slots i { f with valid := false } } ∧
          HubLogged now t 2 0x0033 0 i ∧ { t with boot := s.boot, flash := s.flash, log := s.log, dies := s.dies } = now) ∧
        (s.boot.fellBack = true → Gives (.imageVerified dt sig) s fun t =>
          t.boot = { s.boot with stage := 7, trying := none, trial := false, lastStop := 9, hubCause := 0 } ∧ t.alertPending = true ∧
          (Tab.get {} t.flash.slots i).valid = false ∧
          ({ t with boot := s.boot, flash := s.flash } : State).withMailbox s = now))) ∧
    (s.boot.stage = 3 → Gives (.mailboxServiceStart dt) s fun t =>
      t.boot = { s.boot with stage := 4, trial := false } ∧
      t.flash = (if s.boot.trial then { s.flash with preferred := s.boot.slot } else s.flash) ∧
      (∀ i, i ∈ t.security.reloading ↔ ∃ e ∈ s.flash.models, e.1 = i ∧ e.2.used = true) ∧
      (t.log.pending.drop s.log.pending.length).map (fun e => (e.severity, e.code)) =
        (if s.boot.trial then [(1, 0x0032)] else []) ++ (if s.boot.calInvalid then [(2, 0x0025)] else []) ∧
      ({ t with boot := s.boot, flash := s.flash, security := s.security, log := s.log, dies := s.dies } : State).withMailbox s = now)

/-- R441, R442: FW_UPDATE. STAGE clears the inactive slot's `valid` flag and starts programming a verified image; its completion writes the
image, sets `valid`, extends MR5, logs FW_STAGED and answers; a second update command meanwhile is BUSY. ACTIVATE sets the trial flag;
COMMIT_SVN, ENROL_MODEL_KEY and REVOKE_KEY blow fuses, extend MR5 and log FUSE_WRITTEN. -/
def Obligations.FirmwareUpdatesAreStagedAndFused : Prop :=
  ∀ (s : State) (dt : Nat) (p : Port) (k : Slot) (req : Bytes) (sig : Bool),
    let now := s.elapse dt
    let op := leAt req 0 1
    let owns := s.Presents p k 0x18 req ∧ s.owner.owned = true ∧ now.time ≤ s.owner.deadline ∧ s.owner.port = p.val ∧
      (s.owner.successor = none ∨ s.owner.handoverBy < now.time) ∧ s.boot.stage = 4 ∧ 48 ≤ req.length ∧ leAt req 3 1 = 0 ∧
      (∀ b ∈ req.drop 48, b = 0)
    let ready := owns ∧ s.security.staging = none
    let target := 1 - s.boot.slot
    let old : FwSlot := Tab.get {} s.flash.slots target
    let value (o kind slot : Nat) (v : Bytes) := shake256 (natLE 1 o ++ natLE 1 kind ++ natLE 1 slot ++ slice v 0 64) 64
    let frame (t : State) := ({ t with fuses := s.fuses, security := s.security, log := s.log, dies := s.dies, flash := s.flash } : State).withMailbox s = now
    let fused (c : Instr) (o kind slot : Nat) (f : Fuses) (v : Bytes) := Gives c s fun t => t.fuses = f ∧ Measured s t 5 (value o kind slot v) ∧
      HubLogged now t 1 0x0034 0 (o + 256 * kind + 65536 * slot + 2 ^ 24 * f.svnFused) ∧ Answered s t p k {} ∧ t.flash = s.flash ∧ frame t
    (∀ img, ready → op = 0 → addrBad (leAt req 4 8) = false → now.fetchForm (leAt req 4 8) (leAt req 12 4) = some img →
      imageFormatFault img = none → s.imageTrusted img sig = true → Gives (.stage dt p k sig) s fun t =>
        (t.slot p.val k.val).st = 2 ∧ t.flash = { s.flash with slots := Tab.set {} s.flash.slots target { old with valid := false } } ∧
        t.security = { s.security with staging := some { port := p.val, slot := k.val, target := target, image := img } } ∧ t.fuses = s.fuses ∧
        t.log = s.log ∧ frame t) ∧
    (owns → op = 0 → addrBad (leAt req 4 8) = false → s.security.staging ≠ none → Gives (.stage dt p k sig) s fun t =>
      Answered s t p k { status := 6 } ∧ t.withMailbox s = now) ∧
    (∀ j : StageJob, s.power.running = true → s.security.staging = some j → j.port < 4 → j.slot < 64 → Gives (.stageComplete dt) s fun t =>
      Tab.get {} t.flash.slots j.target = { valid := true, image := Mem.cells 0 j.image } ∧
      { t.flash with slots := s.flash.slots } = s.flash ∧
      Measured { s with security := { s.security with staging := none } } t 5 (value 0 0 j.target (imageMeasurement j.image)) ∧
      HubLogged now t 1 0x0030 0 (leAt j.image 8 4 + 2 ^ 32 * leAt j.image 0xC 1) ∧ (t.slot j.port j.slot).st = 3 ∧
      (t.slot j.port j.slot).status = 0 ∧ t.fuses = s.fuses ∧ frame t) ∧
    (ready → op = 1 → old.valid = true → Gives (.activate dt p k) s fun t =>
      t.flash = { s.flash with trial := true } ∧ Measured s t 5 (value 1 0 target (imageMeasurement old.bytes)) ∧
      HubLogged now t 1 0x0031 0 0 ∧ Answered s t p k {} ∧ t.fuses = s.fuses ∧ frame t) ∧
    (ready → op = 2 → s.boot.trial = false → s.fuses.svnFused < s.boot.svnRunning →
      fused (.commitSvn dt p k) 2 (leAt req 2 1) (leAt req 1 1) { s.fuses with svnFused := s.boot.svnRunning } (natLE 8 s.boot.svnRunning)) ∧
    (ready → op = 2 → s.boot.trial = false → s.boot.svnRunning ≤ s.fuses.svnFused → Gives (.commitSvn dt p k) s fun t =>
      Answered s t p k {} ∧ t.withMailbox s = now) ∧
    (∀ i : Nat, ready → op = 3 → leAt req 1 1 = i → 4 ≤ i → i ≤ 7 → Tab.get [] s.fuses.modelKeys i = [] →
      fused (.enrolModelKey dt p k) 3 (leAt req 2 1) i { s.fuses with modelKeys := Tab.set [] s.fuses.modelKeys i (slice req 16 32) } (slice req 16 32)) ∧
    (∀ i : Nat, ready → op = 4 → leAt req 1 1 = i → leAt req 2 1 = 1 → i ≤ 7 →
      fused (.revokeKey dt p k) 4 1 i { s.fuses with modelRevoked := s.fuses.modelRevoked ||| BitVec.ofNat 8 (2 ^ i) } (fusedHash s.fuses.modelKeys i)) ∧
    (∀ i : Nat, ready → op = 4 → leAt req 1 1 = i → leAt req 2 1 = 0 → i ≤ 3 → i ≠ s.boot.keySlot → s.liveFwKeys ≠ [i] →
      fused (.revokeKey dt p k) 4 0 i { s.fuses with fwRevoked := s.fuses.fwRevoked ||| BitVec.ofNat 4 (2 ^ i) } (fusedHash s.fuses.fwKeys i))

/-- R439, R440: attestation. SIGN_QUOTE fixes the quote's first 0x280 bytes over the selected registers and the nonce, one at a time;
when the signature is there the port's quote buffer holds the quote, which also goes to `dest`, and the command answers its length. The
quote, the measurement log and the certificate are read in chunks of 4,000 bytes; a chunk beyond the end is BAD_ARG. -/
def Obligations.QuotesAreSignedAndReadInChunks : Prop :=
  ∀ (s : State) (dt : Nat) (p : Port) (k : Slot) (req : Bytes),
    let now := s.elapse dt
    let asks (op : Nat) := s.Presents p k 0x19 req ∧ s.boot.stage = 4 ∧ 46 ≤ req.length ∧ (∀ b ∈ req.drop 46, b = 0) ∧ leAt req 0 1 = op ∧
      leAt req 1 1 = 0 ∧ leAt req 2 2 < 256 ∧ addrBad (leAt req 36 8) = false
    let mask := leAt req 2 2
    let message := natLE 4 0x54514A4F ++ natLE 2 1 ++ natLE 2 mask ++ slice req 4 32 ++ natLE 8 now.time ++ natLE 4 s.boot.fwVersion.toNat ++
      natLE 1 s.boot.svnRunning ++ natLE 1 s.fuses.svnFused ++ natLE 1 (if s.fuses.debugLocked then 1 else 0) ++
      natLE 1 (s.boot.slot + 2 * (if s.boot.fellBack then 1 else 0)) ++ natLE 4 s.security.extended ++ zeros 4 ++ slice s.fuses.identityPub 0 64 ++
      (List.range 8).flatMap (fun i => if Nat.testBit mask i then s.mr i else zeros 64)
    let chunked (c : Instr) (bs : Bytes) :=
      let n := leAt req 44 2
      (n * 4000 < bs.length → Gives c s fun t => Answered s t p k { resp := (bs.drop (n * 4000)).take 4000 } ∧ t.withMailbox s = now) ∧
      (bs.length ≤ n * 4000 → Gives c s fun t => Answered s t p k { status := 3, detail := 44 } ∧ t.withMailbox s = now)
    let entry (e : MeasEntry) := natLE 1 e.mr ++ natLE 1 e.source ++ zeros 2 ++ natLE 4 e.index ++ natLE 8 e.info.toNat ++ slice e.v 0 64
    (asks 0 → s.security.signing = none → Gives (.signQuote dt p k) s fun t => (t.slot p.val k.val).st = 2 ∧
      t.security = { s.security with signing := some { port := p.val, slot := k.val, message := message, dest := BitVec.ofNat 64 (leAt req 36 8) } } ∧
      ({ t with security := s.security } : State).withMailbox s = now) ∧
    (asks 0 → s.security.signing ≠ none → Gives (.signQuote dt p k) s fun t => Answered s t p k { status := 6 } ∧ t.withMailbox s = now) ∧
    (∀ (j : SignJob) (sig : Bytes), s.power.running = true → s.security.signing = some j → sig.length = 49856 → j.port < 4 → j.slot < 64 →
      Gives (.quoteSigned dt sig) s fun t =>
        t.security = { s.security with signing := none, quotes := Tab.set [] s.security.quotes j.port (j.message ++ sig) } ∧
        (t.slot j.port j.slot).st = 3 ∧ (t.slot j.port j.slot).status = 0 ∧
        Mem.readBytes (t.slot j.port j.slot).payload 0 4 = natLE 4 (j.message.length + 49856) ∧
        (j.dest = 0 → ({ t with security := s.security } : State).withMailbox s = now) ∧
        ({ t with security := s.security, memory := s.memory, cores := s.cores } : State).withMailbox s = now) ∧
    (asks 1 → chunked (.readQuoteChunk dt p k) (Tab.get [] s.security.quotes p.val)) ∧
    (asks 2 → chunked (.readLogChunk dt p k) (s.security.log.flatMap entry)) ∧
    (asks 3 → chunked (.readCertChunk dt p k) s.flash.cert)

/-- R414, R415: CAL_READ answers the stored 3,520-byte record. CAL_WRITE checks every field before anything is written: the first that
fails is named in `detail`, and the stored record stays; one that passes is programmed, and on completion the flash holds it with
`origin` 1, `writes` one more and `check` recomputed, CAL_WRITTEN is logged, and the values in effect stay those of the last boot. -/
def Obligations.CalibrationIsCheckedBeforeItIsWritten : Prop :=
  ∀ (s : State) (dt : Nat) (p : Port) (k : Slot) (req : Bytes) (presets : Option (Fin 48)),
    let now := s.elapse dt
    let stored := Mem.readBytes s.flash.cal 0 3520
    let owns := s.Presents p k 0x1B req ∧ s.owner.owned = true ∧ now.time ≤ s.owner.deadline ∧ s.owner.port = p.val ∧
      (s.owner.successor = none ∨ s.owner.handoverBy < now.time) ∧ s.boot.stage = 4 ∧ 3520 ≤ req.length
    (s.Presents p k 0x1A req → s.boot.stage = 4 → (∀ b ∈ req, b = 0) → Gives (.calRead dt p k) s fun t =>
      Answered s t p k { resp := stored } ∧ t.withMailbox s = now) ∧
    (owns → calFault stored (req.take 3520) presets = none → (∀ b ∈ req.drop 3520, b = 0) → s.security.calJob = none →
      Gives (.calWrite dt p k presets) s fun t => (t.slot p.val k.val).st = 2 ∧
        t.security = { s.security with calJob := some { port := p.val, slot := k.val, record := req.take 3520 } } ∧
        ({ t with security := s.security } : State).withMailbox s = now) ∧
    (∀ o, owns → calFault stored (req.take 3520) presets = some o → Gives (.calWrite dt p k presets) s fun t =>
      Answered s t p k { status := 3, detail := o } ∧ t.withMailbox s = now) ∧
    (∀ j : CalJob, s.power.running = true → s.security.calJob = some j → j.record.length = 3520 → j.port < 4 → j.slot < 64 →
      Gives (.calWriteComplete dt) s fun t =>
        let rec' := Mem.readBytes t.flash.cal 0 3520
        rec'.take 0x10 = j.record.take 0x10 ∧ leAt rec' 0x10 1 = 1 ∧ leAt rec' 0x14 4 = (leAt j.record 0x14 4 + 1) % 2 ^ 32 ∧
        slice rec' 0x20 32 = shake256 (rec'.take 0x20 ++ zeros 32 ++ rec'.drop 0x40) 32 ∧ rec'.drop 0x40 = j.record.drop 0x40 ∧
        { t.flash with cal := s.flash.cal } = { s.flash with calTorn := false } ∧ t.boot = s.boot ∧
        t.security = { s.security with calJob := none } ∧ (t.slot j.port j.slot).st = 3 ∧ (t.slot j.port j.slot).status = 0 ∧
        HubLogged now t 1 0x0026 0 ((leAt j.record 0x14 4 + 1) % 2 ^ 32) ∧
        ({ t with flash := s.flash, security := s.security, log := s.log, dies := s.dies } : State).withMailbox s = now)

/-! ## Power commands -/

/-- R403 to R405: SET_CAP sets the power cap between 600 and 2,400 W. DIES_OFF powers off the core and stream dies it names, with the state of their cores and lanes, unless a cut
uses one, which is BUSY; DIES_ON powers them on and completes when the last one reports (a core that mismatched in its self-check is retired), a fenced one is FENCED; MODULE_STANDBY is entered
10 ms after its answer, unless a session holds a cut. Each answer carries the cap, the input and the dies' power. -/
def Obligations.PowerCommandsFollowTheOwner : Prop :=
  ∀ (s : State) (dt : Nat) (p : Port) (k : Slot) (req : Bytes),
    let now := s.elapse dt
    let op := leAt req 0 1
    let owns := s.Presents p k 0x1C req ∧ s.owner.owned = true ∧ now.time ≤ s.owner.deadline ∧ s.owner.port = p.val ∧
      (s.owner.successor = none ∨ s.owner.handoverBy < now.time) ∧ s.boot.stage = 4 ∧ 8 ≤ req.length ∧ leAt req 1 1 = 0 ∧
      (∀ b ∈ req.drop 8, b = 0)
    let named := (List.range 24 ++ [28, 29]).filter (fun d => Nat.testBit (leAt req 4 4) d)
    let cap := leAt req 2 2
    let legal := leAt req 4 4 &&& 0x30FFFFFF = leAt req 4 4 ∧ cap = 0
    let told (t : State) := natLE 4 t.power.capW ++ natLE 4 (s.power.inputW % 65536 + 65536 * (s.power.inputMv10 % 65536)) ++ natLE 4 t.hubDiePwr
    let used (d : Nat) := s.sessionsOn (.die d) ≠ []
    (owns → op = 0 → leAt req 4 4 = 0 → 600 ≤ cap → cap ≤ 2400 → Gives (.setCap dt p k) s fun t =>
      t.power = { s.power with capW := cap } ∧ (t.thermal.demandPower = true ↔ cap < s.power.inputW) ∧ t.thermal.k = s.thermal.k ∧
      Answered s t p k { resp := told t } ∧ ({ t with power := s.power, thermal := s.thermal } : State).withMailbox s = now) ∧
    (owns → op = 0 → leAt req 4 4 = 0 → cap < 600 ∨ 2400 < cap → Gives (.setCap dt p k) s fun t =>
      Answered s t p k { status := 3, detail := 2 } ∧ t.withMailbox s = now) ∧
    (owns → op = 1 → legal → (∀ d ∈ named, ¬ used d) → Gives (.diesOff dt p k) s fun t =>
      (∀ d, (t.die d).off = ((s.die d).off || decide (d ∈ named))) ∧ (∀ d ∈ named, (s.die d).off = false → t.dieTemperature d = -32768) ∧
      (∀ (d : CoreDie) (c : CoreIx), t.core d.val c.val = if d.val ∈ named ∧ (s.die d.val).off = false then {} else s.core d.val c.val) ∧
      (∀ (x : StreamDie) (l : LaneIx), t.lane x.val l.val = if 28 + x.val ∈ named ∧ (s.die (28 + x.val)).off = false then {} else s.lane x.val l.val) ∧
      (∀ d, { t.die d with off := (s.die d).off, poweringOn := (s.die d).poweringOn, events := (s.die d).events } = s.die d) ∧
      Answered s t p k { resp := told t } ∧
      ({ t with dies := s.dies, clocks := s.clocks, thermal := s.thermal, log := s.log, cores := s.cores, lanes := s.lanes } : State).withMailbox s = now) ∧
    (∀ d ∈ named, owns → op = 1 → legal → used d → Gives (.diesOff dt p k) s fun t => Answered s t p k { status := 6 } ∧ t.withMailbox s = now) ∧
    (owns → op = 2 → legal → (∀ d ∈ named, (s.die d).fenced = 0) → Gives (.diesOn dt p k) s fun t =>
      ((∀ d ∈ named, (s.die d).off = false) → Answered s t p k { resp := told s } ∧ t.withMailbox s = now) ∧
      (∀ d ∈ named, (s.die d).off = true → (t.slot p.val k.val).st = 2 ∧ (t.die d).poweringOn = (s.die d).poweringOn ++ [(p.val, k.val)] ∧ (t.die d).off = true) ∧
      (∀ d, d ∉ named → t.die d = s.die d) ∧ ({ t with dies := s.dies, clocks := s.clocks } : State).withMailbox s = now) ∧
    (∀ d ∈ named, owns → op = 2 → legal → (s.die d).fenced ≠ 0 → Gives (.diesOn dt p k) s fun t =>
      Answered s t p k { status := 7 } ∧ t.withMailbox s = now) ∧
    (∀ (d : DieIx) (mismatch : List CoreIx), s.power.running = true → (s.die d.val).poweringOn ≠ [] →
      (∀ w ∈ (s.die d.val).poweringOn, w.1 < 4 ∧ w.2 < 64) → Gives (.diePowerOnComplete dt d mismatch) s fun t =>
        (t.die d.val).off = false ∧ (t.die d.val).poweringOn = [] ∧ (∀ e, e ≠ d.val → (t.die e).off = (s.die e).off) ∧
        (∀ w ∈ (s.die d.val).poweringOn, (∀ e ∈ s.dies, e.1 ≠ d.val → w ∉ e.2.poweringOn) → (t.slot w.1 w.2).st = 3 ∧ (t.slot w.1 w.2).status = 0) ∧
        (d.val < 24 → ∀ c ∈ mismatch, c.val ∈ (t.die d.val).retired) ∧
        (mismatch = [] ∨ 24 ≤ d.val →
          (t.log.pending.drop s.log.pending.length).map (fun e => (e.severity, e.code, e.info)) = [(0, 0x0027, BitVec.ofNat 64 t.hubDiePwr)] ∧
          ({ t with dies := s.dies, clocks := s.clocks, log := s.log } : State).withMailbox s = now)) ∧
    (owns → op = 3 → leAt req 4 4 = 0 → cap = 0 → (∀ e ∈ s.sessions, e.2.bound = false) → Gives (.moduleStandby dt p k) s fun t =>
      t.power = { s.power with standbyAt := some (now.wall + 10000000) } ∧ Answered s t p k { resp := told s } ∧
      ({ t with power := s.power } : State).withMailbox s = now)

/-! ## The SMBus target, registers, the log and the firmware's housekeeping -/

/-- R331, R458: the SMBus target. A block write with a wrong PEC is discarded whole, flagged and counted. An offset in range is taken, one
beyond the bank is refused, as is a count that the command does not take (the model's reading, log entry 65); data written into the payload of an EMPTY slot lands there, into that of a SEALED or ACCEPTED slot it is dropped
and flagged, and either way the offset advances by the count; a seal word written is the seal; a read returns 32 bytes from the offset. An
alert response clears every pending alert and answers the module's address. -/
def Obligations.SmbusReachesBankTwo : Prop :=
  ∀ (s : State) (dt : Nat), s.board.aux = true → s.clocks.refclkOk = true →
    let now := s.elapse dt
    let port := s.port 2
    let o := s.smbOffset
    let badPec := { now with ports := Tab.set {} s.ports 2 { port with
      smbPec := { isSet := true, setAt := s.wall + dt }, foreignN := (port.foreignN + 1) % 256 } }
    let moved (n : Nat) := (o + n) % 0x40000
    let refused := { now with bus := { nack := true } }
    (∀ d : Bytes, exec (.mbxOffset dt d false) s = .next badPec ∧
      (d.length = 3 → leNat d < 0x40000 → exec (.mbxOffset dt d true) s = .next { now with smbOffset := leNat d }) ∧
      (d.length ≠ 3 ∨ 0x40000 ≤ leNat d → exec (.mbxOffset dt d true) s = .next refused)) ∧
    (s.power.running = true →
      (∀ d : Bytes, exec (.mbxWrite dt d false) s = .next badPec ∧
        (d.length = 0 ∨ 32 < d.length → exec (.mbxWrite dt d true) s = .next refused)) ∧
      (∀ (d : Bytes) (k : Slot), 1 ≤ d.length → d.length ≤ 32 → k.val * 4096 + 0x40 ≤ o → o + d.length ≤ k.val * 4096 + 4096 →
        let m := s.slot 2 k.val
        (m.st = 0 → Gives (.mbxWrite dt d true) s fun t =>
          t.slot 2 k.val = { m with payload := Mem.writeBytes m.payload (o - k.val * 4096 - 0x40) d } ∧
          (∀ (q : Port) (j : Slot), ¬ (q.val = 2 ∧ j = k) → t.slot q.val j.val = s.slot q.val j.val) ∧
          t.smbOffset = moved d.length ∧ { t with mbx := s.mbx, smbOffset := o } = now) ∧
        (m.st = 1 ∨ m.st = 2 → exec (.mbxWrite dt d true) s = .next { now with
          ports := Tab.set {} s.ports 2 { port with
            writeDropped := { isSet := true, setAt := s.wall + dt }, writeDroppedN := (port.writeDroppedN + 1) % 256 }
          smbOffset := moved d.length })) ∧
      (∀ (k : Slot) (seq opcode : W16), o = k.val * 4096 →
        ∃ t, exec (.mailboxSeal dt 2 k seq opcode) s = .next t ∧
          exec (.mbxWrite dt (natLE 2 seq.toNat ++ natLE 2 opcode.toNat) true) s = .next { t with smbOffset := moved 4 }) ∧
      Gives (.mbxRead dt) s fun t => t.bus.data.length = 32 ∧ t.bus.poisoned = false ∧ t.bus.nack = false ∧ t.smbOffset = moved 32 ∧
        { t with bus := s.bus, smbOffset := o, freeTick := s.freeTick } = now ∧
        (∀ k : Slot, k.val * 4096 + 0x40 ≤ o → o + 32 ≤ k.val * 4096 + 4096 → (s.slot 2 k.val).st ≠ 2 →
          t.bus.data = Mem.readBytes (s.slot 2 k.val).payload (o - k.val * 4096 - 0x40) 32) ∧
        (∀ k : Slot, o = k.val * 4096 → let m := s.slot 2 k.val
          t.bus.data = natLE 2 m.seq.toNat ++ natLE 2 m.opcode.toNat ++ natLE 4 m.st ++ natLE 4 m.reqLen ++ zeros 4 ++ natLE 1 m.status ++
            natLE 1 m.stateNow ++ natLE 2 m.genNow ++ natLE 2 m.seqEcho.toNat ++ natLE 2 m.opEcho.toNat ++ natLE 4 m.respLen ++ natLE 4 m.detail)) ∧
    (s.alertPending = true → exec (.alertResponse dt) s = .next { now with alertPending := false, bus := { data := [Config.smbusAddress 0] } }) ∧
    (s.alertPending = false → exec (.alertResponse dt) s = .next now)

/-- R10, R347, R348, R447, R449, R454: register writes. Through BAR0 a port clears its own flags (writing 1) and sets its window; of the
module's W1C bits only the owner clears any, and a write in the clock of a change of owner is judged against the owner before it; a flag set in
the instant of its clear stays set. An access of another size or alignment is dropped, and one of 8 bytes is two of 4 bytes, the lower address
first; a write into another port's bank is dropped, flagged and counted on the writing port, unless the straps leave that port out; a seal word
in its own bank is the seal. SMBus writes `wake` and the two W1C registers, is refused at unknown codes and changes nothing at the others. A
firmware write reaches the registers of a powered die; a fenced die, and one without power (the model's reading, log entry 53), drops it. -/
def Obligations.RegisterWritesTakeEffectOrAreDropped : Prop :=
  ∀ (s : State) (dt : Nat), s.power.running = true →
    let now := s.elapse dt
    let cleared (f : Flag) (one : Bool) : Flag := if one = true ∧ f.setAt ≠ s.wall + dt then { f with isSet := false } else f
    let raised : Flag := { isSet := true, setAt := s.wall + dt }
    let clearedClocks (v : Nat) : Clocks :=
      { s.clocks with refclkLost := cleared s.clocks.refclkLost (bitAt v 1), pllLost := cleared s.clocks.pllLost (bitAt v 2) }
    (∀ (p : PciePort) (v : Nat), v < 2 ^ 32 → s.pcieDecodes p.val = true →
      let write (a : Nat) := Instr.registerWrite dt (.bar0 p) a (natLE 4 v)
      let port := s.port p.val
      let link := s.pciePort p.val
      let owns := if s.owner.changedAt = some (s.wall + dt) then s.owner.before = some p.val
        else s.owner.owned = true ∧ now.time ≤ s.owner.deadline ∧ s.owner.port = p.val
      exec (write (0x304 + 16 * p.val)) s = .next { now with ports := Tab.set {} s.ports p.val { port with
        sealDropped := cleared port.sealDropped (bitAt v 0), writeDropped := cleared port.writeDropped (bitAt v 1)
        seqGap := cleared port.seqGap (bitAt v 2), foreignWrite := cleared port.foreignWrite (bitAt v 3), smbPec := cleared port.smbPec (bitAt v 4) } } ∧
      exec (write (0x600 + 16 * p.val)) s = .next { now with pcie := Tab.set {} s.pcie p.val { link with
        linkLost := cleared link.linkLost (bitAt v 12), bar2Hole := cleared link.bar2Hole (bitAt v 13) } } ∧
      exec (write (0x604 + 16 * p.val)) s = .next { now with pcie := Tab.set {} s.pcie p.val { link with winGib := v % 128 } } ∧
      (owns → exec (write 0x800) s = .next { now with clocks := clearedClocks v }) ∧
      (owns → bitAt v 10 = false → exec (write 0x820) s = .next { now with
        thermal := { s.thermal with coolantWarn := cleared s.thermal.coolantWarn (bitAt v 11) } }) ∧
      (∀ x : Fin 2, owns → exec (write (0x700 + 16 * x.val)) s = .next { now with
        cxl := Tab.set {} s.cxl x.val { s.cxlPort x.val with portLost := cleared (s.cxlPort x.val).portLost (bitAt v 7) } }) ∧
      (∀ a, a ∈ [0x700, 0x710, 0x800, 0x820] → ¬ owns → exec (write a) s = .next now) ∧
      (∀ a bs, a < 0xA10 → ¬ (bs.length = 4 ∧ a % 4 = 0) → ¬ (bs.length = 8 ∧ a % 8 = 0) →
        exec (.registerWrite dt (.bar0 p) a bs) s = .next now) ∧
      (∀ a w, a < 0xA10 → a % 8 = 0 → ∃ t, exec (write a) s = .next t ∧
        exec (.registerWrite dt (.bar0 p) a (natLE 4 v ++ natLE 4 w)) s = exec (.registerWrite 0 (.bar0 p) (a + 4) (natLE 4 w)) t) ∧
      (∀ (q : Port) (o : Nat), q.val ≠ p.val → o + 4 ≤ 0x40000 →
        exec (write (0x100000 + q.val * 0x40000 + o)) s = .next (if q.val = 1 ∧ bitAt s.straps.toNat 0 = false then now else { now with
          ports := Tab.set {} s.ports p.val { port with foreignWrite := raised, foreignN := (port.foreignN + 1) % 256 } })) ∧
      (∀ (k : Slot) (q : Port), q.val = p.val → (p.val = 1 → bitAt s.straps.toNat 0 = true) →
        exec (write (0x100000 + p.val * 0x40000 + k.val * 4096)) s = exec (.mailboxSeal dt q k (BitVec.ofNat 16 v) (BitVec.ofNat 16 (v / 65536))) s)) ∧
    (∀ v : Nat, v < 2 ^ 32 → s.board.aux = true → s.clocks.refclkOk = true →
      let write (code : Nat) := Instr.registerWrite dt .smbus code (natLE 4 v)
      exec (write 0x12) s = .next { now with clocks := clearedClocks v } ∧
      (bitAt v 10 = false → exec (write 0x13) s = .next { now with
        thermal := { s.thermal with coolantWarn := cleared s.thermal.coolantWarn (bitAt v 11) } }) ∧
      exec (write 0x16) s = .next (if bitAt v 0 then { now with power := { s.power with standby := false, railTry := 0 } } else now) ∧
      (∀ c, c ∈ [0x10, 0x11, 0x14, 0x15, 0x17] → exec (write c) s = .next now) ∧
      (∀ c, c < 0x10 ∨ 0x17 < c → exec (write c) s = .next { now with bus := { nack := true } })) ∧
    (∀ (v d o : Nat), v < 2 ^ 32 → d < 32 → o < 0x2000000 → o % 4 = 0 →
      let write := Instr.registerWrite dt .firmware (d * 0x2000000 + o) (natLE 4 v)
      let lane := s.lane (d - 28)
      ((s.die d).fenced ≠ 0 ∨ s.diePowered d = false → exec write s = .next now) ∧
      (∀ q : QueueIx, s.diePowered d = true → 24 ≤ d → d < 28 → o = 0x10000 + 0x40 * q.val + 0x10 →
        let f := s.feeder (d - 24) q.val
        exec write s = .next { now with feeders := Tab.set {} s.feeders ((d - 24) * 64 + q.val) { f with
          tail := v, askedAt := if f.head = f.tail then s.wall + dt else f.askedAt } }) ∧
      (∀ l : LaneIx, s.diePowered d = true → 28 ≤ d → d < 30 → o = 0x20000 + 16 * l.val →
        exec write s = .next { now with lanes := Tab.set {} s.lanes ((d - 28) * 32 + l.val) { lane l.val with
          endErr := cleared (lane l.val).endErr (bitAt v 2), overrun := cleared (lane l.val).overrun (bitAt v 3) } }) ∧
      (∀ c : CoreIx, s.diePowered d = true → d < 24 → o = 0x10000 + 16 * c.val → v = 2 ^ 4 →
        exec write s = .next { now with cores := Tab.set {} s.cores (d * 160 + c.val) { s.core d c.val with
          sfu := { (s.core d c.val).sfu with swapRefused := cleared (s.core d c.val).sfu.swapRefused true, shadowValid := false } } }))

/-- R349 to R351: the log. The earliest waiting event, by time, die and the die's own order, is committed once every die has reported progress past its
time (a fenced die is not waited for, nor, by the model's choice, one that POWER turned off: log entry 22); it takes the next index, the oldest entry gives way in a log of 65,536, and severity 2 or above raises
vector 1. Reading the lower half of the time or of the log's next index latches the upper half. -/
def Obligations.EventsAreCommittedInOrder : Prop :=
  ∀ (s : State) (dt : Nat), s.power.running = true →
    let now := s.elapse dt
    let before (a b : LogEntry) := a.t < b.t ∨ a.t = b.t ∧ (a.die < b.die ∨ a.die = b.die ∧ a.index < b.index)
    (∀ e : LogEntry, s.boot.stage = 3 ∨ s.boot.stage = 4 → e ∈ s.log.pending → (∀ f ∈ s.log.pending, f = e ∨ before e f) →
      (∀ d, d < 32 → (s.die d).fenced = 0 → (s.die d).off = false → e.t < (s.die d).progress) →
      let entries := s.log.entries ++ [{ e with index := s.log.next }]
      Gives (.eventCommit dt) s fun t =>
        t.log = { s.log with pending := s.log.pending.erase e, entries := entries.drop (entries.length - 65536), next := s.log.next + 1 } ∧
        (e.severity < 2 → { t with log := s.log } = now) ∧
        (2 ≤ e.severity → t.alertPending = true ∧
          { t with log := s.log, pcie := s.pcie, alertPending := s.alertPending, cascade := s.cascade } = now)) ∧
    (∀ (d : DieIx) (e : LogEntry), (s.die d.val).fenced = 0 → (s.die d.val).off = false → e ∈ s.log.pending → (s.die d.val).progress ≤ e.t →
      (∀ f ∈ s.log.pending, f = e ∨ before e f) → exec (.eventCommit dt) s = .next now) ∧
    (∀ d : DieIx, s.dieRuns d.val = true →
      exec (.dieProgressReport dt d) s = .next { now with dies := Tab.set {} s.dies d.val { s.die d.val with progress := now.time } }) ∧
    exec (.timeLoRead dt) s = .next { now with
      bus := { data := natLE 4 now.time }, log := { s.log with timeHi := BitVec.ofNat 32 (now.time / 2 ^ 32) } } ∧
    exec (.logNextLoRead dt) s = .next { now with
      bus := { data := natLE 4 s.log.next }, log := { s.log with nextHi := BitVec.ofNat 32 (s.log.next / 2 ^ 32) } }

/-- R332, R335, R450 to R453: what the firmware and the dies push. A mirror push freezes the die's registers and its time of push in the
mirror; collecting a core's completion ring empties it, adds the counters of each record to the totals of the record's session, apart for
the encoder-only part, and logs each status other than OK and CANCELLED; a counter window takes the session's state, charge and totals; a held session signal goes out 5 µs after the last. -/
def Obligations.FirmwareCollectsAndPublishes : Prop :=
  ∀ (s : State) (dt : Nat), s.power.running = true →
    let now := s.elapse dt
    (∀ d : DieIx, s.dieRuns d.val = true → Gives (.mirrorPush dt d) s fun t =>
      (t.die d.val).mirror.snapTime = now.time ∧ { t.die d.val with mirror := (s.die d.val).mirror } = s.die d.val ∧
      (∀ e, e ≠ d.val → t.die e = s.die e) ∧ { t with dies := s.dies } = now ∧
      (∀ c, c < 160 → d.val < 24 → t.mirrorReg d.val (0x100 + 4 * c) = (s.core d.val c).statusReg % 2 ^ 32 ∧
        t.mirrorReg d.val (0x800 + 4 * c) = (s.core d.val c).bankPwrReg % 2 ^ 32) ∧
      (∀ q, q < 64 → 24 ≤ d.val → d.val < 28 → t.mirrorReg d.val (0x200 + 4 * q) = (s.feeder (d.val - 24) q).head % 2 ^ 32) ∧
      (∀ l, l < 32 → 28 ≤ d.val → d.val < 30 → t.mirrorReg d.val (0x100 + 4 * l) = ((s.lane (d.val - 28) l).reg (s.laneBusy (d.val - 28) l)) % 2 ^ 32)) ∧
    (∀ (d : CoreDie) (c : CoreIx), s.coreLive d.val c.val = true →
      Gives (.completionRingCollect dt d c) s (fun t => t.core d.val c.val = { s.core d.val c.val with ring := [] } ∧
        (∀ k, k ≠ d.val * 160 + c.val → Tab.get {} t.cores k = Tab.get {} s.cores k) ∧
        { t with cores := s.cores, sessions := s.sessions, log := s.log, dies := s.dies } = now) ∧
      (∀ (i : SessionIx) (r : Record), (s.core d.val c.val).ring = [r] →
        r.sess = some i.val ∨ r.sess = none ∧ (s.core d.val c.val).session = some i.val →
        Gives (.completionRingCollect dt d c) s fun t =>
          let x := s.session i.val
          let y := t.session i.val
          let counts := [r.saturated, r.flushedIn, r.flushedOut, r.nan, r.inf, r.quantClipped]
          let added (l : List Nat) := (l.zip counts).map (fun z => min 0xFFFFFFFFFFFFFFFF (z.1 + z.2))
          let bad := counts.any (fun n => decide (n ≠ 0))
          (r.encOnly = true → y = { x with troubleEnc := added x.troubleEnc }) ∧
          (r.encOnly = false → y = { x with trouble := added x.trouble, picTrouble := x.picTrouble || bad, groups := y.groups } ∧
            (∀ g, y.audio g = { x.audio g with
              trouble := (x.audio g).trouble || (bad && decide (x.groupOfCore (s.rank, d.val, c.val) = some g)) })) ∧
          (∀ j, j ≠ i.val → t.session j = s.session j) ∧
          (r.status = 0 ∨ r.status = 0x80 → t.log = s.log) ∧
          (r.status ≠ 0 → r.status ≠ 0x80 → t.log = { s.log with pending := s.log.pending ++ [{
            t := now.time, index := (s.die 30).events, die := d.val, severity := 2, code := 0x000E, arg := logArg c.val i.val
            info := BitVec.ofNat 64 (r.tag.toNat + r.status * 2 ^ 32 + r.detail * 2 ^ 40 + r.opcode * 2 ^ 56) }] }))) ∧
    (∀ i : SessionIx, (s.session i.val).bound = true → Gives (.counterWindowRefresh dt i) s fun t =>
      let x := s.session i.val
      t.session i.val = { x with window := (t.session i.val).window } ∧ (t.session i.val).window.length = 256 ∧
      (t.session i.val).window.take 32 = natLE 1 x.st.code ++ natLE 1 x.cfg.kind ++ natLE 2 x.gen ++ natLE 4 x.inFlight ++ natLE 8 x.charge ++
        natLE 8 x.plan.reserveBytes ++ natLE 8 now.time ∧
      (∀ j, j ≠ i.val → t.session j = s.session j) ∧ { t with sessions := s.sessions } = now) ∧
    (∀ (i : SessionIx) (at_ : Nat), (s.session i.val).vectorHeld = true → (s.session i.val).lastVector = some at_ →
      (at_ + 5000 ≤ now.time → Gives (.sessionVectorCoalesce dt i) s fun t =>
        t.session i.val = { s.session i.val with lastVector := some now.time, vectorHeld := false } ∧ (∀ j, j ≠ i.val → t.session j = s.session j) ∧
        ((s.session i.val).cfg.notifyPort = 2 → t.alertPending = true) ∧
        { t with sessions := s.sessions, pcie := s.pcie, alertPending := s.alertPending, cascade := s.cascade } = now) ∧
      (now.time < at_ + 5000 → exec (.sessionVectorCoalesce dt i) s = .next now))

/-! ## Sessions -/

/-- R296, R301, R306, R337, R338, R341: CONFIGURE sets an idle or configured session's parameters; BIND of a valid plan takes the cores into
the cut with both bank groups ON and generation 1 and answers where the rings lie (where the firmware
places them is the model's choice, log entry 40); START makes a bound session run; SESSION_STATUS, for any
master, reports a session and changes nothing; CLOSE returns it to IDLE. The payload and plan checks are taken as passed. -/
def Obligations.SessionsAreConfiguredBoundAndStarted : Prop :=
  ∀ (s : State) (dt : Nat) (p : Port) (k : Slot) (req : Bytes) (pl : Placement),
    let now := s.elapse dt
    let a := now.accept p.val k.val
    let i := leAt req 0 2
    let x := s.session i
    let owns := i < 256 ∧ x.recut = none ∧ x.parked = [] ∧ s.boot.stage = 4 ∧ s.owner.owned = true ∧ now.time ≤ s.owner.deadline ∧
      s.owner.port = p.val ∧ (s.owner.successor = none ∨ s.owner.handoverBy < now.time)
    let others (t : State) := ∀ j, j ≠ i → t.session j = s.session j
    let told (t : State) (resp : Bytes) := Answered s t p k { stateNow := (t.session i).st.code, genNow := (t.session i).gen, resp := resp }
    let alone (t : State) := others t ∧ ({ t with sessions := s.sessions } : State).withMailbox s = now
    let plan := a.planOf req
    let home := plan.homeRank = s.rank
    (s.Presents p k 0x20 req → owns → configLayout req ≤ req.length → (∀ c ∈ a.configChecks req p.val, c.1 = false) →
      x.st = .idle ∨ x.st = .configured → a.audioFull i (configOf req p.val) = false → Gives (.configure dt p k) s fun t =>
        t.session i = { x with st := .configured, cfg := (t.session i).cfg } ∧ told t [] ∧ alone t ∧
        (let c := (t.session i).cfg;
          c.kind = leAt req 2 1 ∧ c.notifyPort = (if leAt req 3 1 = 0xFF then p.val else leAt req 3 1) ∧
          c.wdPeriods = (if leAt req 0x18 1 = 0 then 8 else leAt req 0x18 1) ∧ c.outRingKib = leAt req 0x1C 2 ∧ c.lambda = leAt req 0x19 1 ∧
          (c.kind = 1 ∨ c.kind = 2 → c.fmt.width = leAt req 8 2 ∧ c.fmt.height = leAt req 10 2 ∧ c.groups = []))) ∧
    (s.Presents p k 0x21 req → owns → x.st = .configured → planLayout req ≤ req.length →
      (∀ c ∈ a.planChecks req ++ a.fixedChecks plan none ++ a.planOwnChecks plan none, c.1 = false) → a.programRefused plan true pl.loads = none →
      (∀ (d : CoreDie) (c : CoreIx), (s.core d.val c.val).session ≠ some i) → Gives (.bind dt p k pl) s fun t =>
        (t.session i).st = .bound ∧ (t.session i).gen = 1 ∧ (t.session i).plan = { plan with generation := 1 } ∧
        (t.session i).cfg = x.cfg ∧ (t.session i).charge = (if home then a.fixedChargeOf x.cfg plan else 0) ∧ (t.session i).pics = [] ∧ (t.session i).bufs = [] ∧
        (regionFits (a.ringsUsed i) plan.memDie pl.recBase (64 + 1024 * 128) = true → (t.session i).recBase = pl.recBase) ∧
        (∀ (d : CoreDie) (c : CoreIx),
          ((s.rank, d.val, c.val) ∈ plan.cores → (t.core d.val c.val).session = some i ∧ (t.core d.val c.val).recipe = plan.recipe ∧
            ∀ g, g < 2 → Tab.get {} (t.core d.val c.val).groups g = { mode := 0, ready := true, moving := false, leftOff := false }) ∧
          ((s.rank, d.val, c.val) ∉ plan.cores → t.core d.val c.val = s.core d.val c.val)) ∧
        (∀ l, home → l < 32 → bitAt plan.lanes.toNat l = true → (t.lane plan.streamDie l).session = i) ∧
        told t (natLE 2 1 ++ zeros 6 ++ natLE 8 (t.session i).recBase ++ natLE 8 (t.session i).outBase) ∧ others t ∧
        ({ t with sessions := s.sessions, cores := s.cores, guards := s.guards, lanes := s.lanes, memory := s.memory } : State).withMailbox s = now) ∧
    (s.Presents p k 0x22 req → owns → x.st = .bound → 4 ≤ req.length → leAt req 2 2 = x.gen → (∀ b ∈ req.drop 4, b = 0) →
      Gives (.start dt p k) s fun t => t.session i = { x with st := .running } ∧ told t [] ∧ alone t) ∧
    (s.Presents p k 0x28 req → s.boot.stage = 4 → i < 256 → 4 ≤ req.length → (∀ b ∈ req.drop 2, b = 0) → Gives (.sessionStatus dt p k) s fun t =>
      t.withMailbox s = now ∧ told t (natLE 2 x.st.code ++ natLE 2 x.gen ++ natLE 4 x.inFlight ++ natLE 8 x.charge ++
        natLE 8 x.plan.reserveBytes ++ slice (x.counters.flatMap (natLE 4)) 0 64 ++ slice (x.trouble.flatMap (natLE 8)) 0 48 ++
        slice (x.troubleEnc.flatMap (natLE 8)) 0 48)) ∧
    (s.Presents p k 0x27 req → owns → x.st = .configured → 4 ≤ req.length → (∀ b ∈ req.drop 2, b = 0) → Gives (.close dt p k) s fun t =>
      t.session i = {} ∧ told t [] ∧ alone t)

/-- R302, R316, R341: START, DRAIN, ABORT and UNBIND in a state they are not legal in answer BAD_STATE, and with another generation than the
current one STALE; both change nothing. DRAIN makes a running session drain; a drained session that has nothing left to do becomes BOUND, a
standalone audio encoder once the END unit that closes its coded sequence is written;
ABORT abandons every picture, answers how many, and leaves the session BOUND, or FAULTED where it was; UNBIND gives the cut up, what its
cores still ran being cancelled and its record collected. -/
def Obligations.SessionsDrainAbortAndUnbind : Prop :=
  ∀ (s : State) (dt : Nat) (p : Port) (k : Slot) (req : Bytes),
    let now := s.elapse dt
    let i := leAt req 0 2
    let x := s.session i
    let owns := i < 256 ∧ x.recut = none ∧ x.parked = [] ∧ s.boot.stage = 4 ∧ s.owner.owned = true ∧ now.time ≤ s.owner.deadline ∧
      s.owner.port = p.val ∧ (s.owner.successor = none ∨ s.owner.handoverBy < now.time) ∧ 4 ≤ req.length ∧ (∀ b ∈ req.drop 4, b = 0)
    let current := leAt req 2 2 = x.gen
    let others (t : State) := ∀ j, j ≠ i → t.session j = s.session j
    let told (t : State) (resp : Bytes) := Answered s t p k { stateNow := (t.session i).st.code, genNow := (t.session i).gen, resp := resp }
    (∀ e ∈ ([(0x22, [.bound], .start dt p k), (0x24, [.running], .drain dt p k), (0x25, [.running, .draining, .faulted], .abort dt p k),
        (0x26, [.bound, .faulted], .unbind dt p k)] : List (Nat × List SessState × Instr)), s.Presents p k e.1 req → owns →
      (x.st ∉ e.2.1 → Gives e.2.2 s fun t => t.withMailbox s = now ∧ Answered s t p k { status := 2, stateNow := x.st.code, genNow := x.gen }) ∧
      (x.st ∈ e.2.1 → ¬ current → Gives e.2.2 s fun t => t.withMailbox s = now ∧
        Answered s t p k { status := 5, detail := 2, stateNow := x.st.code, genNow := x.gen })) ∧
    (s.Presents p k 0x24 req → owns → x.st = .running → current → Gives (.drain dt p k) s fun t =>
      (t.session i).st = .draining ∧ (t.session i).gen = x.gen ∧ (t.session i).plan = x.plan ∧ told t [] ∧
      (x.cfg.kind = 1 ∨ x.cfg.kind = 3 → t.session i = { x with st := .draining } ∧ others t ∧
        ({ t with sessions := s.sessions } : State).withMailbox s = now)) ∧
    (∀ j : SessionIx, s.power.running = true → (s.session j.val).st = .draining → (s.session j.val).workDone = true →
      let y := s.session j.val
      (¬ (y.cfg.kind = 3 ∧ y.cfg.attach = none ∧ y.sequenceOpen = true) → Gives (.drainComplete dt j) s fun t =>
        (t.session j.val).st = .bound ∧ (t.session j.val).gen = y.gen ∧ (∀ l, l ≠ j.val → t.session l = s.session l) ∧
        (s.recRoom j.val = true → y.poolLost = false → (t.session j.val).recProduced = y.recProduced + 1 ∧ t.log = s.log) ∧
        { t with sessions := s.sessions, memory := s.memory, pcie := s.pcie, alertPending := s.alertPending, cascade := s.cascade, log := s.log, dies := s.dies } = now) ∧
      (y.cfg.kind = 3 → y.cfg.attach = none → y.sequenceOpen = true → y.poolLost = false → Gives (.drainComplete dt j) s fun t =>
        (t.session j.val).st = (if (t.session j.val).outHeld = [] then .bound else .draining) ∧ (t.session j.val).sequenceOpen = false ∧
        (t.session j.val).outCursor = y.outCursor + 5 ∧ (∀ l, l ≠ j.val → t.session l = s.session l))) ∧
    (s.Presents p k 0x25 req → owns → x.st = .running ∨ x.st = .draining ∨ x.st = .faulted → current → Gives (.abort dt p k) s fun t =>
      (t.session i).pics = [] ∧ (t.session i).st = (if x.st = .faulted then .faulted else .bound) ∧ (t.session i).gen = x.gen ∧
      (t.session i).plan = x.plan ∧ (t.session i).dec.input = [] ∧ (t.session i).dec.outSlots = [] ∧ told t (natLE 4 x.pics.length) ∧
      t.owner = s.owner ∧ t.models = s.models ∧ t.power = s.power ∧ t.board = s.board ∧ t.fuses = s.fuses ∧ t.flash = s.flash) ∧
    (s.Presents p k 0x26 req → owns → x.st = .bound → current → (∀ c ∈ x.plan.cores, c.2.1 < 24 ∧ c.2.2 < 160) → Gives (.unbind dt p k) s fun t =>
      (t.session i).st = .configured ∧ (t.session i).gen = 0 ∧ (t.session i).cfg = x.cfg ∧ (t.session i).charge = 0 ∧ (t.session i).pics = [] ∧
      (∀ (d : CoreDie) (c : CoreIx), ((s.rank, d.val, c.val) ∈ x.plan.cores → (t.core d.val c.val).session = none ∧
          (t.core d.val c.val).queue = [] ∧ (t.core d.val c.val).groups = [] ∧ (t.core d.val c.val).scratch = []) ∧
        ((s.rank, d.val, c.val) ∉ x.plan.cores → t.core d.val c.val = s.core d.val c.val)) ∧
      (∀ sd e, t.guardOf sd e ≠ some i) ∧ (∀ sd l, sd < 2 → l < 32 → x.plan.listsLane sd l = true → x.plan.homeRank = s.rank →
        (t.lane sd l).session ≠ i ∨ i = 0) ∧ told t [] ∧
      ((∀ c ∈ s.planCores x.plan, (s.core c.1 c.2).session = some i ∧
        ∀ r ∈ (s.core c.1 c.2).ring ++ (s.core c.1 c.2).draining, r.sess = none ∨ r.sess = some i) → others t) ∧
      ({ t with sessions := s.sessions, cores := s.cores, guards := s.guards, lanes := s.lanes, grants := s.grants, log := s.log, dies := s.dies
                freeTick := s.freeTick } : State).withMailbox s = now)

/-- R301 to R305, R318: RECUT. Acceptance advances the generation. The re-cut waits, its slot ACCEPTED, while something that it moves is still
at work on the old cut: the cores with a picture or frame in them (unless `now` is set), the lanes within a unit, the engines within a
picture, the guard engine and the reserve with a picture in the cores. Then, or at once when nothing holds it, it takes effect and is
answered. With `now` set the work on cores that move is cancelled at once and runs again. A re-map of a FAULTED session returns it to the
state the fault met. -/
def Obligations.RecutsTakeEffectAtTheBoundary : Prop :=
  ∀ (s : State) (dt : Nat) (p : Port) (k : Slot) (req : Bytes) (pl : Placement),
    let now := s.elapse dt
    let a := now.accept p.val k.val
    let i := leAt req 0 2
    let x := s.session i
    let plan := a.planOf req
    let gen := if 0xFFFF ≤ x.gen then 1 else x.gen + 1
    let held (j : Nat) (new : CutPlan) : Prop :=
      let y := s.session j
      let old := y.plan
      let inCores := (∃ q ∈ y.pics, q.phase1 = true) ∨ (∃ g ∈ y.groups, g.2.busy = true)
      let part (n : Nat) := 0 < n ∧ n < y.fmt.cbRows
      (new.now = false ∧ new.cores ≠ old.cores ∧ inCores) ∨ ((new.lanes ≠ old.lanes ∨ new.streamDie ≠ old.streamDie) ∧ s.midUnit j = true) ∨
        ((new.searchers ≠ old.searchers ∨ new.predictors ≠ old.predictors) ∧ ∃ q ∈ y.pics, part q.searched ∨ part q.predicted) ∨
        ((new.guard ≠ old.guard ∨ new.reserveBytes ≠ old.reserveBytes ∨ new.memDie ≠ old.memDie) ∧ inCores)
    let mine (j : Nat) : Prop := ∀ d c, (s.core d c).session = some j ∨ (s.rank, d, c) ∈ (s.session j).plan.cores →
      (s.core d c).session = some j ∧ ∀ r ∈ (s.core d c).ring ++ (s.core d c).draining, r.sess = none ∨ r.sess = some j
    let ready := s.Presents p k 0x23 req ∧ i < 256 ∧ x.recut = none ∧ x.parked = [] ∧ s.boot.stage = 4 ∧ s.owner.owned = true ∧
      now.time ≤ s.owner.deadline ∧ s.owner.port = p.val ∧ planLayout req ≤ req.length ∧ plan.generation = x.gen ∧
      (∀ at_, x.lastRecut = some at_ → at_ + 1000000 ≤ now.time) ∧
      (∀ c ∈ a.planChecks req ++ a.fixedChecks plan (some x.plan) ++ a.planOwnChecks plan (some x.plan), c.1 = false) ∧
      (plan.now = true → x.rerunning = true → ∀ q ∈ x.pics, q.rerun = false) ∧ a.programRefused plan true pl.loads = none
    let live := x.st = .bound ∨ x.st = .running ∨ x.st = .draining
    let frame (t : State) := t.owner = s.owner ∧ t.models = s.models ∧ t.power = s.power ∧ t.fuses = s.fuses ∧ t.flash = s.flash ∧
      t.boot = s.boot ∧ t.time = now.time ∧ (mine i → ∀ j, j ≠ i → t.session j = s.session j)
    let answered (t : State) := (t.session i).plan = { plan with generation := gen } ∧ (t.session i).recut = none ∧
      Answered s t p k { stateNow := x.st.code, genNow := gen, resp := natLE 2 gen }
    (ready → live → plan.now = false → held i plan → Gives (.recut dt p k pl []) s fun t =>
      (∃ place, (t.session i).recut = some { plan := plan, port := p.val, slot := k.val, place := place } ∧ place.loads = pl.loads) ∧
      t.session i = { x with gen := gen, lastRecut := some now.time, rerunning := x.rerunning && x.pics.any (·.rerun)
                             recut := (t.session i).recut } ∧
      (t.slot p.val k.val).st = 2 ∧ (∀ j, j ≠ i → t.session j = s.session j) ∧ ({ t with sessions := s.sessions } : State).withMailbox s = now) ∧
    (ready → live → plan.now = false → ¬ held i plan → Gives (.recut dt p k pl []) s fun t =>
      (t.session i).st = x.st ∧ (t.session i).gen = gen ∧ (t.session i).pics = x.pics ∧ answered t ∧ frame t) ∧
    (ready → live → plan.now = true → plan.cores ≠ x.plan.cores → Gives (.recut dt p k pl []) s fun t =>
      (t.session i).st = x.st ∧ (t.session i).gen = gen ∧ (t.session i).pics.map (·.poc) = x.pics.map (·.poc) ∧
      (∀ q ∈ (t.session i).pics, q.phase1 = false ∧ (q ∈ x.pics ∨ q.rerun = true ∧ q.phase2 = 0)) ∧ frame t ∧
      (plan.lanes = x.plan.lanes → plan.streamDie = x.plan.streamDie → plan.searchers = x.plan.searchers → plan.predictors = x.plan.predictors →
        plan.guard = x.plan.guard → plan.reserveBytes = x.plan.reserveBytes → plan.memDie = x.plan.memDie → answered t)) ∧
    (ready → x.st = .faulted → Gives (.recut dt p k pl []) s fun t =>
      (t.session i).st = x.heldAtFault ∧ (t.session i).gen = gen ∧ (t.session i).plan = { plan with generation := gen } ∧
      (t.session i).abandoned = false ∧ (t.slot p.val k.val).st = 3 ∧ (t.slot p.val k.val).status = 0) ∧
    (∀ (j : SessionIx) (w : Recut), s.power.running = true → w.port < 4 → w.slot < 64 → (s.session j.val).recut = some w → ¬ held j.val w.plan →
      Gives (.recutCoreRelease dt j) s fun t =>
        (t.session j.val).plan = { w.plan with generation := (s.session j.val).gen } ∧ (t.session j.val).recut = none ∧
        (t.session j.val).st = (s.session j.val).st ∧ (t.session j.val).gen = (s.session j.val).gen ∧
        (t.session j.val).pics = (s.session j.val).pics ∧ (t.slot w.port w.slot).st = 3 ∧ (t.slot w.port w.slot).status = 0 ∧
        (mine j.val → ∀ l, l ≠ j.val → t.session l = s.session l) ∧
        ({ t with sessions := s.sessions, cores := s.cores, guards := s.guards, lanes := s.lanes, memory := s.memory, grants := s.grants
                  log := s.log, dies := s.dies, freeTick := s.freeTick } : State).withMailbox s = now) ∧
    (∀ j : SessionIx, s.power.running = true → ((s.session j.val).recut = none ∨ ∃ w, (s.session j.val).recut = some w ∧ held j.val w.plan) →
      exec (.recutCoreRelease dt j) s = .next now)

/-- R193, R201, R310, R337, R339: work commands complete at acceptance. PICTURE joins its encoder's pictures and is granted its need at
once where the reserve covers it, else waits in the sub-pool's queue; STREAM_SLOT appends its bytes to a decoder's stream; OUT_SLOT hands
over a buffer; AUDIO_BLOCK its frames, target and cap. -/
def Obligations.WorkCommandsCompleteAtAcceptance : Prop :=
  ∀ (s : State) (dt : Nat) (p : Port) (k : Slot) (req : Bytes),
    let now := s.elapse dt
    let a := now.accept p.val k.val
    let i := leAt req 0 2
    let x := s.session i
    let tag : W32 := BitVec.ofNat 32 (leAt req 4 4)
    let owns := i < 256 ∧ x.recut = none ∧ x.parked = [] ∧ s.boot.stage = 4 ∧ s.owner.owned = true ∧ now.time ≤ s.owner.deadline ∧
      s.owner.port = p.val ∧ (s.owner.successor = none ∨ s.owner.handoverBy < now.time) ∧ x.st = .running ∧ leAt req 2 2 = x.gen
    let told (t : State) := Answered s t p k { stateNow := x.st.code, genNow := x.gen } ∧ (∀ j, j ≠ i → t.session j = s.session j)
    let frame (t : State) := ({ t with sessions := s.sessions } : State).withMailbox s = now
    (s.Presents p k 0x30 req → owns → pictureLayout req ≤ req.length → (∀ c ∈ pictureChecks req ++ a.pictureOwn i req, c.1 = false) →
      Gives (.picture dt p k) s fun t => told t ∧ ∃ q, (t.session i).pics.getLast? = some q ∧
        (t.session i).pics.dropLast.map (·.poc) = x.pics.map (·.poc) ∧ q.poc = BitVec.ofNat 32 (leAt req 8 4) ∧ q.tag = tag ∧
        q.target = leAt req 0xC 4 ∧ q.cap = leAt req 0x10 4 ∧ q.order = s.accepted ∧ q.rap = bitAt (leAt req 0x1C 1) 0 ∧
        q.nonref = bitAt (leAt req 0x1C 1) 1 ∧ q.endAfter = bitAt (leAt req 0x1C 1) 3 ∧ t.accepted = s.accepted + 1 ∧
        (t.session i).captures = x.captures ++ [(leAt req 0x14 8, q.poc)] ∧ (t.session i).needRap = (x.needRap && !q.rap) ∧
        (x.charge + q.need ≤ x.plan.reserveBytes → q.granted = true ∧ (t.session i).charge = x.charge + q.need ∧ t.grants = s.grants) ∧
        (x.plan.reserveBytes < x.charge + q.need → q.granted = false ∧ q.waiting = true ∧ (t.session i).charge = x.charge ∧
          t.grantQueue x.plan.memDie = s.grantQueue x.plan.memDie ++ [{ session := i, order := q.order, need := q.need }]) ∧
        frame { t with grants := s.grants, accepted := s.accepted }) ∧
    (∀ len, s.Presents p k 0x31 req → owns → 0x18 ≤ req.length → addrBad (leAt req 8 8) = false → leAt req 0x10 4 = len → 1 ≤ len →
      len ≤ 16777216 → (∀ b ∈ req.drop 0x14, b = 0) → x.takesStream = true → Gives (.streamSlot dt p k) s fun t => told t ∧
        ((∀ q ∈ x.pics, q.wholeConcealed = false) → (t.session i).dec = { x.dec with input := x.dec.input ++ [{ tag := tag, bytes := (a.fetchForm (leAt req 8 8) len).getD [] }] } ∧
        (x.cfg.kind ≠ 2 ∨ x.pics = [] → t.session i = { x with dec := (t.session i).dec } ∧ frame t) ∧
        frame { t with grants := s.grants })) ∧
    (s.Presents p k 0x32 req → owns → 0x28 ≤ req.length → (∀ o ∈ [8, 0x10, 0x18], addrBad (leAt req o 8) = false) →
      leAt req 0x20 4 % 64 = 0 → leAt req 0x24 4 % 64 = 0 → (∀ b ∈ req.drop 0x28, b = 0) → x.cfg.kind = 2 → Gives (.outSlot dt p k) s fun t =>
        told t ∧ frame t ∧ t.session i = { x with dec := { x.dec with outSlots := x.dec.outSlots ++
          [(tag, [8, 0x10, 0x18].map (fun o => BitVec.ofNat 64 (leAt req o 8)), leAt req 0x20 4, leAt req 0x24 4)] } }) ∧
    (∀ (g : GroupIx) (c : GroupCfg) (n : Nat), s.Presents p k 0x33 req → owns → 0x28 ≤ req.length → leAt req 8 1 = g.val → leAt req 9 1 = n →
      1 ≤ n → n ≤ 50 → (∀ b ∈ (req.drop 0xA).take 6 ++ req.drop 0x28, b = 0) → addrBad (leAt req 0x10 8) = false →
      x.cfg.groups.find? (fun y => y.group = g.val) = some c →
      x.cfg.kind = 3 ∧ 30 * c.channels ≤ leAt req 0x20 4 ∧ leAt req 0x20 4 ≤ leAt req 0x24 4 ∧ leAt req 0x24 4 ≤ 640 * c.channels + 64 ∨
        x.cfg.kind = 4 ∧ leAt req 0x20 4 = 0 ∧ leAt req 0x24 4 = 0 → Gives (.audioBlock dt p k) s fun t => told t ∧ frame t ∧
        ∃ b, Tab.get {} (t.session i).groups g.val = { Tab.get {} x.groups g.val with
            blocks := (Tab.get {} x.groups g.val).blocks ++ [b], target := leAt req 0x20 4, cap := leAt req 0x24 4 } ∧
          b.tag = tag ∧ b.addr = leAt req 0x10 8 ∧ b.left = n ∧ b.time = leAt req 0x18 8 ∧
          (∀ h, h ≠ g.val → Tab.get {} (t.session i).groups h = Tab.get {} x.groups h) ∧ t.session i = { x with groups := (t.session i).groups })

/-! ## Core descriptors -/

/-- R84, R99, R100: a descriptor at the head of a core's queue that fails validation is refused, whichever row issues it: it leaves the
queue, in which the next descriptor of the program takes the place it frees, and which stops; its record carries the offset and status of the first failing check and no counts; scratch, tables, banks and every
other core stay. A reserved opcode is refused as BAD_OPCODE by any row. The record then reaches the completion ring.
R65, R84 to R100: a descriptor that passes validation executes. It leaves the queue, its record has status OK, no detail, its tag and
the number of elements written, and nothing of the core but the record, the lanes, the cancelled-row count, the seams' waiting rows and
scratch changes; of every other core only the credits of a seam port that takes rows. Of scratch only the elements of Z change, and beside them the values of SORT, the indices of QUANT, the expansion bank of
an expanded CONV and the region of a producer. -/
def Obligations.DescriptorsExecuteOrStopTheQueue : Prop :=
  (∀ (s : State) (dt : Nat) (d : CoreDie) (c : CoreIx) (e : QueueEntry) (rest : List QueueEntry) (off st : Nat),
      let now := s.elapse dt
      let k := s.core d.val c.val
      s.power.running = true → s.coreUsable d.val c.val = true → k.queue = e :: rest → k.mayValidate e = true →
      (e.d.opcode = 0 ∨ 10 < e.d.opcode → e.d.validate k k.recipe = some (0, 0x01)) ∧
      (e.d.validate k k.recipe = some (off, st) →
        ∀ x ∈ ([(1, .conv dt d c), (2, .matmul dt d c), (3, .pool dt d c), (4, .elem dt d c), (5, .act dt d c), (6, .softmax dt d c),
            (7, .norm dt d c), (8, .sort dt d c), (9, .quant dt d c), (10, .micro dt d c)] : List (Nat × Instr)),
          e.d.opcode = x.1 ∨ e.d.opcode = 0 ∨ 10 < e.d.opcode → Gives x.2 s fun t => ∃ cycles : W32,
            t.core d.val c.val = { k with
              queue := rest ++ k.backlog.take 1, backlog := k.backlog.drop 1, phase := 0, upCopied := false, waitFrom := none, stopped := true
              finishing := some { tag := BitVec.ofNat 32 (leAt e.desc 4 4), status := st, opcode := leAt e.desc 0 1, recipe := leAt e.desc 1 1
                                  cycles := cycles, detail := off, ran := false, cinchAfter := bitAt (leAt e.desc 3 1) 0, encOnly := e.encOnly } } ∧
            (∀ (d' : CoreDie) (c' : CoreIx), ¬ (d' = d ∧ c' = c) → t.core d'.val c'.val = s.core d'.val c'.val) ∧
            { t with cores := s.cores, freeTick := s.freeTick } = now)) ∧
  (∀ (s : State) (dt : Nat) (d : CoreDie) (c : CoreIx) (e : QueueEntry) (rest : List QueueEntry),
      let now := s.elapse dt
      let k := s.core d.val c.val
      let z := e.d.z
      let u (o n : Nat) := leAt e.desc o n
      let product := if e.d.split = 1 then 0 else e.d.rows * e.d.cols
      s.power.running = true → s.coreUsable d.val c.val = true → k.queue = e :: rest → k.mayValidate e = true → e.d.validate k k.recipe = none →
      ∀ x ∈ ([(1, .conv dt d c, product), (2, .matmul dt d c, product), (3, .pool dt d c, e.d.hOut * e.d.wOut * e.d.x.c),
          (4, .elem dt d c, e.d.x.count), (5, .act dt d c, e.d.x.count), (6, .softmax dt d c, e.d.x.count), (7, .norm dt d c, e.d.x.count),
          (8, .sort dt d c, u 0x50 2), (9, .quant dt d c, e.d.x.count), (10, .micro dt d c, e.d.x.count)] : List (Nat × Instr × Nat)),
        e.d.opcode = x.1 → (x.1 = 1 ∨ x.1 = 2 → e.d.split ≠ 2) → Gives x.2.1 s fun t =>
          let n := t.core d.val c.val
          (∃ r, n.finishing = some r ∧ r.status = 0 ∧ r.detail = 0 ∧ r.opcode = x.1 ∧ r.tag = BitVec.ofNat 32 (u 4 4) ∧ r.recipe = u 1 1 ∧
            r.elements = min x.2.2 0xFFFFFFFF ∧ r.ran = true ∧ r.encOnly = e.encOnly ∧ r.cinchAfter = bitAt (u 3 1) 0) ∧
          n.queue = rest ++ k.backlog.take 1 ∧ n.backlog = k.backlog.drop 1 ∧ n.phase = 0 ∧ n.stopped = false ∧
          { n with queue := k.queue, backlog := k.backlog, phase := k.phase, upCopied := k.upCopied, waitFrom := k.waitFrom
                   finishing := k.finishing, running := k.running, scratch := k.scratch, lanes := k.lanes
                   cancelRows := k.cancelRows, seamUp := k.seamUp, seamDown := k.seamDown } = k ∧
          (∀ a, (∀ i, i < z.count → a < z.addr i ∨ z.addr i + z.size ≤ a) →
            (x.1 = 8 → a < u 0x54 4 ∨ u 0x54 4 + u 0x50 2 * e.d.x.size ≤ a) →
            (x.1 = 9 → u 0x5C 1 = 1 → a < u 0x58 4 ∨ u 0x58 4 + e.d.x.count ≤ a) →
            (x.1 = 1 → e.d.bypass = false → a < 65536 * e.d.expandBank ∨ 65536 * e.d.expandBank + 65536 ≤ a) →
            (x.1 = 1 ∨ x.1 = 2 → e.d.split = 1 → a < e.d.partialBase ∨
              e.d.partialBase + 64 + e.d.tiles * tileRecord e.d.form (passCount e.d.kCount) ≤ a) →
            Mem.read n.scratch a = Mem.read k.scratch a) ∧
          (∀ (d' : CoreDie) (c' : CoreIx), ¬ (d' = d ∧ c' = c) →
            let was := s.core d'.val c'.val
            let isNow := t.core d'.val c'.val
            { isNow with seamUp := { isNow.seamUp with credits := was.seamUp.credits }
                         seamDown := { isNow.seamDown with credits := was.seamDown.credits } } = was) ∧
          { t with cores := s.cores, freeTick := s.freeTick, cascade := s.cascade, fabricSeq := s.fabricSeq } = now)


/-- R47, R50, R82, R83, R86, R91, R92, R98, R219: what operations compute. Every element of an ELEM is the operation of its operands, in FP64
where one of them is FP64 and else in FP32, converted; an integer MATMUL is the exact sum of products, converted; QUANT writes the symbol
nearest to y − mu, clamped to its range; SORT writes the indices of the k first-ranking scores, in rank order, equal scores by index. A
finished descriptor's record is written to the completion ring with the time, and its status becomes the core's last; so is that of a
cancelled descriptor, once the feeder transfers that fill the core's banks have drained. -/
def Obligations.DescriptorsComputeTheirResults : Prop :=
  ∀ (s : State) (dt : Nat) (d : CoreDie) (c : CoreIx) (e : QueueEntry) (rest : List QueueEntry),
    let k := s.core d.val c.val
    let z := e.d.z
    let u (o n : Nat) := leAt e.desc o n
    let el (r : TensorRef) (i : Nat) : Machine.Num := (loadElem r.fmt (r.pattern k.scratch i)).1
    let ready := s.power.running = true ∧ s.coreUsable d.val c.val = true ∧ k.queue = e :: rest ∧ k.mayValidate e = true ∧
      e.d.validate k k.recipe = none
    let gives (i : Instr) (at_ : Nat) (v : Nat) := Gives i s fun t => Mem.readLE (t.core d.val c.val).scratch (z.addr at_) z.size = v % 2 ^ (8 * z.size)
    (∀ i, i < z.count → ready → e.d.opcode = 4 →
      let bc := u 0x51 1
      let f := if e.d.x.fmt = 6 ∨ bc ≠ 2 ∧ e.d.y.fmt = 6 then fp64 else fp32
      let x := el e.d.x i
      let y := if bc = 2 then .ofExt (e.d.f32 0x54) else el e.d.y (if bc = 1 then i % e.d.x.c else i)
      let v := if u 0x50 1 = 0 then Machine.Num.add f x y else if u 0x50 1 = 1 then Machine.Num.sub f x y else if u 0x50 1 = 2 then Machine.Num.mul f x y
        else if u 0x50 1 = 3 then Machine.Num.max x y else Machine.Num.min x y
      gives (.elem dt d c) i (e.d.conv.write z.fmt v).1) ∧
    (∀ r n, r < e.d.x.h → n < e.d.y.c → ready → e.d.opcode = 2 → e.d.split = 0 → e.d.form = 2 → e.d.chanSb = false →
      let sum := ((List.range e.d.x.c).map (fun j => ((el e.d.x (r * e.d.x.c + j)).v.toInt?.getD 0) *
        ((el e.d.y (j * e.d.y.c + n)).v.toInt?.getD 0))).sum
      gives (.matmul dt d c) (r * e.d.y.c + n) (e.d.conv.write z.fmt (.ofExt (.ofInt sum))).1) ∧
    (∀ i, i < z.count → ready → e.d.opcode = 9 →
      let lo := signed 16 (u 0x50 2)
      let hi := signed 16 (u 0x52 2)
      let v := (Machine.Num.sub fp32 (el e.d.x i) (el e.d.y i)).v
      let q := v.roundAway
      gives (.quant dt d c) i (unsigned 16 (if v = .nan then 0 else if v = .inf true then lo else if v = .inf false then hi else max lo (min hi q)))) ∧
    (ready → e.d.opcode = 8 → Gives (.sort dt d c) s fun t =>
      let score (i : Nat) : Ext := (el e.d.x i).v
      let ahead (i j : Nat) : Prop := ranksAhead (u 0x52 1 = 0) (score i) (score j) = true
      let index (i : Nat) : Nat := Mem.readLE (t.core d.val c.val).scratch (z.addr i) z.size
      (∀ i, i < u 0x50 2 → index i < e.d.x.count) ∧
      (∀ i j, i < j → j < u 0x50 2 → ahead (index i) (index j) ∨ ¬ ahead (index j) (index i) ∧ index i < index j) ∧
      (∀ j, j < e.d.x.count → (∀ i, i < u 0x50 2 → index i ≠ j) →
        ∀ i, i < u 0x50 2 → ahead (index i) j ∨ ¬ ahead j (index i) ∧ index i < j)) ∧
    (∀ r : Record, s.coreLive d.val c.val = true → k.ring.length < 16 →
      let collected := k.ring ++ [{ r with tDone := s.time + dt }]
      let counted := if r.ran then (k.retiredCount + 1) % 65536 else k.retiredCount
      let others (t : State) := (∀ (d' : CoreDie) (c' : CoreIx), ¬ (d' = d ∧ c' = c) → t.core d'.val c'.val = s.core d'.val c'.val) ∧
        { t with cores := s.cores } = s.elapse dt
      (k.finishing = some r → k.draining = [] → s.txStalled d.val c.val false = false → s.txStalled d.val c.val true = false →
        Gives (.completionRecord dt d c) s fun t => t.core d.val c.val = { k with
          ring := collected, lastStatus := r.status, finishing := none, running := {}, retiredCount := counted
          phase := if r.cinchAfter && !k.stopped then 3 else 0 } ∧ others t) ∧
      (k.finishing = none → k.draining = [r] → s.feederFills d.val c.val = false → Gives (.completionRecord dt d c) s fun t =>
        t.core d.val c.val = { k with ring := collected, draining := [], lastStatus := r.status, retiredCount := counted } ∧ others t) ∧
      (k.finishing = none → s.feederFills d.val c.val = true → exec (.completionRecord dt d c) s = .next (s.elapse dt)))

/-! ## Micro-program steps, scratch, tables and banks -/

/-- R43, R116 to R120: a legal step runs in each of the sixteen lanes: its destination, a temporary or Z, takes the operation of its
operands, LOOKUP2 fills the next temporary too, and the operand elements, the other temporaries and everything else stay. A step that
breaks a field rule of R118 or R119 never runs (that a step is a command of its own is the model's reading of the table, log entry 2). -/
def Obligations.MicroStepsRunInEveryLane : Prop :=
  ∀ (s : State) (dt : Nat) (d : CoreDie) (c : CoreIx) (st : StepOps),
    let k := s.core d.val c.val
    let dst := st.dst.val
    s.coreLive d.val c.val = true →
    ∀ x ∈ ([(1, .stepAdd dt d c st), (2, .stepSub dt d c st), (3, .stepMul dt d c st), (4, .stepFma dt d c st), (5, .stepMin dt d c st),
        (6, .stepMax dt d c st), (7, .stepDiv dt d c st), (8, .stepSqrt dt d c st), (9, .stepFloor dt d c st), (10, .stepLdexp dt d c st),
        (11, .stepSellt dt d c st), (12, .stepLookup dt d c st), (13, .stepLookup2 dt d c st), (14, .stepCall dt d c st)] : List (Nat × Instr)),
      (stepFieldsOk k.sfu.table x.1 st = false → exec x.2 s = .next (s.elapse dt)) ∧
      (stepFieldsOk k.sfu.table x.1 st = true → Gives x.2 s fun t =>
        let n := t.core d.val c.val
        n.lanes.length = 16 ∧ { n with lanes := k.lanes } = k ∧
        (∀ (d' : CoreDie) (c' : CoreIx), ¬ (d' = d ∧ c' = c) → t.core d'.val c'.val = s.core d'.val c'.val) ∧
        { t with cores := s.cores } = s.elapse dt ∧
        ∀ i, i < 16 →
          let r := k.lanes.getD i {}
          let q := n.lanes.getD i {}
          let a := r.operand st.imm st.a.val
          let b := r.operand st.imm st.b.val
          let e := r.operand st.imm st.c.val
          let slot := st.imm.toNat
          let top := (tableSlot k.sfu.table slot).2 - (if x.1 = 13 then 2 else 1)
          let result := if dst = 31 then q.z else q.temp dst
          { q with temps := r.temps, z := r.z } = r ∧ (dst ≠ 31 → q.z = r.z) ∧
          (∀ j, j ≠ dst → (x.1 = 13 → j ≠ dst + 1) → q.temp j = r.temp j) ∧
          (x.1 = 1 → result = (Machine.Num.add fp32 a b).lane) ∧
          (x.1 = 2 → result = (Machine.Num.sub fp32 a b).lane) ∧
          (x.1 = 3 → result = (Machine.Num.mul fp32 a b).lane) ∧
          (x.1 = 4 → result = (Machine.Num.fma fp32 a b e).lane) ∧
          (x.1 = 5 → result = (Machine.Num.min a b).lane) ∧
          (x.1 = 6 → result = (Machine.Num.max a b).lane) ∧
          (x.1 = 7 → result = (Machine.Num.div fp32 a b).lane) ∧
          (x.1 = 8 → result = (Machine.Num.sqrt fp32 a).lane) ∧
          (x.1 = 9 → result = a.floor.lane) ∧
          (x.1 = 10 → result = (Machine.Num.ldexp fp32 a b).lane) ∧
          (x.1 = 11 → result = ((if a.v.lt b.v then e else (r.temp dst).num).dep [a, b]).lane) ∧
          (x.1 = 12 ∨ x.1 = 13 →
            (a.v = .nan → result = (Machine.Num.result .nan [a]).lane ∧ (x.1 = 13 → q.temp (dst + 1) = (Machine.Num.result .nan [a]).lane)) ∧
            (∀ j, j ≤ top → a.v ≠ .nan → (j = 0 ∨ a.v.lt (.ofInt j) = false) → (j = top ∨ a.v.lt (.ofInt (j + 1)) = true) →
              result = ((tableEntry k.sfu.table slot j).dep [a]).lane ∧
              (x.1 = 13 → q.temp (dst + 1) = ((tableEntry k.sfu.table slot (j + 1)).dep [a]).lane))) ∧
          (x.1 = 14 →
            let f := [fnExp2, fnLog2, fnReciprocal, fnRsqrt, fnGeluErf, fnGeluTanh, fnRelu].getD (slot - 1) fnRelu
            result = (f a).lane))

/-- R121, R122, R123, R132: the copies of the user tables. A shadow write changes one word of the shadow and clears `shadow_valid`, or is
held while a swap is pending; setting `shadow_valid` loses to a shadow write landing with it; `swap_now` pends, or is refused with
`shadow_valid` clear; at the descriptor boundary the copies exchange, `table_gen` advances and the held words land in the new shadow.
Reading CD_ROW_CANCEL clears it. -/
def Obligations.TableCopiesSwap : Prop :=
  ∀ (s : State) (dt : Nat) (d : CoreDie) (c : CoreIx),
    let k := s.core d.val c.val
    let u := k.sfu
    let live := s.coreLive d.val c.val = true
    let onlySfu (i : Instr) (p : Sfu → Prop) := Gives i s fun t =>
      let n := t.core d.val c.val
      p n.sfu ∧ { n with sfu := u } = k ∧
      (∀ (d' : CoreDie) (c' : CoreIx), ¬ (d' = d ∧ c' = c) → t.core d'.val c'.val = s.core d'.val c'.val) ∧
      { t with cores := s.cores } = s.elapse dt
    (∀ (w : Fin 4096) (v : W32), live →
      (u.swapPending = false → onlySfu (.shadowWrite dt d c w v) fun n =>
        n.word n.shadow w.val = v ∧ (∀ j, j ≠ w.val → n.word n.shadow j = u.word u.shadow j) ∧
        (∀ copy, copy ≠ u.shadow → Tab.get [] n.copies copy = Tab.get [] u.copies copy) ∧
        n.shadowValid = false ∧ { n with copies := u.copies, shadowValid := u.shadowValid } = u) ∧
      (u.swapPending = true → onlySfu (.shadowWrite dt d c w v) fun n => n = { u with held := u.held ++ [(w.val, v)] })) ∧
    (∀ landing : Bool, live → onlySfu (.shadowValidSet dt d c landing) fun n => n = { u with shadowValid := !landing }) ∧
    (live →
      (u.shadowValid = true → onlySfu (.swapNow dt d c) fun n => n = { u with swapPending := true }) ∧
      (u.shadowValid = false → onlySfu (.swapNow dt d c) fun n => n = { u with swapRefused := { isSet := true, setAt := s.wall + dt } })) ∧
    (live → u.swapPending = true → k.finishing = none → k.phase ≠ 3 → k.atCinch = false → onlySfu (.explicitSwap dt d c) fun n =>
      n.active = 1 - u.active ∧ n.tableGen = (u.tableGen + 1) % 256 ∧ n.shadowValid = false ∧ n.swapPending = false ∧ n.held = [] ∧
      n.swapRefused = u.swapRefused ∧ n.swapDeferred = u.swapDeferred ∧
      (∀ j, n.word n.active j = u.word n.active j) ∧
      (∀ j, n.word n.shadow j = ((u.held.reverse.find? (fun x => x.1 = j)).map (·.2)).getD (u.word n.shadow j))) ∧
    (live → Gives (.rowCancelRead dt d c) s fun t =>
      let n := t.core d.val c.val
      t.bus = { data := natLE 4 k.cancelRows } ∧ n = { k with cancelRows := 0 } ∧
      (∀ (d' : CoreDie) (c' : CoreIx), ¬ (d' = d ∧ c' = c) → t.core d'.val c'.val = s.core d'.val c'.val) ∧
      { t with cores := s.cores, bus := s.bus } = s.elapse dt)

/-- R138 to R141, R144 to R146: owners and power of scratch banks. A request for the current owner completes at once, another one pends
and takes effect, counted, once the old owner's accesses have completed: the feeder has drained the bank and no running descriptor uses it.
`req_owner` shows the last request; a reserved code and leaving NONE on a bank that is not ready set `own_refused`, as does a request that
lost its race, which is dropped. A group leaves ON only idle; OFF loses its contents, and a group that comes from OFF reads zero before
`ready` rises. -/
def Obligations.BanksChangeOwnerAndPower : Prop :=
  ∀ (s : State) (dt : Nat) (d : CoreDie) (c : CoreIx), s.coreLive d.val c.val = true →
    let k := s.core d.val c.val
    let now := s.elapse dt
    let raised : Flag := { isSet := true, setAt := s.wall + dt }
    let coreIs (i : Instr) (p : Core → Prop) := Gives i s fun t => p (t.core d.val c.val) ∧
      (∀ (d' : CoreDie) (c' : CoreIx), ¬ (d' = d ∧ c' = c) → t.core d'.val c'.val = s.core d'.val c'.val) ∧
      { t with cores := s.cores } = now
    let bankIs (i : Instr) (b : Bank) (o : BankOwn) := coreIs i fun n =>
      n.bank b.val = o ∧ (∀ j, j ≠ b.val → n.bank j = k.bank j) ∧ { n with banks := k.banks } = k
    (∀ (b : Bank) (req : Fin 8),
      let o := k.bank b.val
      let pend := o.pending = true ∨ k.bankOwner b.val ≠ req.val
      let refused := req.val = 7 ∨ k.bankReady b.val = false ∧ req.val ≠ 0
      let busy := k.bankOwner b.val = 3 ∧ s.feederBusy d.val c.val b.val = true ∨ k.finishing ≠ none ∧ b.val ∈ k.running.banks
      bankIs (.handoverRequest dt d c b req true) b { o with refused := raised } ∧
      (refused → bankIs (.handoverRequest dt d c b req false) b { o with reqOwner := req.val, refused := raised }) ∧
      (¬ refused → pend → bankIs (.handoverRequest dt d c b req false) b { o with reqOwner := req.val, next := req.val, pending := true }) ∧
      (¬ refused → ¬ pend → bankIs (.handoverRequest dt d c b req false) b
        { o with owner := req.val, reqOwner := req.val, next := req.val, handovers := (o.handovers + 1) % 65536 }) ∧
      (o.pending = true → ¬ busy →
        bankIs (.handoverEffect dt d c b) b { o with owner := o.next, pending := false, handovers := (o.handovers + 1) % 65536 }) ∧
      (o.pending = false ∨ busy → exec (.handoverEffect dt d c b) s = .next now)) ∧
    (∀ g : Fin 2,
      let x := k.group g.val
      let idle := ∀ b : Bank, b.val / 4 = g.val → (k.bank b.val).owner = 0 ∧ (k.bank b.val).pending = false
      (∀ m ∈ ([(0, .bankOn dt d c g), (1, .bankRetain dt d c g), (2, .bankOff dt d c g)] : List (Nat × Instr)),
        (x.mode = m.1 → coreIs m.2 fun n => n = k) ∧
        (x.mode = 0 → m.1 ≠ 0 → ¬ idle → coreIs m.2 fun n => n = { k with modeRefused := raised }) ∧
        (x.mode ≠ m.1 → (x.mode = 0 → idle) → coreIs m.2 fun n =>
          (n.group g.val).mode = m.1 ∧ (n.group g.val).ready = false ∧ (n.group g.val).moving = true ∧
          (∀ j, j ≠ g.val → n.group j = k.group j) ∧ { n with groups := k.groups, scratch := k.scratch } = k ∧
          ∀ a, Mem.read n.scratch a = if m.1 = 2 ∧ a / 262144 = g.val then 0 else Mem.read k.scratch a)) ∧
      (x.moving = true → coreIs (.bankGroupReady dt d c g) fun n =>
        (n.group g.val).mode = x.mode ∧ (n.group g.val).moving = false ∧ (x.mode = 0 → (n.group g.val).ready = true) ∧
        (x.mode ≠ 0 → n.group g.val = { x with moving := false }) ∧
        (∀ j, j ≠ g.val → n.group j = k.group j) ∧ { n with groups := k.groups, scratch := k.scratch } = k ∧
        ∀ a, Mem.read n.scratch a = if x.mode = 0 ∧ x.leftOff = true ∧ a / 262144 = g.val then 0 else Mem.read k.scratch a))

/-- R142: a corrected error of scratch is counted against its bank, the count stopping at 0xFFFF. Below both thresholds nothing more
happens; the sixteenth of one bank within a second, or a second one at a word, retires the core: what it runs is cancelled and it leaves its session, every session whose
cut uses it is faulted, RETIRE is logged, and its die is not fenced. -/
def Obligations.CorrectedErrorsRetireTheCore : Prop :=
  ∀ (s : State) (dt : Nat) (d : CoreDie) (c : CoreIx) (b : Bank) (w : Fin 8192),
    let k := s.core d.val c.val
    let word := b.val * 8192 + w.val
    let recent := (k.errTimes.filter (fun x => decide (s.time + dt < x.2 + 1000000000) && decide (x.1 = b.val))).length + 1
    s.coreLive d.val c.val = true → k.bankReady b.val = true →
    (recent < 16 → word ∉ k.errWords → Gives (.scratchCorrectedError dt d c b w) s fun t =>
      let n := t.core d.val c.val
      Tab.get 0 n.errCount b.val = min 0xFFFF (Tab.get 0 k.errCount b.val + 1) ∧
      (∀ j, j ≠ b.val → Tab.get 0 n.errCount j = Tab.get 0 k.errCount j) ∧ n.errWords = k.errWords ++ [word] ∧
      (b.val, s.time + dt) ∈ n.errTimes ∧ { n with errCount := k.errCount, errTimes := k.errTimes, errWords := k.errWords } = k ∧
      (∀ (d' : CoreDie) (c' : CoreIx), ¬ (d' = d ∧ c' = c) → t.core d'.val c'.val = s.core d'.val c'.val) ∧
      { t with cores := s.cores } = s.elapse dt) ∧
    (16 ≤ recent ∨ word ∈ k.errWords → c.val ∉ (s.die d.val).retired → Gives (.scratchCorrectedError dt d c b w) s fun t =>
      let n := t.core d.val c.val
      (∀ j, j ∈ (t.die d.val).retired ↔ j = c.val ∨ j ∈ (s.die d.val).retired) ∧ (t.die d.val).fenced = (s.die d.val).fenced ∧
      n.queue = [] ∧ n.backlog = [] ∧ n.finishing = none ∧ n.session = none ∧
      Tab.get 0 n.errCount b.val = min 0xFFFF (Tab.get 0 k.errCount b.val + 1) ∧
      (∀ i : SessionIx, (s.session i.val).bound = true → (s.session i.val).recut = none → (s.session i.val).parked = [] →
        s.cutUses (s.session i.val).plan (.core d.val c.val) = true → (t.session i.val).st = .faulted) ∧
      (∃ e, t.log.pending.getLast? = some e ∧ e.code = 0x0003 ∧ e.severity = 2 ∧ e.die = d.val ∧ e.arg = logArg c.val 0) ∧
      t.board = s.board ∧ t.power = s.power ∧ t.boot = s.boot ∧ t.flash = s.flash ∧ t.fuses = s.fuses ∧ t.owner = s.owner ∧
      t.models = s.models ∧ t.pending = s.pending ∧ t.time = s.time + dt)

/-! ## Feeder queues, seams, the pour ring and cinches -/

/-- R148, R151 to R154: a feeder queue takes descriptors. Enabling starts it; an enabled queue with a usable ring and `max_out` fetches the
64-byte descriptor at its head, whose checks are made before anything moves: a transfer of at most 256 bytes whenever it stands next, a larger
one when the grant is the queue's, no such request waits and fewer than `max_out` of its transfers are outstanding. Every 32nd grant goes to
the oldest request, any other to a queue of the highest priority that asks. With `fence` a transfer does not start before the ones ahead of
it have completed. A cancel stops fetching, and once drained every fetched descriptor has its entry, `cancel_done` is set and `enable`
clear. -/
def Obligations.FeederQueuesFetchAndCancel : Prop :=
  ∀ (s : State) (dt : Nat) (md : MemDie) (q : QueueIx), s.queueLive md.val = true →
    let f := s.feeder md.val q.val
    let now := s.elapse dt
    let others (t : State) := ∀ (m : MemDie) (j : QueueIx), ¬ (m = md ∧ j = q) → t.feeder m.val j.val = s.feeder m.val j.val
    let queueIs (i : Instr) (f' : FeederQueue) := Gives i s fun t => t.feeder md.val q.val = f' ∧ others t ∧ { t with feeders := s.feeders } = now
    let d := transferDesc (s.gddrRead (f.ringBase + 64 * f.head) 64)
    let raised : Flag := { isSet := true, setAt := s.wall + dt }
    let small := d.total ≤ 256
    let usable := f.enable = true ∧ f.cancelling = false ∧ 1 ≤ f.maxOut ∧ f.maxOut ≤ 64 ∧ 4 ≤ f.logSize ∧ f.logSize ≤ 12 ∧ f.head ≠ f.tail
    let mine := s.askers md.val true = [] ∧ s.nextGrant md.val = some q.val
    queueIs (.queueEnable dt md q) { f with enable := true, askedAt := if f.enable then f.askedAt else s.wall + dt } ∧
    queueIs (.queueCancel dt md q) { f with cancelling := true } ∧
    (usable → small ∨ f.bulkOut < f.maxOut ∧ mine → queueIs (.feederDescriptorFetch dt md q) { f with
        head := (f.head + 1) % 2 ^ f.logSize, askedAt := s.wall + dt, granted := if small then f.granted else s.grantCount md.val + 1
        inFlight := f.inFlight ++ [if d.fence = true ∧ f.inFlight ≠ [] then { desc := d, status := 0, started := false }
          else { desc := d, status := now.transferStatus d Core.bankOpen, started := true, holders := now.holdersOf d }] }) ∧
    (¬ usable ∨ ¬ small ∧ (f.maxOut ≤ f.bulkOut ∨ ¬ mine) → exec (.feederDescriptorFetch dt md q) s = .next now) ∧
    (s.nextGrant md.val = some q.val → ∀ j, j < 64 → s.asks md.val j = true → (s.nextTransfer md.val j).stitch = false →
      ((s.grantCount md.val + 1) % 32 = 0 → f.askedAt ≤ (s.feeder md.val j).askedAt) ∧
      ((s.grantCount md.val + 1) % 32 ≠ 0 → (s.feeder md.val j).priority ≤ f.priority)) ∧
    (d.bad = true → now.transferStatus d Core.bankOpen = 1) ∧
    (∀ landed, f.cancelling = true →
      (f.inFlight = [] → queueIs (.cancelDrained dt md q landed) { f with cancelling := false, cancelDone := raised, enable := false }) ∧
      (∀ x rest, f.inFlight = x :: rest → Gives (.cancelDrained dt md q landed) s fun t =>
        t.feeder md.val q.val = { f with
          inFlight := [], cancelling := false, cancelDone := raised, enable := false, done := (f.done + f.inFlight.length) % 65536
          cplIndex := (f.cplIndex + f.inFlight.length) % 2 ^ f.logSize } ∧ others t ∧
        (∀ i, i < rest.length → rest.length < 2 ^ f.logSize → (∀ y ∈ rest, y.entry = none) →
          let slot := f.cplBase + 16 * ((f.cplIndex + 1 + i) % 2 ^ f.logSize)
          (∀ j, j < 2 ^ f.logSize → now.gddrServes (f.cplBase + 16 * j) = true ∧ f.cplBase + 16 * j + 16 ≤ 96 * gib) →
          Mem.readBytes t.memory.gddr slot 16 = completionEntry (rest.getD i x).desc.tag 0x80 0 0 0) ∧
        { t with
          feeders := s.feeders, cores := s.cores
          memory := { t.memory with gddr := s.memory.gddr, host0 := s.memory.host0, host1 := s.memory.host1, cxlA := s.memory.cxlA
                                    cxlB := s.memory.cxlB, poison := s.memory.poison } } = now))

/-- R148 to R152, R359, R366: the oldest transfer of a queue ends, and its entry is written to the completion ring with its status and the
bytes moved; the next one starts, if it waited behind a fence. One whose check failed moves nothing; one run of bytes arrives as it was read,
in whatever space, and nothing else of any memory or scratch changes; a host read that fails ends it with ADDR_FAULT after the bytes that
landed, and poisoned data from an expander with MEM_ECC. The data of a transfer of at most 256 bytes may land ahead of its turn; its entry is
still written in descriptor order. -/
def Obligations.TransfersMoveBytesAndComplete : Prop :=
  ∀ (s : State) (dt : Nat) (md : MemDie) (q : QueueIx) (badRead : Bool) (landed : Nat) (before : List Transfer) (x : Transfer) (rest : List Transfer),
    let f := s.feeder md.val q.val
    let now := s.elapse dt
    let entry := f.cplBase + 16 * f.cplIndex
    let n := x.desc.counts.headD 0
    let src := addrSpace x.desc.src.toNat
    let dst := addrSpace x.desc.dst.toNat
    let dstAt := addrOffset x.desc.dst.toNat
    let data := now.readSpace src (addrOffset x.desc.src.toNat) n
    let others (t : State) := ∀ (m : MemDie) (j : QueueIx), ¬ (m = md ∧ j = q) → t.feeder m.val j.val = s.feeder m.val j.val
    let queueAfter (t : State) :=
      let g := t.feeder md.val q.val
      { g with inFlight := f.inFlight, askedAt := f.askedAt } = { f with cplIndex := (f.cplIndex + 1) % 2 ^ f.logSize, done := (f.done + 1) % 65536 } ∧
      g.inFlight.map (·.desc) = rest.map (·.desc) ∧ g.inFlight.drop 1 = rest.drop 1 ∧ (∀ y ∈ g.inFlight.head?, y.started = true) ∧
      ((∀ y ∈ rest.head?, y.started = true) → g.inFlight = rest) ∧ others t
    let framed (t : State) := { t with
        feeders := s.feeders, cores := s.cores
        memory := { t.memory with gddr := s.memory.gddr, host0 := s.memory.host0, host1 := s.memory.host1, cxlA := s.memory.cxlA
                                  cxlB := s.memory.cxlB, poison := s.memory.poison } } = now
    let lands (t : State) (moved : Bytes) (entryToo : Prop) :=
      ((dst = 0 → entryToo → dstAt + n ≤ entry ∨ entry + 16 ≤ dstAt) → t.readSpace dst dstAt moved.length = moved) ∧
      (∀ sp a, sp ≤ 5 → (sp = 5 → a < 2 ^ 32) → (sp = 0 → entryToo → a < entry ∨ entry + 16 ≤ a) →
        (sp = dst → a < dstAt ∨ dstAt + moved.length ≤ a) → t.readSpace sp a 1 = now.readSpace sp a 1)
    let writes (t : State) (status : Nat) (moved : Bytes) :=
      Mem.readBytes t.memory.gddr entry 16 = completionEntry x.desc.tag status moved.length 0 0 ∧ lands t moved True
    let oneRun := x.status = 0 ∧ x.started = true ∧ x.entry = none ∧ now.transferHeld x = false ∧ now.landStatus x = 0 ∧ x.desc.press = 0 ∧
      x.desc.counts = [n, 1, 1, 1, 1]
    let failed := (src = 1 ∨ src = 2) ∧ badRead = true
    s.queueLive md.val = true → f.cancelling = false →
    (f.inFlight = x :: rest → x.started = true → now.gddrServes entry = true → entry + 16 ≤ 96 * gib →
      let complete := Instr.transferComplete dt md q false badRead landed
      (∀ e : Bytes, e.length = 16 → x.entry = some e ∨ x.entry = none ∧ x.status ≠ 0 ∧ e = completionEntry x.desc.tag x.status 0 0 0 →
        now.transferHeld x = false → Gives complete s fun t => queueAfter t ∧ framed t ∧ Mem.readBytes t.memory.gddr entry 16 = e ∧
          (∀ sp a, sp ≤ 5 → (sp = 0 → a < entry ∨ entry + 16 ≤ a) → t.readSpace sp a 1 = now.readSpace sp a 1)) ∧
      (oneRun → now.sourceEcc x.desc badRead = false →
        (¬ failed → Gives complete s fun t => queueAfter t ∧ framed t ∧ writes t 0 data) ∧
        (failed → Gives complete s fun t => queueAfter t ∧ framed t ∧ writes t 2 (data.take landed))) ∧
      (oneRun → src = 3 ∨ src = 4 → badRead = true → Gives complete s fun t => queueAfter t ∧ writes t 4 (data.take landed) ∧
        (t.cxlPort (src - 3)).poisoned = min 0xFFFFFFFF ((s.cxlPort (src - 3)).poisoned + 1) ∧ framed { t with cxl := s.cxl })) ∧
    (f.inFlight = before ++ x :: rest → (∀ y ∈ before, y.desc.stitch = false) → x.desc.total ≤ 256 → oneRun →
      now.sourceEcc x.desc badRead = false → ¬ failed → Gives (.transferComplete dt md q true badRead landed) s fun t =>
        t.feeder md.val q.val = { f with inFlight := before ++ { x with entry := some (completionEntry x.desc.tag 0 data.length 0 0) } :: rest } ∧
        others t ∧ framed t ∧ lands t data False)

/-- R167 to R171: a pressed block is always legal and of the rate's fixed length; a block with a NaN becomes a NaN block,
which unpresses to 64 canonical NaNs; infinities are replaced and counted; zeros and subnormals unpress to +0. -/
def Obligations.PressedBlocksAreLegal : Prop :=
  ∀ (rate4 : Bool) (raw : List Nat), raw.length = 64 → (∀ x ∈ raw, x < 65536) →
    let p := pressBlock rate4 raw
    p.1.length = (if rate4 then 32 else 64) ∧ blockFaulty rate4 p.1 = false ∧
    (p.2.2 = true ↔ ∃ x ∈ raw, bfExp x = 255 ∧ bfFrac x ≠ 0) ∧
    p.2.1 = (raw.filter (fun x => decide (bfExp x = 255 ∧ bfFrac x = 0))).length ∧
    (p.2.2 = true → unpressBlock rate4 p.1 = (List.replicate 64 0x7FC0, true)) ∧
    (p.2.2 = false → (unpressBlock rate4 p.1).2 = false ∧ (unpressBlock rate4 p.1).1.length = 64 ∧
      (∀ i, i < 64 → bfExp (raw.getD i 0) = 0 → (unpressBlock rate4 p.1).1.getD i 0 = 0))

/-- R25, R158 to R160: the boundary before a descriptor. Its `pre` handovers are applied first; copy-in waits until the up seam's rows have
arrived, writes them to their places in banks that SEAM owns, one row every `recv_pitch`, does the same for the down seam, and applies the
`post` handovers; a row bound for another bank stops the core with BANK_NOT_OWNED (the record's form is the model's choice, log entry 17). A
seam row that has left its sender whole arrives whole, in the order in which the two dies' rows left; the bytes copied out become credits
again, at most 512, and the sender sends at once what they allow. -/
def Obligations.BoundariesCopySeamRowsIn : Prop :=
  ∀ (s : State) (dt : Nat) (d : CoreDie) (c : CoreIx),
    let k := s.core d.val c.val
    let now := s.elapse dt
    let rest (t : State) := ∀ (d' : CoreDie) (c' : CoreIx), ¬ (d' = d ∧ c' = c) → t.core d'.val c'.val = s.core d'.val c'.val
    (∀ (e : QueueEntry) (more : List QueueEntry), s.power.running = true → s.coreUsable d.val c.val = true → k.queue = e :: more →
      k.stopped = false → k.finishing = none → k.atCinch = false →
      (k.phase = 0 → e.plain = false → Gives (.boundaryPre dt d c) s fun t =>
        t.core d.val c.val = { k.applyHandovers e.pre (s.wall + dt) with phase := 1 } ∧ rest t ∧ { t with cores := s.cores } = now) ∧
      (k.phase = 1 → (∀ h ∈ e.pre, (k.bank h.1).pending = false) →
        let ups := if k.upCopied then 0 else e.recvUp
        let upReady := ups ≤ k.seamUp.buffer.length
        let dnReady := e.recvDn ≤ k.seamDown.buffer.length
        let upAt (r : Nat) := e.upBase + r * e.recvPitch
        let dnAt (r : Nat) := e.dnBase + r * e.recvPitch
        let mayWrite (a : Nat) := a + e.rowLen ≤ 524288 ∧
          ∀ b : Bank, a / 65536 ≤ b.val → b.val * 65536 < a + e.rowLen → k.bankOwner b.val = 4 ∧ (k.bank b.val).pending = false
        let upOk := ∀ r, r < ups → mayWrite (upAt r)
        let dnOk := ∀ r, r < e.recvDn → mayWrite (dnAt r)
        let taken (m : Seam) (n : Nat) : Seam := { m with
          buffer := m.buffer.drop n, copied := (m.copied + n) % 65536
          freed := m.freed + ((m.buffer.take n).map (fun r => ceilDiv r.length 64)).sum }
        let upAfter := if k.upCopied then k.seamUp else taken k.seamUp e.recvUp
        let outside (n : Core) (dns : Nat) := ∀ a, (∀ r, r < ups → a < upAt r ∨ upAt r + e.rowLen ≤ a) →
          (∀ r, r < dns → a < dnAt r ∨ dnAt r + e.rowLen ≤ a) → Mem.read n.scratch a = Mem.read k.scratch a
        let whole := e.rowLen ≤ e.recvPitch ∧ (∀ row ∈ k.seamUp.buffer, row.length = e.rowLen) ∧ (∀ row ∈ k.seamDown.buffer, row.length = e.rowLen)
        let upIn (n : Core) := ∀ r, r < ups → some (Mem.readBytes n.scratch (upAt r) e.rowLen) = k.seamUp.buffer[r]?
        let does (p : Core → Prop) := Gives (.copyIn dt d c) s fun t => p (t.core d.val c.val) ∧ rest t ∧
          { t with cores := s.cores, freeTick := s.freeTick } = now
        let refused (n : Core) := n.stopped = true ∧ n.queue = more ++ k.backlog.take 1 ∧ n.banks = k.banks ∧ n.seamDown = k.seamDown ∧
          ∃ r, n.finishing = some r ∧ r.status = 0x0E ∧ r.ran = false
        (¬ upReady → does fun n => n = { k with waitFrom := some (k.waitFrom.getD now.time) }) ∧
        (upReady → ¬ upOk → does fun n => refused n ∧ n.scratch = k.scratch ∧ n.seamUp = k.seamUp) ∧
        (upReady → upOk → ¬ dnReady → does fun n => outside n 0 ∧ (whole → upIn n) ∧
          n = { k with upCopied := true, waitFrom := some (k.waitFrom.getD now.time), seamUp := upAfter, scratch := n.scratch }) ∧
        (upReady → upOk → dnReady → ¬ dnOk → does fun n => refused n ∧ outside n 0 ∧ n.seamUp = upAfter) ∧
        (upReady → upOk → dnReady → dnOk → does fun n => outside n e.recvDn ∧
          n = { k with
            phase := 2, upCopied := false, waitFrom := none, banks := (k.applyHandovers e.post (s.wall + dt)).banks
            seamUp := upAfter, seamDown := taken k.seamDown e.recvDn, scratch := n.scratch } ∧
          (whole → (upAt ups ≤ e.dnBase ∨ dnAt e.recvDn ≤ e.upBase → upIn n) ∧
            ∀ r, r < e.recvDn → some (Mem.readBytes n.scratch (dnAt r) e.rowLen) = k.seamDown.buffer[r]?)))) ∧
    (∀ (down : Bool) (d' : CoreDie) (c' : CoreIx) (row : Bytes) (more : List Bytes), s.power.running = true →
      s.coreUsable d.val c.val = true → s.seamPeer d.val c.val down = some (s.rank, d'.val, c'.val) → ¬ (d' = d ∧ c' = c) →
      let m := (s.core d'.val c'.val).seam (!down)
      m.out = row :: more →
      (∀ n later, m.order = n :: later → d' = d ∨ s.firstOnFabric d'.val d.val n = true → Gives (.seamRowArrival dt d c down) s fun t =>
        t.core d.val c.val = k.updSeam down (fun m => { m with rowsIn := (m.rowsIn + 1) % 65536, buffer := m.buffer ++ [row] }) ∧
        t.core d'.val c'.val = (s.core d'.val c'.val).updSeam (!down) (fun m =>
          { m with out := more, order := later, sent := m.sent - ceilDiv row.length 64 }) ∧
        (∀ (d'' : CoreDie) (c'' : CoreIx), ¬ (d'' = d ∧ c'' = c) → ¬ (d'' = d' ∧ c'' = c') → t.core d''.val c''.val = s.core d''.val c''.val) ∧
        { t with cores := s.cores } = now) ∧
      (m.order = [] → exec (.seamRowArrival dt d c down) s = .next now)) ∧
    (∀ down : Bool, s.coreLive d.val c.val = true → 0 < (k.seam down).freed →
      let full := min 512 ((k.seam down).credits + (k.seam down).freed)
      let credited (n : Nat) := k.updSeam down (fun m => { m with credits := n, freed := 0 })
      (s.seamPeer d.val c.val down = none → Gives (.creditReturn dt d c down) s fun t =>
        t.core d.val c.val = credited full ∧ rest t ∧ { t with cores := s.cores } = now) ∧
      (∀ rank y, s.seamPeer d.val c.val down = some (rank, y) → rank ≠ s.rank → Gives (.creditReturn dt d c down) s fun t =>
        t.core d.val c.val = credited full ∧ rest t ∧ { t with cores := s.cores, cascade := s.cascade } = now) ∧
      (∀ (d' : CoreDie) (c' : CoreIx), s.seamPeer d.val c.val down = some (s.rank, d'.val, c'.val) → s.seamPeer d'.val c'.val (!down) =
          some (s.rank, d.val, c.val) → ¬ (d' = d ∧ c' = c) → Gives (.creditReturn dt d c down) s fun t =>
        let m := (s.core d'.val c'.val).seam (!down)
        let n := min ((m.out.map (fun r => ceilDiv r.length 64)).sum - m.sent) full
        t.core d.val c.val = credited (full - n) ∧
        t.core d'.val c'.val = (s.core d'.val c'.val).updSeam (!down) (fun m =>
          { m with sent := m.sent + n, order := ((t.core d'.val c'.val).seam (!down)).order }) ∧
        (∀ (d'' : CoreDie) (c'' : CoreIx), ¬ (d'' = d ∧ c'' = c) → ¬ (d'' = d' ∧ c'' = c') → t.core d''.val c''.val = s.core d''.val c''.val) ∧
        { t with cores := s.cores, fabricSeq := s.fabricSeq } = now))

/-- R155 to R157: the pour ring. When a core's descriptors have used the present shard, both neighbours have come as far and the ring owns
the banks that its shards lie in, the core advances one step: the shard its predecessor presented stands in the travel slot of the new step,
and the successor has received the shard this core presented, unless a neighbour that advanced first already moved it. Nothing but those
slots and the step changes. -/
def Obligations.PourRingStepsMoveShards : Prop :=
  ∀ (s : State) (dt : Nat) (d : CoreDie) (c : CoreIx) (before after : Nat),
    let k := s.core d.val c.val
    let p := s.core d.val before
    let q := s.core d.val after
    let st := k.pour.step
    let shown (x : Core) := Mem.readBytes x.scratch x.pour.shardAt.1 x.pour.shardAt.2
    let slot (x : Core) := x.pour.slotAt (st + 1)
    let apart (x : Core) := ∀ b, x.pour.travelBank = some b → x.pour.home.1 + 32768 ≤ 65536 * b ∨ 65536 * (b + 1) ≤ x.pour.home.1
    s.power.running = true → s.coreUsable d.val c.val = true → s.ringCore d.val c.val true = some before →
    s.ringCore d.val c.val false = some after → st + 1 < k.pour.ringSize → k.shardDone = true → k.travelOwned = true →
    q.travelOwned = true → k.presents = true → p.presents = true → st ≤ p.pour.step → st ≤ q.pour.step → apart p →
    Gives (.pourStepAdvance dt d c) s fun t =>
      let n := t.core d.val c.val
      { n with scratch := k.scratch } = { k with pour := { k.pour with step := st + 1 } } ∧
      (p.pour.step = st → Mem.readBytes n.scratch (slot k) p.pour.shardAt.2 = shown p) ∧ (p.pour.step ≠ st → n.scratch = k.scratch) ∧
      (q.pour.step = st → Mem.readBytes (t.core d.val after).scratch (slot q) k.pour.shardAt.2 = shown k) ∧
      (q.pour.step ≠ st → t.core d.val after = q) ∧ { t.core d.val after with scratch := q.scratch } = q ∧
      (∀ a, a < slot k ∨ slot k + 32768 ≤ a → Mem.read n.scratch a = Mem.read k.scratch a) ∧
      (∀ a, a < slot q ∨ slot q + 32768 ≤ a → Mem.read (t.core d.val after).scratch a = Mem.read q.scratch a) ∧
      (∀ (d' : CoreDie) (c' : CoreIx), ¬ (d' = d ∧ c' = c) → ¬ (d' = d ∧ c'.val = after) → t.core d'.val c'.val = s.core d'.val c'.val) ∧
      { t with cores := s.cores } = s.elapse dt

/-- R121, R122, R163, R164: cinches. A core arrives once its record is written and its tee rows are counted. When every core of the cut
has arrived at the root the cinch releases them all to step 0 of the ring's next layer: the table copies of every core exchange if each has `shadow_valid`, else every
core sets `swap_deferred`, drops a pending swap as refused, and SWAP_DEFERRED is logged. 5 ms after the first arrival, or after a core
began to wait in phase 2, the cut's work is cancelled and CINCH_TIMEOUT names the missing cores, four to an entry (its info's layout: log entry 17). -/
def Obligations.CinchesReleaseTogetherOrTimeOut : Prop :=
  ∀ (s : State) (dt : Nat), s.power.running = true →
    let now := s.elapse dt
    (∀ (d : CoreDie) (c : CoreIx) (i : Nat), s.coreUsable d.val c.val = true →
      let k := s.core d.val c.val
      let x := s.session i
      let key := (s.rank * 32 + d.val, c.val)
      k.phase = 3 → k.atCinch = false → k.finishing = none → k.seamUp.out = [] → k.seamDown.out = [] →
      k.seamUp.flying = 0 → k.seamDown.flying = 0 → k.session = some i →
      Gives (.cinchArrive dt d c) s fun t =>
        t.core d.val c.val = { k with atCinch := true } ∧
        (∀ (d' : CoreDie) (c' : CoreIx), ¬ (d' = d ∧ c' = c) → t.core d'.val c'.val = s.core d'.val c'.val) ∧
        key ∈ (t.session i).cinch ∧ (∀ y, y ≠ key → (y ∈ (t.session i).cinch ↔ y ∈ x.cinch)) ∧
        (t.session i).cinchAt = some (x.cinchAt.getD now.time) ∧
        { t.session i with cinch := x.cinch, cinchAt := x.cinchAt } = x ∧ (∀ j, j ≠ i → t.session j = s.session j) ∧
        (x.plan.rootRank = s.rank → { t with cores := s.cores, sessions := s.sessions } = now) ∧
        { t with cores := s.cores, sessions := s.sessions, cascade := s.cascade } = now) ∧
    (∀ i : SessionIx,
      let x := s.session i.val
      let cut := s.planCores x.plan
      let flip := x.cinchUnready = false ∧ ∀ y ∈ cut, (s.core y.1 y.2).sfu.shadowValid = true
      let raised : Flag := { isSet := true, setAt := s.wall + dt }
      let unsent (t : State) : State := if x.plan.cores.all (fun y => decide (y.1 = s.rank)) then t else { t with cascade := s.cascade }
      let cleared (t : State) := t.session i.val = { x with cinch := [], cinchAt := none, cinchUnready := false } ∧ (∀ j, j ≠ i.val → t.session j = s.session j)
      x.bound = true → x.plan.cores ≠ [] → x.plan.rootRank = s.rank → (∀ r d c, (r, d, c) ∈ x.plan.cores → (r * 32 + d, c) ∈ x.cinch) →
      (cut.map (fun y => coreKey y.1 y.2)).Nodup → Gives (.cinchRelease dt i) s fun t =>
        (∀ d c, (d, c) ∈ cut →
          let k := s.core d c
          let n := t.core d c
          let u := k.sfu
          n = { k with sfu := n.sfu, atCinch := false, phase := 0, pour := { k.pour with step := 0, layer := k.pour.layer + 1 } } ∧ n.sfu.swapPending = false ∧
          n.sfu.held = [] ∧
          (flip → n.sfu.active = 1 - u.active ∧ n.sfu.tableGen = (u.tableGen + 1) % 256 ∧ n.sfu.shadowValid = false ∧
            n.sfu.swapRefused = u.swapRefused ∧ n.sfu.swapDeferred = u.swapDeferred) ∧
          (¬ flip → n.sfu.active = u.active ∧ n.sfu.tableGen = u.tableGen ∧ n.sfu.swapDeferred = raised ∧
            n.sfu.swapRefused = (if u.swapPending then raised else u.swapRefused))) ∧
        (∀ d c, coreKey d c ∉ cut.map (fun y => coreKey y.1 y.2) → t.core d c = s.core d c) ∧ cleared t ∧
        (flip → unsent { t with cores := s.cores, sessions := s.sessions } = now) ∧
        (¬ flip → HubLogged now t 1 0x000D (logArg 0 i.val) 0 ∧
          unsent { t with cores := s.cores, sessions := s.sessions, log := s.log, dies := s.dies } = now)) ∧
    (∀ (i : SessionIx) (from_ : Nat),
      let x := s.session i.val
      let mine := ∀ y ∈ s.planCores x.plan, ∀ r ∈ (s.core y.1 y.2).ring ++ (s.core y.1 y.2).draining, r.sess = none ∨ r.sess = some i.val
      let missing := x.plan.cores.filter (fun y => !x.cinch.contains (y.1 * 32 + y.2.1, y.2.2))
      x.bound = true → from_ + 5000000 ≤ now.time →
      (x.cinchAt = some from_ ∨ ∃ y ∈ s.planCores x.plan, (s.core y.1 y.2).waitFrom = some from_) →
      Gives (.cinchTimeout dt i) s fun t =>
        (t.session i.val).cinch = [] ∧ (t.session i.val).cinchAt = none ∧ (mine → ∀ j, j ≠ i.val → t.session j = s.session j) ∧
        (∀ y ∈ s.planCores x.plan, (s.core y.1 y.2).session = some i.val →
          let n := t.core y.1 y.2
          n.queue = [] ∧ n.backlog = [] ∧ n.finishing = none ∧ n.ring = [] ∧ n.phase = 0 ∧ n.atCinch = false ∧
            (s.feederFills y.1 y.2 = false → n.draining = []) ∧
            ((s.core y.1 y.2).finishing = none → n.scratch = (s.core y.1 y.2).scratch)) ∧
        (∀ d c, coreKey d c ∉ (s.planCores x.plan).map (fun y => coreKey y.1 y.2) → t.core d c = s.core d c) ∧
        (∃ old new, t.log.pending = old ++ new ∧ new.map (fun e => (e.t, e.die, e.severity, e.code, e.arg, e.info)) =
          (if missing = [] then [[]] else fours missing).map (fun l =>
            (now.time, 0xFF, 3, 0x000B, logArg 0 i.val, BitVec.ofNat 64 (missingInfo l)))) ∧
        { t with cores := s.cores, sessions := s.sessions, log := s.log, dies := s.dies, freeTick := s.freeTick } = now)

/-! ## The video pipeline -/

/-- R173, R177, R179, R183: the next coding-block row of a source slot lands. Its planes are the slot's samples, extended to the coded area
by replicating the last column and then the last row, 16-bit containers cut to the bit depth; the two pyramid levels grow by rows of
rounded 4 × 4 means. A row that the feeder cannot reach keeps the picture waiting (the model's choice: the spec names no error for it). -/
def Obligations.SourceRowsLandExtended : Prop :=
  ∀ (s : State) (dt : Nat) (i : SessionIx) (poc : W32) (p : Picture),
    let now := s.elapse dt
    let x := s.session i.val
    let f := x.fmt
    let r := p.landed
    let rows (k : Nat) := 64 / f.planeSubY k
    let height (k : Nat) := f.height / f.planeSubY k
    let width (k : Nat) := f.width / f.planeSubX k
    let bytesAt (k y : Nat) := now.fetchForm ((p.addrs.getD k 0).toNat + (r * rows k + y) * (if k = 0 then p.yPitch else p.cPitch))
      (width k * f.sampleBytes)
    let sample (b : Bytes) (j : Nat) : Nat :=
      if f.bitDepth = 8 then (b.getD j 0).toNat else ((b.getD (2 * j) 0).toNat + 256 * (b.getD (2 * j + 1) 0).toNat) % 2 ^ f.bitDepth
    let reachable := ∀ k y, k < 3 → y < rows k → r * rows k + y < height k → (bytesAt k y).isSome = true
    s.power.running = true → x.cfg.kind = 1 → x.pic poc = some p → p.granted = true → r < f.cbRows →
    (∀ q ∈ x.pics, q.order < p.order → q.landed = f.cbRows) →
    (¬ reachable → exec (.feederRowLanded dt i poc) s = .next now) ∧
    (reachable → Gives (.feederRowLanded dt i poc) s fun t => OnlyPicture now t i.val poc ∧ ∃ q, (t.session i.val).pic poc = some q ∧
      { q with source := p.source, levels := p.levels } = { p with landed := r + 1 } ∧
      (∀ k, k < 3 → ∃ new : Plane, q.source.getD k [] = p.source.getD k [] ++ new ∧
        (∀ y b, y < rows k → r * rows k + y < height k → bytesAt k y = some b →
          ∀ j, j < f.codedW / f.planeSubX k → (new.getD y []).getD j 0 = sample b (min j (width k - 1))) ∧
        (∀ y, y < rows k → r * rows k < height k → height k ≤ r * rows k + y → new.getD y [] = new.getD (height k - 1 - r * rows k) []) ∧
        (r * rows k < height k → new.length = rows k)) ∧
      (∃ l1 l2 : Plane, q.levels.getD 1 [] = p.levels.getD 1 [] ++ l1 ∧ q.levels.getD 2 [] = p.levels.getD 2 [] ++ l2 ∧
        (∀ y j, y < l1.length → j < (l1.getD y []).length → (l1.getD y []).getD j 0 =
          (((List.range 4).map (fun a => ((List.range 4).map (fun b =>
            ((q.source.getD 0 []).getD ((p.source.getD 0 []).length + 4 * y + a) []).getD (4 * j + b) 0)).sum)).sum + 8) / 16) ∧
        (∀ y j, y < l2.length → j < (l2.getD y []).length → (l2.getD y []).getD j 0 =
          (((List.range 4).map (fun a => ((List.range 4).map (fun b => (l1.getD (4 * y + a) []).getD (4 * j + b) 0)).sum)).sum + 8) / 16)))

/-- R179, R184, R185, R186: the searcher completes a row when it is the session's turn on the row's engine; while another session is in the
middle of a picture on that engine it is not. Every sub-block of the row inside the picture gets a vector within ±1,024 by ±512 samples
and an entry of the search set, and no such choice costs more than the zero vector or the left neighbour's vector, in any picture of the
search set; the cost is the SAD of the in-picture samples plus λ for the distance from the left neighbour. Other rows keep their motion.
R179, R187, R188, R189, R198, R242, R259: the predictor forms a row of prediction and carry gather; a concealed row first inherits its
motion. In an intra picture every sample is mid-grey and the gather is zero. Else a sample takes its sub-block's vector in the picture's
reference: a whole vector reads the displaced sample, clamped to the reference's edge; a fractional one is the 8-tap filter of its phases,
rounded and limited to the bit depth. -/
def Obligations.RowsAreSearchedAndPredicted : Prop :=
  (∀ (s : State) (dt : Nat) (i : SessionIx) (poc : W32) (p : Picture) (e a b : Nat),
      let now := s.elapse dt
      let x := s.session i.val
      let f := x.fmt
      let r := p.searched
      s.power.running = true → x.cfg.kind = 1 → x.pic poc = some p → r < p.landed → x.searchReady p = true → x.recut = none ∨ r ≠ 0 →
      (∀ q ∈ x.pics, q.order < p.order → q.searched = f.cbRows) → engineFor (engineList x.plan.searchers) f.cbRows r = some (e, a, b) →
      let holds (j : Nat) := (s.session j).pics.any (fun q => holdsEngine (engineList (s.session j).plan.searchers) (s.session j).fmt.cbRows q.searched e)
      (holds i.val = false → s.sessions.any (fun y => holds y.1) = true → exec (.searchRow dt i poc) s = .next now) ∧
      (now.searcherTurnOf i.val r = true → f.width ≤ 4096 →
      Gives (.searchRow dt i poc) s fun t => OnlyPicture now { t with turns := s.turns } i.val poc ∧
        t.turns = Tab.set 0 s.turns (searcherTurn e) ((i.val + 1) % 256) ∧ ∃ q, (t.session i.val).pic poc = some q ∧
        { q with motion := p.motion } = { p with searched := r + 1 } ∧
        (∀ y j, y < 4 * r ∨ 4 * r + 4 ≤ y → j < 4096 → Tab.get {} q.motion (motionKey y j) = Tab.get {} p.motion (motionKey y j)) ∧
        (∀ y j, 4 * r ≤ y → y < 4 * r + 4 → y < f.subRows → j < f.subCols →
          let v := Tab.get {} q.motion (motionKey y j)
          let left := if j = 0 then {} else Tab.get {} q.motion (motionKey y (j - 1))
          let ref (n : Nat) : Plane := ((p.searchSet[n]?.bind (x.searchLevels p)).getD []).getD 0 []
          let cost (n : Nat) (mx my : Int) := (vectorCand f x.cfg.lambda (p.source.getD 0 []) (ref n) y j left mx my).cost
          v.x.natAbs ≤ 4096 ∧ v.y.natAbs ≤ 2048 ∧ (p.searchSet ≠ [] → v.ref < p.searchSet.length) ∧
          ∀ n, n < p.searchSet.length → cost v.ref v.x v.y ≤ cost n 0 0 ∧ cost v.ref v.x v.y ≤ cost n left.x left.y))) ∧
  (∀ (s : State) (dt : Nat) (i : SessionIx) (poc : W32) (p : Picture) (own : List RefPic) (e a b : Nat),
      let now := s.elapse dt
      let x := s.session i.val
      let f := x.fmt
      let r := p.predicted
      let ch := pkgCarryChannels (s.sessionModel x).package
      let rows (k : Nat) := 64 / f.planeSubY k
      let lost := p.concealed.contains r
      let refs := if lost = true ∧ own = [] then (x.lastHeld.map FrameBuf.refPic).toList else own
      s.power.running = true → engineFor (engineList x.plan.predictors) f.cbRows r = some (e, a, b) → now.predictorTurnOf i.val r = true →
      x.pic poc = some p → x.refPics p = some own → (lost = true → (p.concealMotion f r).isSome = true) → x.recut = none ∨ r ≠ 0 →
      r < (if x.cfg.kind = 2 then p.decoded else p.searched) → (∀ q ∈ x.pics, q.order < p.order → q.predicted = f.cbRows) →
      (∀ k, k < 3 → r * rows k ≤ (p.pred.getD k []).length) → r * 16 ≤ p.carryGather.length →
      Gives (.predictRow dt i poc) s fun t => OnlyPicture now { t with turns := s.turns } i.val poc ∧
        t.turns = Tab.set 0 s.turns (predictorTurn e) ((i.val + 1) % 256) ∧ ∃ q, (t.session i.val).pic poc = some q ∧
        { q with pred := p.pred, carryGather := p.carryGather, motion := p.motion } = { p with predicted := r + 1 } ∧
        (lost = false → q.motion = p.motion) ∧
        (∀ src, lost = true → p.concealMotion f r = some src → f.width ≤ 4096 → ∀ y j, y < f.subRows → j < f.subCols →
          Tab.get {} q.motion (motionKey y j) = if 4 * r ≤ y ∧ y < 4 * r + 4 then (match src with
            | some above => motionAt f p.motion above j
            | none => {}) else Tab.get {} p.motion (motionKey y j)) ∧
        (∀ k y, k < 3 → y < r * rows k → (q.pred.getD k []).getD y [] = (p.pred.getD k []).getD y []) ∧
        (∀ k y j, k < 3 → y < rows k → j < f.codedW / f.planeSubX k →
          let v := motionAt f q.motion ((r * rows k + y) * f.planeSubY k / 16) (j * f.planeSubX k / 16)
          let mx := if f.planeSubX k = 2 then v.x / 2 else v.x
          let my := if f.planeSubY k = 2 then v.y / 2 else v.y
          let plane : Plane := (refs.getD v.ref {}).planes.getD k []
          let rd (yy xx : Int) : Nat :=
            let row := plane.getD (min yy.toNat (plane.length - 1)) []
            if plane = [] then 2 ^ (f.bitDepth - 1) else row.getD (min xx.toNat (row.length - 1)) 0
          let at_ : Int × Int := ((r * rows k + y : Nat) + my / 4, (j : Nat) + mx / 4)
          let h (dy : Int) : Int := ((List.range 8).map (fun n => (filterTaps (mx % 4).toNat).getD n 0 * (rd (at_.1 + dy) (at_.2 + n - 3) : Int))).sum
          let vert (g : Int → Int) : Int := ((List.range 8).map (fun (n : Nat) => (filterTaps (my % 4).toNat).getD n 0 * g (n - 3))).sum
          let clip (a : Int) : Nat := min a.toNat (2 ^ f.bitDepth - 1)
          ((q.pred.getD k []).getD (r * rows k + y) []).getD j 0 =
            if refs = [] then 2 ^ (f.bitDepth - 1)
            else if mx % 4 = 0 ∧ my % 4 = 0 then rd at_.1 at_.2
            else if my % 4 = 0 then clip ((h 0 + 32) / 64)
            else if mx % 4 = 0 then clip ((vert (fun dy => rd (at_.1 + dy) at_.2) + 32) / 64)
            else clip ((vert h + 2048) / 4096)) ∧
        (∀ y j, y < 16 → j < f.codedW / 4 →
          let v := motionAt f q.motion ((16 * r + y) / 4) (j / 4)
          let c := (refs.getD v.ref {}).carry
          let row := c.getD (min ((16 * r + y : Nat) + v.y / 16).toNat (c.length - 1)) []
          (q.carryGather.getD (16 * r + y) []).getD j [] =
            if refs = [] ∨ c = [] then List.replicate ch 0 else row.getD (min ((j : Nat) + v.x / 16).toNat (row.length - 1)) []))


/-- R196, R197, R263 to R265, R339: the reference library. A complete thumbnail is scored against the library: of at most four entries
written since the last random-access point the one with the lowest thumbnail difference replaces the candidate entry of the list, and an empty library drops it. A named entry is
staged, with its contents, for the picture that waits for it, while the staging buffer holds no other picture's. An entry that is empty or cannot be read leaves the library: an encoder
drops it from the list; a decoder reads grey in its place, when it is not guarded, and counts and reports the loss. -/
def Obligations.LibraryEntriesAreFoundAndStaged : Prop :=
  ∀ (s : State) (dt : Nat) (i : SessionIx), s.power.running = true →
    let now := s.elapse dt
    let x := s.session i.val
    (∀ (poc : W32) (p : Picture), x.cfg.kind = 1 → x.cfg.libSearch = true → x.pic poc = some p → p.landed = x.fmt.cbRows → p.sigDone = false →
      let held := x.lib.filter (fun e => e.2.held && decide (p.point ≤ e.2.order))
      let diff (e : Nat × LibEntry) := sadList e.2.thumbnail.flatten (p.levels.getD 2 []).flatten
      Gives (.librarySearch dt i poc) s fun t => OnlyPicture now t i.val poc ∧ ∃ q, (t.session i.val).pic poc = some q ∧
        { q with refs := p.refs } = { p with sigDone := true } ∧
        (held = [] → q.refs = p.refs.filter (fun r => decide (r.kind ≠ 2))) ∧
        (held ≠ [] → held.length ≤ 4 → ∃ e ∈ held, (∀ e' ∈ held, diff e ≤ diff e') ∧
          q.refs = p.refs.map (fun r => if r.kind = 2 then { kind := 1, id := BitVec.ofNat 32 e.1 } else r))) ∧
    (∀ (index : Nat) (ecc : Bool) (p : Picture), x.stagingPic index = some p → x.writesFirst index p.order = false →
      x.cfg.libSearch = false ∨ p.sigDone = true →
      (∀ q ∈ x.pics, q.poc ≠ p.poc → q.staged = []) → x.pic p.poc = some p →
      let e := Tab.get {} x.lib index
      let named (r : Ref) : Bool := decide (r.kind = 1) && decide (r.id.toNat = index) && r.replaced.isNone
      (e.held = true → ecc = false → Gives (.libraryStageComplete dt i index ecc) s fun t => OnlyPicture now t i.val p.poc ∧
        (t.session i.val).pic p.poc = some { p with staged := p.staged ++ [(index, e)] }) ∧
      (e.held = false ∨ ecc = true → Gives (.libraryStageComplete dt i index ecc) s fun t => OnlySession now t i.val ∧
        (Tab.get {} (t.session i.val).lib index).held = false ∧
        (∀ j, j ≠ index → Tab.get {} (t.session i.val).lib j = Tab.get {} x.lib j) ∧ t.withRings s = now ∧
        ∃ q, (t.session i.val).pic p.poc = some q ∧
          (x.cfg.kind = 1 → q = { p with refs := p.refs.filter (fun r => !named r) } ∧ t.memory = s.memory) ∧
          (x.cfg.kind = 2 → s.guarded i.val = false → p.reports < 64 → q.greyRef = true ∧
            q.refs = p.refs.map (fun r => if named r then { r with replaced := some 0 } else r) ∧
            (t.session i.val).counters = bump (bump x.counters 5 1) 6 1)))

/-- R177, R178, R180, R192, R199, R202, R204 to R208, R211: a picture's way through the cores. Phase 1 starts when its inputs are ready, the
loads pass the firmware's checks (R161), and the record ring and the limit of 64 pictures in flight allow; the picture gets what its networks
form, and again from hyper-synthesis on after its PIC unit fell to the floor. Gain allocation gives every coding block a level 0 to 3 whose
estimates keep the target wherever level 0 did, and the latents are quantised. Phase 2 starts, or runs again with the floor rows predicted
from the motion they inherit from above. When its cores are done, the reconstruction that the synthesis makes of what a decoder has,
within the bit depth, stands in a new frame buffer, marking keeps SHORT within `max_short`, the picture leaves, its working set returns, and
its record is written or held back by a full ring; it says whether a core's record reported a counter. -/
def Obligations.PicturesPassThroughTheCores : Prop :=
  ∀ (s : State) (dt : Nat) (i : SessionIx) (poc : W32) (p : Picture), s.power.running = true → (s.session i.val).pic poc = some p →
    let now := s.elapse dt
    let x := s.session i.val
    let f := x.fmt
    let m := now.videoModel i.val
    let keys := (s.planCores x.plan).map (fun y => coreKey y.1 y.2)
    let stays (t : State) := OnlySession now t i.val ∧ (t.session i.val).pics.map (·.poc) = x.pics.map (·.poc)
    let loaded (t : State) (ls : List CoreLoad) := t.cores = (now.applyLoads i.val ls).cores ∧ { t with sessions := s.sessions, cores := s.cores } = now
    (∀ ls : List CoreLoad, now.loadsPass i.val ls = true → x.phase1Due p = true →
      (x.recHeld = [] → now.recRoom i.val = true → now.limitHolds p.order = false → Gives (.phase1Start dt i poc ls) s fun t =>
        stays t ∧ loaded t ls ∧ { t.session i.val with pics := x.pics } = { x with picTrouble := false } ∧
        ∃ q, (t.session i.val).pic poc = some q ∧ { q with wdUsed := p.wdUsed, wdFrom := p.wdFrom } =
          { (if x.cfg.kind = 1 then m.analyse p else m.scale p) with phase1 := true, limited := false, tStart := now.time, substreams := [] }) ∧
      (x.recHeld = [] → now.recRoom i.val = true → 64 ≤ now.inFlightAll →
        (x.cfg.kind = 1 → exec (.phase1Start dt i poc ls) s = .next now) ∧
        (x.cfg.kind = 2 → Gives (.phase1Start dt i poc ls) s fun t => stays t ∧ { t with sessions := s.sessions } = now ∧
          ∃ q, (t.session i.val).pic poc = some q ∧ { q with wdUsed := p.wdUsed, wdFrom := p.wdFrom } = { p with limited := true })) ∧
      (x.recHeld ≠ [] ∨ now.recRoom i.val = false → Gives (.phase1Start dt i poc ls) s fun t =>
        OnlySession now t i.val ∧ t.session i.val = { x with recStalled := true } ∧
        { t with sessions := s.sessions, log := s.log, dies := s.dies } = now ∧
        (x.recStalled = false → HubLogged now t 2 0x000A (logArg 0 i.val) 0))) ∧
    (∀ ls : List CoreLoad, now.loadsPass i.val ls = true → p.phase1 = true → p.probRerun = true → Gives (.phase1Start dt i poc ls) s fun t =>
      stays t ∧ loaded t ls ∧ (t.session i.val).pic poc = some { m.scale p with probRerun := false }) ∧
    (x.codingPic = some p → p.picDone = true → p.probRerun = false → p.gainsDone = false → Gives (.gainAllocation dt i poc) s fun t =>
      OnlyPicture now t i.val poc ∧ ∃ g : List Nat,
      let q : Picture := { p with gains := g, gainsDone := true }
      (t.session i.val).pic poc = some { q with latents := (m.quantise q).latents } ∧
      let n := f.cbCols * f.cbRows
      let est (level : Nat → Nat) : Int := ((List.range n).map (fun c => (p.estimates.getD c []).getD (level c) 0)).sum
      g.length = n ∧ (∀ v ∈ g, v ≤ 3) ∧ est (fun c => g.getD c 0) ≤ max (est (fun _ => 0)) ((p.target - p.bytes : Nat) : Int)) ∧
    (∀ ls : List CoreLoad, now.loadsPass i.val ls = true → p.phase1 = true → p.phase2 = 0 →
      x.cfg.kind = 1 ∧ p.gainsDone = true ∧ p.floored = false ∧ now.coresDone i.val = true ∨
        x.cfg.kind = 2 ∧ p.decoded = f.cbRows ∧ p.predicted = f.cbRows →
      Gives (.phase2Start dt i poc ls) s fun t => stays t ∧ loaded t ls ∧ (t.session i.val).pic poc = some { p with phase2 := 1 }) ∧
    (∀ ls : List CoreLoad, now.loadsPass i.val ls = true → x.codingPic = some p → p.floored = true → p.rowsCommitted = f.cbRows →
      p.phase2 = 0 ∨ p.phase2 = 2 →
      Gives (.phase2Rerun dt i poc ls) s fun t => stays t ∧ loaded t ls ∧ ∃ q, (t.session i.val).pic poc = some q ∧
        { q with pred := p.pred, carryGather := p.carryGather } = { p with phase2 := 3, synthRerun := true } ∧
        let rows (k : Nat) := 64 / f.planeSubY k
        let refs := (x.refPics p).getD []
        let ch := pkgCarryChannels (s.sessionModel x).package
        let motion (r : Nat) := inheritRow f p.motion r ((nearestAbove p.rowsFloor r).map (fun a => 4 * a + 3))
        f.width ≤ 4096 → (∀ r ∈ p.rowsFloor, r < f.cbRows) →
        (∀ k y, k < 3 → (p.pred.getD k []).length = f.cbRows * rows k → y < f.cbRows * rows k → (q.pred.getD k []).getD y [] =
          let r := y / rows k
          if r ∈ p.rowsFloor then (if refs = [] then intraPlane f k else predictPlane f refs (motion r) r k).getD (y % rows k) []
          else (p.pred.getD k []).getD y []) ∧
        (∀ y, p.carryGather.length = f.cbRows * 16 → y < f.cbRows * 16 → q.carryGather.getD y [] =
          let r := y / 16
          if r ∈ p.rowsFloor then (if refs = [] then intraGather f ch else gatherRow f ch refs (motion r) r).getD (y % 16) []
          else p.carryGather.getD y [])) ∧
    (now.coresDone i.val = true →
      x.cfg.kind = 1 ∧ p.rowsCommitted = f.cbRows ∧ x.outHeld = [] ∧ (p.phase2 = 3 ∨ p.phase2 = 1 ∧ p.floored = false) ∨
        x.cfg.kind = 2 ∧ p.phase2 = 1 → Gives (.phase2Done dt i poc) s fun t =>
        let y := t.session i.val
        let made := m.synthesise p
        let of (c : Nat × Nat) (r : Record) := r.sess.orElse (fun _ => (s.core c.1 c.2).session)
        let trouble := x.picTrouble || (s.planCores x.plan).any (fun c => (s.core c.1 c.2).ring.any (fun r =>
          decide (of c r = some i.val) && !r.encOnly && r.troubled))
        let flags := b2n (!p.rowsFloor.isEmpty) + 2 * b2n p.hyperFloor + 4 * b2n p.synthRerun + 8 * b2n p.rerun + 16 * b2n p.greyRef +
          32 * b2n (!p.concealed.isEmpty || p.hyperLost || p.wholeConcealed) + 64 * b2n trouble
        let coded := f.cbRows - (if p.wholeConcealed then f.cbRows else p.rowsFloor.length + p.concealed.length)
        y.pics.map (·.poc) = (x.pics.map (·.poc)).filter (· ≠ poc) ∧ y.st = x.st ∧ y.gen = x.gen ∧ y.plan = x.plan ∧ y.picTrouble = false ∧
        y.charge = x.charge - p.need + f.frameBytes (decide (x.cfg.kind = 1)) (pkgCarryChannels (s.sessionModel x).package) ∧
        (∃ b ∈ y.bufs, b.poc = p.poc ∧ b.tag = p.tag ∧ b.order = p.order ∧
          (p.concealed = [] → b.recon = made.1 ∧ (∀ pl ∈ b.recon, ∀ row ∈ pl, ∀ v ∈ row, v < 2 ^ f.bitDepth) ∧
            (f.pressed = false → b.carry = made.2)) ∧
          (p.nonref = true → b.mark = 0) ∧
          (∀ slot rest, x.cfg.kind = 2 → x.dec.outSlots = slot :: rest → y.dec.outSlots = rest ∧
            t.memory.host0 = (now.writeSlotPlanes f b.recon slot).memory.host0 ∧ t.memory.host1 = (now.writeSlotPlanes f b.recon slot).memory.host1)) ∧
        (p.nonref = false → (y.bufs.filter (fun b => b.mark = 1)).length ≤ f.maxShort) ∧
        (p.marks = [] → ∃ e : RingEntry, e.type = 1 ∧ e.t = now.time ∧
          e.record = natLE 4 p.tag.toNat ++ natLE 4 p.poc.toNat ++ natLE 4 p.bytes ++ natLE 4 p.hyperBytes ++ natLE 2 coded ++
            natLE 2 p.rowsFloor.length ++ natLE 4 flags ++ natLE 8 p.tStart ++ natLE 8 now.time ++ natLE 2 0xFFFF ++ natLE 2 x.gen ++ zeros 20 ∧
          (x.poolLost = false → y.recProduced = x.recProduced + 1 ∧ y.recHeld = x.recHeld ∧ x.recHeld = [] ∨ y.recHeld = x.recHeld ++ [e])) ∧
        (∀ d c, t.core d c = if coreKey d c ∈ keys then { s.core d c with ring := [] } else s.core d c) ∧
        ((∀ c ∈ s.planCores x.plan, ∀ r ∈ (s.core c.1 c.2).ring, of c r = none ∨ of c r = some i.val) → OnlySession now t i.val) ∧
        (x.cfg.kind = 1 ∨ x.dec.outSlots = [] → { t.withRings s with cores := s.cores } = now))

/-- R203: "The rate controller reserves the floor cost of every row not yet committed, and commits rows in order". PIC_COMMIT sets the room
B := C − H_pic − hyper_bytes − 16 R, the PIC unit falling to its floor form when its coded form leaves no room (so B is not negative
where C admits the floor size, R201); ROW_COMMIT commits the next row as coded when no row has fallen and its size less 16 fits B, which
shrinks by it, and otherwise in floor mode, 16 bytes, as every later row, discarding what was coded. So bytes committed, B and 16 bytes
per row to come always make C, and the whole picture never exceeds it. R225, R226: a random-access point, and any picture with no coded
sequence open, is preceded by MDL and SEQ, and by END while a sequence is open. -/
def Obligations.CommittedRowsKeepTheCap : Prop :=
  ∀ (s : State) (dt : Nat) (i : SessionIx) (poc : W32) (p : Picture), s.power.running = true → (s.session i.val).pic poc = some p →
    (s.session i.val).codingPic = some p → (s.session i.val).outHeld = [] → (s.elapse dt).streamServes i.val = true →
    let now := s.elapse dt
    let x := s.session i.val
    let rows := x.fmt.cbRows
    let whole (q : Picture) : Prop := (q.bytes : Int) + q.room + 16 * ((rows : Int) - q.rowsCommitted) = q.cap
    let cursor (t : State) (n : Nat) := x.poolLost = false → p.audPlaced = [] → p.began = true → p.outStart + p.written ≤ x.outCursor →
      (t.session i.val).outCursor = max x.outCursor (p.outStart + p.written + n)
    let mine := ∀ y ∈ s.planCores x.plan, ∀ r ∈ (s.core y.1 y.2).ring ++ (s.core y.1 y.2).draining, r.sess = none ∨ r.sess = some i.val
    (p.picDone = false → p.substreams.length = p.subCount x.plan → p.rowsCommitted = 0 →
      p.began = true ∨ p.opens x = false ∨ now.audAhead i.val = false → Gives (.picCommit dt i poc) s fun t =>
      let h := (unitBytes 0x50 (picPayload p.poc p.refs p.marks p.nonref [])).length
      let full := unitBytes 0x50 (picPayload p.poc p.refs p.marks p.nonref p.subsInOrder)
      let floor := p.cap < full.length + 16 * rows
      let unit := if floor then unitBytes 0x50 (picPayload p.poc p.refs p.marks p.nonref []) else full
      (t.withRings s = now) ∧ (∀ j, j ≠ i.val → (s.session j).cfg.attach ≠ some i.val → t.session j = s.session j) ∧ ∃ q, (t.session i.val).pic poc = some q ∧
        { q with began := p.began, outStart := p.outStart, head := p.head, written := p.written, hyperFloor := p.hyperFloor
                 probRerun := p.probRerun, hyperBytes := p.hyperBytes, bytes := p.bytes, room := p.room } =
          { p with picDone := true, substreams := [] } ∧
        (q.hyperFloor = true ↔ floor) ∧ q.probRerun = q.hyperFloor ∧ q.hyperBytes = unit.length - h ∧ q.bytes = unit.length ∧
        q.room = (p.cap : Int) - h - q.hyperBytes - 16 * rows ∧ (h ≤ full.length → whole q) ∧
        (h + 16 * rows ≤ p.cap → h ≤ full.length → 0 ≤ q.room) ∧ q.began = true ∧ cursor t (p.head.length + unit.length) ∧
        (p.began = false → q.outStart = x.outCursor ∧ (p.opens x = false → q.head = []) ∧ (p.opens x = true →
          q.head = (if x.sequenceOpen then unitBytes 0x45 [0x80] else []) ++ mdlUnits (now.sequenceModels i.val) ++
            unitBytes 0x51 (seqPayload x.cfg.fmt 0) ∧
          (t.session i.val).dec.mdls = now.sequenceModels i.val ∧ (p.refs = [] → (t.session i.val).rapOrder = p.order) ∧
          (x.sequenceOpen = true → ∀ b ∈ (t.session i.val).bufs, b.mark ≠ 1 ∧ b.mark ≠ 2)))) ∧
    (p.picDone = true → p.gainsDone = true → p.rowsCommitted < rows → p.floored = true ∨ p.substreams.length = p.subCount x.plan →
      Gives (.rowCommit dt i poc) s fun t =>
        let r := p.rowsCommitted
        let full := unitBytes 0x52 (rowPayload r p.poc p.subsInOrder)
        let floorUnit := unitBytes 0x52 (floorRowPayload r p.poc)
        let fits := p.floored = false ∧ (full.length : Int) - 16 ≤ p.room
        (fits ∨ p.phase2 ≠ 1 ∨ mine → OnlySession now t i.val) ∧ floorUnit.length = 16 ∧ ∃ q, (t.session i.val).pic poc = some q ∧
        (fits → { q with written := p.written } = { p with
            rowsCommitted := r + 1, bytes := p.bytes + full.length, substreams := [], room := p.room - ((full.length : Int) - 16) } ∧
          cursor t full.length ∧ t.withRings s = now) ∧
        (¬ fits → { q with written := p.written } = { p with
            rowsCommitted := r + 1, bytes := p.bytes + 16, substreams := [], floored := true, rowsFloor := p.rowsFloor ++ [r]
            phase2 := if p.phase2 = 1 then 2 else p.phase2 } ∧ cursor t 16 ∧ (p.phase2 ≠ 1 → t.withRings s = now) ∧
          (p.phase2 = 1 → { t.withRings s with cores := s.cores, freeTick := s.freeTick } = now ∧
            (∀ y ∈ s.planCores x.plan, (s.core y.1 y.2).session = some i.val →
              let n := t.core y.1 y.2
              n.queue = [] ∧ n.backlog = [] ∧ n.finishing = none ∧ n.phase = 0 ∧ (s.feederFills y.1 y.2 = false → n.draining = [])) ∧
            ∀ d c, coreKey d c ∉ (s.planCores x.plan).map (fun y => coreKey y.1 y.2) → t.core d c = s.core d c)) ∧
        (whole p → whole q) ∧ (0 ≤ p.room → 0 ≤ q.room) ∧ (whole q → 0 ≤ q.room → q.rowsCommitted = rows → q.bytes ≤ q.cap))

/-- R193, R197, R265, R309 to R311, R315, R316, R253, R260: buffers, and what comes too late. An UNUSED buffer that no picture reads gives
its space back. A library write ends with the entry held, or empty where it failed, which a decoder counts and reports. The head of a
sub-pool's queue is granted when the growth in shared use fits; a lost picture is output with its grant. A ring full beyond the bound is
logged again each bound. After the re-map grace a session's pictures are abandoned: their work is cancelled, their needs return, they are
reported, and a command that waited completes with FENCED. After its watchdog's limit a picture's work is cancelled and it is reported; a
guarded decoder outputs the nearest held picture in its place, once that is granted, another drops it. Neither acts at the limit itself. -/
def Obligations.BuffersReturnAndLatePicturesAreLost : Prop :=
  ∀ (s : State) (dt : Nat) (i : SessionIx), s.power.running = true →
    let now := s.elapse dt
    let x := s.session i.val
    let only (t : State) := OnlySession now t i.val ∧ { t with sessions := s.sessions } = now
    let logged (t : State) (code : Nat) := ∃ e ∈ t.log.pending, e.code = code ∧ e.severity = 2 ∧ e.arg = logArg 0 i.val ∧ e.t = now.time
    let cut := s.planCores x.plan
    let coresOf (t : State) := (∀ y ∈ cut, (s.core y.1 y.2).session = some i.val →
        let n := t.core y.1 y.2
        n.queue = [] ∧ n.backlog = [] ∧ n.finishing = none ∧ n.phase = 0 ∧ (s.feederFills y.1 y.2 = false → n.draining = [])) ∧
      ∀ d c, coreKey d c ∉ cut.map (fun y => coreKey y.1 y.2) → t.core d c = s.core d c
    let mine := ∀ y ∈ cut, ∀ r ∈ (s.core y.1 y.2).ring ++ (s.core y.1 y.2).draining, r.sess = none ∨ r.sess = some i.val
    let held (w : Session) := w.bufs.filter (fun b => decide (b.mark = 1) || decide (b.mark = 2))
    let lostOut (w y : Session) (p : Picture) := y.pics.map (·.poc) = (w.pics.map (·.poc)).filter (· ≠ p.poc) ∧
      y.dec.outSlots = w.dec.outSlots.drop 1 ∧ ∃ b ∈ y.bufs, b.poc = p.poc ∧ b.order = p.order ∧ b.tainted = true ∧
        (∀ a, held w = [a] → b.recon = a.recon ∧ b.carry = a.carry)
    (∀ (poc : W32) (pre post : List FrameBuf) (b : FrameBuf), x.bufs = pre ++ b :: post → b.poc = poc → b.mark = 0 → b.readers = [] →
      (∀ c ∈ pre, c.poc ≠ poc ∨ c.mark ≠ 0 ∨ c.readers ≠ []) → Gives (.frameBufferRelease dt i poc) s fun t =>
        only t ∧ t.session i.val = { x with bufs := pre ++ post, charge := x.charge - b.bytes }) ∧
    (∀ (index : Nat) (ok : Bool), (Tab.get {} x.lib index).writing = true →
      let good := ok = true ∧ now.cxlServes x.plan.cxlPort = true
      Gives (.libraryWriteComplete dt i index ok) s fun t =>
        let y := t.session i.val
        OnlySession now t i.val ∧ (∀ j, j ≠ index → Tab.get {} y.lib j = Tab.get {} x.lib j) ∧
        y.bufs = x.bufs.map (fun b => if b.mark = 3 ∧ b.index = index then { b with mark := 0 } else b) ∧
        (good → Tab.get {} y.lib index = { Tab.get {} x.lib index with held := true, writing := false }) ∧
        (¬ good → Tab.get {} y.lib index = {}) ∧
        (good ∨ x.cfg.kind = 1 → only t ∧ { y with lib := x.lib, bufs := x.bufs } = x) ∧
        (¬ good → x.cfg.kind = 2 → t.withRings s = now ∧ (x.pics = [] → y.counters = bump x.counters 6 1 ∧
          ∀ b, x.bufs.find? (fun b => decide (b.mark = 3) && decide (b.index = index)) = some b →
            let rep := natLE 4 b.tag.toNat ++ [4, 0, 0x50, 8] ++ natLE 4 b.poc.toNat ++ [0xFF, 0xFF, 0, 0] ++ natLE 8 b.markOff ++ natLE 8 now.time
            Recorded x y { type := 3, record := rep, t := now.time }))) ∧
    (∀ (md : MemDie) (g : GrantReq) (rest : List GrantReq), s.grantQueue md.val = g :: rest →
      let y := s.session g.session
      let fits := (y.charge + g.need - y.plan.reserveBytes) - (y.charge - y.plan.reserveBytes) ≤ s.poolFreeBytes md.val
      (¬ fits → exec (.poolGrant dt md) s = .next now) ∧
      (fits → (∀ p ∈ y.pics, p.wholeConcealed = false) → Gives (.poolGrant dt md) s fun t => OnlySession now t g.session ∧ { t with sessions := s.sessions, grants := s.grants } = now ∧
        t.grantQueue md.val = rest ∧ (∀ m, m ≠ md.val → t.grantQueue m = s.grantQueue m) ∧
        t.session g.session = { y with
          charge := y.charge + g.need
          pics := y.pics.map (fun p => if p.order = g.order then { p with granted := true, waiting := false } else p) }) ∧
      (∀ p, fits → y.cfg.kind = 2 → y.pics = [p] → p.order = g.order → p.wholeConcealed = true → Gives (.poolGrant dt md) s fun t =>
        OnlySession now t g.session ∧ t.grantQueue md.val = rest ∧ lostOut y (t.session g.session) p ∧
        (t.session g.session).counters = bump (bump y.counters 10 1) 3 1 ∧
        (y.dec.outSlots = [] → { t.withRings s with grants := s.grants } = now))) ∧
    (∀ since : Nat, x.cfg.kind = 1 ∨ x.cfg.kind = 3 → x.stallSince = some since →
      let bound := since + x.plan.drainBoundMs * 1000000
      (now.time ≤ bound → exec (.outputStall dt i) s = .next now) ∧
      (bound < now.time → Gives (.outputStall dt i) s fun t => OnlySession now t i.val ∧ t.session i.val = { x with stallSince := some bound } ∧
        HubLogged now t 2 0x0009 (logArg 0 i.val) (x.outProduced - s.ringConsumed x.outBase) ∧
        { t with sessions := s.sessions, log := s.log, dies := s.dies } = now)) ∧
    (x.st = .faulted → x.abandoned = false → x.faultedAt + x.plan.remapGraceMs * 1000000 < now.time → (x.pics.map (·.poc)).Nodup →
      Gives (.remapGraceExpiry dt i) s fun t =>
        let y := t.session i.val
        y.pics = [] ∧ y.abandoned = true ∧ y.parked = [] ∧ y.st = .faulted ∧ y.gen = x.gen ∧ y.plan = x.plan ∧ y.dec.input = x.dec.input ∧
        y.charge = x.charge - ((x.pics.filter (·.granted)).map (·.need)).sum ∧
        (mine → ∀ j, j ≠ i.val → { t.session j with dec := (s.session j).dec } = s.session j) ∧ coresOf t ∧
        (∀ z, x.parked = [z] → (t.slot z.port z.slot).st = 3 ∧ (t.slot z.port z.slot).status = 7 ∧ (t.slot z.port z.slot).stateNow = 5) ∧
        (∀ m, t.grantQueue m = (s.grantQueue m).filter (fun g => decide (g.session ≠ i.val))) ∧ (x.pics ≠ [] → logged t 0x000F) ∧
        (x.parked = [] → { t.withRings s with cores := s.cores, grants := s.grants, freeTick := s.freeTick } = now)) ∧
    (x.st = .faulted → now.time ≤ x.faultedAt + x.plan.remapGraceMs * 1000000 → exec (.remapGraceExpiry dt i) s = .next now) ∧
    (∀ (poc : W32) (p : Picture), p.wholeConcealed = false → x.cfg.kind = 2 → x.pic poc = some p → p.reports < 64 → x.st = .running ∨ x.st = .draining →
      let used := p.wdUsed + (match p.wdFrom with
        | some f => now.time - f
        | none => 0)
      let limit := max 20000000 (if x.fmt.rateNum = 0 then 0 else x.cfg.wdPeriods * x.fmt.rateDen * 1000000000 / x.fmt.rateNum)
      (used ≤ limit → exec (.pictureWatchdog dt i poc) s = .next now) ∧
      (limit < used → Gives (.pictureWatchdog dt i poc) s fun t =>
        let y := t.session i.val
        (mine → OnlySession now t i.val) ∧ coresOf t ∧ logged t 0x000C ∧ y.st = x.st ∧ y.dec.input = x.dec.input ∧ y.dec.group = none ∧
        (s.guarded i.val = false → y.counters = bump (bump x.counters 9 1) 2 1 ∧ y.dec.outSlots = x.dec.outSlots.drop 1 ∧
          y.pics.map (·.poc) = (x.pics.map (·.poc)).filter (· ≠ poc)) ∧
        (s.guarded i.val = true → p.granted = true → (∀ q ∈ x.pics, q.wholeConcealed = false) →
          y.counters = bump (bump (bump x.counters 9 1) 10 1) 3 1 ∧ lostOut x y p) ∧
        (s.guarded i.val = true → p.granted = false → p.waiting = true → (∀ q ∈ x.pics, q.wholeConcealed = false) →
          y.counters = bump x.counters 9 1 ∧ ∃ q, y.pic poc = some q ∧
            { q with wdUsed := p.wdUsed, wdFrom := p.wdFrom } = { p with wholeConcealed := true, phase1 := false, phase2 := 0, reports := p.reports + 1 }) ∧
        (s.guarded i.val = false ∨ x.dec.outSlots = [] →
          { t.withRings s with cores := s.cores, grants := s.grants, freeTick := s.freeTick } = now)))

/-! ## The stream -/

/-- R213 to R218, R222 to R224, R239, R240, R243: what an encoder writes, a decoder reads back. A unit on the wire is found at its start
code, with its type and its payload as it was before emulation prevention. A substream decodes to the elements it was coded from, with no
syntax error, for all tables whose frequencies are at least 1 and sum to 65,536, and all values the elements admit, escapes included. Dealt
over any number of substreams and put back in order the elements are the same. -/
def Obligations.StreamsDecodeToWhatWasEncoded : Prop :=
  (∀ (d : Decoder) (ty : Nat) (payload tail : Bytes) (ended : Bool), 0 < ty → ty < 256 → (protect payload).length ≤ 16777216 →
    d.bytes = unitBytes ty payload ++ tail →
    (tail = [] ∧ ended = true ∨ ∃ rest, tail = [0, 0, 1] ++ rest) →
    ∃ u : NextUnit, d.next ended = some u ∧ u.lead = 0 ∧ u.junk = false ∧ u.type = some ty ∧ u.wire = protect payload ∧
      u.tooLong = false ∧ u.total = (unitBytes ty payload).length ∧ u.offset = d.offset ∧ u.payload.bytes = payload ∧ u.payload.emulation = none) ∧
  (∀ (t : EntropyTables) (base : Nat) (spec vals : List Elem),
    let good (l : List Nat) := l.sum = 65536 ∧ ∀ f ∈ l, 1 ≤ f
    let even (l : List Nat) := good l ∧ l.length % 2 = 0
    let admits (e : Elem) : Prop := match e with
      | .raw k v => k ≤ 16 ∧ v < 2 ^ k
      | .hyper c q => even (t.hyper.getD c []) ∧ -32768 ≤ q ∧ q ≤ 32767
      | .latent c q => even (t.latent.getD c []) ∧ -32768 ≤ q ∧ q ≤ 32767
      | .motionX d => good t.mx ∧ t.mx.length = 64 ∧ d.natAbs ≤ 8192
      | .motionY d => good t.my ∧ t.my.length = 64 ∧ d.natAbs ≤ 8192
    let blank (e : Elem) : Elem := match e with
      | .raw k _ => .raw k 0
      | .hyper c _ => .hyper c 0
      | .latent c _ => .latent c 0
      | .motionX _ => .motionX 0
      | .motionY _ => .motionY 0
    (∀ e ∈ vals, admits e) → spec.map blank = vals.map blank →
    let r := decodeSubstream t base spec (ransEncode (vals.flatMap (elemSymbols t)))
    r.elems.map (·.1) = vals ∧ r.errors = [] ∧ r.endErr = false ∧ r.overrun = false) ∧
  (∀ (n : Nat) (l : List Elem), 0 < n → interleave n l.length (fun j => substreamElems n j l) = l)

/-- R186, R239 to R241, R244, R245, R250, R258, R318: the lanes. In its turn on a lane a session has its next substream of the unit in work
coded, from the elements of its index that the networks' symbols make, and the picture keeps the bytes. A decoding lane takes its next
substream of the unit that the stream has in the lanes and keeps the elements and errors; the last one of a PIC gives the picture its
hyper-latents, the last one of a ROW its row's gains, motion and latents; of a unit decoded again after the lanes were lost the first results
stand. Each finished substream counts in its lane's status. -/
def Obligations.LanesCodeAndDecodeSubstreams : Prop :=
  ∀ (s : State) (dt : Nat) (i : SessionIx) (lane : LaneIx), s.power.running = true →
    let now := s.elapse dt
    let x := s.session i.val
    let f := x.fmt
    let laneDone (t : State) (sd l own : Nat) (encode endErr overrun : Bool) :=
      t.lane sd l = { s.lane sd l with
          encode := encode, session := own, endErr := (s.lane sd l).endErr.raiseIf endErr now.wall
          overrun := (s.lane sd l).overrun.raiseIf overrun now.wall, substreams := ((s.lane sd l).substreams + 1) % 65536 } ∧
      (∀ sd' l', l < 32 → l' < 32 → (sd', l') ≠ (sd, l) → t.lane sd' l' = s.lane sd' l') ∧
      t.turns = Tab.set 0 s.turns (laneTurn sd l) ((own + 1) % 256)
    let order (pl : CutPlan) (j : Nat) := pl.laneOf j = some lane.val
    (∀ (p : Picture) (j : Nat), x.codingPic = some p → x.pic p.poc = some p → x.outHeld = [] →
      p.picDone = false ∨ p.gainsDone = true ∧ p.floored = false ∧ p.rowsCommitted < f.cbRows ∧ (p.phase2 ≠ 0 ∨ now.coresDone i.val = true) →
      j < p.subCount x.plan → order x.plan j → (∀ j', j' < j → order x.plan j' → j' ∈ p.substreams.map (·.1)) → j ∉ p.substreams.map (·.1) →
      now.laneTurnOf i.val x.plan.streamDie lane.val = true →
      let package := (s.sessionModel x).package
      let ch := pkgLatentChannels package
      let n := p.subCount x.plan
      let row := p.rowsCommitted
      let unit := if p.picDone = true
        then rowElems f p.refs.length ch p.gains p.sigma ((Tab.get [] p.latents row).take (4 * f.latentCols * ch)) p.motion row
        else hyperElems f (entropyTables package).means.length p.hyper
      Gives (.substreamEncode dt i lane) s fun t =>
        OnlyPicture now { t with lanes := s.lanes, turns := s.turns } i.val p.poc ∧ laneDone t x.plan.streamDie lane.val i.val true false false ∧
        (t.session i.val).pic p.poc = some { p with
          substreams := p.substreams ++ [(j, ransEncode ((substreamElems n j unit).flatMap (elemSymbols (entropyTables package))))]
          sCounts := if p.sCounts.length ≤ p.unitIx then p.sCounts ++ [n] else p.sCounts }) ∧
    (∀ (u : UnitJob) (pre post : List SubJob) (j : SubJob), x.st = .running → x.dec.unit = some u → u.jobs = pre ++ j :: post →
      order (s.session u.owner).plan j.index → (∀ j' ∈ pre, ¬ order (s.session u.owner).plan j'.index) → now.laneMayStart u = true →
      now.laneTurnOf u.owner (s.session u.owner).plan.streamDie lane.val = true → (∀ q ∈ x.pics, q.wholeConcealed = false) →
      let own := s.session u.owner
      let r := decodeSubstream (entropyTables (s.sessionModel own).package) j.pos (substreamElems u.sCount j.index u.specs) j.bytes
      let v : UnitJob := { u with jobs := pre ++ post, done := u.done ++ [(j.index, r.elems)], errors := u.errors ++ r.errors }
      let next : Decoder := { x.dec with unit := x.dec.redo.head?, redo := x.dec.redo.drop 1 }
      let frame (t : State) := OnlySession now t i.val ∧ laneDone t own.plan.streamDie lane.val u.owner false r.endErr r.overrun ∧
        { t with sessions := s.sessions, lanes := s.lanes, turns := s.turns, grants := s.grants } = now
      let most (t : State) (q : Picture) := ∃ p, (t.session i.val).pic q.poc = some p ∧
        { p with granted := q.granted, waiting := q.waiting, wdUsed := q.wdUsed, wdFrom := q.wdFrom } = q
      (pre ++ post ≠ [] → Gives (.substreamDecode dt i lane) s fun t => frame t ∧ (t.session i.val).dec = { x.dec with unit := some v }) ∧
      (∀ (p : Picture) (rest : List Picture), pre ++ post = [] → x.pics = p :: rest → v.errors = [] → u.again = false →
        let m := rowMotion f p.refs.length u.row p.motion (v.elems.drop f.cbCols)
        (u.kind = 0x50 → Gives (.substreamDecode dt i lane) s fun t => frame t ∧ (t.session i.val).dec = next ∧
          most t { p with picDone := true, hyper := v.elems.map (fun e => elemValue e.1), kept := p.kept ++ [v] }) ∧
        (u.kind = 0x52 → m.errors = [] → m.refBad = false → Gives (.substreamDecode dt i lane) s fun t => frame t ∧
          (t.session i.val).dec = next ∧
          most t { p with
            motion := m.map, decoded := p.decoded + 1, kept := p.kept ++ [v]
            gains := putGains f.cbCols p.gains u.row (v.elems.map (fun e => elemValue e.1))
            latents := Tab.set [] p.latents u.row (m.rest.map (fun e => elemValue e.1)) })) ∧
      (∀ (p : Picture) (rest : List Picture), pre ++ post = [] → x.pics = p :: rest → u.again = true → u.kind = 0x50 →
        Gives (.substreamDecode dt i lane) s fun t => frame t ∧ (t.session i.val).dec = next ∧ most t { p with picDone := true }))

/-- R222, R225, R226, R228, R230 to R233, R255, R258 to R260: a decoder takes the units that open things. MDL declares a model, and the first of a
coded sequence clears the references; SEQ, within the format the session is bound with, opens the coded sequence and keeps the library only for
the same geometry and model; PIC opens its picture, whose hyper-latents go to the lanes. A PIC that comes before its picture group is complete
first has the missing rows concealed, or the picture dropped. -/
def Obligations.SequencesAndPicturesAreOpened : Prop :=
  ∀ (s : State) (dt : Nat) (i : SessionIx) (u : NextUnit), s.power.running = true → (s.elapse dt).unitAhead i.val = some u →
    (s.session i.val).st = .running → (s.session i.val).cfg.kind = 2 → u.junk = false → u.tooLong = false →
    (∀ q ∈ (s.session i.val).pics, q.wholeConcealed = false) →
    let now := s.elapse dt
    let x := s.session i.val
    let f := x.fmt
    let model := (s.sessionModel x).package
    let is (ty : Nat) (payload : Bytes) := u.type = some ty ∧ u.payload.bytes = payload ∧ u.payload.emulation = none ∧ x.dec.hunting = none
    let idle := x.pics = [] ∧ (∀ e ∈ x.lib, e.2.writing = false) ∧ x.dec.group = none
    let past : Decoder := { x.dec.consume u.total with discarding := false, group := if x.groupCut then none else x.dec.group }
    let only (t : State) := OnlySession now t i.val ∧ { t with sessions := s.sessions } = now
    let held (m : Nat × Nat × Nat × Bytes) := (m.2.1 = 1 ∨ m.2.1 = 2) ∧ now.holdsModel x m = true
    let cleared := x.bufs.map (fun b => if b.mark = 1 ∨ b.mark = 2 then { b with mark := 0 } else b)
    let lanes (subs : List Bytes) := subs ≠ [] ∧ subs.length ≤ 32 ∧ ∀ b ∈ subs, b.length % 2 = 0 ∧ 4 ≤ b.length ∧ b.length < 2 ^ 24
    let job (j : UnitJob) (kind row : Nat) (specs : List Elem) (subs : List Bytes) :=
      { j with map := [], jobs := [], all := [] } =
        ({ kind, row, owner := i.val, tag := u.tag, map := [], specs, sCount := subs.length, jobs := [] } : UnitJob) ∧ j.all = j.jobs ∧
      j.jobs.map (·.index) = List.range subs.length ∧ j.jobs.map (·.bytes) = subs
    let most (t : State) (q : Picture) := ∃ p, (t.session i.val).pic q.poc = some p ∧
      { p with granted := q.granted, waiting := q.waiting, wdUsed := q.wdUsed, wdFrom := q.wdFrom } = q
    (∀ (id recipe kind : Nat) (hash : Bytes), is 0x4D (mdlPayload id recipe kind hash) → idle → x.dec.seq = none → id ≤ 7 → hash.length = 64 →
      recipe = 1 ∨ recipe = 2 → kind = 1 ∨ kind = 2 → id ∉ x.dec.mdls.map (·.1) → (∀ m ∈ x.dec.mdls ++ [(id, recipe, kind, hash)], held m) →
      Gives (.unitMdl dt i) s fun t =>
        let y := t.session i.val
        only t ∧ { y with dec := x.dec, bufs := x.bufs, groups := x.groups } = x ∧
        y.dec = { past with mdls := x.dec.mdls ++ [(id, recipe, kind, hash)], seenMdl := true, mdlAt := (u.offset, u.tag), lostPic := false } ∧
        y.bufs = (if x.dec.mdls = [] then cleared else x.bufs) ∧ (∀ g, x.dec.mdls = [] → y.audio g = { x.audio g with seen := false }) ∧
        (x.dec.mdls ≠ [] → y.groups = x.groups)) ∧
    (∀ (h : SeqFmt) (m : Nat × Nat × Nat × Bytes), is 0x51 (seqPayload h h.mdlId) → idle → x.dec.seq = none → (∀ m ∈ x.dec.mdls, held m) →
      h.mdlId < 0xFF → x.dec.mdls.find? (fun m => decide (m.1 = h.mdlId)) = some m → m.2.2.1 = 1 →
      (h.profile = 1 ∧ h.chroma ≤ 1 ∨ h.profile = 2 ∧ h.chroma ≤ 2) → (h.bitDepth = 8 ∨ h.bitDepth = 10 ∨ h.bitDepth = 12 ∧ h.profile = 2) →
      h.chroma ≤ x.cfg.fmt.chroma → h.bitDepth ≤ x.cfg.fmt.bitDepth → 64 ≤ h.width → h.width ≤ min 4096 x.cfg.fmt.width → h.width % 2 = 0 →
      64 ≤ h.height → h.height ≤ min 2176 x.cfg.fmt.height → h.height % 2 = 0 → 0 < h.rateNum → h.rateNum < 2 ^ 32 → 0 < h.rateDen →
      h.rateDen < 2 ^ 32 → h.rateNum ≤ 60 * h.rateDen → 1 ≤ h.maxShort → h.maxShort ≤ min 8 x.cfg.fmt.maxShort → h.press < 4 →
      h.libSize ≤ min 4096 x.cfg.fmt.libSize → Gives (.unitSeq dt i) s fun t =>
        let y := t.session i.val
        only t ∧ { y with dec := x.dec, lib := x.lib } = x ∧
        y.dec = { past with seq := some h, lastSeq := some (h, m.2.1, m.2.2.2), lostPic := false } ∧
        (x.dec.lastSeq = none → y.lib = []) ∧
        (∀ l, x.dec.lastSeq = some l → y.lib = if h.width = l.1.width ∧ h.height = l.1.height ∧ h.chroma = l.1.chroma ∧ h.bitDepth = l.1.bitDepth ∧
          h.press = l.1.press ∧ h.libSize = l.1.libSize ∧ m.2.1 = l.2.1 ∧ m.2.2.2 = l.2.2 then x.lib else [])) ∧
    (∀ (poc : W32) (refs : List Ref) (marks : List Mark) (nonref : Bool) (subs : List Bytes), is 0x50 (picPayload poc refs marks nonref subs) →
      idle → x.dec.seq.isSome = true → f.mdlId ≠ 0xFF →
      (∀ b ∈ x.bufs, b.mark = 1 ∨ b.mark = 2 → b.poc ≠ poc ∧ b.poc - poc ≠ 0x80000000) → refs.length ≤ 4 → marks.length ≤ 16 →
      (∀ r ∈ refs, r.kind ≤ 1 ∧ r.replaced = none ∧ r.off = 0 ∧ x.holdsRef r = true ∧ (r.kind = 1 → r.id.toNat < f.libSize)) →
      (∀ m ∈ marks, m.off = 0) → (∀ m ∈ marks, m.op = 1 ∧ m.arg.toNat ≤ 7 ∨ m.op = 2 ∧ m.arg.toNat < f.libSize ∨ m.op = 3) → (nonref = true → marks = []) →
      (subs ≠ [] → lanes subs) → Gives (.unitPic dt i) s fun t =>
        let y := t.session i.val
        OnlySession now t i.val ∧ { t with sessions := s.sessions, accepted := s.accepted, grants := s.grants } = now ∧
        t.accepted = s.accepted + 1 ∧ y.pics.map (·.poc) = [poc] ∧
        most t { poc := poc, tag := u.tag, order := s.accepted, nonref := nonref, need := f.need false (s.planCarry x.plan)
                 refs := ((List.range refs.length).zip refs).map (fun e => { e.2 with off := u.payload.at (5 + 5 * e.1) })
                 marks := ((List.range marks.length).zip marks).map (fun e => { e.2 with off := u.payload.at (6 + 5 * refs.length + 5 * e.1) })
                 hyperFloor := decide (subs = []), picDone := decide (subs = []), bytes := u.size
                 hyperBytes := u.size - (unitBytes 0x50 (picPayload poc refs marks nonref [])).length } ∧
        (y.bufs.map (fun b => { b with readers := [] }) = x.bufs.map (fun b => { b with readers := [] })) ∧
        (∀ b ∈ y.bufs, b.mark = 1 ∨ b.mark = 2 → (∃ r ∈ refs, r.kind = 0 ∧ r.id = b.poc) → poc ∈ b.readers) ∧
        { y.dec with unit := none } = { past with group := some poc, nextRow := 0, lostPic := false } ∧ (subs = [] → y.dec.unit = none) ∧
        (subs ≠ [] → ∃ j, y.dec.unit = some j ∧ job j 0x50 0 (hyperElems f (entropyTables model).means.length []) subs)) ∧
    (∀ (poc : W32) (q : Picture), u.type = some 0x50 → x.dec.hunting = none → x.dec.seq.isSome = true → x.dec.group = some poc → x.pic poc = some q →
      x.dec.nextRow < f.cbRows → q.reports < 64 →
      let n := f.cbRows - x.dec.nextRow
      Gives (.unitPic dt i) s fun t =>
        let y := t.session i.val
        OnlySession now t i.val ∧ { t.withRings s with grants := s.grants } = now ∧ y.dec.input = x.dec.input ∧ y.dec.nextRow = f.cbRows ∧
        (s.guarded i.val = true → y.counters = bump (bump x.counters 0 1) 4 n ∧ most t { q with
          concealed := q.concealed ++ (List.range n).map (x.dec.nextRow + ·), decoded := q.decoded + n, reports := q.reports + 1 }) ∧
        (s.guarded i.val = false → y.counters = bump (bump x.counters 0 1) 2 1 ∧ y.pics.map (·.poc) = (x.pics.map (·.poc)).filter (· ≠ poc)))

/-- R222, R225, R227, R234, R235, R237, R238, R255, R256, R258, R261, R266: a decoder takes rows and the other units. A coded ROW goes to the lanes;
a floor ROW takes 16 bytes and the motion from above; LIB empties or checks an entry; END closes the sequence. Extension units are skipped unread.
A reserved type is counted, reported and discarded, and in a hunt it only counts. -/
def Obligations.RowsAndOtherUnitsAreTaken : Prop :=
  ∀ (s : State) (dt : Nat) (i : SessionIx) (u : NextUnit), s.power.running = true → (s.elapse dt).unitAhead i.val = some u →
    (s.session i.val).st = .running → (s.session i.val).cfg.kind = 2 → u.junk = false → u.tooLong = false →
    (∀ q ∈ (s.session i.val).pics, q.wholeConcealed = false) →
    let now := s.elapse dt
    let x := s.session i.val
    let f := x.fmt
    let model := (s.sessionModel x).package
    let is (ty : Nat) (payload : Bytes) := u.type = some ty ∧ u.payload.bytes = payload ∧ u.payload.emulation = none ∧ x.dec.hunting = none
    let idle := x.pics = [] ∧ (∀ e ∈ x.lib, e.2.writing = false) ∧ x.dec.group = none
    let past : Decoder := { x.dec.consume u.total with discarding := false, group := if x.groupCut then none else x.dec.group }
    let only (t : State) := OnlySession now t i.val ∧ { t with sessions := s.sessions } = now
    let cleared := x.bufs.map (fun b => if b.mark = 1 ∨ b.mark = 2 then { b with mark := 0 } else b)
    let report (cause cls action ty offset : Nat) : RingEntry :=
      let rep := natLE 4 u.tag.toNat ++ natLE 1 cause ++ natLE 1 cls ++ natLE 1 ty ++ natLE 1 action ++ [0xFF, 0xFF, 0xFF, 0xFF, 0xFF, 0xFF, 0, 0]
      { type := 3, record := rep ++ natLE 8 offset ++ natLE 8 now.time, t := now.time }
    let lanes (subs : List Bytes) := subs ≠ [] ∧ subs.length ≤ 32 ∧ ∀ b ∈ subs, b.length % 2 = 0 ∧ 4 ≤ b.length ∧ b.length < 2 ^ 24
    let job (j : UnitJob) (kind row : Nat) (specs : List Elem) (subs : List Bytes) :=
      { j with map := [], jobs := [], all := [] } =
        ({ kind, row, owner := i.val, tag := u.tag, map := [], specs, sCount := subs.length, jobs := [] } : UnitJob) ∧ j.all = j.jobs ∧
      j.jobs.map (·.index) = List.range subs.length ∧ j.jobs.map (·.bytes) = subs
    let most (t : State) (q : Picture) := ∃ p, (t.session i.val).pic q.poc = some p ∧
      { p with granted := q.granted, waiting := q.waiting, wdUsed := q.wdUsed, wdFrom := q.wdFrom } = q
    (∀ (poc : W32) (q : Picture) (subs : List Bytes), x.dec.seq.isSome = true → x.dec.group = some poc → x.pic poc = some q → q.phase1 = true →
      x.dec.nextRow < f.cbRows → x.dec.nextRow < 256 →
      let r := x.dec.nextRow
      let moved (y : Session) := { y.dec with unit := none } = { past with nextRow := r + 1, group := if r + 1 < f.cbRows then some poc else none }
      let frame (t : State) := OnlySession now t i.val ∧ { t with sessions := s.sessions, grants := s.grants } = now
      (is 0x52 (rowPayload r poc subs) → lanes subs → Gives (.unitRow dt i) s fun t => frame t ∧ moved (t.session i.val) ∧
        most t { q with bytes := q.bytes + u.size } ∧ ∃ j, (t.session i.val).dec.unit = some j ∧
          job j 0x52 r (rowElems f q.refs.length (pkgLatentChannels model) [] q.sigma [] [] r) subs) ∧
      (is 0x52 (floorRowPayload r poc) → f.width ≤ 4096 → Gives (.unitRow dt i) s fun t => frame t ∧ moved (t.session i.val) ∧
        (t.session i.val).dec.unit = none ∧ ∃ p, (t.session i.val).pic poc = some p ∧
          most t { q with bytes := q.bytes + u.size, decoded := q.decoded + 1, rowsFloor := q.rowsFloor ++ [r], motion := p.motion } ∧
          (∀ y j, 4 * r ≤ y → y < 4 * r + 4 → y < f.subRows → j < f.subCols → Tab.get {} p.motion (motionKey y j) =
            match nearestAbove (q.rowsFloor ++ q.concealed) r with
            | some a => motionAt f q.motion (4 * a + 3) j
            | none => {}))) ∧
    (∀ (index : Nat) (check : Bytes), idle → x.dec.seq.isSome = true → f.mdlId ≠ 0xFF → index < f.libSize → index < 65536 → check.length = 8 →
      let e := Tab.get {} x.lib index
      (is 0x4C ([1, 1] ++ natBE 2 index) → Gives (.unitLib dt i) s fun t => only t ∧ ∃ l, t.session i.val = { x with dec := past, lib := l } ∧
        Tab.get {} l index = {} ∧ ∀ j, j ≠ index → Tab.get {} l j = Tab.get {} x.lib j) ∧
      (is 0x4C (libCheckPayload index check) → e.held = true ∧ libCheck f.bitDepth e.recon = check → Gives (.unitLib dt i) s fun t =>
        only t ∧ t.session i.val = { x with dec := past }) ∧
      (is 0x4C (libCheckPayload index check) → ¬ (e.held = true ∧ libCheck f.bitDepth e.recon = check) → Gives (.unitLib dt i) s fun t =>
        let y := t.session i.val
        OnlySession now t i.val ∧ t.withRings s = now ∧ y.counters = bump x.counters 7 1 ∧ y.dec = past ∧
        Recorded x y (report 6 0 (if s.guarded i.val then 8 else 1) 0x4C (u.payload.at 1)) ∧
        (s.guarded i.val = false → y.lib = x.lib) ∧ (s.guarded i.val = true → Tab.get {} y.lib index = {}))) ∧
    (is 0x45 [0x80] → idle → x.dec.seq.isSome = true → Gives (.unitEnd dt i) s fun t =>
      let y := t.session i.val
      only t ∧ { y with dec := x.dec, bufs := x.bufs, groups := x.groups } = x ∧ y.dec = { past with mdls := [], seq := none, lostPic := false } ∧
      y.bufs = cleared ∧ ∀ g, y.audio g = { x.audio g with seen := false }) ∧
    (∀ ty : Nat, u.type = some ty → x.dec.seq.isSome = true ∨ x.dec.mdls = [] →
      let ext := 0x60 ≤ ty ∧ ty ≤ 0x7F
      let known := ext ∨ ty ∈ [0x4D, 0x51, 0x50, 0x52, 0x41, 0x4C, 0x45]
      let frame (t : State) := OnlySession now t i.val ∧ { t.withRings s with grants := s.grants } = now ∧
        (t.session i.val).pics.map (·.poc) = x.pics.map (·.poc)
      (x.dec.hunting = none → ext → s.guarded i.val = false ∨ x.dec.seenMdl = true → Gives (.extensionUnit dt i) s fun t =>
        frame t ∧ { t with sessions := s.sessions, grants := s.grants } = now ∧ (t.session i.val).dec = past ∧
        (t.session i.val).counters = x.counters) ∧
      (x.dec.hunting = none → x.groupOpen = false → x.pic 0xFFFFFFFF = none → ext ∧ s.guarded i.val = true ∧ x.dec.seenMdl = false → Gives (.extensionUnit dt i) s fun t =>
        frame t ∧ (t.session i.val).dec = past ∧ (t.session i.val).counters = bump (bump x.counters 0 1) 1 1 ∧
        Recorded x (t.session i.val) (report 1 3 2 ty (u.offset + 3))) ∧
      (x.dec.hunting = none → x.groupOpen = false → x.pic 0xFFFFFFFF = none → ¬ known → Gives (.reservedUnitType dt i) s fun t =>
        frame t ∧ (t.session i.val).dec = past ∧ (t.session i.val).counters = bump (bump x.counters 0 1) 1 1 ∧
        Recorded x (t.session i.val) (report 1 1 2 ty (u.offset + 3))) ∧
      (∀ h, x.dec.hunting = some h → ¬ known → Gives (.reservedUnitType dt i) s fun t => frame t ∧
        (t.session i.val).dec = { past with hunting := some { h with skipped := h.skipped + 1 } } ∧
        (t.session i.val).counters = bump x.counters 1 1))

/-! ## Audio -/

/-- R276, R278 to R280, R283 to R287: an audio encoder. A frame is coded from its samples at the highest operating point whose estimate fits the
target, with the symbols that its model forms from the samples and the carry state, as a reset frame when its carry is missing or due or it
follows a random-access point, and in floor form when the coded unit exceeds the cap. The lowest group whose AUD may go is committed to its own
stream, MDL and SEQ first when none is open, or into its video session's, which keeps it for a re-run. -/
def Obligations.AudioFramesAreCodedAndCommitted : Prop :=
  ∀ (s : State) (dt : Nat) (i : SessionIx) (g : GroupIx), (s.elapse dt).streamServes i.val = true → (s.session i.val).st = .running →
    let now := s.elapse dt
    let x := s.session i.val
    let a := x.audio g.val
    let own (t : State) := OnlySession now t i.val ∧ ∀ h, h ≠ g.val → (t.session i.val).audio h = x.audio h
    let popped (bytes : Nat) (b : AudioBlock) (bs : List AudioBlock) : List AudioBlock :=
      if b.left ≤ 1 then bs
      else { b with left := b.left - 1, addr := b.addr + bytes, time := b.time + 20000000, syncs := b.syncs.drop 1 } :: bs
    (∀ (c : GroupCfg) (b : AudioBlock) (bs : List AudioBlock) (l : Nat) (raw : Bytes), x.cfg.kind = 3 →
      x.groupCfg g.val = some c → a.blocks = b :: bs → a.busy = false → x.plan.laneOf 0 = some l → now.fetchForm b.addr c.frameBytes = some raw →
      Gives (.audioFrameEncode dt i g) s fun t =>
        let m := now.audioModel i.val c.channels
        let sync := b.syncs.headD (0xFFFFFFFF, 0)
        let reset := !a.seen || a.lostCarry || !a.carryHeld || decide (x.cfg.resetInterval ≤ a.sinceReset) || now.afterPoint i.val sync.1
        let carry := if reset = true then List.replicate m.carry 0 else a.carry
        let pcm := pcmSamples c.pcmBits raw
        let unit (floor : Bool) (q : Nat) (sub : Bytes) : Bytes := unitBytes 0x41
          (audPayload (now.audioMdlId i.val) g.val a.frame c.channels c.layout c.pcmBits floor reset q sync.1 sync.2 [sub])
        let fits (q : Nat) := (m.estimates pcm).getD q 0 ≤ (a.target : Int) - ((unit true q [0, 1, 0, 0]).length : Int)
        own t ∧ { t with sessions := s.sessions, lanes := s.lanes, turns := s.turns } = now ∧ { t.session i.val with groups := x.groups } = x ∧
        t.lane x.plan.streamDie l = { s.lane x.plan.streamDie l with
          encode := true, session := i.val, substreams := ((s.lane x.plan.streamDie l).substreams + 1) % 65536 } ∧
        ∃ q, q ≤ 15 ∧ (q = 0 ∨ fits q) ∧ (∀ q', q < q' → q' ≤ 15 → ¬ fits q') ∧
          let symbols := m.quantise pcm carry q
          let els := audElems (m.scale carry q).2 symbols
          let full := unit false q (ransEncode (els.flatMap (elemSymbols (entropyTables (s.sessionModel x).package))))
          let floor := decide (a.cap < full.length)
          let bytes := if floor then unit true q [0, 1, 0, 0] else full
          (t.session i.val).audio g.val = { a with
            busy := true, coded := true, seen := true, unitBytes := bytes, bytes := bytes.length, floor := floor, reset := reset, concealed := false
            rerun := false, trouble := false, overCap := decide (a.cap < bytes.length), curFrame := a.frame, curQ := q, tag := b.tag, syncPoc := sync.1
            syncNs := sync.2, latents := if floor then [] else symbols, blocks := popped c.frameBytes b bs }) ∧
    (x.cfg.kind = 3 → now.commitGroup i.val = some g.val →
      (x.cfg.attach = none → Gives (.audCommit dt i) s fun t =>
        let y := t.session i.val
        let m := s.sessionModel x
        let head := if x.dec.mdls = [] then unitBytes 0x4D (mdlPayload 0 m.recipe 2 m.hash) ++ unitBytes 0x51 (seqPayload audioSeq 0xFF) else []
        own t ∧ t.withRings s = now ∧ y.audio g.val = { a with coded := false, unitBytes := [] } ∧
        (x.poolLost = false → y.outCursor = x.outCursor + head.length + a.unitBytes.length) ∧
        y.dec = if x.dec.mdls = [] then { x.dec with mdls := [(0, m.recipe, 2, m.hash)], seq := some audioSeq } else x.dec) ∧
      (∀ v, x.cfg.attach = some v → v ≠ i.val → Gives (.audCommit dt i) s fun t =>
        let w := s.session v
        (∀ j, j ≠ i.val → j ≠ v → t.session j = s.session j) ∧ t.withRings s = now ∧
        { t.session i.val with groups := x.groups } = x ∧ (t.session i.val).audio g.val = { a with coded := false, unitBytes := [] } ∧
        (t.session v).outCursor = w.outCursor + a.unitBytes.length ∧
        (t.session v).pics = w.pics.map (fun p => if p.began = true ∧ p.picDone = true then { p with
          audPlaced := p.audPlaced ++ [(p.rowsCommitted, a.unitBytes)], written := p.written + a.unitBytes.length } else p)))

/-- R274, R279, R282, R289 to R293: audio frames on their way out. A decoder takes the expected frame to its lanes, mutes frames until a reset, and
conceals up to 50 missing ones. Once the group's cores are done, synthesis writes the samples, keeps the carry and leaves a frame record; a
concealed frame is a floor frame at the last operating point. A frame 80 ms late is concealed. -/
def Obligations.AudioFramesAreDecodedAndPlayed : Prop :=
  ∀ (s : State) (dt : Nat) (i : SessionIx) (g : GroupIx), s.power.running = true → (s.session i.val).st = .running →
    let now := s.elapse dt
    let x := s.session i.val
    let a := x.audio g.val
    let cut := s.groupCores i.val g.val
    let mine := ∀ y ∈ cut, ∀ r ∈ (s.core y.1 y.2).ring ++ (s.core y.1 y.2).draining, r.sess = none ∧ (s.core y.1 y.2).session = some i.val ∨ r.sess = some i.val
    let popped (bytes : Nat) (b : AudioBlock) (bs : List AudioBlock) : List AudioBlock :=
      if b.left ≤ 1 then bs
      else { b with left := b.left - 1, addr := b.addr + bytes, time := b.time + 20000000, syncs := b.syncs.drop 1 } :: bs
    let record (tag frame bytes q flags : Nat) (poc ns : W32) : RingEntry :=
      let rec0 := natLE 4 tag ++ natLE 4 frame ++ natLE 4 bytes ++ natLE 1 g.val ++ natLE 1 q ++ zeros 2 ++ natLE 4 flags
      { type := 2, record := rec0 ++ natLE 4 poc.toNat ++ natLE 4 ns.toNat ++ zeros 4 ++ natLE 8 now.time ++ zeros 8, t := now.time }
    (∀ (u : NextUnit) (j : Nat) (c : GroupCfg) (mdl layout q : Nat) (frame syncPoc syncNs : W32) (floor reset : Bool)
      (subs : List Bytes), now.unitAhead i.val = some u → u.junk = false → u.tooLong = false → u.type = some 0x41 → x.dec.hunting = none →
      x.dec.seq.isSome = true → u.payload.emulation = none → (∀ p ∈ x.pics, p.wholeConcealed = false) →
      u.payload.bytes = audPayload mdl g.val frame c.channels layout c.pcmBits floor reset q syncPoc syncNs subs →
      s.audOwner i.val g.val = some (j, c) → mdl < 256 → 1 ≤ c.channels → c.channels ≤ 16 → layoutFits layout c.channels = true → layout < 256 →
      c.pcmBits < 256 → q ≤ 15 → (syncPoc = 0xFFFFFFFF → syncNs = 0) → subs ≠ [] → subs.length ≤ 32 →
      (∀ b ∈ subs, b.length % 2 = 0 ∧ 4 ≤ b.length ∧ b.length < 2 ^ 24) → (floor = true → subs = [[0, 1, 0, 0]]) →
      (∃ r, (mdl, r, 2, (s.sessionModel (s.session j)).hash) ∈ x.dec.mdls) → ((s.session j).audio g.val).busy = false →
      let b := (s.session j).audio g.val
      let past : Decoder := { x.dec.consume u.total with discarding := false, group := if x.groupCut then none else x.dec.group }
      let others (t : State) := (∀ k, k ≠ i.val → k ≠ j → t.session k = s.session k) ∧
        (∀ h, h ≠ g.val → (t.session j).audio h = (s.session j).audio h) ∧ { (t.session i.val).dec with unit := none } = past
      let started (t : State) (gap : Nat) := others t ∧
        let m := now.audioModel j c.channels
        let carry := if reset = true then List.replicate m.carry 0 else m.concealedCarry b.qLevel gap b.carry
        (t.session j).audio g.val = { b with
          frame := if b.seen = true ∧ b.muted = false then b.frame else frame
          busy := true, curFrame := frame, curQ := q, tag := u.tag, bytes := u.size, floor := floor, reset := reset, concealed := false
          overCap := false, rerun := false, trouble := false, coded := floor, toConceal := gap, lostWork := false, parsedAt := some now.time
          syncPoc := syncPoc, syncNs := syncNs, latents := [], kept := none
          seen := b.seen || floor, muted := if floor = true then b.muted && !reset else b.muted } ∧
        (floor = true → (t.session i.val).dec.unit = none) ∧
        (floor = false → ∃ w, (t.session i.val).dec.unit = some w ∧ w.kind = 0x41 ∧ w.row = g.val ∧ w.owner = j ∧ w.sCount = subs.length ∧
          w.specs = audElems (m.scale carry q).2 [] ∧ w.all = w.jobs ∧ w.jobs.map (·.index) = List.range subs.length ∧ w.jobs.map (·.bytes) = subs)
      (b.seen = true ∧ b.muted = false ∧ frame = b.frame ∨ b.seen = false ∧ reset = true ∨
          b.seen = true ∧ b.muted = true ∧ frame = b.frame ∧ reset = true →
        Gives (.unitAud dt i) s fun t => started t 0 ∧ { t with sessions := s.sessions, grants := s.grants } = now) ∧
      (∀ gap, b.seen = true → b.muted = false → 0 < gap → gap ≤ 50 → frame = b.frame + BitVec.ofNat 32 gap → Gives (.unitAud dt i) s fun t =>
        started t gap ∧ { t.withRings s with grants := s.grants } = now) ∧
      (b.seen = false ∧ reset = false ∨ b.seen = true ∧ b.muted = true ∧ frame = b.frame ∧ reset = false → b.blocks = [] →
        Gives (.unitAud dt i) s fun t =>
          let k := s.session j
          let tainted := b.tainted || b.lostCarry
          let flags := b2n floor + 8 + 64 * b2n (decide (syncPoc = 0xFFFFFFFF)) + 128 * b2n tainted
          others t ∧ { t.withRings s with grants := s.grants } = now ∧ (t.session i.val).dec.unit = none ∧
          (t.session j).audio g.val = { b with frame := frame + 1, seen := true, muted := true, carryHeld := false, carry := [] } ∧
          (t.session j).counters = bump (bump k.counters 2 1) 10 (b2n tainted) ∧
          Recorded k (t.session j) (record u.tag.toNat frame.toNat 0 q flags syncPoc syncNs))) ∧
    (∀ c : GroupCfg, x.groupCfg g.val = some c → x.cfg.kind = 3 ∨ x.cfg.kind = 4 → a.busy = true →
      (∀ y ∈ cut, (s.core y.1 y.2).idle = true) → mine →
      let m := now.audioModel i.val c.channels
      let decode := decide (x.cfg.kind = 4)
      let hidden := a.concealed || (decode && decide (0 < a.toConceal))
      let made := if hidden = true then m.synthesise a.carry a.qLevel none
        else m.synthesise (if a.reset = true then List.replicate m.carry 0 else a.carry) a.curQ (if a.floor then none else some a.latents)
      let out := if decode then made.1.map (pcmSample c.pcmBits) else []
      let bad := a.trouble || cut.any (fun y => (s.core y.1 y.2).ring.any (fun r => !r.encOnly && r.troubled)) ||
        out.any (fun e => e.2.saturated || e.2.nan)
      let own (t : State) := OnlySession now t i.val ∧ (∀ h, h ≠ g.val → (t.session i.val).audio h = x.audio h) ∧
        ∀ d k, t.core d k = if coreKey d k ∈ cut.map (fun y => coreKey y.1 y.2) then { s.core d k with ring := [] } else s.core d k
      let wrote (t : State) := (x.cfg.kind = 3 ∨ a.blocks = [] → { t.withRings s with cores := s.cores } = now ∧
          ((t.session i.val).audio g.val).blocks = a.blocks) ∧
        ∀ b bs, x.cfg.kind = 4 → a.blocks = b :: bs → ((t.session i.val).audio g.val).blocks = popped (out.flatMap (·.1)).length b bs ∧
          t.memory.host0 = (now.storeForm b.addr (out.flatMap (·.1))).memory.host0 ∧ t.memory.host1 = (now.storeForm b.addr (out.flatMap (·.1))).memory.host1
      (x.cfg.kind = 4 → 0 < a.toConceal → Gives (.audioSynthesisDone dt i g) s fun t =>
        let y := t.session i.val
        let left := a.toConceal - 1
        own t ∧ wrote t ∧ { y.audio g.val with blocks := a.blocks } = { a with
          carry := made.2, carryHeld := true, lostCarry := false, frame := a.frame + 1, tainted := true, trouble := false, toConceal := left
          busy := !(decide (left = 0) && a.lostWork), lostWork := a.lostWork && decide (left ≠ 0) } ∧
        y.counters = bump (bump x.counters 3 1) 10 1 ∧
        Recorded x y (record a.tag.toNat a.frame.toNat 0 a.qLevel (5 + 32 * b2n bad + 64 + 128) 0xFFFFFFFF 0)) ∧
      (x.cfg.kind = 4 → a.toConceal = 0 → a.concealed = true → Gives (.audioSynthesisDone dt i g) s fun t =>
        let y := t.session i.val
        own t ∧ wrote t ∧ { y.audio g.val with blocks := a.blocks } = { a with
          carry := made.2, carryHeld := true, lostCarry := false, frame := a.curFrame + 1, tainted := true, trouble := false, busy := false
          coded := false, concealed := false, parsedAt := none, latents := [], rerun := false, kept := none, sinceReset := a.sinceReset + 1 } ∧
        y.counters = bump (bump x.counters 3 1) 10 1 ∧
        Recorded x y (record a.tag.toNat a.curFrame.toNat 0 a.qLevel (5 + 16 * b2n a.rerun + 32 * b2n bad + 64 + 128) 0xFFFFFFFF 0)) ∧
      (x.cfg.kind = 3 ∧ a.coded = false ∨ x.cfg.kind = 4 ∧ a.toConceal = 0 ∧ a.coded = true → a.concealed = false →
        Gives (.audioSynthesisDone dt i g) s fun t =>
          let y := t.session i.val
          let tainted := !a.reset && a.tainted
          let flags := b2n a.floor + 2 * b2n a.reset + 16 * b2n a.rerun + 32 * b2n bad + 64 * b2n (decide (a.syncPoc = 0xFFFFFFFF)) +
            128 * b2n tainted + 256 * b2n a.overCap
          own t ∧ wrote t ∧ { y.audio g.val with blocks := a.blocks } = { a with
            carry := made.2, carryHeld := true, lostCarry := false, frame := a.curFrame + 1, tainted := tainted, trouble := false, qLevel := a.curQ
            busy := false, coded := false, parsedAt := none, latents := [], rerun := false, kept := none
            sinceReset := if a.reset = true then 1 else a.sinceReset + 1 } ∧
          (x.cfg.kind = 4 → y.counters = if tainted = true then bump x.counters 10 1 else x.counters) ∧
          Recorded x y (record a.tag.toNat a.curFrame.toNat a.bytes a.curQ flags a.syncPoc a.syncNs))) ∧
    (∀ from_ : Nat, x.cfg.kind = 4 → a.busy = true → a.parsedAt = some from_ → x.pics = [] →
      (now.time < from_ + 80000000 → exec (.audioWatchdog dt i g) s = .next now) ∧
      (from_ + 80000000 ≤ now.time → Gives (.audioWatchdog dt i g) s fun t =>
        let y := t.session i.val
        let rep := natLE 4 a.tag.toNat ++ [9, 0, 0x41, 4] ++ natLE 4 a.curFrame.toNat ++ natLE 2 g.val ++ [1, 0] ++ zeros 8 ++ natLE 8 now.time
        { y.audio g.val with trouble := a.trouble } = { a with concealed := !a.lostWork, coded := false, parsedAt := none } ∧
        y.counters = bump x.counters 9 1 ∧
        (mine → ∀ h, h ≠ g.val → y.audio h = x.audio h) ∧ Recorded x y { type := 3, record := rep, t := now.time } ∧
        (∃ e ∈ t.log.pending, e.code = 0x000C ∧ e.arg = logArg 0 i.val ∧ e.t = now.time) ∧
        (mine → ∀ j, j ≠ i.val → { t.session j with dec := (s.session j).dec } = s.session j) ∧
        (∀ z ∈ cut, (s.core z.1 z.2).session = some i.val →
          let n := t.core z.1 z.2
          n.queue = [] ∧ n.backlog = [] ∧ n.finishing = none ∧ n.phase = 0 ∧ (s.feederFills z.1 z.2 = false → n.draining = [])) ∧
        (∀ d k, coreKey d k ∉ cut.map (fun y => coreKey y.1 y.2) → t.core d k = s.core d k) ∧
        { t.withRings s with cores := s.cores, freeTick := s.freeTick } = now))

/-! ## Cascade -/

/-- R158, R162, R164, R322, R374 to R377, R380, R382, R383, R386, R387: flits. The symbols FEC corrected in an arriving flit are counted; its `ack` empties the replay buffer up to it and its credits are added, up
to 64. A DATA or TIME flit out of order, or one with a bad CRC, is discarded and RETRY goes back; one in order returns a credit, and DATA for this
device goes to its seam, its cinch or a memory, for another rank to the next hop; a seam takes units of rows and credits, a cinch arrivals and the
release, and a die that is fenced or without power takes nothing (the places in the flit are the model's, log entry 14). A flit without a credit waits for one. RETRY replays all that is not acknowledged; 64 replays in 1 ms or
8 of one flit lose the port. A TIME request is answered with both stamps; a reply gives θ, which is stepped once and then slewed, and 16 exchanges
within 10 ns lock. A member asks every 16 µs, having slewed its time by at most 300 ppm, hears the master in every valid flit, and unlocks after 1 ms without a reply. -/
def Obligations.FlitsFollowTheLinkRules : Prop :=
  ∀ (s : State) (dt : Nat) (q : Fin 4) (f : Flit), s.linkAlive = true →
    let now := s.elapse dt
    let b := s.cascadePort q.val
    let o := { b with fecSymbols := (b.fecSymbols + f.fec) % 2 ^ 32 }
    let key := (if f.creditSet = true then 4 else 0) + f.creditVc.val
    let ahead (e : Nat × Nat × Flit) := (e.2.2.seq.val + 4096 - f.ack.val) % 4096
    let kept := o.replayBuf.filter (fun e => decide (ahead e ≠ 0) && decide (ahead e < 2048))
    let credited (p : CascadePort) := Tab.get 64 p.credits key = min 64 (Tab.get 64 o.credits key + f.credit.val) ∧
      ∀ k, k ≠ key → Tab.get 64 p.credits k = Tab.get 64 o.credits k
    let heard (c : Cascade) := c.heardMaster = (if f.srcRank.val = s.cascade.masterRank then now.time else s.cascade.heardMaster)
    let portsOnly (t : State) := heard t.cascade ∧ (∀ r, r ≠ q.val → t.cascadePort r = s.cascadePort r) ∧
      { t with cascade := { t.cascade with ports := s.cascade.ports, heardMaster := s.cascade.heardMaster } } = now
    let retried (o p : CascadePort) := ∃ r : Flit, { p with fecUncorrectable := o.fecUncorrectable } = { o with outQ := o.outQ ++ [(4, r)] } ∧
      r.ack.val = o.rxSeq % 4096 ∧ r.srcRank.val = s.rank
    let inOrder := f.seq.val = (o.rxSeq + 1) % 4096
    let returned (i : Flit) := i.ack = f.seq ∧ i.srcRank.val = s.rank ∧ i.creditVc = f.vc ∧ i.creditSet = f.vcSet ∧ i.credit.val = 1
    let accepted (t : State) := ∃ i, returned i ∧ credited (t.cascadePort q.val) ∧
      { t.cascadePort q.val with credits := o.credits } = { o with rxSeq := f.seq.val, replayBuf := kept, outQ := o.outQ ++ [(0, i)] }
    let idle := o.waiting = []
    let linked (t : State) := accepted t ∧ heard t.cascade ∧ (∀ r, r ≠ q.val → t.cascadePort r = s.cascadePort r) ∧
      { t.cascade with ports := s.cascade.ports, heardMaster := s.cascade.heardMaster } = s.cascade
    let die := f.target % 32
    let off := f.target / 256
    (o.up = true → idle → Gives (.cascadeIdle dt q f) s fun t => portsOnly t ∧ credited (t.cascadePort q.val) ∧
      { t.cascadePort q.val with credits := o.credits } = { o with replayBuf := kept }) ∧
    (∀ (ty : Nat) (w : Flit) (rest : List (Nat × Flit)), o.up = true → o.waiting = (ty, w) :: rest → 1 ≤ ty → ty ≤ 3 →
      let k := (if w.vcSet = true then 4 else 0) + w.vc.val
      (0 < (if k = key then min 64 (Tab.get 64 o.credits k + f.credit.val) else Tab.get 64 o.credits k) → kept.length < 2048 →
        Gives (.cascadeIdle dt q f) s fun t => ∃ (g : Flit) (more : List (Nat × Flit)), { g with seq := w.seq, ack := w.ack } = w ∧
          g.seq.val = o.txSeq % 4096 ∧ (t.cascadePort q.val).outQ = o.outQ ++ (ty, g) :: more) ∧
      (Tab.get 64 o.credits k = 0 → k ≠ key ∨ f.credit.val = 0 → rest = [] →
        Gives (.cascadeIdle dt q f) s fun t => (t.cascadePort q.val).waiting = o.waiting ∧ (t.cascadePort q.val).outQ = o.outQ)) ∧
    (∀ (rank : Fin 8) (peer : Fin 4), idle → Gives (.cascadeId dt q f rank peer) s fun t => portsOnly t ∧ credited (t.cascadePort q.val) ∧
      { t.cascadePort q.val with credits := o.credits } = { o with
        replayBuf := kept, peerRank := rank.val, peerPort := peer.val, rankConflict := decide (rank.val = s.rank)
        up := o.up && !decide (rank.val = s.rank) }) ∧
    (∀ fec : Bool, o.up = true → Gives (.cascadeCrcFail dt q fec) s fun t =>
      { t with cascade := { t.cascade with ports := s.cascade.ports } } = now ∧ (∀ r, r ≠ q.val → t.cascadePort r = s.cascadePort r) ∧ retried b (t.cascadePort q.val) ∧
      (t.cascadePort q.val).fecUncorrectable = if fec then min 0xFFFFFFFF (o.fecUncorrectable + 1) else o.fecUncorrectable) ∧
    (o.up = true →
      let again := kept.map (fun e => (e.1, e.2.1 + 1, e.2.2))
      let times := o.replayTimes.filter (fun x => decide (now.time < x + 1000000)) ++ [now.time]
      let worn := 64 ≤ times.length ∨ ∃ e ∈ again, 8 ≤ e.2.1
      (¬ worn → idle → Gives (.cascadeRetry dt q f) s fun t => portsOnly t ∧ credited (t.cascadePort q.val) ∧
        { t.cascadePort q.val with credits := o.credits } = { o with
          replayBuf := again, outQ := o.outQ ++ again.map (fun e => (e.1, e.2.2)), replays := (o.replays + 1) % 65536, replayTimes := times }) ∧
      (worn → Gives (.cascadeRetry dt q f) s fun t => (t.cascadePort q.val).up = false ∧ (t.cascadePort q.val).lost = Flag.raise now.wall ∧
        (t.cascadePort q.val).replayBuf = [] ∧ (t.cascadePort q.val).lostAt = now.time ∧
        ∃ e ∈ t.log.pending, e.code = 0x0012 ∧ e.severity = 3 ∧ e.arg = BitVec.ofNat 32 (q.val * 65536) ∧ e.t = now.time)) ∧
    (o.up = true → ¬ inOrder → ∀ c ∈ [Instr.cascadeData dt q f, .cascadeTime dt q f], Gives c s fun t => portsOnly t ∧
      t.cascadePort q.val = { t.cascadePort q.val with fecUncorrectable := o.fecUncorrectable } ∧ retried o (t.cascadePort q.val)) ∧
    (o.up = true → idle → inOrder → f.dstRank.val = s.rank → Gives (.cascadeData dt q f) s fun t =>
      let core := off % 256
      let down := Nat.testBit off 8
      let usable := die < 24 ∧ core < 160 ∧ now.coreUsable die core = true
      (t.cascadePort q.val).rxSeq = f.seq.val ∧ heard t.cascade ∧ (f.vc.val ≠ 0 → linked t) ∧
      (f.vc.val = 0 → usable → { t with cascade := s.cascade, cores := s.cores } = now ∧ (Nat.testBit off 10 = false →
        let m := (s.core die core).seam down
        let n := (f.payload.length + 63) / 64
        (t.core die core).seam down = (if Nat.testBit off 9 then { m with
            part := [], rowsIn := (m.rowsIn + 1) % 65536, buffer := m.buffer ++ [m.part ++ f.payload], credits := m.credits - n }
          else { m with part := m.part ++ f.payload, credits := m.credits - n }) ∧
        (Nat.testBit off 9 = false → linked t) ∧ (t.core die core).seam (!down) = (s.core die core).seam (!down) ∧
        { t.core die core with seamUp := (s.core die core).seamUp, seamDown := (s.core die core).seamDown } = s.core die core ∧
        ∀ d c, coreKey d c ≠ coreKey die core → t.core d c = s.core d c)) ∧
      (f.vc.val = 0 → usable → Nat.testBit off 10 = true → ((s.core die core).seam down).out = [] →
        let m := (s.core die core).seam down
        (t.core die core).seam down = { m with grant := min 512 (m.grant + leAt f.payload 0 2), flying := m.flying - leAt f.payload 2 2 } ∧
        (t.core die core).seam (!down) = (s.core die core).seam (!down) ∧ linked t ∧
        ∀ d c, coreKey d c ≠ coreKey die core → t.core d c = s.core d c) ∧
      (f.vc.val = 2 ∨ f.vc.val = 1 ∧ 28 ≤ die → { t with cascade := s.cascade } = now) ∧
      (f.vc.val = 0 → ¬ usable → linked t ∧ { t with cascade := s.cascade } = now) ∧
      (f.vc.val = 1 → 24 ≤ die → die < 28 → { t with cascade := s.cascade, memory := s.memory } = now ∧
        t.memory = (now.gddrWrite ((die - 24) * (24 * 2 ^ 30) + off % (24 * 2 ^ 30)) f.payload).memory) ∧
      (f.vc.val = 1 → die < 24 → { t with cascade := s.cascade } = { now.writeSpace 5 (die * 2 ^ 27 + off % 2 ^ 27) f.payload with cascade := s.cascade }) ∧
      (∀ ss : Session, f.vc.val = 3 → s.session (leAt f.payload 0 2) = ss → ss.bound = true →
        let i := leAt f.payload 0 2
        let flag := Nat.testBit (leAt f.payload 4 1) 0
        let a := (f.srcRank.val * 32 + leAt f.payload 2 1, leAt f.payload 3 1)
        OnlySession now t i ∧ (Nat.testBit (leAt f.payload 5 1) 0 = false →
          { t with cascade := s.cascade, sessions := s.sessions } = now ∧ t.session i = { ss with
            cinch := if a ∈ ss.cinch then ss.cinch else ss.cinch ++ [a], cinchAt := some (ss.cinchAt.getD now.time)
            cinchUnready := ss.cinchUnready || !flag }) ∧
        (Nat.testBit (leAt f.payload 5 1) 0 = true →
          let keys := (s.planCores ss.plan).map (fun y => coreKey y.1 y.2)
          { t with cascade := s.cascade, sessions := s.sessions, cores := s.cores } = now ∧
          t.session i = { ss with cinch := [], cinchAt := none, cinchUnready := false } ∧
          (∀ d c, coreKey d c ∈ keys → let n := t.core d c
            n.atCinch = false ∧ n.phase = 0 ∧ n.pour.step = 0 ∧ n.queue = (s.core d c).queue ∧ n.scratch = (s.core d c).scratch) ∧
          (∀ d c, coreKey d c ∉ keys → t.core d c = s.core d c)))) ∧
    (∀ (r : Nat) (set : Bool), o.up = true → idle → inOrder → f.dstRank.val ≠ s.rank → now.relayHop f = some (r, set) → r ≠ q.val →
      let w := s.cascadePort r
      let k := (if set then 4 else 0) + f.vc.val
      Gives (.cascadeData dt q f) s fun t => accepted t ∧ heard t.cascade ∧ { t with cascade := s.cascade } = now ∧
        (Tab.get 64 w.credits k = 0 ∨ 2048 ≤ w.replayBuf.length →
          t.cascadePort r = { w with waiting := w.waiting ++ [(1, { f with vcSet := set, fec := 0 })] }) ∧
        (0 < Tab.get 64 w.credits k → w.replayBuf.length < 2048 → w.waiting = [] → ∃ g : Flit,
          { g with seq := f.seq, ack := f.ack, vcSet := f.vcSet, fec := f.fec } = f ∧ g.fec = 0 ∧ g.seq.val = w.txSeq % 4096 ∧
          g.ack.val = w.rxSeq % 4096 ∧ g.vcSet = set ∧ Tab.get 64 (t.cascadePort r).credits k = Tab.get 64 w.credits k - 1 ∧
          { t.cascadePort r with credits := w.credits } = { w with
            txSeq := (w.txSeq + 1) % 4096, replayBuf := w.replayBuf ++ [(1, 0, g)], outQ := w.outQ ++ [(1, g)] })) ∧
    (o.up = true → idle → inOrder → leAt f.payload 0 1 = 0 → kept.length < 2048 →
      0 < (if key = 3 then min 64 (Tab.get 64 o.credits 3 + f.credit.val) else Tab.get 64 o.credits 3) → Gives (.cascadeTime dt q f) s fun t =>
        let stamp := natLE 8 now.time ++ [0]
        { t with cascade := s.cascade } = now ∧ heard t.cascade ∧ (∀ r, r ≠ q.val → t.cascadePort r = s.cascadePort r) ∧ ∃ i g : Flit, returned i ∧ g.vc.val = 3 ∧ g.dstRank = f.srcRank ∧
          g.payload = [1] ++ slice f.payload 1 9 ++ stamp ++ stamp ∧ g.seq.val = o.txSeq % 4096 ∧
          { t.cascadePort q.val with credits := o.credits } = { o with
            rxSeq := f.seq.val, txSeq := (o.txSeq + 1) % 4096, replayBuf := kept ++ [(3, 0, g)], outQ := o.outQ ++ [(0, i), (3, g)] }) ∧
    (∀ t1 : Nat, o.up = true → idle → inOrder → leAt f.payload 0 1 ≠ 0 → s.cascade.requestT1 = some t1 →
      leAt f.payload 1 8 * 256 + leAt f.payload 9 1 = t1 →
      let t2 := leAt f.payload 10 8 * 256 + leAt f.payload 18 1
      let t3 := leAt f.payload 19 8 * 256 + leAt f.payload 27 1
      let theta : Int := (((t2 : Int) - t1) + ((t3 : Int) - (now.time * 256 : Nat))).fdiv 2
      let c := s.cascade
      let rest (u : Cascade) (a : Cascade) := { u with ports := c.ports, heardMaster := c.heardMaster } = { a with requestT1 := none, lastReply := now.time }
      Gives (.cascadeTime dt q f) s fun t => accepted t ∧ heard t.cascade ∧
        (c.stepped = false → rest t.cascade { c with stepped := true, slew := theta.fmod 256 } ∧ t.time = ((now.time : Int) + theta.fdiv 256).toNat ∧
          { t with cascade := c, time := now.time, log := s.log, dies := s.dies } = now ∧
          ∃ e, t.log.pending = s.log.pending ++ [e] ∧ e.code = 0x0010 ∧ e.severity = 1 ∧ e.info = BitVec.ofInt 64 theta) ∧
        (c.stepped = true → theta.natAbs ≤ 2560 → { t with cascade := c } = now ∧ rest t.cascade { c with
          slew := theta, goodExchanges := c.goodExchanges + 1, timeLocked := c.timeLocked || decide (16 ≤ c.goodExchanges + 1) }) ∧
        (c.stepped = true → 2560 < theta.natAbs → theta.natAbs ≤ 5120 ∨ c.timeLocked = false → { t with cascade := c } = now ∧
          rest t.cascade { c with slew := theta, goodExchanges := 0 }) ∧
        (c.stepped = true → 5120 < theta.natAbs → c.timeLocked = true → HubLogged now t 2 0x0011 0 0 ∧
          rest t.cascade { c with slew := theta, goodExchanges := 0, timeLocked := false, timeUnlocked := Flag.raise now.wall } ∧
          { t with cascade := c, log := s.log, dies := s.dies } = now)) ∧
    (s.isMember = true → s.cascade.timeLocked = true →
      (now.time < s.cascade.lastReply + 1000000 → exec (.timeUnlocked dt) s = .next now) ∧
      (s.cascade.lastReply + 1000000 ≤ now.time → Gives (.timeUnlocked dt) s fun t => HubLogged now t 2 0x0011 0 0 ∧
        t.cascade = { s.cascade with timeLocked := false, timeUnlocked := Flag.raise now.wall, goodExchanges := 0 } ∧
        { t with cascade := s.cascade, log := s.log, dies := s.dies } = now)) ∧
    (∀ (r : Nat) (set : Bool), s.isMember = true → s.nextHop s.cascade.masterRank = some (r, set) →
      let w := s.cascadePort r
      let due := ∀ t1, s.cascade.requestT1 = some t1 → t1 + 16000 * 256 ≤ now.time * 256
      (¬ due → exec (.timeRequest dt) s = .next now) ∧
      (due → 0 < Tab.get 64 w.credits 3 → w.replayBuf.length < 2048 → w.waiting = [] → Gives (.timeRequest dt) s fun t =>
        let since := max s.cascade.lastReply (s.cascade.requestT1.getD 0 / 256)
        let room : Int := ((now.time - since) * 256 * 300 / 1000000 : Nat)
        let ns := (max (-room) (min room s.cascade.slew)).tdiv 256
        t.time = ((now.time : Int) + ns).toNat ∧ { t with cascade := s.cascade, time := now.time } = now ∧
        { t.cascade with ports := s.cascade.ports } = { s.cascade with requestT1 := some (t.time * 256), slew := s.cascade.slew - 256 * ns } ∧
        (∀ r', r' ≠ r → t.cascadePort r' = s.cascadePort r') ∧
        ∃ g : Flit, g.vc.val = 3 ∧ g.srcRank.val = s.rank ∧ g.payload = [0] ++ natLE 8 t.time ++ [0] ∧ g.seq.val = w.txSeq % 4096 ∧
          (t.cascadePort r).outQ = w.outQ ++ [(3, g)] ∧ (t.cascadePort r).replayBuf = w.replayBuf ++ [(3, 0, g)] ∧
          (t.cascadePort r).txSeq = (w.txSeq + 1) % 4096))

/-- R323, R324, R378 to R381, R385, R386: the cascade. A trained port enters service from fresh numbers, its peer joins the members, and once rank
0 is known a cascade is formed, whose master claims each member that joins; a peer of the same rank is a conflict, a link against its wiring rule is marked. A lost link is logged and faults
the sessions whose cuts reach beyond it or whose routes cross it; retraining follows at its intervals. A member 10 ms without its master starts an election, which after
20 ms the lowest rank that reaches every survivor wins. Over the cascade the master writes and reads bank 3, and the member answers and sends its
notices as CTRL flits. Deepen routes are added, unless they close a loop, and removed. -/
def Obligations.CascadesFormAndServeTheirMaster : Prop :=
  ∀ (s : State) (dt : Nat), s.linkAlive = true →
    let now := s.elapse dt
    let c := s.cascade
    let fresh (p : CascadePort) (rank peer : Nat) : CascadePort := { p with
      up := true, peerRank := rank, peerPort := peer, rxSeq := 4095, txSeq := 0, replayBuf := [], outQ := [], waiting := [], credits := []
      replayTimes := [], attempts := 0 }
    let ports (t : State) (q : Nat) (p : CascadePort) := t.cascadePort q = p ∧ (∀ r, r ≠ q → t.cascadePort r = s.cascadePort r) ∧
      { t with cascade := { t.cascade with ports := c.ports } } = now
    let ctrl (t : State) (r : Nat) (set : Bool) (payload : Bytes) := ∃ g : Flit, g.vc.val = 2 ∧ g.vcSet = set ∧ g.srcRank.val = s.rank ∧
      g.payload = payload ∧ g.seq.val = (s.cascadePort r).txSeq % 4096 ∧ (t.cascadePort r).outQ = (s.cascadePort r).outQ ++ [(2, g)] ∧
      (t.cascadePort r).replayBuf = (s.cascadePort r).replayBuf ++ [(2, 0, g)] ∧ ∀ r', r' ≠ r → t.cascadePort r' = s.cascadePort r'
    let sends (r : Nat) (set : Bool) := s.nextHop c.masterRank = some (r, set) ∧ (s.cascadePort r).replayBuf.length < 2048 ∧ (s.cascadePort r).waiting = [] ∧
      0 < Tab.get 64 (s.cascadePort r).credits ((if set then 4 else 0) + 2)
    (∀ (q : Fin 4) (rank : Fin 8) (peer : Fin 4), rank.val = s.rank → Gives (.cascadePortTrained dt q rank peer) s fun t =>
      ports t q.val { s.cascadePort q.val with rankConflict := true, up := false, peerRank := rank.val, peerPort := peer.val }) ∧
    (∀ (q : Fin 4) (rank : Fin 8) (peer : Fin 4), rank.val ≠ s.rank → Gives (.cascadePortTrained dt q rank peer) s fun t =>
      let a := s.rank
      let b := rank.val
      let members := (List.range 8).filter (fun r => t.cascade.members.getLsbD r)
      let cube := 5 < members.length
      let wired (cube : Prop) := (cube → q.val < 3 ∧ b = a ^^^ 2 ^ q.val ∧ peer = q) ∧ (¬ cube → q.val + 1 = (b + 5 - a) % 5 ∧ peer.val + 1 = (a + 5 - b) % 5)
      let first := t.cascade.members.getLsbD 0 = true ∧ c.formed = false
      t.cascade.members = c.members ||| BitVec.ofNat 8 (2 ^ a) ||| BitVec.ofNat 8 (2 ^ b) ∧ (t.cascade.cube = true ↔ cube) ∧
      (t.cascade.formed = true ↔ c.formed = true ∨ first) ∧ t.cascade.heardMaster = now.time ∧
      let claims := c.members.getLsbD b = false ∧ t.cascade.formed = true ∧ t.cascade.masterRank = a
      let n := Tab.get 0 c.sealed b
      (first → t.cascade.masterRank = 0 ∧ HubLogged now t 1 0x0013 0 0) ∧ (¬ first → t.cascade.masterRank = c.masterRank ∧ t.log = s.log) ∧
      ((t.cascadePort q.val).miswired = true ↔ ¬ wired cube) ∧
      (¬ claims → { t.cascadePort q.val with miswired := (s.cascadePort q.val).miswired } =
          { fresh (s.cascadePort q.val) rank.val peer.val with rankConflict := false } ∧
        (∀ r, r ≠ q.val → { t.cascadePort r with miswired := (s.cascadePort r).miswired } = s.cascadePort r) ∧
        { t with cascade := c, log := s.log, dies := s.dies } = now) ∧
      (claims → { t with cascade := c, log := s.log, dies := s.dies, freeTick := s.freeTick } = now ∧
        Tab.get 0 t.cascade.sealed b = (n + 1) % 65536 ∧ (∀ k, k ≠ b → Tab.get 0 t.cascade.sealed k = Tab.get 0 c.sealed k) ∧
        (∀ set, t.nextHop b = some (q.val, set) → ∃ (g1 g2 g3 : Flit) (nonce : Nat), (t.cascadePort q.val).outQ = [(2, g1), (2, g2), (2, g3)] ∧
          (∀ g ∈ [g1, g2, g3], g.vc.val = 2 ∧ g.vcSet = set ∧ g.srcRank.val = a ∧ g.dstRank.val = b) ∧
          g1.payload = natLE 1 1 ++ natLE 1 8 ++ natLE 3 (n % 64 * 4096 + 0x40) ++ zeros 3 ++ [0xC0, 0, 0, 0] ++ natLE 4 nonce ∧
          g2.payload = natLE 1 1 ++ natLE 1 4 ++ natLE 3 (n % 64 * 4096 + 8) ++ zeros 3 ++ natLE 4 8 ∧
          g3.payload = natLE 1 1 ++ natLE 1 4 ++ natLE 3 (n % 64 * 4096) ++ zeros 3 ++ natLE 2 n ++ natLE 2 3))) ∧
    (∀ q : Fin 4, (s.cascadePort q.val).up = true →
      let lost := { s.cascadePort q.val with
        up := false, lost := Flag.raise now.wall, replayBuf := [], outQ := [], waiting := [], credits := [], attempts := 0, lostAt := now.time }
      (s.ranksBeyond q.val = [] → Gives (.linkLost dt q) s fun t => t.cascadePort q.val = lost ∧ (∀ r, r ≠ q.val → t.cascadePort r = s.cascadePort r) ∧
        HubLogged now t 3 0x0012 (BitVec.ofNat 32 (q.val * 65536)) 0 ∧
        { t with cascade := { t.cascade with ports := c.ports }, log := s.log, dies := s.dies } = now) ∧
      Gives (.linkLost dt q) s fun t => t.cascadePort q.val = lost ∧
        (∀ i, (s.session i).bound = true → (s.session i).recut = none → (s.session i).parked = [] → (∃ x ∈ (s.session i).plan.cores, x.1 ∈ s.ranksBeyond q.val) →
          (t.session i).st = .faulted ∧ ∀ x ∈ (t.session i).plan.cores, x.1 ∉ s.ranksBeyond q.val) ∧
        (∀ i, (s.session i).bound = true → (s.session i).recut = none → (s.session i).parked = [] →
          (∃ x ∈ c.routes, x.2.used = true ∧ ((x.2.srcRank = s.rank ∧ x.2.srcSession = i ∧ x.2.sinkRank ∈ s.ranksBeyond q.val) ∨
            (x.2.sinkRank = s.rank ∧ x.2.sinkSession = i ∧ x.2.srcRank ∈ s.ranksBeyond q.val))) → (t.session i).st = .faulted)) ∧
    (∀ q : Fin 4, (s.cascadePort q.val).up = false →
      let p := s.cascadePort q.val
      let due := p.lostAt + (if p.attempts < 10 then 1000000000 else 10000000000) ≤ now.time
      (¬ due → ∀ ok, exec (.linkRetrain dt q ok) s = .next now) ∧
      (due → (Gives (.linkRetrain dt q true) s fun t => ports t q.val (fresh p p.peerRank p.peerPort)) ∧
        Gives (.linkRetrain dt q false) s fun t => ports t q.val { p with attempts := p.attempts + 1, lostAt := now.time })) ∧
    (c.formed = true → c.masterRank ≠ s.rank → c.masterLost = false →
      (now.time < c.heardMaster + 10000000 → exec (.masterLost dt) s = .next now) ∧
      (c.heardMaster + 10000000 ≤ now.time → exec (.masterLost dt) s = .next { now with cascade := { c with masterLost := true, electing := some now.time } })) ∧
    (∀ (from_ m : Nat) (reach : List (Fin 8 × List (Fin 8))), c.electing = some from_ →
      let reaches (a b : Nat) := b = a ∨ ∃ x ∈ reach, x.1.val = a ∧ ∃ y ∈ x.2, y.val = b
      let survives (r : Nat) := reaches s.rank r
      (now.time < from_ + 20000000 → exec (.masterElection dt reach) s = .next now) ∧
      (from_ + 20000000 ≤ now.time → survives m → (∀ r, survives r → reaches m r) →
        (∀ m', m' < m → survives m' → ∃ r, survives r ∧ ¬ reaches m' r) → Gives (.masterElection dt reach) s fun t =>
          { t.cascade with members := c.members, ports := c.ports, sealed := c.sealed } =
            { c with masterRank := m, masterLost := false, electing := none, heardMaster := now.time } ∧
          (∀ r, r < 8 → (t.cascade.members.getLsbD r = true ↔ survives r)) ∧ HubLogged now t 1 0x0013 0 m ∧
          { t with cascade := c, log := s.log, dies := s.dies, freeTick := s.freeTick } = now ∧
          (m ≠ s.rank ∨ c.formed = false → t.cascade.ports = c.ports ∧ t.cascade.sealed = c.sealed ∧ t.freeTick = s.freeTick) ∧
          (m = s.rank → c.formed = true → ∀ r, r < 8 → r ≠ s.rank → survives r →
            Tab.get 0 t.cascade.sealed r = (Tab.get 0 c.sealed r + 1) % 65536))) ∧
    (c.formed = true → c.masterRank ≠ s.rank →
      let heard := { now with cascade := { c with heardMaster := now.time } }
      (∀ (k : Slot) (o : Nat) (d : Bytes), 1 ≤ d.length → d.length ≤ 224 → k.val * 4096 + 0x40 ≤ o → o + d.length ≤ k.val * 4096 + 4096 →
        let m := s.slot 3 k.val
        (m.st = 0 → Gives (.cascadeMbxWrite dt o d) s fun t =>
          t.slot 3 k.val = { m with payload := Mem.writeBytes m.payload (o - k.val * 4096 - 0x40) d } ∧
          (∀ (q : Port) (j : Slot), ¬ (q.val = 3 ∧ j = k) → t.slot q.val j.val = s.slot q.val j.val) ∧ { t with mbx := s.mbx } = heard) ∧
        (m.st = 1 ∨ m.st = 2 → exec (.cascadeMbxWrite dt o d) s = .next { heard with ports := Tab.set {} s.ports 3 { s.port 3 with
          writeDropped := Flag.raise now.wall, writeDroppedN := ((s.port 3).writeDroppedN + 1) % 256 } })) ∧
      (∀ off len, len ≤ 224 → off < 0x40000 → exec (.cascadeMbxRead dt off len) s =
        .next { heard with cascade := { c with heardMaster := now.time, readAsked := some (off, len) } }) ∧
      (∀ (off n r : Nat) (set : Bool), c.readAsked = some (off, n) → sends r set → Gives (.mbxData dt) s fun t =>
        t.bus = { data := s.readBank 3 off n } ∧ t.bus.data.length = n ∧
        ctrl t r set (natLE 1 3 ++ natLE 1 n ++ natLE 3 off ++ zeros 3 ++ t.bus.data) ∧
        { t with cascade := { t.cascade with ports := c.ports }, bus := s.bus, freeTick := s.freeTick } = { now with cascade := { c with readAsked := none } } ∧
        (∀ k : Slot, k.val * 4096 + 0x40 ≤ off → off + n ≤ k.val * 4096 + 4096 → (s.slot 3 k.val).st ≠ 2 →
          t.bus.data = Mem.readBytes (s.slot 3 k.val).payload (off - k.val * 4096 - 0x40) n)) ∧
      (∀ (code index r : Nat) (set : Bool) (rest : List (Nat × Nat)), c.notices = (code, index) :: rest → sends r set → Gives (.notice dt) s fun t =>
        ctrl t r set (natLE 1 4 ++ natLE 1 2 ++ zeros 6 ++ natLE 1 code ++ natLE 1 index) ∧
        { t with cascade := { t.cascade with ports := c.ports } } = { now with cascade := { c with notices := rest } })) ∧
    (∀ (p : Port) (k : Slot) (req : Bytes), c.formed = true → c.masterRank = s.rank → s.owner.owned = true → now.time ≤ s.owner.deadline →
      s.owner.port = p.val → (s.owner.successor = none ∨ s.owner.handoverBy < now.time) → s.boot.stage = 4 →
      let routesOnly (t : State) := t.withMailbox s = now ∧ { t.cascade with routes := c.routes } = c
      (∀ (sr ss kr ks what i : Nat), s.Presents p k 0x40 req → req = natLE 1 sr ++ [0] ++ natLE 2 ss ++ natLE 1 kr ++ [0] ++ natLE 2 ks ++ natLE 1 what ++ zeros 3 →
        sr < 8 → kr < 8 → kr ≠ sr → ss < 256 → ks < 256 → what < 2 → s.memberRank sr = true → s.memberRank kr = true → s.reaches sr = true →
        s.reaches kr = true →
        (s.routeLoops (sr, ss) (kr, ks) = true → Gives (.routeAdd dt p k) s fun t => Answered s t p k { status := 3, detail := 6 } ∧ routesOnly t ∧
          t.cascade.routes = c.routes) ∧
        (s.routeLoops (sr, ss) (kr, ks) = false → (s.route i).used = false → (∀ j, j < i → (s.route j).used = true) → i ≤ c.routes.length →
          Gives (.routeAdd dt p k) s fun t => Answered s t p k { resp := natLE 2 i } ∧ routesOnly t ∧
            t.route i = { used := true, srcRank := sr, srcSession := ss, sinkRank := kr, sinkSession := ks, what := what } ∧
            ∀ j, j ≠ i → t.route j = s.route j)) ∧
      (∀ i, s.Presents p k 0x41 req → req = natLE 2 i ++ zeros 2 → i < 65536 →
        ((s.route i).used = true → Gives (.routeRemove dt p k) s fun t => Answered s t p k {} ∧ routesOnly t ∧ t.route i = {} ∧
          ∀ j, j ≠ i → t.route j = s.route j) ∧
        ((s.route i).used = false → Gives (.routeRemove dt p k) s fun t => Answered s t p k { status := 3 } ∧ routesOnly t ∧
          t.cascade.routes = c.routes)))

/-! ## Fences -/

/-- R30: "A fenced die stays fenced until the next module reset. A module reset clears every fence. A die that faults again after the reset
is fenced again." Whatever step the module takes short of stopping or booting, a fenced die keeps its fence and its cause. MODULE_RESET of a powered module, and
the boot after it when no die's own rail is off, leave no die fenced; a fault then fences the die. -/
def Obligations.FencedDiesStayFenced : Prop :=
  (∀ (s t : State), step s = .next t → t.power.running = true → t.boot.boots = s.boot.boots →
    ∀ d, (s.die d).fenced ≠ 0 → (t.die d).fenced = (s.die d).fenced) ∧
  (∀ (s : State) (dt : Nat), s.board.aux = true →
    (s.power.running = true ∨ s.power.railsOn = true → Gives (.moduleReset dt) s fun t => ∀ d, (t.die d).fenced = 0) ∧
    (∀ straps, s.board.modResetN = false → s.power.pwrGood = true → s.clocks.refclkOk = true → s.power.dieRailOff = [] →
      Gives (.boot dt straps) s fun t => t.power.running = true ∧ ∀ d, (t.die d).fenced = 0)) ∧
  (∀ (s : State) (dt : Nat) (d : DieIx) (core : Option CoreIx), s.power.running = true → d.val ≠ 30 → (s.die d.val).fenced = 0 →
    (Gives (.sramUncorrectableEcc dt d core) s fun t => (t.die d.val).fenced ≠ 0) ∧
    (Gives (.dieWatchdogExpiry dt d) s fun t => (t.die d.val).fenced ≠ 0))
end

