-- ==== Sys2Proof/Laws/Bytes.lean ====
section
/-! SUPPORT. Fields of byte strings that are put together from parts, and the length of a SHAKE256 output. -/

namespace Sys2Proof.Machine

/-! ## Slices -/

@[simp] theorem slice_length (bs : Bytes) (o n : Nat) : (slice bs o n).length = n := by
  simp [slice, zeros] <;> omega

theorem slice_append_left (a b : Bytes) (o n : Nat) (h : o + n ≤ a.length) : slice (a ++ b) o n = slice a o n := by
  have h1 : ((a ++ b).drop o).take n = (a.drop o).take n := by
    rw [List.drop_append_of_le_length (by omega), List.take_append_of_le_length (by simp; omega)]
  simp [slice, h1]

theorem slice_append_right (a b : Bytes) (o n : Nat) (h : a.length ≤ o) : slice (a ++ b) o n = slice b (o - a.length) n := by
  have h1 : (a ++ b).drop o = b.drop (o - a.length) := by
    rw [List.drop_append, List.drop_eq_nil_of_le h, List.nil_append]
  simp [slice, h1]

/-- A field that is the whole byte string. -/
theorem slice_all (a : Bytes) : slice a 0 a.length = a := by simp [slice, zeros]

theorem leAt_append_left (a b : Bytes) (o n : Nat) (h : o + n ≤ a.length) : leAt (a ++ b) o n = leAt a o n := by
  simp [leAt, slice_append_left a b o n h]

theorem leAt_append_right (a b : Bytes) (o n : Nat) (h : a.length ≤ o) : leAt (a ++ b) o n = leAt b (o - a.length) n := by
  simp [leAt, slice_append_right a b o n h]

theorem zeroAt_append_left (a b : Bytes) (o n : Nat) (h : o + n ≤ a.length) : zeroAt (a ++ b) o n = zeroAt a o n := by
  simp [zeroAt, slice_append_left a b o n h]

theorem zeroAt_append_right (a b : Bytes) (o n : Nat) (h : a.length ≤ o) : zeroAt (a ++ b) o n = zeroAt b (o - a.length) n := by
  simp [zeroAt, slice_append_right a b o n h]

@[simp] theorem natLE_length (n x : Nat) : (natLE n x).length = n := by
  induction n generalizing x with
  | zero => rfl
  | succ n ih => simp [natLE, ih]

/-! ## SHAKE256 -/

namespace Keccak

/-- Five planes of five lanes. -/
def Shaped (s : Planes) : Prop := s.map List.length = [5, 5, 5, 5, 5]

theorem turn_length (n : Nat) (p : List W64) (h : n ≤ p.length) : (turn n p).length = p.length := by
  simp [turn]
  omega

theorem chiPlane_length (p : List W64) (h : p.length = 5) : (chiPlane p).length = 5 := by
  simp [chiPlane, mix, turn_length, h]

theorem spread_shaped (s : Planes) : Shaped ((spread s).map chiPlane) := by
  simp [Shaped, spread, origin, chiPlane_length]

theorem addConstant_shaped (k : W64) (s : Planes) (h : Shaped s) : Shaped (addConstant k s) := by
  unfold addConstant
  split <;> simpa [Shaped] using h

theorem rounds_shaped (codes : List Nat) (s : Planes) (h : Shaped s) :
    Shaped (codes.foldl (fun s code => addConstant (roundConstant code) ((spread (columnMix s)).map chiPlane)) s) := by
  induction codes generalizing s with
  | nil => exact h
  | cons c codes ih => exact ih _ (addConstant_shaped _ _ (spread_shaped _))

theorem keccakF_shaped (s : Planes) : Shaped (keccakF s) := by
  have h : roundCodes = 1 :: roundCodes.tail := rfl
  rw [keccakF, h, List.foldl_cons]
  exact rounds_shaped _ _ (addConstant_shaped _ _ (spread_shaped _))

theorem takeIn_shaped (n : Nat) (m : Bytes) (s : Planes) : Shaped (takeIn (n + 1) m s) := by
  induction n generalizing m s with
  | zero => rw [takeIn, takeIn]; exact keccakF_shaped _
  | succ n ih => rw [takeIn]; exact ih _ _

theorem giveOut_length (n : Nat) (s : Planes) (h : Shaped s) : (giveOut n s).length = n * rate := by
  induction n generalizing s with
  | zero => simp [giveOut]
  | succ n ih =>
    have hl : s.flatten.length = 25 := by rw [List.length_flatten, show s.map List.length = _ from h]; rfl
    have hb : (s.flatten.flatMap (fun l => natLE 8 l.toNat)).length = 200 := by
      simp only [List.length_flatMap, natLE_length]
      rw [List.map_const', List.sum_replicate_nat, hl]
    simp [giveOut, ih _ (keccakF_shaped s), hb, rate, Nat.succ_mul, Nat.add_comm]

end Keccak

@[simp] theorem shake256_length (m : Bytes) (n : Nat) : (shake256 m n).length = n := by
  have h : n ≤ (n / Keccak.rate + 1) * Keccak.rate := by
    have := Nat.div_add_mod n Keccak.rate
    have := Nat.mod_lt n (show 0 < Keccak.rate by decide)
    rw [Nat.succ_mul, Nat.mul_comm]
    omega
  simp only [shake256, List.length_take, Keccak.giveOut_length _ _ (Keccak.takeIn_shaped _ _ _)]
  omega

end Sys2Proof.Machine
end

