-- ==== Sys2Proof/Laws/Tab.lean ====
section
/-! SUPPORT. The laws of the sparse tables and memories: reading after writing, and the canonical form that every operation
keeps. -/

namespace Sys2Proof.Machine

/-! ## Tables -/

theorem Tab.get_append_of_not_mem {α : Type} (d : α) (t u : Tab α) (a : Nat) (h : ∀ p ∈ t, p.1 ≠ a) :
    Tab.get d (t ++ u) a = Tab.get d u a := by
  induction t with
  | nil => rfl
  | cons p t ih =>
    obtain ⟨k, v⟩ := p
    have hk : k ≠ a := h (k, v) (by simp)
    simp only [List.cons_append, Tab.get, hk, if_false]
    exact ih (fun p hp => h p (by simp [hp]))

/-- A filter that keeps the key does not change what the table holds there. -/
theorem Tab.get_filter_of_keep {α : Type} (d : α) (t : Tab α) (a : Nat) (f : Nat → Bool) (h : f a = true) :
    Tab.get d (t.filter (fun p => f p.1)) a = Tab.get d t a := by
  induction t with
  | nil => rfl
  | cons p t ih =>
    obtain ⟨k, v⟩ := p
    by_cases hf : f k = true
    · simp only [List.filter_cons, hf, if_true, Tab.get]
      by_cases hk : k = a <;> simp [hk, ih]
    · have hk : k ≠ a := fun e => hf (e ▸ h)
      simp only [List.filter_cons, hf, Tab.get, hk, if_false]
      exact ih

/-- A filter that drops the key leaves the default there. -/
theorem Tab.get_filter_of_drop {α : Type} (d : α) (t : Tab α) (a : Nat) (f : Nat → Bool) (h : f a = false) :
    Tab.get d (t.filter (fun p => f p.1)) a = d := by
  induction t with
  | nil => rfl
  | cons p t ih =>
    obtain ⟨k, v⟩ := p
    by_cases hf : f k = true
    · have hk : k ≠ a := fun e => by rw [e, h] at hf; cases hf
      simp only [List.filter_cons, hf, if_true, Tab.get, hk, if_false]
      exact ih
    · simpa [List.filter_cons, hf] using ih

theorem Tab.get_append_of_keys {α : Type} (d : α) (t u : Tab α) (a : Nat) (h : ∀ p ∈ u, p.1 ≠ a) :
    Tab.get d (t ++ u) a = Tab.get d t a := by
  induction t with
  | nil =>
    induction u with
    | nil => rfl
    | cons p u ih =>
      obtain ⟨k, v⟩ := p
      have hk : k ≠ a := h (k, v) (by simp)
      simp only [List.nil_append, Tab.get, hk, if_false] at ih ⊢
      exact ih (fun p hp => h p (by simp [hp]))
  | cons p t ih =>
    obtain ⟨k, v⟩ := p
    simp only [List.cons_append, Tab.get]
    by_cases hk : k = a <;> simp [hk, ih]

/-- A table holds at a key what was last set there. -/
@[simp] theorem Tab.get_set_same {α : Type} [DecidableEq α] (d : α) (t : Tab α) (k : Nat) (v : α) :
    Tab.get d (Tab.set d t k v) k = v := by
  unfold Tab.set
  rw [List.append_assoc, Tab.get_append_of_not_mem]
  · by_cases hv : v = d
    · simp only [hv, if_true, List.nil_append]
      exact Tab.get_filter_of_drop d t k (fun x => decide (k < x)) (by simp)
    · simp [hv, Tab.get]
  · intro p hp
    have := (List.mem_filter.mp hp).2
    simp at this
    omega

/-- Setting one key leaves every other. -/
theorem Tab.get_set_other {α : Type} [DecidableEq α] (d : α) (t : Tab α) (k a : Nat) (v : α) (h : a ≠ k) :
    Tab.get d (Tab.set d t k v) a = Tab.get d t a := by
  unfold Tab.set
  by_cases hlt : a < k
  · rw [List.append_assoc, Tab.get_append_of_keys]
    · exact Tab.get_filter_of_keep d t a (fun x => decide (x < k)) (by simpa using hlt)
    · intro p hp
      rcases List.mem_append.mp hp with hp | hp
      · by_cases hv : v = d
        · simp [hv] at hp
        · simp [hv] at hp
          subst hp
          exact fun e => h e.symm
      · have := (List.mem_filter.mp hp).2
        simp at this
        omega
  · rw [Tab.get_append_of_not_mem]
    · exact Tab.get_filter_of_keep d t a (fun x => decide (k < x)) (by simp; omega)
    · intro p hp
      rcases List.mem_append.mp hp with hp | hp
      · have := (List.mem_filter.mp hp).2
        simp at this
        omega
      · by_cases hv : v = d
        · simp [hv] at hp
        · simp [hv] at hp
          subst hp
          exact fun e => h e.symm

@[simp] theorem Tab.get_upd_same {α : Type} [DecidableEq α] (d : α) (t : Tab α) (k : Nat) (f : α → α) :
    Tab.get d (Tab.upd d t k f) k = f (Tab.get d t k) := Tab.get_set_same d t k _

theorem Tab.get_upd_other {α : Type} [DecidableEq α] (d : α) (t : Tab α) (k a : Nat) (f : α → α) (h : a ≠ k) :
    Tab.get d (Tab.upd d t k f) a = Tab.get d t a := Tab.get_set_other d t k a _ h

/-! ## The canonical form -/

/-- Keys strictly rise, every one at least `lo` and below `hi`, and no element is the default. -/
def Tab.Between {α : Type} (d : α) (lo hi : Nat) (t : Tab α) : Prop :=
  t.Pairwise (fun p q => p.1 < q.1) ∧ ∀ p ∈ t, lo ≤ p.1 ∧ p.1 < hi ∧ p.2 ≠ d

theorem Tab.wfFrom_iff {α : Type} [DecidableEq α] (d : α) (lo : Nat) (t : Tab α) :
    Tab.wfFrom d lo t = true ↔ t.Pairwise (fun p q => p.1 < q.1) ∧ ∀ p ∈ t, lo ≤ p.1 ∧ p.2 ≠ d := by
  induction t generalizing lo with
  | nil => simp [Tab.wfFrom]
  | cons p t ih =>
    obtain ⟨k, v⟩ := p
    simp only [Tab.wfFrom, Bool.and_eq_true, decide_eq_true_eq, ih, List.pairwise_cons, List.mem_cons, forall_eq_or_imp]
    constructor
    · rintro ⟨⟨h1, h2⟩, hp, hall⟩
      exact ⟨⟨fun q hq => by have := (hall q hq).1; omega, hp⟩, ⟨h1, h2⟩, fun q hq => ⟨by have := (hall q hq).1; omega, (hall q hq).2⟩⟩
    · rintro ⟨⟨hk, hp⟩, ⟨h1, h2⟩, hall⟩
      exact ⟨⟨h1, h2⟩, hp, fun q hq => ⟨by have := hk q hq; omega, (hall q hq).2⟩⟩

theorem Tab.wf_iff {α : Type} [DecidableEq α] (d : α) (t : Tab α) :
    Tab.wf d t = true ↔ t.Pairwise (fun p q => p.1 < q.1) ∧ ∀ p ∈ t, p.2 ≠ d := by
  unfold Tab.wf
  rw [Tab.wfFrom_iff]
  simp

/-- Three pieces in rising order, each canonical, are canonical together. -/
theorem Tab.wf_append3 {α : Type} [DecidableEq α] (d : α) (a b : Nat) (x y z : Tab α)
    (hx : Tab.wf d x = true) (hy : Tab.wf d y = true) (hz : Tab.wf d z = true)
    (bx : ∀ p ∈ x, p.1 < a) (ba : ∀ p ∈ y, a ≤ p.1) (bb : ∀ p ∈ y, p.1 < b) (bz : ∀ p ∈ z, b ≤ p.1) (hab : a ≤ b) :
    Tab.wf d (x ++ y ++ z) = true := by
  rw [Tab.wf_iff] at *
  refine ⟨?_, ?_⟩
  · rw [List.pairwise_append, List.pairwise_append]
    refine ⟨⟨hx.1, hy.1, ?_⟩, hz.1, ?_⟩
    · intro p hp q hq
      have := bx p hp
      have := ba q hq
      omega
    · intro p hp q hq
      have := bz q hq
      rcases List.mem_append.mp hp with hp | hp
      · have := bx p hp
        omega
      · have := bb p hp
        omega
  · intro p hp
    simp only [List.mem_append] at hp
    rcases hp with (hp | hp) | hp
    · exact hx.2 p hp
    · exact hy.2 p hp
    · exact hz.2 p hp

theorem Tab.wf_filter {α : Type} [DecidableEq α] (d : α) (t : Tab α) (f : Nat × α → Bool) (h : Tab.wf d t = true) :
    Tab.wf d (t.filter f) = true := by
  rw [Tab.wf_iff] at *
  exact ⟨h.1.filter f, fun p hp => h.2 p (List.mem_filter.mp hp).1⟩

/-- Setting an element keeps the canonical form. -/
theorem Tab.wf_set {α : Type} [DecidableEq α] (d : α) (t : Tab α) (k : Nat) (v : α) (h : Tab.wf d t = true) :
    Tab.wf d (Tab.set d t k v) = true := by
  apply Tab.wf_append3 d k (k + 1)
  · exact Tab.wf_filter d t _ h
  · by_cases hv : v = d <;> simp [hv, Tab.wf_iff]
  · exact Tab.wf_filter d t _ h
  · intro p hp
    have := (List.mem_filter.mp hp).2
    simpa using this
  · intro p hp
    by_cases hv : v = d
    · simp [hv] at hp
    · simp [hv] at hp
      simp [hp]
  · intro p hp
    by_cases hv : v = d
    · simp [hv] at hp
    · simp [hv] at hp
      simp [hp]
  · intro p hp
    have := (List.mem_filter.mp hp).2
    simp at this
    omega
  · omega

/-- Applying a function to an element keeps the canonical form. -/
theorem Tab.wf_upd {α : Type} [DecidableEq α] (d : α) (t : Tab α) (k : Nat) (f : α → α) (h : Tab.wf d t = true) :
    Tab.wf d (Tab.upd d t k f) = true := Tab.wf_set d t k _ h

/-- Applying a function to every element keeps the canonical form. -/
theorem Tab.wf_mapAll {α : Type} [DecidableEq α] (d : α) (t : Tab α) (f : Nat → α → α) (h : Tab.wf d t = true) :
    Tab.wf d (Tab.mapAll d t f) = true := by
  rw [Tab.wf_iff] at *
  unfold Tab.mapAll
  constructor
  · refine List.Pairwise.filterMap _ ?_ h.1
    intro p q hpq p' hp q' hq
    simp only at hp hq
    split at hp
    · cases hp
    · split at hq
      · cases hq
      · cases hp
        cases hq
        exact hpq
  · intro p hp
    obtain ⟨q, -, hq⟩ := List.mem_filterMap.mp hp
    simp only at hq
    split at hq
    · cases hq
    · cases hq
      assumption

/-! ## Memories -/

theorem Mem.cells_keys (a : Nat) (bs : Bytes) : ∀ p ∈ Mem.cells a bs, a ≤ p.1 ∧ p.1 < a + bs.length ∧ p.2 ≠ 0 := by
  induction bs generalizing a with
  | nil => simp [Mem.cells]
  | cons b bs ih =>
    intro p hp
    unfold Mem.cells at hp
    split at hp
    · have := ih (a + 1) p hp
      simp only [List.length_cons]
      exact ⟨by omega, by omega, this.2.2⟩
    · rcases List.mem_cons.mp hp with rfl | hp
      · simp only [List.length_cons]
        exact ⟨by omega, by omega, by assumption⟩
      · have := ih (a + 1) p hp
        simp only [List.length_cons]
        exact ⟨by omega, by omega, this.2.2⟩

/-- A byte string's cells are canonical. -/
theorem Mem.wf_cells (a : Nat) (bs : Bytes) : Mem.wf (Mem.cells a bs) = true := by
  unfold Mem.wf
  rw [Tab.wf_iff]
  refine ⟨?_, fun p hp => (Mem.cells_keys a bs p hp).2.2⟩
  induction bs generalizing a with
  | nil => simp [Mem.cells]
  | cons b bs ih =>
    unfold Mem.cells
    split
    · exact ih (a + 1)
    · refine List.pairwise_cons.mpr ⟨fun q hq => ?_, ih (a + 1)⟩
      have := (Mem.cells_keys (a + 1) bs q hq).1
      simp only
      omega

/-- Writing bytes keeps the canonical form. -/
theorem Mem.wf_writeBytes (m : Mem) (a : Nat) (bs : Bytes) (h : Mem.wf m = true) : Mem.wf (Mem.writeBytes m a bs) = true := by
  apply Tab.wf_append3 (0 : Byte) a (a + bs.length)
  · exact Tab.wf_filter _ m _ h
  · exact Mem.wf_cells a bs
  · exact Tab.wf_filter _ m _ h
  · intro p hp
    have := (List.mem_filter.mp hp).2
    simpa using this
  · exact fun p hp => (Mem.cells_keys a bs p hp).1
  · exact fun p hp => (Mem.cells_keys a bs p hp).2.1
  · intro p hp
    have := (List.mem_filter.mp hp).2
    simpa using this
  · omega

/-- Writing a number keeps the canonical form. -/
theorem Mem.wf_writeLE (m : Mem) (a n x : Nat) (h : Mem.wf m = true) : Mem.wf (Mem.writeLE m a n x) = true :=
  Mem.wf_writeBytes m a _ h

/-- Clearing a range keeps the canonical form. -/
theorem Mem.wf_clear (m : Mem) (a n : Nat) (h : Mem.wf m = true) : Mem.wf (Mem.clear m a n) = true := by
  have := Tab.wf_append3 (0 : Byte) a (a + n) (m.filter (fun p => p.1 < a)) [] (m.filter (fun p => decide (a + n ≤ p.1)))
    (Tab.wf_filter _ m _ h) (by simp [Tab.wf_iff]) (Tab.wf_filter _ m _ h)
    (by intro p hp; have := (List.mem_filter.mp hp).2; simpa using this) (by simp) (by simp)
    (by intro p hp; have := (List.mem_filter.mp hp).2; simpa using this) (by omega)
  simpa [Mem.clear, Mem.wf] using this

theorem Mem.read_cells (a x : Nat) (bs : Bytes) :
    Mem.read (Mem.cells a bs) x = if a ≤ x then bs.getD (x - a) 0 else 0 := by
  induction bs generalizing a with
  | nil => simp [Mem.cells, Mem.read, Tab.get]
  | cons b bs ih =>
    have ih := ih (a + 1)
    unfold Mem.read at *
    unfold Mem.cells
    by_cases hx : a = x
    · subst hx
      split
      · next hb => rw [ih, if_neg (by omega), if_pos (Nat.le_refl a)]; simp [hb]
      · simp [Tab.get]
    · have tail : Tab.get 0 (Mem.cells (a + 1) bs) x = if a ≤ x then (b :: bs).getD (x - a) 0 else 0 := by
        rw [ih]
        by_cases hle : a ≤ x
        · have e : x - a = (x - (a + 1)) + 1 := by omega
          rw [if_pos (by omega), if_pos hle, e]
          simp
        · rw [if_neg (by omega), if_neg hle]
      split
      · exact tail
      · simp only [Tab.get, hx, if_false]
        exact tail

/-- A byte inside a written range reads as written; every other byte reads as before. -/
theorem Mem.read_writeBytes (m : Mem) (a x : Nat) (bs : Bytes) :
    Mem.read (Mem.writeBytes m a bs) x = if a ≤ x ∧ x < a + bs.length then bs.getD (x - a) 0 else Mem.read m x := by
  unfold Mem.read Mem.writeBytes
  by_cases hlo : a ≤ x
  · rw [List.append_assoc, Tab.get_append_of_not_mem _ _ _ _ (by
      intro p hp
      have := (List.mem_filter.mp hp).2
      simp at this
      omega)]
    by_cases hhi : x < a + bs.length
    · rw [Tab.get_append_of_keys _ _ _ _ (by
        intro p hp
        have := (List.mem_filter.mp hp).2
        simp at this
        omega)]
      rw [if_pos ⟨hlo, hhi⟩, ← if_pos (c := a ≤ x) (t := bs.getD (x - a) 0) (e := 0) hlo]
      exact Mem.read_cells a x bs
    · rw [Tab.get_append_of_not_mem _ _ _ _ (by
        intro p hp
        have := Mem.cells_keys a bs p hp
        omega)]
      rw [Tab.get_filter_of_keep (0 : Byte) m x (fun k => decide (a + bs.length ≤ k)) (by simp; omega)]
      simp [hhi]
  · rw [List.append_assoc, Tab.get_append_of_keys _ _ _ _ (by
      intro p hp
      rcases List.mem_append.mp hp with hp | hp
      · have := Mem.cells_keys a bs p hp
        omega
      · have := (List.mem_filter.mp hp).2
        simp at this
        omega)]
    rw [Tab.get_filter_of_keep (0 : Byte) m x (fun k => decide (k < a)) (by simp; omega)]
    simp [hlo]

theorem Mem.readBytes_eq (m : Mem) (a n : Nat) : Mem.readBytes m a n = (List.range n).map (fun i => Mem.read m (a + i)) := by
  induction n generalizing a with
  | zero => rfl
  | succ n ih =>
    simp only [Mem.readBytes, ih, List.range_succ_eq_map, List.map_cons, List.map_map, Nat.add_zero]
    congr 1
    apply List.map_congr_left
    intro i _
    simp only [Function.comp]
    congr 1
    omega

@[simp] theorem Mem.readBytes_length (m : Mem) (a n : Nat) : (Mem.readBytes m a n).length = n := by simp [Mem.readBytes_eq]

/-- Reading a range after writing it gives the bytes written. -/
theorem Mem.readBytes_writeBytes_same (m : Mem) (a : Nat) (bs : Bytes) : Mem.readBytes (Mem.writeBytes m a bs) a bs.length = bs := by
  rw [Mem.readBytes_eq]
  apply List.ext_getElem
  · simp
  · intro i h1 h2
    simp only [List.getElem_map, List.getElem_range, Mem.read_writeBytes]
    rw [if_pos ⟨by omega, by omega⟩]
    simp [List.getD_eq_getElem?_getD, h2]

/-- Reading a range that a write does not meet gives what it gave before. -/
theorem Mem.readBytes_writeBytes_other (m : Mem) (a x n : Nat) (bs : Bytes) (h : x + n ≤ a ∨ a + bs.length ≤ x) :
    Mem.readBytes (Mem.writeBytes m a bs) x n = Mem.readBytes m x n := by
  rw [Mem.readBytes_eq, Mem.readBytes_eq]
  apply List.map_congr_left
  intro i hi
  have := List.mem_range.mp hi
  rw [Mem.read_writeBytes, if_neg (by omega)]

end Sys2Proof.Machine
end

