-- ==== Sys2Proof/Laws/State.lean ====
section
/-! SUPPORT. What each primitive update of the state does to each field, and what the indexed tables hold after it. -/

namespace Sys2Proof.Machine

variable (s : State)

/-! ### elapse -/

@[simp] theorem State.elapse_pending (dt : Nat) : (s.elapse dt).pending = s.pending := rfl
@[simp] theorem State.elapse_wall (dt : Nat) : (s.elapse dt).wall = s.wall + dt := rfl
@[simp] theorem State.elapse_time (dt : Nat) : (s.elapse dt).time = (if s.power.running then s.time + dt else s.time) := rfl
@[simp] theorem State.elapse_board (dt : Nat) : (s.elapse dt).board = s.board := rfl
@[simp] theorem State.elapse_tap (dt : Nat) : (s.elapse dt).tap = s.tap := rfl
@[simp] theorem State.elapse_power (dt : Nat) : (s.elapse dt).power = s.power := rfl
@[simp] theorem State.elapse_clocks (dt : Nat) : (s.elapse dt).clocks = s.clocks := rfl
@[simp] theorem State.elapse_thermal (dt : Nat) : (s.elapse dt).thermal = s.thermal := rfl
@[simp] theorem State.elapse_straps (dt : Nat) : (s.elapse dt).straps = s.straps := rfl
@[simp] theorem State.elapse_boot (dt : Nat) : (s.elapse dt).boot = s.boot := rfl
@[simp] theorem State.elapse_flash (dt : Nat) : (s.elapse dt).flash = s.flash := rfl
@[simp] theorem State.elapse_fuses (dt : Nat) : (s.elapse dt).fuses = s.fuses := rfl
@[simp] theorem State.elapse_security (dt : Nat) : (s.elapse dt).security = s.security := rfl
@[simp] theorem State.elapse_models (dt : Nat) : (s.elapse dt).models = s.models := rfl
@[simp] theorem State.elapse_dies (dt : Nat) : (s.elapse dt).dies = s.dies := rfl
@[simp] theorem State.elapse_faultyEdges (dt : Nat) : (s.elapse dt).faultyEdges = s.faultyEdges := rfl
@[simp] theorem State.elapse_cores (dt : Nat) : (s.elapse dt).cores = s.cores := rfl
@[simp] theorem State.elapse_feeders (dt : Nat) : (s.elapse dt).feeders = s.feeders := rfl
@[simp] theorem State.elapse_memory (dt : Nat) : (s.elapse dt).memory = s.memory := rfl
@[simp] theorem State.elapse_lanes (dt : Nat) : (s.elapse dt).lanes = s.lanes := rfl
@[simp] theorem State.elapse_guards (dt : Nat) : (s.elapse dt).guards = s.guards := rfl
@[simp] theorem State.elapse_mbx (dt : Nat) : (s.elapse dt).mbx = s.mbx := rfl
@[simp] theorem State.elapse_ports (dt : Nat) : (s.elapse dt).ports = s.ports := rfl
@[simp] theorem State.elapse_smbOffset (dt : Nat) : (s.elapse dt).smbOffset = s.smbOffset := rfl
@[simp] theorem State.elapse_alertPending (dt : Nat) : (s.elapse dt).alertPending = s.alertPending := rfl
@[simp] theorem State.elapse_owner (dt : Nat) : (s.elapse dt).owner = s.owner := rfl
@[simp] theorem State.elapse_log (dt : Nat) : (s.elapse dt).log = s.log := rfl
@[simp] theorem State.elapse_pcie (dt : Nat) : (s.elapse dt).pcie = s.pcie := rfl
@[simp] theorem State.elapse_cxl (dt : Nat) : (s.elapse dt).cxl = s.cxl := rfl
@[simp] theorem State.elapse_cascade (dt : Nat) : (s.elapse dt).cascade = s.cascade := rfl
@[simp] theorem State.elapse_sessions (dt : Nat) : (s.elapse dt).sessions = s.sessions := rfl
@[simp] theorem State.elapse_grants (dt : Nat) : (s.elapse dt).grants = s.grants := rfl
@[simp] theorem State.elapse_fabricSeq (dt : Nat) : (s.elapse dt).fabricSeq = s.fabricSeq := rfl
@[simp] theorem State.elapse_mbxTurn (dt : Nat) : (s.elapse dt).mbxTurn = s.mbxTurn := rfl
@[simp] theorem State.elapse_turns (dt : Nat) : (s.elapse dt).turns = s.turns := rfl
@[simp] theorem State.elapse_accepted (dt : Nat) : (s.elapse dt).accepted = s.accepted := rfl
@[simp] theorem State.elapse_bus (dt : Nat) : (s.elapse dt).bus = s.bus := rfl
@[simp] theorem State.elapse_freeTick (dt : Nat) : (s.elapse dt).freeTick = s.freeTick := rfl

/-! ### draw -/

@[simp] theorem State.draw_pending : (s.draw).pending = s.pending := rfl
@[simp] theorem State.draw_wall : (s.draw).wall = s.wall := rfl
@[simp] theorem State.draw_time : (s.draw).time = s.time := rfl
@[simp] theorem State.draw_board : (s.draw).board = s.board := rfl
@[simp] theorem State.draw_tap : (s.draw).tap = s.tap := rfl
@[simp] theorem State.draw_power : (s.draw).power = s.power := rfl
@[simp] theorem State.draw_clocks : (s.draw).clocks = s.clocks := rfl
@[simp] theorem State.draw_thermal : (s.draw).thermal = s.thermal := rfl
@[simp] theorem State.draw_straps : (s.draw).straps = s.straps := rfl
@[simp] theorem State.draw_boot : (s.draw).boot = s.boot := rfl
@[simp] theorem State.draw_flash : (s.draw).flash = s.flash := rfl
@[simp] theorem State.draw_fuses : (s.draw).fuses = s.fuses := rfl
@[simp] theorem State.draw_security : (s.draw).security = s.security := rfl
@[simp] theorem State.draw_models : (s.draw).models = s.models := rfl
@[simp] theorem State.draw_dies : (s.draw).dies = s.dies := rfl
@[simp] theorem State.draw_faultyEdges : (s.draw).faultyEdges = s.faultyEdges := rfl
@[simp] theorem State.draw_cores : (s.draw).cores = s.cores := rfl
@[simp] theorem State.draw_feeders : (s.draw).feeders = s.feeders := rfl
@[simp] theorem State.draw_memory : (s.draw).memory = s.memory := rfl
@[simp] theorem State.draw_lanes : (s.draw).lanes = s.lanes := rfl
@[simp] theorem State.draw_guards : (s.draw).guards = s.guards := rfl
@[simp] theorem State.draw_mbx : (s.draw).mbx = s.mbx := rfl
@[simp] theorem State.draw_ports : (s.draw).ports = s.ports := rfl
@[simp] theorem State.draw_smbOffset : (s.draw).smbOffset = s.smbOffset := rfl
@[simp] theorem State.draw_alertPending : (s.draw).alertPending = s.alertPending := rfl
@[simp] theorem State.draw_owner : (s.draw).owner = s.owner := rfl
@[simp] theorem State.draw_log : (s.draw).log = s.log := rfl
@[simp] theorem State.draw_pcie : (s.draw).pcie = s.pcie := rfl
@[simp] theorem State.draw_cxl : (s.draw).cxl = s.cxl := rfl
@[simp] theorem State.draw_cascade : (s.draw).cascade = s.cascade := rfl
@[simp] theorem State.draw_sessions : (s.draw).sessions = s.sessions := rfl
@[simp] theorem State.draw_grants : (s.draw).grants = s.grants := rfl
@[simp] theorem State.draw_fabricSeq : (s.draw).fabricSeq = s.fabricSeq := rfl
@[simp] theorem State.draw_mbxTurn : (s.draw).mbxTurn = s.mbxTurn := rfl
@[simp] theorem State.draw_turns : (s.draw).turns = s.turns := rfl
@[simp] theorem State.draw_accepted : (s.draw).accepted = s.accepted := rfl
@[simp] theorem State.draw_bus : (s.draw).bus = s.bus := rfl
@[simp] theorem State.draw_freeTick : (s.draw).freeTick = s.freeTick + 1 := rfl

/-! ### updCore -/

@[simp] theorem State.updCore_pending (d c : Nat) (f : Core → Core) : (s.updCore d c f).pending = s.pending := rfl
@[simp] theorem State.updCore_wall (d c : Nat) (f : Core → Core) : (s.updCore d c f).wall = s.wall := rfl
@[simp] theorem State.updCore_time (d c : Nat) (f : Core → Core) : (s.updCore d c f).time = s.time := rfl
@[simp] theorem State.updCore_board (d c : Nat) (f : Core → Core) : (s.updCore d c f).board = s.board := rfl
@[simp] theorem State.updCore_tap (d c : Nat) (f : Core → Core) : (s.updCore d c f).tap = s.tap := rfl
@[simp] theorem State.updCore_power (d c : Nat) (f : Core → Core) : (s.updCore d c f).power = s.power := rfl
@[simp] theorem State.updCore_clocks (d c : Nat) (f : Core → Core) : (s.updCore d c f).clocks = s.clocks := rfl
@[simp] theorem State.updCore_thermal (d c : Nat) (f : Core → Core) : (s.updCore d c f).thermal = s.thermal := rfl
@[simp] theorem State.updCore_straps (d c : Nat) (f : Core → Core) : (s.updCore d c f).straps = s.straps := rfl
@[simp] theorem State.updCore_boot (d c : Nat) (f : Core → Core) : (s.updCore d c f).boot = s.boot := rfl
@[simp] theorem State.updCore_flash (d c : Nat) (f : Core → Core) : (s.updCore d c f).flash = s.flash := rfl
@[simp] theorem State.updCore_fuses (d c : Nat) (f : Core → Core) : (s.updCore d c f).fuses = s.fuses := rfl
@[simp] theorem State.updCore_security (d c : Nat) (f : Core → Core) : (s.updCore d c f).security = s.security := rfl
@[simp] theorem State.updCore_models (d c : Nat) (f : Core → Core) : (s.updCore d c f).models = s.models := rfl
@[simp] theorem State.updCore_dies (d c : Nat) (f : Core → Core) : (s.updCore d c f).dies = s.dies := rfl
@[simp] theorem State.updCore_faultyEdges (d c : Nat) (f : Core → Core) : (s.updCore d c f).faultyEdges = s.faultyEdges := rfl
@[simp] theorem State.updCore_cores (d c : Nat) (f : Core → Core) : (s.updCore d c f).cores = Tab.upd {} s.cores (coreKey d c) f := rfl
@[simp] theorem State.updCore_feeders (d c : Nat) (f : Core → Core) : (s.updCore d c f).feeders = s.feeders := rfl
@[simp] theorem State.updCore_memory (d c : Nat) (f : Core → Core) : (s.updCore d c f).memory = s.memory := rfl
@[simp] theorem State.updCore_lanes (d c : Nat) (f : Core → Core) : (s.updCore d c f).lanes = s.lanes := rfl
@[simp] theorem State.updCore_guards (d c : Nat) (f : Core → Core) : (s.updCore d c f).guards = s.guards := rfl
@[simp] theorem State.updCore_mbx (d c : Nat) (f : Core → Core) : (s.updCore d c f).mbx = s.mbx := rfl
@[simp] theorem State.updCore_ports (d c : Nat) (f : Core → Core) : (s.updCore d c f).ports = s.ports := rfl
@[simp] theorem State.updCore_smbOffset (d c : Nat) (f : Core → Core) : (s.updCore d c f).smbOffset = s.smbOffset := rfl
@[simp] theorem State.updCore_alertPending (d c : Nat) (f : Core → Core) : (s.updCore d c f).alertPending = s.alertPending := rfl
@[simp] theorem State.updCore_owner (d c : Nat) (f : Core → Core) : (s.updCore d c f).owner = s.owner := rfl
@[simp] theorem State.updCore_log (d c : Nat) (f : Core → Core) : (s.updCore d c f).log = s.log := rfl
@[simp] theorem State.updCore_pcie (d c : Nat) (f : Core → Core) : (s.updCore d c f).pcie = s.pcie := rfl
@[simp] theorem State.updCore_cxl (d c : Nat) (f : Core → Core) : (s.updCore d c f).cxl = s.cxl := rfl
@[simp] theorem State.updCore_cascade (d c : Nat) (f : Core → Core) : (s.updCore d c f).cascade = s.cascade := rfl
@[simp] theorem State.updCore_sessions (d c : Nat) (f : Core → Core) : (s.updCore d c f).sessions = s.sessions := rfl
@[simp] theorem State.updCore_grants (d c : Nat) (f : Core → Core) : (s.updCore d c f).grants = s.grants := rfl
@[simp] theorem State.updCore_fabricSeq (d c : Nat) (f : Core → Core) : (s.updCore d c f).fabricSeq = s.fabricSeq := rfl
@[simp] theorem State.updCore_mbxTurn (d c : Nat) (f : Core → Core) : (s.updCore d c f).mbxTurn = s.mbxTurn := rfl
@[simp] theorem State.updCore_turns (d c : Nat) (f : Core → Core) : (s.updCore d c f).turns = s.turns := rfl
@[simp] theorem State.updCore_accepted (d c : Nat) (f : Core → Core) : (s.updCore d c f).accepted = s.accepted := rfl
@[simp] theorem State.updCore_bus (d c : Nat) (f : Core → Core) : (s.updCore d c f).bus = s.bus := rfl
@[simp] theorem State.updCore_freeTick (d c : Nat) (f : Core → Core) : (s.updCore d c f).freeTick = s.freeTick := rfl

/-! ### updDie -/

@[simp] theorem State.updDie_pending (i : Nat) (f : Die → Die) : (s.updDie i f).pending = s.pending := rfl
@[simp] theorem State.updDie_wall (i : Nat) (f : Die → Die) : (s.updDie i f).wall = s.wall := rfl
@[simp] theorem State.updDie_time (i : Nat) (f : Die → Die) : (s.updDie i f).time = s.time := rfl
@[simp] theorem State.updDie_board (i : Nat) (f : Die → Die) : (s.updDie i f).board = s.board := rfl
@[simp] theorem State.updDie_tap (i : Nat) (f : Die → Die) : (s.updDie i f).tap = s.tap := rfl
@[simp] theorem State.updDie_power (i : Nat) (f : Die → Die) : (s.updDie i f).power = s.power := rfl
@[simp] theorem State.updDie_clocks (i : Nat) (f : Die → Die) : (s.updDie i f).clocks = s.clocks := rfl
@[simp] theorem State.updDie_thermal (i : Nat) (f : Die → Die) : (s.updDie i f).thermal = s.thermal := rfl
@[simp] theorem State.updDie_straps (i : Nat) (f : Die → Die) : (s.updDie i f).straps = s.straps := rfl
@[simp] theorem State.updDie_boot (i : Nat) (f : Die → Die) : (s.updDie i f).boot = s.boot := rfl
@[simp] theorem State.updDie_flash (i : Nat) (f : Die → Die) : (s.updDie i f).flash = s.flash := rfl
@[simp] theorem State.updDie_fuses (i : Nat) (f : Die → Die) : (s.updDie i f).fuses = s.fuses := rfl
@[simp] theorem State.updDie_security (i : Nat) (f : Die → Die) : (s.updDie i f).security = s.security := rfl
@[simp] theorem State.updDie_models (i : Nat) (f : Die → Die) : (s.updDie i f).models = s.models := rfl
@[simp] theorem State.updDie_dies (i : Nat) (f : Die → Die) : (s.updDie i f).dies = Tab.upd {} s.dies i f := rfl
@[simp] theorem State.updDie_faultyEdges (i : Nat) (f : Die → Die) : (s.updDie i f).faultyEdges = s.faultyEdges := rfl
@[simp] theorem State.updDie_cores (i : Nat) (f : Die → Die) : (s.updDie i f).cores = s.cores := rfl
@[simp] theorem State.updDie_feeders (i : Nat) (f : Die → Die) : (s.updDie i f).feeders = s.feeders := rfl
@[simp] theorem State.updDie_memory (i : Nat) (f : Die → Die) : (s.updDie i f).memory = s.memory := rfl
@[simp] theorem State.updDie_lanes (i : Nat) (f : Die → Die) : (s.updDie i f).lanes = s.lanes := rfl
@[simp] theorem State.updDie_guards (i : Nat) (f : Die → Die) : (s.updDie i f).guards = s.guards := rfl
@[simp] theorem State.updDie_mbx (i : Nat) (f : Die → Die) : (s.updDie i f).mbx = s.mbx := rfl
@[simp] theorem State.updDie_ports (i : Nat) (f : Die → Die) : (s.updDie i f).ports = s.ports := rfl
@[simp] theorem State.updDie_smbOffset (i : Nat) (f : Die → Die) : (s.updDie i f).smbOffset = s.smbOffset := rfl
@[simp] theorem State.updDie_alertPending (i : Nat) (f : Die → Die) : (s.updDie i f).alertPending = s.alertPending := rfl
@[simp] theorem State.updDie_owner (i : Nat) (f : Die → Die) : (s.updDie i f).owner = s.owner := rfl
@[simp] theorem State.updDie_log (i : Nat) (f : Die → Die) : (s.updDie i f).log = s.log := rfl
@[simp] theorem State.updDie_pcie (i : Nat) (f : Die → Die) : (s.updDie i f).pcie = s.pcie := rfl
@[simp] theorem State.updDie_cxl (i : Nat) (f : Die → Die) : (s.updDie i f).cxl = s.cxl := rfl
@[simp] theorem State.updDie_cascade (i : Nat) (f : Die → Die) : (s.updDie i f).cascade = s.cascade := rfl
@[simp] theorem State.updDie_sessions (i : Nat) (f : Die → Die) : (s.updDie i f).sessions = s.sessions := rfl
@[simp] theorem State.updDie_grants (i : Nat) (f : Die → Die) : (s.updDie i f).grants = s.grants := rfl
@[simp] theorem State.updDie_fabricSeq (i : Nat) (f : Die → Die) : (s.updDie i f).fabricSeq = s.fabricSeq := rfl
@[simp] theorem State.updDie_mbxTurn (i : Nat) (f : Die → Die) : (s.updDie i f).mbxTurn = s.mbxTurn := rfl
@[simp] theorem State.updDie_turns (i : Nat) (f : Die → Die) : (s.updDie i f).turns = s.turns := rfl
@[simp] theorem State.updDie_accepted (i : Nat) (f : Die → Die) : (s.updDie i f).accepted = s.accepted := rfl
@[simp] theorem State.updDie_bus (i : Nat) (f : Die → Die) : (s.updDie i f).bus = s.bus := rfl
@[simp] theorem State.updDie_freeTick (i : Nat) (f : Die → Die) : (s.updDie i f).freeTick = s.freeTick := rfl

/-! ### updFeeder -/

@[simp] theorem State.updFeeder_pending (m q : Nat) (f : FeederQueue → FeederQueue) : (s.updFeeder m q f).pending = s.pending := rfl
@[simp] theorem State.updFeeder_wall (m q : Nat) (f : FeederQueue → FeederQueue) : (s.updFeeder m q f).wall = s.wall := rfl
@[simp] theorem State.updFeeder_time (m q : Nat) (f : FeederQueue → FeederQueue) : (s.updFeeder m q f).time = s.time := rfl
@[simp] theorem State.updFeeder_board (m q : Nat) (f : FeederQueue → FeederQueue) : (s.updFeeder m q f).board = s.board := rfl
@[simp] theorem State.updFeeder_tap (m q : Nat) (f : FeederQueue → FeederQueue) : (s.updFeeder m q f).tap = s.tap := rfl
@[simp] theorem State.updFeeder_power (m q : Nat) (f : FeederQueue → FeederQueue) : (s.updFeeder m q f).power = s.power := rfl
@[simp] theorem State.updFeeder_clocks (m q : Nat) (f : FeederQueue → FeederQueue) : (s.updFeeder m q f).clocks = s.clocks := rfl
@[simp] theorem State.updFeeder_thermal (m q : Nat) (f : FeederQueue → FeederQueue) : (s.updFeeder m q f).thermal = s.thermal := rfl
@[simp] theorem State.updFeeder_straps (m q : Nat) (f : FeederQueue → FeederQueue) : (s.updFeeder m q f).straps = s.straps := rfl
@[simp] theorem State.updFeeder_boot (m q : Nat) (f : FeederQueue → FeederQueue) : (s.updFeeder m q f).boot = s.boot := rfl
@[simp] theorem State.updFeeder_flash (m q : Nat) (f : FeederQueue → FeederQueue) : (s.updFeeder m q f).flash = s.flash := rfl
@[simp] theorem State.updFeeder_fuses (m q : Nat) (f : FeederQueue → FeederQueue) : (s.updFeeder m q f).fuses = s.fuses := rfl
@[simp] theorem State.updFeeder_security (m q : Nat) (f : FeederQueue → FeederQueue) : (s.updFeeder m q f).security = s.security := rfl
@[simp] theorem State.updFeeder_models (m q : Nat) (f : FeederQueue → FeederQueue) : (s.updFeeder m q f).models = s.models := rfl
@[simp] theorem State.updFeeder_dies (m q : Nat) (f : FeederQueue → FeederQueue) : (s.updFeeder m q f).dies = s.dies := rfl
@[simp] theorem State.updFeeder_faultyEdges (m q : Nat) (f : FeederQueue → FeederQueue) : (s.updFeeder m q f).faultyEdges = s.faultyEdges := rfl
@[simp] theorem State.updFeeder_cores (m q : Nat) (f : FeederQueue → FeederQueue) : (s.updFeeder m q f).cores = s.cores := rfl
@[simp] theorem State.updFeeder_feeders (m q : Nat) (f : FeederQueue → FeederQueue) : (s.updFeeder m q f).feeders = Tab.upd {} s.feeders (m * 64 + q) f := rfl
@[simp] theorem State.updFeeder_memory (m q : Nat) (f : FeederQueue → FeederQueue) : (s.updFeeder m q f).memory = s.memory := rfl
@[simp] theorem State.updFeeder_lanes (m q : Nat) (f : FeederQueue → FeederQueue) : (s.updFeeder m q f).lanes = s.lanes := rfl
@[simp] theorem State.updFeeder_guards (m q : Nat) (f : FeederQueue → FeederQueue) : (s.updFeeder m q f).guards = s.guards := rfl
@[simp] theorem State.updFeeder_mbx (m q : Nat) (f : FeederQueue → FeederQueue) : (s.updFeeder m q f).mbx = s.mbx := rfl
@[simp] theorem State.updFeeder_ports (m q : Nat) (f : FeederQueue → FeederQueue) : (s.updFeeder m q f).ports = s.ports := rfl
@[simp] theorem State.updFeeder_smbOffset (m q : Nat) (f : FeederQueue → FeederQueue) : (s.updFeeder m q f).smbOffset = s.smbOffset := rfl
@[simp] theorem State.updFeeder_alertPending (m q : Nat) (f : FeederQueue → FeederQueue) : (s.updFeeder m q f).alertPending = s.alertPending := rfl
@[simp] theorem State.updFeeder_owner (m q : Nat) (f : FeederQueue → FeederQueue) : (s.updFeeder m q f).owner = s.owner := rfl
@[simp] theorem State.updFeeder_log (m q : Nat) (f : FeederQueue → FeederQueue) : (s.updFeeder m q f).log = s.log := rfl
@[simp] theorem State.updFeeder_pcie (m q : Nat) (f : FeederQueue → FeederQueue) : (s.updFeeder m q f).pcie = s.pcie := rfl
@[simp] theorem State.updFeeder_cxl (m q : Nat) (f : FeederQueue → FeederQueue) : (s.updFeeder m q f).cxl = s.cxl := rfl
@[simp] theorem State.updFeeder_cascade (m q : Nat) (f : FeederQueue → FeederQueue) : (s.updFeeder m q f).cascade = s.cascade := rfl
@[simp] theorem State.updFeeder_sessions (m q : Nat) (f : FeederQueue → FeederQueue) : (s.updFeeder m q f).sessions = s.sessions := rfl
@[simp] theorem State.updFeeder_grants (m q : Nat) (f : FeederQueue → FeederQueue) : (s.updFeeder m q f).grants = s.grants := rfl
@[simp] theorem State.updFeeder_fabricSeq (m q : Nat) (f : FeederQueue → FeederQueue) : (s.updFeeder m q f).fabricSeq = s.fabricSeq := rfl
@[simp] theorem State.updFeeder_mbxTurn (m q : Nat) (f : FeederQueue → FeederQueue) : (s.updFeeder m q f).mbxTurn = s.mbxTurn := rfl
@[simp] theorem State.updFeeder_turns (m q : Nat) (f : FeederQueue → FeederQueue) : (s.updFeeder m q f).turns = s.turns := rfl
@[simp] theorem State.updFeeder_accepted (m q : Nat) (f : FeederQueue → FeederQueue) : (s.updFeeder m q f).accepted = s.accepted := rfl
@[simp] theorem State.updFeeder_bus (m q : Nat) (f : FeederQueue → FeederQueue) : (s.updFeeder m q f).bus = s.bus := rfl
@[simp] theorem State.updFeeder_freeTick (m q : Nat) (f : FeederQueue → FeederQueue) : (s.updFeeder m q f).freeTick = s.freeTick := rfl

/-! ### updLane -/

@[simp] theorem State.updLane_pending (k l : Nat) (f : LaneStatus → LaneStatus) : (s.updLane k l f).pending = s.pending := rfl
@[simp] theorem State.updLane_wall (k l : Nat) (f : LaneStatus → LaneStatus) : (s.updLane k l f).wall = s.wall := rfl
@[simp] theorem State.updLane_time (k l : Nat) (f : LaneStatus → LaneStatus) : (s.updLane k l f).time = s.time := rfl
@[simp] theorem State.updLane_board (k l : Nat) (f : LaneStatus → LaneStatus) : (s.updLane k l f).board = s.board := rfl
@[simp] theorem State.updLane_tap (k l : Nat) (f : LaneStatus → LaneStatus) : (s.updLane k l f).tap = s.tap := rfl
@[simp] theorem State.updLane_power (k l : Nat) (f : LaneStatus → LaneStatus) : (s.updLane k l f).power = s.power := rfl
@[simp] theorem State.updLane_clocks (k l : Nat) (f : LaneStatus → LaneStatus) : (s.updLane k l f).clocks = s.clocks := rfl
@[simp] theorem State.updLane_thermal (k l : Nat) (f : LaneStatus → LaneStatus) : (s.updLane k l f).thermal = s.thermal := rfl
@[simp] theorem State.updLane_straps (k l : Nat) (f : LaneStatus → LaneStatus) : (s.updLane k l f).straps = s.straps := rfl
@[simp] theorem State.updLane_boot (k l : Nat) (f : LaneStatus → LaneStatus) : (s.updLane k l f).boot = s.boot := rfl
@[simp] theorem State.updLane_flash (k l : Nat) (f : LaneStatus → LaneStatus) : (s.updLane k l f).flash = s.flash := rfl
@[simp] theorem State.updLane_fuses (k l : Nat) (f : LaneStatus → LaneStatus) : (s.updLane k l f).fuses = s.fuses := rfl
@[simp] theorem State.updLane_security (k l : Nat) (f : LaneStatus → LaneStatus) : (s.updLane k l f).security = s.security := rfl
@[simp] theorem State.updLane_models (k l : Nat) (f : LaneStatus → LaneStatus) : (s.updLane k l f).models = s.models := rfl
@[simp] theorem State.updLane_dies (k l : Nat) (f : LaneStatus → LaneStatus) : (s.updLane k l f).dies = s.dies := rfl
@[simp] theorem State.updLane_faultyEdges (k l : Nat) (f : LaneStatus → LaneStatus) : (s.updLane k l f).faultyEdges = s.faultyEdges := rfl
@[simp] theorem State.updLane_cores (k l : Nat) (f : LaneStatus → LaneStatus) : (s.updLane k l f).cores = s.cores := rfl
@[simp] theorem State.updLane_feeders (k l : Nat) (f : LaneStatus → LaneStatus) : (s.updLane k l f).feeders = s.feeders := rfl
@[simp] theorem State.updLane_memory (k l : Nat) (f : LaneStatus → LaneStatus) : (s.updLane k l f).memory = s.memory := rfl
@[simp] theorem State.updLane_lanes (k l : Nat) (f : LaneStatus → LaneStatus) : (s.updLane k l f).lanes = Tab.upd {} s.lanes (k * 32 + l) f := rfl
@[simp] theorem State.updLane_guards (k l : Nat) (f : LaneStatus → LaneStatus) : (s.updLane k l f).guards = s.guards := rfl
@[simp] theorem State.updLane_mbx (k l : Nat) (f : LaneStatus → LaneStatus) : (s.updLane k l f).mbx = s.mbx := rfl
@[simp] theorem State.updLane_ports (k l : Nat) (f : LaneStatus → LaneStatus) : (s.updLane k l f).ports = s.ports := rfl
@[simp] theorem State.updLane_smbOffset (k l : Nat) (f : LaneStatus → LaneStatus) : (s.updLane k l f).smbOffset = s.smbOffset := rfl
@[simp] theorem State.updLane_alertPending (k l : Nat) (f : LaneStatus → LaneStatus) : (s.updLane k l f).alertPending = s.alertPending := rfl
@[simp] theorem State.updLane_owner (k l : Nat) (f : LaneStatus → LaneStatus) : (s.updLane k l f).owner = s.owner := rfl
@[simp] theorem State.updLane_log (k l : Nat) (f : LaneStatus → LaneStatus) : (s.updLane k l f).log = s.log := rfl
@[simp] theorem State.updLane_pcie (k l : Nat) (f : LaneStatus → LaneStatus) : (s.updLane k l f).pcie = s.pcie := rfl
@[simp] theorem State.updLane_cxl (k l : Nat) (f : LaneStatus → LaneStatus) : (s.updLane k l f).cxl = s.cxl := rfl
@[simp] theorem State.updLane_cascade (k l : Nat) (f : LaneStatus → LaneStatus) : (s.updLane k l f).cascade = s.cascade := rfl
@[simp] theorem State.updLane_sessions (k l : Nat) (f : LaneStatus → LaneStatus) : (s.updLane k l f).sessions = s.sessions := rfl
@[simp] theorem State.updLane_grants (k l : Nat) (f : LaneStatus → LaneStatus) : (s.updLane k l f).grants = s.grants := rfl
@[simp] theorem State.updLane_fabricSeq (k l : Nat) (f : LaneStatus → LaneStatus) : (s.updLane k l f).fabricSeq = s.fabricSeq := rfl
@[simp] theorem State.updLane_mbxTurn (k l : Nat) (f : LaneStatus → LaneStatus) : (s.updLane k l f).mbxTurn = s.mbxTurn := rfl
@[simp] theorem State.updLane_turns (k l : Nat) (f : LaneStatus → LaneStatus) : (s.updLane k l f).turns = s.turns := rfl
@[simp] theorem State.updLane_accepted (k l : Nat) (f : LaneStatus → LaneStatus) : (s.updLane k l f).accepted = s.accepted := rfl
@[simp] theorem State.updLane_bus (k l : Nat) (f : LaneStatus → LaneStatus) : (s.updLane k l f).bus = s.bus := rfl
@[simp] theorem State.updLane_freeTick (k l : Nat) (f : LaneStatus → LaneStatus) : (s.updLane k l f).freeTick = s.freeTick := rfl

/-! ### updSlot -/

@[simp] theorem State.updSlot_pending (p k : Nat) (f : MbxSlot → MbxSlot) : (s.updSlot p k f).pending = s.pending := rfl
@[simp] theorem State.updSlot_wall (p k : Nat) (f : MbxSlot → MbxSlot) : (s.updSlot p k f).wall = s.wall := rfl
@[simp] theorem State.updSlot_time (p k : Nat) (f : MbxSlot → MbxSlot) : (s.updSlot p k f).time = s.time := rfl
@[simp] theorem State.updSlot_board (p k : Nat) (f : MbxSlot → MbxSlot) : (s.updSlot p k f).board = s.board := rfl
@[simp] theorem State.updSlot_tap (p k : Nat) (f : MbxSlot → MbxSlot) : (s.updSlot p k f).tap = s.tap := rfl
@[simp] theorem State.updSlot_power (p k : Nat) (f : MbxSlot → MbxSlot) : (s.updSlot p k f).power = s.power := rfl
@[simp] theorem State.updSlot_clocks (p k : Nat) (f : MbxSlot → MbxSlot) : (s.updSlot p k f).clocks = s.clocks := rfl
@[simp] theorem State.updSlot_thermal (p k : Nat) (f : MbxSlot → MbxSlot) : (s.updSlot p k f).thermal = s.thermal := rfl
@[simp] theorem State.updSlot_straps (p k : Nat) (f : MbxSlot → MbxSlot) : (s.updSlot p k f).straps = s.straps := rfl
@[simp] theorem State.updSlot_boot (p k : Nat) (f : MbxSlot → MbxSlot) : (s.updSlot p k f).boot = s.boot := rfl
@[simp] theorem State.updSlot_flash (p k : Nat) (f : MbxSlot → MbxSlot) : (s.updSlot p k f).flash = s.flash := rfl
@[simp] theorem State.updSlot_fuses (p k : Nat) (f : MbxSlot → MbxSlot) : (s.updSlot p k f).fuses = s.fuses := rfl
@[simp] theorem State.updSlot_security (p k : Nat) (f : MbxSlot → MbxSlot) : (s.updSlot p k f).security = s.security := rfl
@[simp] theorem State.updSlot_models (p k : Nat) (f : MbxSlot → MbxSlot) : (s.updSlot p k f).models = s.models := rfl
@[simp] theorem State.updSlot_dies (p k : Nat) (f : MbxSlot → MbxSlot) : (s.updSlot p k f).dies = s.dies := rfl
@[simp] theorem State.updSlot_faultyEdges (p k : Nat) (f : MbxSlot → MbxSlot) : (s.updSlot p k f).faultyEdges = s.faultyEdges := rfl
@[simp] theorem State.updSlot_cores (p k : Nat) (f : MbxSlot → MbxSlot) : (s.updSlot p k f).cores = s.cores := rfl
@[simp] theorem State.updSlot_feeders (p k : Nat) (f : MbxSlot → MbxSlot) : (s.updSlot p k f).feeders = s.feeders := rfl
@[simp] theorem State.updSlot_memory (p k : Nat) (f : MbxSlot → MbxSlot) : (s.updSlot p k f).memory = s.memory := rfl
@[simp] theorem State.updSlot_lanes (p k : Nat) (f : MbxSlot → MbxSlot) : (s.updSlot p k f).lanes = s.lanes := rfl
@[simp] theorem State.updSlot_guards (p k : Nat) (f : MbxSlot → MbxSlot) : (s.updSlot p k f).guards = s.guards := rfl
@[simp] theorem State.updSlot_mbx (p k : Nat) (f : MbxSlot → MbxSlot) : (s.updSlot p k f).mbx = Tab.upd {} s.mbx (p * 64 + k) f := rfl
@[simp] theorem State.updSlot_ports (p k : Nat) (f : MbxSlot → MbxSlot) : (s.updSlot p k f).ports = s.ports := rfl
@[simp] theorem State.updSlot_smbOffset (p k : Nat) (f : MbxSlot → MbxSlot) : (s.updSlot p k f).smbOffset = s.smbOffset := rfl
@[simp] theorem State.updSlot_alertPending (p k : Nat) (f : MbxSlot → MbxSlot) : (s.updSlot p k f).alertPending = s.alertPending := rfl
@[simp] theorem State.updSlot_owner (p k : Nat) (f : MbxSlot → MbxSlot) : (s.updSlot p k f).owner = s.owner := rfl
@[simp] theorem State.updSlot_log (p k : Nat) (f : MbxSlot → MbxSlot) : (s.updSlot p k f).log = s.log := rfl
@[simp] theorem State.updSlot_pcie (p k : Nat) (f : MbxSlot → MbxSlot) : (s.updSlot p k f).pcie = s.pcie := rfl
@[simp] theorem State.updSlot_cxl (p k : Nat) (f : MbxSlot → MbxSlot) : (s.updSlot p k f).cxl = s.cxl := rfl
@[simp] theorem State.updSlot_cascade (p k : Nat) (f : MbxSlot → MbxSlot) : (s.updSlot p k f).cascade = s.cascade := rfl
@[simp] theorem State.updSlot_sessions (p k : Nat) (f : MbxSlot → MbxSlot) : (s.updSlot p k f).sessions = s.sessions := rfl
@[simp] theorem State.updSlot_grants (p k : Nat) (f : MbxSlot → MbxSlot) : (s.updSlot p k f).grants = s.grants := rfl
@[simp] theorem State.updSlot_fabricSeq (p k : Nat) (f : MbxSlot → MbxSlot) : (s.updSlot p k f).fabricSeq = s.fabricSeq := rfl
@[simp] theorem State.updSlot_mbxTurn (p k : Nat) (f : MbxSlot → MbxSlot) : (s.updSlot p k f).mbxTurn = s.mbxTurn := rfl
@[simp] theorem State.updSlot_turns (p k : Nat) (f : MbxSlot → MbxSlot) : (s.updSlot p k f).turns = s.turns := rfl
@[simp] theorem State.updSlot_accepted (p k : Nat) (f : MbxSlot → MbxSlot) : (s.updSlot p k f).accepted = s.accepted := rfl
@[simp] theorem State.updSlot_bus (p k : Nat) (f : MbxSlot → MbxSlot) : (s.updSlot p k f).bus = s.bus := rfl
@[simp] theorem State.updSlot_freeTick (p k : Nat) (f : MbxSlot → MbxSlot) : (s.updSlot p k f).freeTick = s.freeTick := rfl

/-! ### updPort -/

@[simp] theorem State.updPort_pending (p : Nat) (f : MbxPort → MbxPort) : (s.updPort p f).pending = s.pending := rfl
@[simp] theorem State.updPort_wall (p : Nat) (f : MbxPort → MbxPort) : (s.updPort p f).wall = s.wall := rfl
@[simp] theorem State.updPort_time (p : Nat) (f : MbxPort → MbxPort) : (s.updPort p f).time = s.time := rfl
@[simp] theorem State.updPort_board (p : Nat) (f : MbxPort → MbxPort) : (s.updPort p f).board = s.board := rfl
@[simp] theorem State.updPort_tap (p : Nat) (f : MbxPort → MbxPort) : (s.updPort p f).tap = s.tap := rfl
@[simp] theorem State.updPort_power (p : Nat) (f : MbxPort → MbxPort) : (s.updPort p f).power = s.power := rfl
@[simp] theorem State.updPort_clocks (p : Nat) (f : MbxPort → MbxPort) : (s.updPort p f).clocks = s.clocks := rfl
@[simp] theorem State.updPort_thermal (p : Nat) (f : MbxPort → MbxPort) : (s.updPort p f).thermal = s.thermal := rfl
@[simp] theorem State.updPort_straps (p : Nat) (f : MbxPort → MbxPort) : (s.updPort p f).straps = s.straps := rfl
@[simp] theorem State.updPort_boot (p : Nat) (f : MbxPort → MbxPort) : (s.updPort p f).boot = s.boot := rfl
@[simp] theorem State.updPort_flash (p : Nat) (f : MbxPort → MbxPort) : (s.updPort p f).flash = s.flash := rfl
@[simp] theorem State.updPort_fuses (p : Nat) (f : MbxPort → MbxPort) : (s.updPort p f).fuses = s.fuses := rfl
@[simp] theorem State.updPort_security (p : Nat) (f : MbxPort → MbxPort) : (s.updPort p f).security = s.security := rfl
@[simp] theorem State.updPort_models (p : Nat) (f : MbxPort → MbxPort) : (s.updPort p f).models = s.models := rfl
@[simp] theorem State.updPort_dies (p : Nat) (f : MbxPort → MbxPort) : (s.updPort p f).dies = s.dies := rfl
@[simp] theorem State.updPort_faultyEdges (p : Nat) (f : MbxPort → MbxPort) : (s.updPort p f).faultyEdges = s.faultyEdges := rfl
@[simp] theorem State.updPort_cores (p : Nat) (f : MbxPort → MbxPort) : (s.updPort p f).cores = s.cores := rfl
@[simp] theorem State.updPort_feeders (p : Nat) (f : MbxPort → MbxPort) : (s.updPort p f).feeders = s.feeders := rfl
@[simp] theorem State.updPort_memory (p : Nat) (f : MbxPort → MbxPort) : (s.updPort p f).memory = s.memory := rfl
@[simp] theorem State.updPort_lanes (p : Nat) (f : MbxPort → MbxPort) : (s.updPort p f).lanes = s.lanes := rfl
@[simp] theorem State.updPort_guards (p : Nat) (f : MbxPort → MbxPort) : (s.updPort p f).guards = s.guards := rfl
@[simp] theorem State.updPort_mbx (p : Nat) (f : MbxPort → MbxPort) : (s.updPort p f).mbx = s.mbx := rfl
@[simp] theorem State.updPort_ports (p : Nat) (f : MbxPort → MbxPort) : (s.updPort p f).ports = Tab.upd {} s.ports p f := rfl
@[simp] theorem State.updPort_smbOffset (p : Nat) (f : MbxPort → MbxPort) : (s.updPort p f).smbOffset = s.smbOffset := rfl
@[simp] theorem State.updPort_alertPending (p : Nat) (f : MbxPort → MbxPort) : (s.updPort p f).alertPending = s.alertPending := rfl
@[simp] theorem State.updPort_owner (p : Nat) (f : MbxPort → MbxPort) : (s.updPort p f).owner = s.owner := rfl
@[simp] theorem State.updPort_log (p : Nat) (f : MbxPort → MbxPort) : (s.updPort p f).log = s.log := rfl
@[simp] theorem State.updPort_pcie (p : Nat) (f : MbxPort → MbxPort) : (s.updPort p f).pcie = s.pcie := rfl
@[simp] theorem State.updPort_cxl (p : Nat) (f : MbxPort → MbxPort) : (s.updPort p f).cxl = s.cxl := rfl
@[simp] theorem State.updPort_cascade (p : Nat) (f : MbxPort → MbxPort) : (s.updPort p f).cascade = s.cascade := rfl
@[simp] theorem State.updPort_sessions (p : Nat) (f : MbxPort → MbxPort) : (s.updPort p f).sessions = s.sessions := rfl
@[simp] theorem State.updPort_grants (p : Nat) (f : MbxPort → MbxPort) : (s.updPort p f).grants = s.grants := rfl
@[simp] theorem State.updPort_fabricSeq (p : Nat) (f : MbxPort → MbxPort) : (s.updPort p f).fabricSeq = s.fabricSeq := rfl
@[simp] theorem State.updPort_mbxTurn (p : Nat) (f : MbxPort → MbxPort) : (s.updPort p f).mbxTurn = s.mbxTurn := rfl
@[simp] theorem State.updPort_turns (p : Nat) (f : MbxPort → MbxPort) : (s.updPort p f).turns = s.turns := rfl
@[simp] theorem State.updPort_accepted (p : Nat) (f : MbxPort → MbxPort) : (s.updPort p f).accepted = s.accepted := rfl
@[simp] theorem State.updPort_bus (p : Nat) (f : MbxPort → MbxPort) : (s.updPort p f).bus = s.bus := rfl
@[simp] theorem State.updPort_freeTick (p : Nat) (f : MbxPort → MbxPort) : (s.updPort p f).freeTick = s.freeTick := rfl

/-! ### updPcie -/

@[simp] theorem State.updPcie_pending (p : Nat) (f : PcieState → PcieState) : (s.updPcie p f).pending = s.pending := rfl
@[simp] theorem State.updPcie_wall (p : Nat) (f : PcieState → PcieState) : (s.updPcie p f).wall = s.wall := rfl
@[simp] theorem State.updPcie_time (p : Nat) (f : PcieState → PcieState) : (s.updPcie p f).time = s.time := rfl
@[simp] theorem State.updPcie_board (p : Nat) (f : PcieState → PcieState) : (s.updPcie p f).board = s.board := rfl
@[simp] theorem State.updPcie_tap (p : Nat) (f : PcieState → PcieState) : (s.updPcie p f).tap = s.tap := rfl
@[simp] theorem State.updPcie_power (p : Nat) (f : PcieState → PcieState) : (s.updPcie p f).power = s.power := rfl
@[simp] theorem State.updPcie_clocks (p : Nat) (f : PcieState → PcieState) : (s.updPcie p f).clocks = s.clocks := rfl
@[simp] theorem State.updPcie_thermal (p : Nat) (f : PcieState → PcieState) : (s.updPcie p f).thermal = s.thermal := rfl
@[simp] theorem State.updPcie_straps (p : Nat) (f : PcieState → PcieState) : (s.updPcie p f).straps = s.straps := rfl
@[simp] theorem State.updPcie_boot (p : Nat) (f : PcieState → PcieState) : (s.updPcie p f).boot = s.boot := rfl
@[simp] theorem State.updPcie_flash (p : Nat) (f : PcieState → PcieState) : (s.updPcie p f).flash = s.flash := rfl
@[simp] theorem State.updPcie_fuses (p : Nat) (f : PcieState → PcieState) : (s.updPcie p f).fuses = s.fuses := rfl
@[simp] theorem State.updPcie_security (p : Nat) (f : PcieState → PcieState) : (s.updPcie p f).security = s.security := rfl
@[simp] theorem State.updPcie_models (p : Nat) (f : PcieState → PcieState) : (s.updPcie p f).models = s.models := rfl
@[simp] theorem State.updPcie_dies (p : Nat) (f : PcieState → PcieState) : (s.updPcie p f).dies = s.dies := rfl
@[simp] theorem State.updPcie_faultyEdges (p : Nat) (f : PcieState → PcieState) : (s.updPcie p f).faultyEdges = s.faultyEdges := rfl
@[simp] theorem State.updPcie_cores (p : Nat) (f : PcieState → PcieState) : (s.updPcie p f).cores = s.cores := rfl
@[simp] theorem State.updPcie_feeders (p : Nat) (f : PcieState → PcieState) : (s.updPcie p f).feeders = s.feeders := rfl
@[simp] theorem State.updPcie_memory (p : Nat) (f : PcieState → PcieState) : (s.updPcie p f).memory = s.memory := rfl
@[simp] theorem State.updPcie_lanes (p : Nat) (f : PcieState → PcieState) : (s.updPcie p f).lanes = s.lanes := rfl
@[simp] theorem State.updPcie_guards (p : Nat) (f : PcieState → PcieState) : (s.updPcie p f).guards = s.guards := rfl
@[simp] theorem State.updPcie_mbx (p : Nat) (f : PcieState → PcieState) : (s.updPcie p f).mbx = s.mbx := rfl
@[simp] theorem State.updPcie_ports (p : Nat) (f : PcieState → PcieState) : (s.updPcie p f).ports = s.ports := rfl
@[simp] theorem State.updPcie_smbOffset (p : Nat) (f : PcieState → PcieState) : (s.updPcie p f).smbOffset = s.smbOffset := rfl
@[simp] theorem State.updPcie_alertPending (p : Nat) (f : PcieState → PcieState) : (s.updPcie p f).alertPending = s.alertPending := rfl
@[simp] theorem State.updPcie_owner (p : Nat) (f : PcieState → PcieState) : (s.updPcie p f).owner = s.owner := rfl
@[simp] theorem State.updPcie_log (p : Nat) (f : PcieState → PcieState) : (s.updPcie p f).log = s.log := rfl
@[simp] theorem State.updPcie_pcie (p : Nat) (f : PcieState → PcieState) : (s.updPcie p f).pcie = Tab.upd {} s.pcie p f := rfl
@[simp] theorem State.updPcie_cxl (p : Nat) (f : PcieState → PcieState) : (s.updPcie p f).cxl = s.cxl := rfl
@[simp] theorem State.updPcie_cascade (p : Nat) (f : PcieState → PcieState) : (s.updPcie p f).cascade = s.cascade := rfl
@[simp] theorem State.updPcie_sessions (p : Nat) (f : PcieState → PcieState) : (s.updPcie p f).sessions = s.sessions := rfl
@[simp] theorem State.updPcie_grants (p : Nat) (f : PcieState → PcieState) : (s.updPcie p f).grants = s.grants := rfl
@[simp] theorem State.updPcie_fabricSeq (p : Nat) (f : PcieState → PcieState) : (s.updPcie p f).fabricSeq = s.fabricSeq := rfl
@[simp] theorem State.updPcie_mbxTurn (p : Nat) (f : PcieState → PcieState) : (s.updPcie p f).mbxTurn = s.mbxTurn := rfl
@[simp] theorem State.updPcie_turns (p : Nat) (f : PcieState → PcieState) : (s.updPcie p f).turns = s.turns := rfl
@[simp] theorem State.updPcie_accepted (p : Nat) (f : PcieState → PcieState) : (s.updPcie p f).accepted = s.accepted := rfl
@[simp] theorem State.updPcie_bus (p : Nat) (f : PcieState → PcieState) : (s.updPcie p f).bus = s.bus := rfl
@[simp] theorem State.updPcie_freeTick (p : Nat) (f : PcieState → PcieState) : (s.updPcie p f).freeTick = s.freeTick := rfl

/-! ### updCxl -/

@[simp] theorem State.updCxl_pending (x : Nat) (f : CxlState → CxlState) : (s.updCxl x f).pending = s.pending := rfl
@[simp] theorem State.updCxl_wall (x : Nat) (f : CxlState → CxlState) : (s.updCxl x f).wall = s.wall := rfl
@[simp] theorem State.updCxl_time (x : Nat) (f : CxlState → CxlState) : (s.updCxl x f).time = s.time := rfl
@[simp] theorem State.updCxl_board (x : Nat) (f : CxlState → CxlState) : (s.updCxl x f).board = s.board := rfl
@[simp] theorem State.updCxl_tap (x : Nat) (f : CxlState → CxlState) : (s.updCxl x f).tap = s.tap := rfl
@[simp] theorem State.updCxl_power (x : Nat) (f : CxlState → CxlState) : (s.updCxl x f).power = s.power := rfl
@[simp] theorem State.updCxl_clocks (x : Nat) (f : CxlState → CxlState) : (s.updCxl x f).clocks = s.clocks := rfl
@[simp] theorem State.updCxl_thermal (x : Nat) (f : CxlState → CxlState) : (s.updCxl x f).thermal = s.thermal := rfl
@[simp] theorem State.updCxl_straps (x : Nat) (f : CxlState → CxlState) : (s.updCxl x f).straps = s.straps := rfl
@[simp] theorem State.updCxl_boot (x : Nat) (f : CxlState → CxlState) : (s.updCxl x f).boot = s.boot := rfl
@[simp] theorem State.updCxl_flash (x : Nat) (f : CxlState → CxlState) : (s.updCxl x f).flash = s.flash := rfl
@[simp] theorem State.updCxl_fuses (x : Nat) (f : CxlState → CxlState) : (s.updCxl x f).fuses = s.fuses := rfl
@[simp] theorem State.updCxl_security (x : Nat) (f : CxlState → CxlState) : (s.updCxl x f).security = s.security := rfl
@[simp] theorem State.updCxl_models (x : Nat) (f : CxlState → CxlState) : (s.updCxl x f).models = s.models := rfl
@[simp] theorem State.updCxl_dies (x : Nat) (f : CxlState → CxlState) : (s.updCxl x f).dies = s.dies := rfl
@[simp] theorem State.updCxl_faultyEdges (x : Nat) (f : CxlState → CxlState) : (s.updCxl x f).faultyEdges = s.faultyEdges := rfl
@[simp] theorem State.updCxl_cores (x : Nat) (f : CxlState → CxlState) : (s.updCxl x f).cores = s.cores := rfl
@[simp] theorem State.updCxl_feeders (x : Nat) (f : CxlState → CxlState) : (s.updCxl x f).feeders = s.feeders := rfl
@[simp] theorem State.updCxl_memory (x : Nat) (f : CxlState → CxlState) : (s.updCxl x f).memory = s.memory := rfl
@[simp] theorem State.updCxl_lanes (x : Nat) (f : CxlState → CxlState) : (s.updCxl x f).lanes = s.lanes := rfl
@[simp] theorem State.updCxl_guards (x : Nat) (f : CxlState → CxlState) : (s.updCxl x f).guards = s.guards := rfl
@[simp] theorem State.updCxl_mbx (x : Nat) (f : CxlState → CxlState) : (s.updCxl x f).mbx = s.mbx := rfl
@[simp] theorem State.updCxl_ports (x : Nat) (f : CxlState → CxlState) : (s.updCxl x f).ports = s.ports := rfl
@[simp] theorem State.updCxl_smbOffset (x : Nat) (f : CxlState → CxlState) : (s.updCxl x f).smbOffset = s.smbOffset := rfl
@[simp] theorem State.updCxl_alertPending (x : Nat) (f : CxlState → CxlState) : (s.updCxl x f).alertPending = s.alertPending := rfl
@[simp] theorem State.updCxl_owner (x : Nat) (f : CxlState → CxlState) : (s.updCxl x f).owner = s.owner := rfl
@[simp] theorem State.updCxl_log (x : Nat) (f : CxlState → CxlState) : (s.updCxl x f).log = s.log := rfl
@[simp] theorem State.updCxl_pcie (x : Nat) (f : CxlState → CxlState) : (s.updCxl x f).pcie = s.pcie := rfl
@[simp] theorem State.updCxl_cxl (x : Nat) (f : CxlState → CxlState) : (s.updCxl x f).cxl = Tab.upd {} s.cxl x f := rfl
@[simp] theorem State.updCxl_cascade (x : Nat) (f : CxlState → CxlState) : (s.updCxl x f).cascade = s.cascade := rfl
@[simp] theorem State.updCxl_sessions (x : Nat) (f : CxlState → CxlState) : (s.updCxl x f).sessions = s.sessions := rfl
@[simp] theorem State.updCxl_grants (x : Nat) (f : CxlState → CxlState) : (s.updCxl x f).grants = s.grants := rfl
@[simp] theorem State.updCxl_fabricSeq (x : Nat) (f : CxlState → CxlState) : (s.updCxl x f).fabricSeq = s.fabricSeq := rfl
@[simp] theorem State.updCxl_mbxTurn (x : Nat) (f : CxlState → CxlState) : (s.updCxl x f).mbxTurn = s.mbxTurn := rfl
@[simp] theorem State.updCxl_turns (x : Nat) (f : CxlState → CxlState) : (s.updCxl x f).turns = s.turns := rfl
@[simp] theorem State.updCxl_accepted (x : Nat) (f : CxlState → CxlState) : (s.updCxl x f).accepted = s.accepted := rfl
@[simp] theorem State.updCxl_bus (x : Nat) (f : CxlState → CxlState) : (s.updCxl x f).bus = s.bus := rfl
@[simp] theorem State.updCxl_freeTick (x : Nat) (f : CxlState → CxlState) : (s.updCxl x f).freeTick = s.freeTick := rfl

/-! ### updSession -/

@[simp] theorem State.updSession_pending (i : Nat) (f : Session → Session) : (s.updSession i f).pending = s.pending := rfl
@[simp] theorem State.updSession_wall (i : Nat) (f : Session → Session) : (s.updSession i f).wall = s.wall := rfl
@[simp] theorem State.updSession_time (i : Nat) (f : Session → Session) : (s.updSession i f).time = s.time := rfl
@[simp] theorem State.updSession_board (i : Nat) (f : Session → Session) : (s.updSession i f).board = s.board := rfl
@[simp] theorem State.updSession_tap (i : Nat) (f : Session → Session) : (s.updSession i f).tap = s.tap := rfl
@[simp] theorem State.updSession_power (i : Nat) (f : Session → Session) : (s.updSession i f).power = s.power := rfl
@[simp] theorem State.updSession_clocks (i : Nat) (f : Session → Session) : (s.updSession i f).clocks = s.clocks := rfl
@[simp] theorem State.updSession_thermal (i : Nat) (f : Session → Session) : (s.updSession i f).thermal = s.thermal := rfl
@[simp] theorem State.updSession_straps (i : Nat) (f : Session → Session) : (s.updSession i f).straps = s.straps := rfl
@[simp] theorem State.updSession_boot (i : Nat) (f : Session → Session) : (s.updSession i f).boot = s.boot := rfl
@[simp] theorem State.updSession_flash (i : Nat) (f : Session → Session) : (s.updSession i f).flash = s.flash := rfl
@[simp] theorem State.updSession_fuses (i : Nat) (f : Session → Session) : (s.updSession i f).fuses = s.fuses := rfl
@[simp] theorem State.updSession_security (i : Nat) (f : Session → Session) : (s.updSession i f).security = s.security := rfl
@[simp] theorem State.updSession_models (i : Nat) (f : Session → Session) : (s.updSession i f).models = s.models := rfl
@[simp] theorem State.updSession_dies (i : Nat) (f : Session → Session) : (s.updSession i f).dies = s.dies := rfl
@[simp] theorem State.updSession_faultyEdges (i : Nat) (f : Session → Session) : (s.updSession i f).faultyEdges = s.faultyEdges := rfl
@[simp] theorem State.updSession_cores (i : Nat) (f : Session → Session) : (s.updSession i f).cores = s.cores := rfl
@[simp] theorem State.updSession_feeders (i : Nat) (f : Session → Session) : (s.updSession i f).feeders = s.feeders := rfl
@[simp] theorem State.updSession_memory (i : Nat) (f : Session → Session) : (s.updSession i f).memory = s.memory := rfl
@[simp] theorem State.updSession_lanes (i : Nat) (f : Session → Session) : (s.updSession i f).lanes = s.lanes := rfl
@[simp] theorem State.updSession_guards (i : Nat) (f : Session → Session) : (s.updSession i f).guards = s.guards := rfl
@[simp] theorem State.updSession_mbx (i : Nat) (f : Session → Session) : (s.updSession i f).mbx = s.mbx := rfl
@[simp] theorem State.updSession_ports (i : Nat) (f : Session → Session) : (s.updSession i f).ports = s.ports := rfl
@[simp] theorem State.updSession_smbOffset (i : Nat) (f : Session → Session) : (s.updSession i f).smbOffset = s.smbOffset := rfl
@[simp] theorem State.updSession_alertPending (i : Nat) (f : Session → Session) : (s.updSession i f).alertPending = s.alertPending := rfl
@[simp] theorem State.updSession_owner (i : Nat) (f : Session → Session) : (s.updSession i f).owner = s.owner := rfl
@[simp] theorem State.updSession_log (i : Nat) (f : Session → Session) : (s.updSession i f).log = s.log := rfl
@[simp] theorem State.updSession_pcie (i : Nat) (f : Session → Session) : (s.updSession i f).pcie = s.pcie := rfl
@[simp] theorem State.updSession_cxl (i : Nat) (f : Session → Session) : (s.updSession i f).cxl = s.cxl := rfl
@[simp] theorem State.updSession_cascade (i : Nat) (f : Session → Session) : (s.updSession i f).cascade = s.cascade := rfl
@[simp] theorem State.updSession_sessions (i : Nat) (f : Session → Session) : (s.updSession i f).sessions = Tab.upd {} s.sessions i f := rfl
@[simp] theorem State.updSession_grants (i : Nat) (f : Session → Session) : (s.updSession i f).grants = s.grants := rfl
@[simp] theorem State.updSession_fabricSeq (i : Nat) (f : Session → Session) : (s.updSession i f).fabricSeq = s.fabricSeq := rfl
@[simp] theorem State.updSession_mbxTurn (i : Nat) (f : Session → Session) : (s.updSession i f).mbxTurn = s.mbxTurn := rfl
@[simp] theorem State.updSession_turns (i : Nat) (f : Session → Session) : (s.updSession i f).turns = s.turns := rfl
@[simp] theorem State.updSession_accepted (i : Nat) (f : Session → Session) : (s.updSession i f).accepted = s.accepted := rfl
@[simp] theorem State.updSession_bus (i : Nat) (f : Session → Session) : (s.updSession i f).bus = s.bus := rfl
@[simp] theorem State.updSession_freeTick (i : Nat) (f : Session → Session) : (s.updSession i f).freeTick = s.freeTick := rfl

/-! ### updCascadePort -/

@[simp] theorem State.updCascadePort_pending (q : Nat) (f : CascadePort → CascadePort) : (s.updCascadePort q f).pending = s.pending := rfl
@[simp] theorem State.updCascadePort_wall (q : Nat) (f : CascadePort → CascadePort) : (s.updCascadePort q f).wall = s.wall := rfl
@[simp] theorem State.updCascadePort_time (q : Nat) (f : CascadePort → CascadePort) : (s.updCascadePort q f).time = s.time := rfl
@[simp] theorem State.updCascadePort_board (q : Nat) (f : CascadePort → CascadePort) : (s.updCascadePort q f).board = s.board := rfl
@[simp] theorem State.updCascadePort_tap (q : Nat) (f : CascadePort → CascadePort) : (s.updCascadePort q f).tap = s.tap := rfl
@[simp] theorem State.updCascadePort_power (q : Nat) (f : CascadePort → CascadePort) : (s.updCascadePort q f).power = s.power := rfl
@[simp] theorem State.updCascadePort_clocks (q : Nat) (f : CascadePort → CascadePort) : (s.updCascadePort q f).clocks = s.clocks := rfl
@[simp] theorem State.updCascadePort_thermal (q : Nat) (f : CascadePort → CascadePort) : (s.updCascadePort q f).thermal = s.thermal := rfl
@[simp] theorem State.updCascadePort_straps (q : Nat) (f : CascadePort → CascadePort) : (s.updCascadePort q f).straps = s.straps := rfl
@[simp] theorem State.updCascadePort_boot (q : Nat) (f : CascadePort → CascadePort) : (s.updCascadePort q f).boot = s.boot := rfl
@[simp] theorem State.updCascadePort_flash (q : Nat) (f : CascadePort → CascadePort) : (s.updCascadePort q f).flash = s.flash := rfl
@[simp] theorem State.updCascadePort_fuses (q : Nat) (f : CascadePort → CascadePort) : (s.updCascadePort q f).fuses = s.fuses := rfl
@[simp] theorem State.updCascadePort_security (q : Nat) (f : CascadePort → CascadePort) : (s.updCascadePort q f).security = s.security := rfl
@[simp] theorem State.updCascadePort_models (q : Nat) (f : CascadePort → CascadePort) : (s.updCascadePort q f).models = s.models := rfl
@[simp] theorem State.updCascadePort_dies (q : Nat) (f : CascadePort → CascadePort) : (s.updCascadePort q f).dies = s.dies := rfl
@[simp] theorem State.updCascadePort_faultyEdges (q : Nat) (f : CascadePort → CascadePort) : (s.updCascadePort q f).faultyEdges = s.faultyEdges := rfl
@[simp] theorem State.updCascadePort_cores (q : Nat) (f : CascadePort → CascadePort) : (s.updCascadePort q f).cores = s.cores := rfl
@[simp] theorem State.updCascadePort_feeders (q : Nat) (f : CascadePort → CascadePort) : (s.updCascadePort q f).feeders = s.feeders := rfl
@[simp] theorem State.updCascadePort_memory (q : Nat) (f : CascadePort → CascadePort) : (s.updCascadePort q f).memory = s.memory := rfl
@[simp] theorem State.updCascadePort_lanes (q : Nat) (f : CascadePort → CascadePort) : (s.updCascadePort q f).lanes = s.lanes := rfl
@[simp] theorem State.updCascadePort_guards (q : Nat) (f : CascadePort → CascadePort) : (s.updCascadePort q f).guards = s.guards := rfl
@[simp] theorem State.updCascadePort_mbx (q : Nat) (f : CascadePort → CascadePort) : (s.updCascadePort q f).mbx = s.mbx := rfl
@[simp] theorem State.updCascadePort_ports (q : Nat) (f : CascadePort → CascadePort) : (s.updCascadePort q f).ports = s.ports := rfl
@[simp] theorem State.updCascadePort_smbOffset (q : Nat) (f : CascadePort → CascadePort) : (s.updCascadePort q f).smbOffset = s.smbOffset := rfl
@[simp] theorem State.updCascadePort_alertPending (q : Nat) (f : CascadePort → CascadePort) : (s.updCascadePort q f).alertPending = s.alertPending := rfl
@[simp] theorem State.updCascadePort_owner (q : Nat) (f : CascadePort → CascadePort) : (s.updCascadePort q f).owner = s.owner := rfl
@[simp] theorem State.updCascadePort_log (q : Nat) (f : CascadePort → CascadePort) : (s.updCascadePort q f).log = s.log := rfl
@[simp] theorem State.updCascadePort_pcie (q : Nat) (f : CascadePort → CascadePort) : (s.updCascadePort q f).pcie = s.pcie := rfl
@[simp] theorem State.updCascadePort_cxl (q : Nat) (f : CascadePort → CascadePort) : (s.updCascadePort q f).cxl = s.cxl := rfl
@[simp] theorem State.updCascadePort_sessions (q : Nat) (f : CascadePort → CascadePort) : (s.updCascadePort q f).sessions = s.sessions := rfl
@[simp] theorem State.updCascadePort_grants (q : Nat) (f : CascadePort → CascadePort) : (s.updCascadePort q f).grants = s.grants := rfl
@[simp] theorem State.updCascadePort_fabricSeq (q : Nat) (f : CascadePort → CascadePort) : (s.updCascadePort q f).fabricSeq = s.fabricSeq := rfl
@[simp] theorem State.updCascadePort_mbxTurn (q : Nat) (f : CascadePort → CascadePort) : (s.updCascadePort q f).mbxTurn = s.mbxTurn := rfl
@[simp] theorem State.updCascadePort_turns (q : Nat) (f : CascadePort → CascadePort) : (s.updCascadePort q f).turns = s.turns := rfl
@[simp] theorem State.updCascadePort_accepted (q : Nat) (f : CascadePort → CascadePort) : (s.updCascadePort q f).accepted = s.accepted := rfl
@[simp] theorem State.updCascadePort_bus (q : Nat) (f : CascadePort → CascadePort) : (s.updCascadePort q f).bus = s.bus := rfl
@[simp] theorem State.updCascadePort_freeTick (q : Nat) (f : CascadePort → CascadePort) : (s.updCascadePort q f).freeTick = s.freeTick := rfl

/-! ### updPll -/

@[simp] theorem State.updPll_pending (d : Nat) (f : Pll → Pll) : (s.updPll d f).pending = s.pending := rfl
@[simp] theorem State.updPll_wall (d : Nat) (f : Pll → Pll) : (s.updPll d f).wall = s.wall := rfl
@[simp] theorem State.updPll_time (d : Nat) (f : Pll → Pll) : (s.updPll d f).time = s.time := rfl
@[simp] theorem State.updPll_board (d : Nat) (f : Pll → Pll) : (s.updPll d f).board = s.board := rfl
@[simp] theorem State.updPll_tap (d : Nat) (f : Pll → Pll) : (s.updPll d f).tap = s.tap := rfl
@[simp] theorem State.updPll_power (d : Nat) (f : Pll → Pll) : (s.updPll d f).power = s.power := rfl
@[simp] theorem State.updPll_thermal (d : Nat) (f : Pll → Pll) : (s.updPll d f).thermal = s.thermal := rfl
@[simp] theorem State.updPll_straps (d : Nat) (f : Pll → Pll) : (s.updPll d f).straps = s.straps := rfl
@[simp] theorem State.updPll_boot (d : Nat) (f : Pll → Pll) : (s.updPll d f).boot = s.boot := rfl
@[simp] theorem State.updPll_flash (d : Nat) (f : Pll → Pll) : (s.updPll d f).flash = s.flash := rfl
@[simp] theorem State.updPll_fuses (d : Nat) (f : Pll → Pll) : (s.updPll d f).fuses = s.fuses := rfl
@[simp] theorem State.updPll_security (d : Nat) (f : Pll → Pll) : (s.updPll d f).security = s.security := rfl
@[simp] theorem State.updPll_models (d : Nat) (f : Pll → Pll) : (s.updPll d f).models = s.models := rfl
@[simp] theorem State.updPll_dies (d : Nat) (f : Pll → Pll) : (s.updPll d f).dies = s.dies := rfl
@[simp] theorem State.updPll_faultyEdges (d : Nat) (f : Pll → Pll) : (s.updPll d f).faultyEdges = s.faultyEdges := rfl
@[simp] theorem State.updPll_cores (d : Nat) (f : Pll → Pll) : (s.updPll d f).cores = s.cores := rfl
@[simp] theorem State.updPll_feeders (d : Nat) (f : Pll → Pll) : (s.updPll d f).feeders = s.feeders := rfl
@[simp] theorem State.updPll_memory (d : Nat) (f : Pll → Pll) : (s.updPll d f).memory = s.memory := rfl
@[simp] theorem State.updPll_lanes (d : Nat) (f : Pll → Pll) : (s.updPll d f).lanes = s.lanes := rfl
@[simp] theorem State.updPll_guards (d : Nat) (f : Pll → Pll) : (s.updPll d f).guards = s.guards := rfl
@[simp] theorem State.updPll_mbx (d : Nat) (f : Pll → Pll) : (s.updPll d f).mbx = s.mbx := rfl
@[simp] theorem State.updPll_ports (d : Nat) (f : Pll → Pll) : (s.updPll d f).ports = s.ports := rfl
@[simp] theorem State.updPll_smbOffset (d : Nat) (f : Pll → Pll) : (s.updPll d f).smbOffset = s.smbOffset := rfl
@[simp] theorem State.updPll_alertPending (d : Nat) (f : Pll → Pll) : (s.updPll d f).alertPending = s.alertPending := rfl
@[simp] theorem State.updPll_owner (d : Nat) (f : Pll → Pll) : (s.updPll d f).owner = s.owner := rfl
@[simp] theorem State.updPll_log (d : Nat) (f : Pll → Pll) : (s.updPll d f).log = s.log := rfl
@[simp] theorem State.updPll_pcie (d : Nat) (f : Pll → Pll) : (s.updPll d f).pcie = s.pcie := rfl
@[simp] theorem State.updPll_cxl (d : Nat) (f : Pll → Pll) : (s.updPll d f).cxl = s.cxl := rfl
@[simp] theorem State.updPll_cascade (d : Nat) (f : Pll → Pll) : (s.updPll d f).cascade = s.cascade := rfl
@[simp] theorem State.updPll_sessions (d : Nat) (f : Pll → Pll) : (s.updPll d f).sessions = s.sessions := rfl
@[simp] theorem State.updPll_grants (d : Nat) (f : Pll → Pll) : (s.updPll d f).grants = s.grants := rfl
@[simp] theorem State.updPll_fabricSeq (d : Nat) (f : Pll → Pll) : (s.updPll d f).fabricSeq = s.fabricSeq := rfl
@[simp] theorem State.updPll_mbxTurn (d : Nat) (f : Pll → Pll) : (s.updPll d f).mbxTurn = s.mbxTurn := rfl
@[simp] theorem State.updPll_turns (d : Nat) (f : Pll → Pll) : (s.updPll d f).turns = s.turns := rfl
@[simp] theorem State.updPll_accepted (d : Nat) (f : Pll → Pll) : (s.updPll d f).accepted = s.accepted := rfl
@[simp] theorem State.updPll_bus (d : Nat) (f : Pll → Pll) : (s.updPll d f).bus = s.bus := rfl
@[simp] theorem State.updPll_freeTick (d : Nat) (f : Pll → Pll) : (s.updPll d f).freeTick = s.freeTick := rfl

/-! ### updChannel -/

@[simp] theorem State.updChannel_pending (m c : Nat) (f : GddrChannel → GddrChannel) : (s.updChannel m c f).pending = s.pending := rfl
@[simp] theorem State.updChannel_wall (m c : Nat) (f : GddrChannel → GddrChannel) : (s.updChannel m c f).wall = s.wall := rfl
@[simp] theorem State.updChannel_time (m c : Nat) (f : GddrChannel → GddrChannel) : (s.updChannel m c f).time = s.time := rfl
@[simp] theorem State.updChannel_board (m c : Nat) (f : GddrChannel → GddrChannel) : (s.updChannel m c f).board = s.board := rfl
@[simp] theorem State.updChannel_tap (m c : Nat) (f : GddrChannel → GddrChannel) : (s.updChannel m c f).tap = s.tap := rfl
@[simp] theorem State.updChannel_power (m c : Nat) (f : GddrChannel → GddrChannel) : (s.updChannel m c f).power = s.power := rfl
@[simp] theorem State.updChannel_clocks (m c : Nat) (f : GddrChannel → GddrChannel) : (s.updChannel m c f).clocks = s.clocks := rfl
@[simp] theorem State.updChannel_thermal (m c : Nat) (f : GddrChannel → GddrChannel) : (s.updChannel m c f).thermal = s.thermal := rfl
@[simp] theorem State.updChannel_straps (m c : Nat) (f : GddrChannel → GddrChannel) : (s.updChannel m c f).straps = s.straps := rfl
@[simp] theorem State.updChannel_boot (m c : Nat) (f : GddrChannel → GddrChannel) : (s.updChannel m c f).boot = s.boot := rfl
@[simp] theorem State.updChannel_flash (m c : Nat) (f : GddrChannel → GddrChannel) : (s.updChannel m c f).flash = s.flash := rfl
@[simp] theorem State.updChannel_fuses (m c : Nat) (f : GddrChannel → GddrChannel) : (s.updChannel m c f).fuses = s.fuses := rfl
@[simp] theorem State.updChannel_security (m c : Nat) (f : GddrChannel → GddrChannel) : (s.updChannel m c f).security = s.security := rfl
@[simp] theorem State.updChannel_models (m c : Nat) (f : GddrChannel → GddrChannel) : (s.updChannel m c f).models = s.models := rfl
@[simp] theorem State.updChannel_dies (m c : Nat) (f : GddrChannel → GddrChannel) : (s.updChannel m c f).dies = s.dies := rfl
@[simp] theorem State.updChannel_faultyEdges (m c : Nat) (f : GddrChannel → GddrChannel) : (s.updChannel m c f).faultyEdges = s.faultyEdges := rfl
@[simp] theorem State.updChannel_cores (m c : Nat) (f : GddrChannel → GddrChannel) : (s.updChannel m c f).cores = s.cores := rfl
@[simp] theorem State.updChannel_feeders (m c : Nat) (f : GddrChannel → GddrChannel) : (s.updChannel m c f).feeders = s.feeders := rfl
@[simp] theorem State.updChannel_lanes (m c : Nat) (f : GddrChannel → GddrChannel) : (s.updChannel m c f).lanes = s.lanes := rfl
@[simp] theorem State.updChannel_guards (m c : Nat) (f : GddrChannel → GddrChannel) : (s.updChannel m c f).guards = s.guards := rfl
@[simp] theorem State.updChannel_mbx (m c : Nat) (f : GddrChannel → GddrChannel) : (s.updChannel m c f).mbx = s.mbx := rfl
@[simp] theorem State.updChannel_ports (m c : Nat) (f : GddrChannel → GddrChannel) : (s.updChannel m c f).ports = s.ports := rfl
@[simp] theorem State.updChannel_smbOffset (m c : Nat) (f : GddrChannel → GddrChannel) : (s.updChannel m c f).smbOffset = s.smbOffset := rfl
@[simp] theorem State.updChannel_alertPending (m c : Nat) (f : GddrChannel → GddrChannel) : (s.updChannel m c f).alertPending = s.alertPending := rfl
@[simp] theorem State.updChannel_owner (m c : Nat) (f : GddrChannel → GddrChannel) : (s.updChannel m c f).owner = s.owner := rfl
@[simp] theorem State.updChannel_log (m c : Nat) (f : GddrChannel → GddrChannel) : (s.updChannel m c f).log = s.log := rfl
@[simp] theorem State.updChannel_pcie (m c : Nat) (f : GddrChannel → GddrChannel) : (s.updChannel m c f).pcie = s.pcie := rfl
@[simp] theorem State.updChannel_cxl (m c : Nat) (f : GddrChannel → GddrChannel) : (s.updChannel m c f).cxl = s.cxl := rfl
@[simp] theorem State.updChannel_cascade (m c : Nat) (f : GddrChannel → GddrChannel) : (s.updChannel m c f).cascade = s.cascade := rfl
@[simp] theorem State.updChannel_sessions (m c : Nat) (f : GddrChannel → GddrChannel) : (s.updChannel m c f).sessions = s.sessions := rfl
@[simp] theorem State.updChannel_grants (m c : Nat) (f : GddrChannel → GddrChannel) : (s.updChannel m c f).grants = s.grants := rfl
@[simp] theorem State.updChannel_fabricSeq (m c : Nat) (f : GddrChannel → GddrChannel) : (s.updChannel m c f).fabricSeq = s.fabricSeq := rfl
@[simp] theorem State.updChannel_mbxTurn (m c : Nat) (f : GddrChannel → GddrChannel) : (s.updChannel m c f).mbxTurn = s.mbxTurn := rfl
@[simp] theorem State.updChannel_turns (m c : Nat) (f : GddrChannel → GddrChannel) : (s.updChannel m c f).turns = s.turns := rfl
@[simp] theorem State.updChannel_accepted (m c : Nat) (f : GddrChannel → GddrChannel) : (s.updChannel m c f).accepted = s.accepted := rfl
@[simp] theorem State.updChannel_bus (m c : Nat) (f : GddrChannel → GddrChannel) : (s.updChannel m c f).bus = s.bus := rfl
@[simp] theorem State.updChannel_freeTick (m c : Nat) (f : GddrChannel → GddrChannel) : (s.updChannel m c f).freeTick = s.freeTick := rfl

/-! ### alert -/

@[simp] theorem State.alert_pending : (s.alert).pending = s.pending := rfl
@[simp] theorem State.alert_wall : (s.alert).wall = s.wall := rfl
@[simp] theorem State.alert_time : (s.alert).time = s.time := rfl
@[simp] theorem State.alert_board : (s.alert).board = s.board := rfl
@[simp] theorem State.alert_tap : (s.alert).tap = s.tap := rfl
@[simp] theorem State.alert_power : (s.alert).power = s.power := rfl
@[simp] theorem State.alert_clocks : (s.alert).clocks = s.clocks := rfl
@[simp] theorem State.alert_thermal : (s.alert).thermal = s.thermal := rfl
@[simp] theorem State.alert_straps : (s.alert).straps = s.straps := rfl
@[simp] theorem State.alert_boot : (s.alert).boot = s.boot := rfl
@[simp] theorem State.alert_flash : (s.alert).flash = s.flash := rfl
@[simp] theorem State.alert_fuses : (s.alert).fuses = s.fuses := rfl
@[simp] theorem State.alert_security : (s.alert).security = s.security := rfl
@[simp] theorem State.alert_models : (s.alert).models = s.models := rfl
@[simp] theorem State.alert_dies : (s.alert).dies = s.dies := rfl
@[simp] theorem State.alert_faultyEdges : (s.alert).faultyEdges = s.faultyEdges := rfl
@[simp] theorem State.alert_cores : (s.alert).cores = s.cores := rfl
@[simp] theorem State.alert_feeders : (s.alert).feeders = s.feeders := rfl
@[simp] theorem State.alert_memory : (s.alert).memory = s.memory := rfl
@[simp] theorem State.alert_lanes : (s.alert).lanes = s.lanes := rfl
@[simp] theorem State.alert_guards : (s.alert).guards = s.guards := rfl
@[simp] theorem State.alert_mbx : (s.alert).mbx = s.mbx := rfl
@[simp] theorem State.alert_ports : (s.alert).ports = s.ports := rfl
@[simp] theorem State.alert_smbOffset : (s.alert).smbOffset = s.smbOffset := rfl
@[simp] theorem State.alert_alertPending : (s.alert).alertPending = true := rfl
@[simp] theorem State.alert_owner : (s.alert).owner = s.owner := rfl
@[simp] theorem State.alert_log : (s.alert).log = s.log := rfl
@[simp] theorem State.alert_pcie : (s.alert).pcie = s.pcie := rfl
@[simp] theorem State.alert_cxl : (s.alert).cxl = s.cxl := rfl
@[simp] theorem State.alert_cascade : (s.alert).cascade = s.cascade := rfl
@[simp] theorem State.alert_sessions : (s.alert).sessions = s.sessions := rfl
@[simp] theorem State.alert_grants : (s.alert).grants = s.grants := rfl
@[simp] theorem State.alert_fabricSeq : (s.alert).fabricSeq = s.fabricSeq := rfl
@[simp] theorem State.alert_mbxTurn : (s.alert).mbxTurn = s.mbxTurn := rfl
@[simp] theorem State.alert_turns : (s.alert).turns = s.turns := rfl
@[simp] theorem State.alert_accepted : (s.alert).accepted = s.accepted := rfl
@[simp] theorem State.alert_bus : (s.alert).bus = s.bus := rfl
@[simp] theorem State.alert_freeTick : (s.alert).freeTick = s.freeTick := rfl

/-! ### setGrantQueue -/

@[simp] theorem State.setGrantQueue_pending (m : Nat) (q : List GrantReq) : (s.setGrantQueue m q).pending = s.pending := rfl
@[simp] theorem State.setGrantQueue_wall (m : Nat) (q : List GrantReq) : (s.setGrantQueue m q).wall = s.wall := rfl
@[simp] theorem State.setGrantQueue_time (m : Nat) (q : List GrantReq) : (s.setGrantQueue m q).time = s.time := rfl
@[simp] theorem State.setGrantQueue_board (m : Nat) (q : List GrantReq) : (s.setGrantQueue m q).board = s.board := rfl
@[simp] theorem State.setGrantQueue_tap (m : Nat) (q : List GrantReq) : (s.setGrantQueue m q).tap = s.tap := rfl
@[simp] theorem State.setGrantQueue_power (m : Nat) (q : List GrantReq) : (s.setGrantQueue m q).power = s.power := rfl
@[simp] theorem State.setGrantQueue_clocks (m : Nat) (q : List GrantReq) : (s.setGrantQueue m q).clocks = s.clocks := rfl
@[simp] theorem State.setGrantQueue_thermal (m : Nat) (q : List GrantReq) : (s.setGrantQueue m q).thermal = s.thermal := rfl
@[simp] theorem State.setGrantQueue_straps (m : Nat) (q : List GrantReq) : (s.setGrantQueue m q).straps = s.straps := rfl
@[simp] theorem State.setGrantQueue_boot (m : Nat) (q : List GrantReq) : (s.setGrantQueue m q).boot = s.boot := rfl
@[simp] theorem State.setGrantQueue_flash (m : Nat) (q : List GrantReq) : (s.setGrantQueue m q).flash = s.flash := rfl
@[simp] theorem State.setGrantQueue_fuses (m : Nat) (q : List GrantReq) : (s.setGrantQueue m q).fuses = s.fuses := rfl
@[simp] theorem State.setGrantQueue_security (m : Nat) (q : List GrantReq) : (s.setGrantQueue m q).security = s.security := rfl
@[simp] theorem State.setGrantQueue_models (m : Nat) (q : List GrantReq) : (s.setGrantQueue m q).models = s.models := rfl
@[simp] theorem State.setGrantQueue_dies (m : Nat) (q : List GrantReq) : (s.setGrantQueue m q).dies = s.dies := rfl
@[simp] theorem State.setGrantQueue_faultyEdges (m : Nat) (q : List GrantReq) : (s.setGrantQueue m q).faultyEdges = s.faultyEdges := rfl
@[simp] theorem State.setGrantQueue_cores (m : Nat) (q : List GrantReq) : (s.setGrantQueue m q).cores = s.cores := rfl
@[simp] theorem State.setGrantQueue_feeders (m : Nat) (q : List GrantReq) : (s.setGrantQueue m q).feeders = s.feeders := rfl
@[simp] theorem State.setGrantQueue_memory (m : Nat) (q : List GrantReq) : (s.setGrantQueue m q).memory = s.memory := rfl
@[simp] theorem State.setGrantQueue_lanes (m : Nat) (q : List GrantReq) : (s.setGrantQueue m q).lanes = s.lanes := rfl
@[simp] theorem State.setGrantQueue_guards (m : Nat) (q : List GrantReq) : (s.setGrantQueue m q).guards = s.guards := rfl
@[simp] theorem State.setGrantQueue_mbx (m : Nat) (q : List GrantReq) : (s.setGrantQueue m q).mbx = s.mbx := rfl
@[simp] theorem State.setGrantQueue_ports (m : Nat) (q : List GrantReq) : (s.setGrantQueue m q).ports = s.ports := rfl
@[simp] theorem State.setGrantQueue_smbOffset (m : Nat) (q : List GrantReq) : (s.setGrantQueue m q).smbOffset = s.smbOffset := rfl
@[simp] theorem State.setGrantQueue_alertPending (m : Nat) (q : List GrantReq) : (s.setGrantQueue m q).alertPending = s.alertPending := rfl
@[simp] theorem State.setGrantQueue_owner (m : Nat) (q : List GrantReq) : (s.setGrantQueue m q).owner = s.owner := rfl
@[simp] theorem State.setGrantQueue_log (m : Nat) (q : List GrantReq) : (s.setGrantQueue m q).log = s.log := rfl
@[simp] theorem State.setGrantQueue_pcie (m : Nat) (q : List GrantReq) : (s.setGrantQueue m q).pcie = s.pcie := rfl
@[simp] theorem State.setGrantQueue_cxl (m : Nat) (q : List GrantReq) : (s.setGrantQueue m q).cxl = s.cxl := rfl
@[simp] theorem State.setGrantQueue_cascade (m : Nat) (q : List GrantReq) : (s.setGrantQueue m q).cascade = s.cascade := rfl
@[simp] theorem State.setGrantQueue_sessions (m : Nat) (q : List GrantReq) : (s.setGrantQueue m q).sessions = s.sessions := rfl
@[simp] theorem State.setGrantQueue_grants (m : Nat) (q : List GrantReq) : (s.setGrantQueue m q).grants = Tab.set [] s.grants m q := rfl
@[simp] theorem State.setGrantQueue_fabricSeq (m : Nat) (q : List GrantReq) : (s.setGrantQueue m q).fabricSeq = s.fabricSeq := rfl
@[simp] theorem State.setGrantQueue_mbxTurn (m : Nat) (q : List GrantReq) : (s.setGrantQueue m q).mbxTurn = s.mbxTurn := rfl
@[simp] theorem State.setGrantQueue_turns (m : Nat) (q : List GrantReq) : (s.setGrantQueue m q).turns = s.turns := rfl
@[simp] theorem State.setGrantQueue_accepted (m : Nat) (q : List GrantReq) : (s.setGrantQueue m q).accepted = s.accepted := rfl
@[simp] theorem State.setGrantQueue_bus (m : Nat) (q : List GrantReq) : (s.setGrantQueue m q).bus = s.bus := rfl
@[simp] theorem State.setGrantQueue_freeTick (m : Nat) (q : List GrantReq) : (s.setGrantQueue m q).freeTick = s.freeTick := rfl

/-! ### setBus -/

@[simp] theorem State.setBus_pending (d : Bytes) : (s.setBus d).pending = s.pending := rfl
@[simp] theorem State.setBus_wall (d : Bytes) : (s.setBus d).wall = s.wall := rfl
@[simp] theorem State.setBus_time (d : Bytes) : (s.setBus d).time = s.time := rfl
@[simp] theorem State.setBus_board (d : Bytes) : (s.setBus d).board = s.board := rfl
@[simp] theorem State.setBus_tap (d : Bytes) : (s.setBus d).tap = s.tap := rfl
@[simp] theorem State.setBus_power (d : Bytes) : (s.setBus d).power = s.power := rfl
@[simp] theorem State.setBus_clocks (d : Bytes) : (s.setBus d).clocks = s.clocks := rfl
@[simp] theorem State.setBus_thermal (d : Bytes) : (s.setBus d).thermal = s.thermal := rfl
@[simp] theorem State.setBus_straps (d : Bytes) : (s.setBus d).straps = s.straps := rfl
@[simp] theorem State.setBus_boot (d : Bytes) : (s.setBus d).boot = s.boot := rfl
@[simp] theorem State.setBus_flash (d : Bytes) : (s.setBus d).flash = s.flash := rfl
@[simp] theorem State.setBus_fuses (d : Bytes) : (s.setBus d).fuses = s.fuses := rfl
@[simp] theorem State.setBus_security (d : Bytes) : (s.setBus d).security = s.security := rfl
@[simp] theorem State.setBus_models (d : Bytes) : (s.setBus d).models = s.models := rfl
@[simp] theorem State.setBus_dies (d : Bytes) : (s.setBus d).dies = s.dies := rfl
@[simp] theorem State.setBus_faultyEdges (d : Bytes) : (s.setBus d).faultyEdges = s.faultyEdges := rfl
@[simp] theorem State.setBus_cores (d : Bytes) : (s.setBus d).cores = s.cores := rfl
@[simp] theorem State.setBus_feeders (d : Bytes) : (s.setBus d).feeders = s.feeders := rfl
@[simp] theorem State.setBus_memory (d : Bytes) : (s.setBus d).memory = s.memory := rfl
@[simp] theorem State.setBus_lanes (d : Bytes) : (s.setBus d).lanes = s.lanes := rfl
@[simp] theorem State.setBus_guards (d : Bytes) : (s.setBus d).guards = s.guards := rfl
@[simp] theorem State.setBus_mbx (d : Bytes) : (s.setBus d).mbx = s.mbx := rfl
@[simp] theorem State.setBus_ports (d : Bytes) : (s.setBus d).ports = s.ports := rfl
@[simp] theorem State.setBus_smbOffset (d : Bytes) : (s.setBus d).smbOffset = s.smbOffset := rfl
@[simp] theorem State.setBus_alertPending (d : Bytes) : (s.setBus d).alertPending = s.alertPending := rfl
@[simp] theorem State.setBus_owner (d : Bytes) : (s.setBus d).owner = s.owner := rfl
@[simp] theorem State.setBus_log (d : Bytes) : (s.setBus d).log = s.log := rfl
@[simp] theorem State.setBus_pcie (d : Bytes) : (s.setBus d).pcie = s.pcie := rfl
@[simp] theorem State.setBus_cxl (d : Bytes) : (s.setBus d).cxl = s.cxl := rfl
@[simp] theorem State.setBus_cascade (d : Bytes) : (s.setBus d).cascade = s.cascade := rfl
@[simp] theorem State.setBus_sessions (d : Bytes) : (s.setBus d).sessions = s.sessions := rfl
@[simp] theorem State.setBus_grants (d : Bytes) : (s.setBus d).grants = s.grants := rfl
@[simp] theorem State.setBus_fabricSeq (d : Bytes) : (s.setBus d).fabricSeq = s.fabricSeq := rfl
@[simp] theorem State.setBus_mbxTurn (d : Bytes) : (s.setBus d).mbxTurn = s.mbxTurn := rfl
@[simp] theorem State.setBus_turns (d : Bytes) : (s.setBus d).turns = s.turns := rfl
@[simp] theorem State.setBus_accepted (d : Bytes) : (s.setBus d).accepted = s.accepted := rfl
@[simp] theorem State.setBus_bus (d : Bytes) : (s.setBus d).bus = { data := d, poisoned := false, nack := false } := rfl
@[simp] theorem State.setBus_freeTick (d : Bytes) : (s.setBus d).freeTick = s.freeTick := rfl

/-! ### nackBus -/

@[simp] theorem State.nackBus_pending : (s.nackBus).pending = s.pending := rfl
@[simp] theorem State.nackBus_wall : (s.nackBus).wall = s.wall := rfl
@[simp] theorem State.nackBus_time : (s.nackBus).time = s.time := rfl
@[simp] theorem State.nackBus_board : (s.nackBus).board = s.board := rfl
@[simp] theorem State.nackBus_tap : (s.nackBus).tap = s.tap := rfl
@[simp] theorem State.nackBus_power : (s.nackBus).power = s.power := rfl
@[simp] theorem State.nackBus_clocks : (s.nackBus).clocks = s.clocks := rfl
@[simp] theorem State.nackBus_thermal : (s.nackBus).thermal = s.thermal := rfl
@[simp] theorem State.nackBus_straps : (s.nackBus).straps = s.straps := rfl
@[simp] theorem State.nackBus_boot : (s.nackBus).boot = s.boot := rfl
@[simp] theorem State.nackBus_flash : (s.nackBus).flash = s.flash := rfl
@[simp] theorem State.nackBus_fuses : (s.nackBus).fuses = s.fuses := rfl
@[simp] theorem State.nackBus_security : (s.nackBus).security = s.security := rfl
@[simp] theorem State.nackBus_models : (s.nackBus).models = s.models := rfl
@[simp] theorem State.nackBus_dies : (s.nackBus).dies = s.dies := rfl
@[simp] theorem State.nackBus_faultyEdges : (s.nackBus).faultyEdges = s.faultyEdges := rfl
@[simp] theorem State.nackBus_cores : (s.nackBus).cores = s.cores := rfl
@[simp] theorem State.nackBus_feeders : (s.nackBus).feeders = s.feeders := rfl
@[simp] theorem State.nackBus_memory : (s.nackBus).memory = s.memory := rfl
@[simp] theorem State.nackBus_lanes : (s.nackBus).lanes = s.lanes := rfl
@[simp] theorem State.nackBus_guards : (s.nackBus).guards = s.guards := rfl
@[simp] theorem State.nackBus_mbx : (s.nackBus).mbx = s.mbx := rfl
@[simp] theorem State.nackBus_ports : (s.nackBus).ports = s.ports := rfl
@[simp] theorem State.nackBus_smbOffset : (s.nackBus).smbOffset = s.smbOffset := rfl
@[simp] theorem State.nackBus_alertPending : (s.nackBus).alertPending = s.alertPending := rfl
@[simp] theorem State.nackBus_owner : (s.nackBus).owner = s.owner := rfl
@[simp] theorem State.nackBus_log : (s.nackBus).log = s.log := rfl
@[simp] theorem State.nackBus_pcie : (s.nackBus).pcie = s.pcie := rfl
@[simp] theorem State.nackBus_cxl : (s.nackBus).cxl = s.cxl := rfl
@[simp] theorem State.nackBus_cascade : (s.nackBus).cascade = s.cascade := rfl
@[simp] theorem State.nackBus_sessions : (s.nackBus).sessions = s.sessions := rfl
@[simp] theorem State.nackBus_grants : (s.nackBus).grants = s.grants := rfl
@[simp] theorem State.nackBus_fabricSeq : (s.nackBus).fabricSeq = s.fabricSeq := rfl
@[simp] theorem State.nackBus_mbxTurn : (s.nackBus).mbxTurn = s.mbxTurn := rfl
@[simp] theorem State.nackBus_turns : (s.nackBus).turns = s.turns := rfl
@[simp] theorem State.nackBus_accepted : (s.nackBus).accepted = s.accepted := rfl
@[simp] theorem State.nackBus_bus : (s.nackBus).bus = { data := [], poisoned := false, nack := true } := rfl
@[simp] theorem State.nackBus_freeTick : (s.nackBus).freeTick = s.freeTick := rfl

/-! ### setV54 -/

@[simp] theorem State.setV54_pending (v : Nat) : (s.setV54 v).pending = s.pending := rfl
@[simp] theorem State.setV54_wall (v : Nat) : (s.setV54 v).wall = s.wall := rfl
@[simp] theorem State.setV54_time (v : Nat) : (s.setV54 v).time = s.time := rfl
@[simp] theorem State.setV54_board (v : Nat) : (s.setV54 v).board = { s.board with v54 := v } := rfl
@[simp] theorem State.setV54_tap (v : Nat) : (s.setV54 v).tap = s.tap := rfl
@[simp] theorem State.setV54_power (v : Nat) : (s.setV54 v).power = s.power := rfl
@[simp] theorem State.setV54_clocks (v : Nat) : (s.setV54 v).clocks = s.clocks := rfl
@[simp] theorem State.setV54_thermal (v : Nat) : (s.setV54 v).thermal = s.thermal := rfl
@[simp] theorem State.setV54_straps (v : Nat) : (s.setV54 v).straps = s.straps := rfl
@[simp] theorem State.setV54_boot (v : Nat) : (s.setV54 v).boot = s.boot := rfl
@[simp] theorem State.setV54_flash (v : Nat) : (s.setV54 v).flash = s.flash := rfl
@[simp] theorem State.setV54_fuses (v : Nat) : (s.setV54 v).fuses = s.fuses := rfl
@[simp] theorem State.setV54_security (v : Nat) : (s.setV54 v).security = s.security := rfl
@[simp] theorem State.setV54_models (v : Nat) : (s.setV54 v).models = s.models := rfl
@[simp] theorem State.setV54_dies (v : Nat) : (s.setV54 v).dies = s.dies := rfl
@[simp] theorem State.setV54_faultyEdges (v : Nat) : (s.setV54 v).faultyEdges = s.faultyEdges := rfl
@[simp] theorem State.setV54_cores (v : Nat) : (s.setV54 v).cores = s.cores := rfl
@[simp] theorem State.setV54_feeders (v : Nat) : (s.setV54 v).feeders = s.feeders := rfl
@[simp] theorem State.setV54_memory (v : Nat) : (s.setV54 v).memory = s.memory := rfl
@[simp] theorem State.setV54_lanes (v : Nat) : (s.setV54 v).lanes = s.lanes := rfl
@[simp] theorem State.setV54_guards (v : Nat) : (s.setV54 v).guards = s.guards := rfl
@[simp] theorem State.setV54_mbx (v : Nat) : (s.setV54 v).mbx = s.mbx := rfl
@[simp] theorem State.setV54_ports (v : Nat) : (s.setV54 v).ports = s.ports := rfl
@[simp] theorem State.setV54_smbOffset (v : Nat) : (s.setV54 v).smbOffset = s.smbOffset := rfl
@[simp] theorem State.setV54_alertPending (v : Nat) : (s.setV54 v).alertPending = s.alertPending := rfl
@[simp] theorem State.setV54_owner (v : Nat) : (s.setV54 v).owner = s.owner := rfl
@[simp] theorem State.setV54_log (v : Nat) : (s.setV54 v).log = s.log := rfl
@[simp] theorem State.setV54_pcie (v : Nat) : (s.setV54 v).pcie = s.pcie := rfl
@[simp] theorem State.setV54_cxl (v : Nat) : (s.setV54 v).cxl = s.cxl := rfl
@[simp] theorem State.setV54_cascade (v : Nat) : (s.setV54 v).cascade = s.cascade := rfl
@[simp] theorem State.setV54_sessions (v : Nat) : (s.setV54 v).sessions = s.sessions := rfl
@[simp] theorem State.setV54_grants (v : Nat) : (s.setV54 v).grants = s.grants := rfl
@[simp] theorem State.setV54_fabricSeq (v : Nat) : (s.setV54 v).fabricSeq = s.fabricSeq := rfl
@[simp] theorem State.setV54_mbxTurn (v : Nat) : (s.setV54 v).mbxTurn = s.mbxTurn := rfl
@[simp] theorem State.setV54_turns (v : Nat) : (s.setV54 v).turns = s.turns := rfl
@[simp] theorem State.setV54_accepted (v : Nat) : (s.setV54 v).accepted = s.accepted := rfl
@[simp] theorem State.setV54_bus (v : Nat) : (s.setV54 v).bus = s.bus := rfl
@[simp] theorem State.setV54_freeTick (v : Nat) : (s.setV54 v).freeTick = s.freeTick := rfl

/-! ### recordStop -/

@[simp] theorem State.recordStop_pending (r c : Nat) : (s.recordStop r c).pending = s.pending := rfl
@[simp] theorem State.recordStop_wall (r c : Nat) : (s.recordStop r c).wall = s.wall := rfl
@[simp] theorem State.recordStop_time (r c : Nat) : (s.recordStop r c).time = s.time := rfl
@[simp] theorem State.recordStop_board (r c : Nat) : (s.recordStop r c).board = s.board := rfl
@[simp] theorem State.recordStop_tap (r c : Nat) : (s.recordStop r c).tap = s.tap := rfl
@[simp] theorem State.recordStop_power (r c : Nat) : (s.recordStop r c).power = s.power := rfl
@[simp] theorem State.recordStop_clocks (r c : Nat) : (s.recordStop r c).clocks = s.clocks := rfl
@[simp] theorem State.recordStop_thermal (r c : Nat) : (s.recordStop r c).thermal = s.thermal := rfl
@[simp] theorem State.recordStop_straps (r c : Nat) : (s.recordStop r c).straps = s.straps := rfl
@[simp] theorem State.recordStop_boot (r c : Nat) : (s.recordStop r c).boot = { s.boot with lastStop := r, hubCause := c } := rfl
@[simp] theorem State.recordStop_flash (r c : Nat) : (s.recordStop r c).flash = s.flash := rfl
@[simp] theorem State.recordStop_fuses (r c : Nat) : (s.recordStop r c).fuses = s.fuses := rfl
@[simp] theorem State.recordStop_security (r c : Nat) : (s.recordStop r c).security = s.security := rfl
@[simp] theorem State.recordStop_models (r c : Nat) : (s.recordStop r c).models = s.models := rfl
@[simp] theorem State.recordStop_dies (r c : Nat) : (s.recordStop r c).dies = s.dies := rfl
@[simp] theorem State.recordStop_faultyEdges (r c : Nat) : (s.recordStop r c).faultyEdges = s.faultyEdges := rfl
@[simp] theorem State.recordStop_cores (r c : Nat) : (s.recordStop r c).cores = s.cores := rfl
@[simp] theorem State.recordStop_feeders (r c : Nat) : (s.recordStop r c).feeders = s.feeders := rfl
@[simp] theorem State.recordStop_memory (r c : Nat) : (s.recordStop r c).memory = s.memory := rfl
@[simp] theorem State.recordStop_lanes (r c : Nat) : (s.recordStop r c).lanes = s.lanes := rfl
@[simp] theorem State.recordStop_guards (r c : Nat) : (s.recordStop r c).guards = s.guards := rfl
@[simp] theorem State.recordStop_mbx (r c : Nat) : (s.recordStop r c).mbx = s.mbx := rfl
@[simp] theorem State.recordStop_ports (r c : Nat) : (s.recordStop r c).ports = s.ports := rfl
@[simp] theorem State.recordStop_smbOffset (r c : Nat) : (s.recordStop r c).smbOffset = s.smbOffset := rfl
@[simp] theorem State.recordStop_alertPending (r c : Nat) : (s.recordStop r c).alertPending = s.alertPending := rfl
@[simp] theorem State.recordStop_owner (r c : Nat) : (s.recordStop r c).owner = s.owner := rfl
@[simp] theorem State.recordStop_log (r c : Nat) : (s.recordStop r c).log = s.log := rfl
@[simp] theorem State.recordStop_pcie (r c : Nat) : (s.recordStop r c).pcie = s.pcie := rfl
@[simp] theorem State.recordStop_cxl (r c : Nat) : (s.recordStop r c).cxl = s.cxl := rfl
@[simp] theorem State.recordStop_cascade (r c : Nat) : (s.recordStop r c).cascade = s.cascade := rfl
@[simp] theorem State.recordStop_sessions (r c : Nat) : (s.recordStop r c).sessions = s.sessions := rfl
@[simp] theorem State.recordStop_grants (r c : Nat) : (s.recordStop r c).grants = s.grants := rfl
@[simp] theorem State.recordStop_fabricSeq (r c : Nat) : (s.recordStop r c).fabricSeq = s.fabricSeq := rfl
@[simp] theorem State.recordStop_mbxTurn (r c : Nat) : (s.recordStop r c).mbxTurn = s.mbxTurn := rfl
@[simp] theorem State.recordStop_turns (r c : Nat) : (s.recordStop r c).turns = s.turns := rfl
@[simp] theorem State.recordStop_accepted (r c : Nat) : (s.recordStop r c).accepted = s.accepted := rfl
@[simp] theorem State.recordStop_bus (r c : Nat) : (s.recordStop r c).bus = s.bus := rfl
@[simp] theorem State.recordStop_freeTick (r c : Nat) : (s.recordStop r c).freeTick = s.freeTick := rfl

/-! ### Indexed tables -/

@[simp] theorem State.core_updCore_same (d c : Nat) (f : Core → Core) : (s.updCore d c f).core d c = f (s.core d c) := Tab.get_upd_same _ _ _ _
theorem State.core_updCore_other (d c d' c' : Nat) (f : Core → Core) (h : coreKey d' c' ≠ coreKey d c) : (s.updCore d c f).core d' c' = s.core d' c' :=
  Tab.get_upd_other _ _ _ _ _ h
@[simp] theorem State.die_updDie_same (i : Nat) (f : Die → Die) : (s.updDie i f).die i = f (s.die i) := Tab.get_upd_same _ _ _ _
theorem State.die_updDie_other (i i' : Nat) (f : Die → Die) (h : i' ≠ i) : (s.updDie i f).die i' = s.die i' :=
  Tab.get_upd_other _ _ _ _ _ h
@[simp] theorem State.feeder_updFeeder_same (m q : Nat) (f : FeederQueue → FeederQueue) : (s.updFeeder m q f).feeder m q = f (s.feeder m q) := Tab.get_upd_same _ _ _ _
theorem State.feeder_updFeeder_other (m q m' q' : Nat) (f : FeederQueue → FeederQueue) (h : m' * 64 + q' ≠ m * 64 + q) : (s.updFeeder m q f).feeder m' q' = s.feeder m' q' :=
  Tab.get_upd_other _ _ _ _ _ h
@[simp] theorem State.lane_updLane_same (k l : Nat) (f : LaneStatus → LaneStatus) : (s.updLane k l f).lane k l = f (s.lane k l) := Tab.get_upd_same _ _ _ _
theorem State.lane_updLane_other (k l k' l' : Nat) (f : LaneStatus → LaneStatus) (h : k' * 32 + l' ≠ k * 32 + l) : (s.updLane k l f).lane k' l' = s.lane k' l' :=
  Tab.get_upd_other _ _ _ _ _ h
@[simp] theorem State.slot_updSlot_same (p k : Nat) (f : MbxSlot → MbxSlot) : (s.updSlot p k f).slot p k = f (s.slot p k) := Tab.get_upd_same _ _ _ _
theorem State.slot_updSlot_other (p k p' k' : Nat) (f : MbxSlot → MbxSlot) (h : p' * 64 + k' ≠ p * 64 + k) : (s.updSlot p k f).slot p' k' = s.slot p' k' :=
  Tab.get_upd_other _ _ _ _ _ h
@[simp] theorem State.port_updPort_same (p : Nat) (f : MbxPort → MbxPort) : (s.updPort p f).port p = f (s.port p) := Tab.get_upd_same _ _ _ _
theorem State.port_updPort_other (p p' : Nat) (f : MbxPort → MbxPort) (h : p' ≠ p) : (s.updPort p f).port p' = s.port p' :=
  Tab.get_upd_other _ _ _ _ _ h
@[simp] theorem State.pciePort_updPcie_same (p : Nat) (f : PcieState → PcieState) : (s.updPcie p f).pciePort p = f (s.pciePort p) := Tab.get_upd_same _ _ _ _
theorem State.pciePort_updPcie_other (p p' : Nat) (f : PcieState → PcieState) (h : p' ≠ p) : (s.updPcie p f).pciePort p' = s.pciePort p' :=
  Tab.get_upd_other _ _ _ _ _ h
@[simp] theorem State.cxlPort_updCxl_same (x : Nat) (f : CxlState → CxlState) : (s.updCxl x f).cxlPort x = f (s.cxlPort x) := Tab.get_upd_same _ _ _ _
theorem State.cxlPort_updCxl_other (x x' : Nat) (f : CxlState → CxlState) (h : x' ≠ x) : (s.updCxl x f).cxlPort x' = s.cxlPort x' :=
  Tab.get_upd_other _ _ _ _ _ h
@[simp] theorem State.session_updSession_same (i : Nat) (f : Session → Session) : (s.updSession i f).session i = f (s.session i) := Tab.get_upd_same _ _ _ _
theorem State.session_updSession_other (i i' : Nat) (f : Session → Session) (h : i' ≠ i) : (s.updSession i f).session i' = s.session i' :=
  Tab.get_upd_other _ _ _ _ _ h
@[simp] theorem State.cascadePort_updCascadePort_same (q : Nat) (f : CascadePort → CascadePort) : (s.updCascadePort q f).cascadePort q = f (s.cascadePort q) := Tab.get_upd_same _ _ _ _
theorem State.cascadePort_updCascadePort_other (q q' : Nat) (f : CascadePort → CascadePort) (h : q' ≠ q) : (s.updCascadePort q f).cascadePort q' = s.cascadePort q' :=
  Tab.get_upd_other _ _ _ _ _ h
@[simp] theorem State.pll_updPll_same (d : Nat) (f : Pll → Pll) : (s.updPll d f).pll d = f (s.pll d) := Tab.get_upd_same _ _ _ _
theorem State.pll_updPll_other (d d' : Nat) (f : Pll → Pll) (h : d' ≠ d) : (s.updPll d f).pll d' = s.pll d' :=
  Tab.get_upd_other _ _ _ _ _ h
@[simp] theorem State.channel_updChannel_same (m c : Nat) (f : GddrChannel → GddrChannel) : (s.updChannel m c f).channel m c = f (s.channel m c) := Tab.get_upd_same _ _ _ _
theorem State.channel_updChannel_other (m c m' c' : Nat) (f : GddrChannel → GddrChannel) (h : m' * 8 + c' ≠ m * 8 + c) : (s.updChannel m c f).channel m' c' = s.channel m' c' :=
  Tab.get_upd_other _ _ _ _ _ h

end Sys2Proof.Machine
end

