-- ==== Sys2Proof/Laws/Frame.lean ====
section
/-! SUPPORT. What no operation of the block touches: the queue of waiting commands and the fuse block. One lemma for each operation
over the state; only the firmware's fuse writes are left out, since they are what changes a fuse. -/

namespace Sys2Proof.Machine

/-- The queue and the fuses. -/
def State.fixed (s : State) : List Instr × Fuses := (s.pending, s.fuses)

@[simp] theorem State.fixed_pair (s : State) : (s.pending, s.fuses) = s.fixed := rfl

theorem State.pending_of_fixed {s t : State} (h : t.fixed = s.fixed) : t.pending = s.pending := congrArg Prod.fst h
theorem State.fuses_of_fixed {s t : State} (h : t.fixed = s.fixed) : t.fuses = s.fuses := congrArg Prod.snd h

theorem State.fixed_of_eq {s t : State} (hp : t.pending = s.pending) (hf : t.fuses = s.fuses) : t.fixed = s.fixed := by
  unfold State.fixed
  rw [hp, hf]

@[simp] theorem State.fixed_ite (c : Prop) [Decidable c] (a b : State) : (if c then a else b).fixed = if c then a.fixed else b.fixed := by
  split <;> rfl

/-- A fold of operations that keep them keeps them. -/
@[simp] theorem State.foldl_fixed {α : Type} (f : State → α → State) (h : ∀ t x, (f t x).fixed = t.fixed) (l : List α) (s : State) :
    (l.foldl f s).fixed = s.fixed := by
  induction l generalizing s with
  | nil => rfl
  | cons a l ih => rw [List.foldl_cons, ih, h]

@[simp] theorem State.fixed_mk (x0 : List Instr) (x1 : Nat) (x2 : Nat) (x3 : Board) (x4 : Tap) (x5 : Power) (x6 : Clocks) (x7 : Thermal) (x8 : BitVec 4) (x9 : Boot) (x10 : Flash) (x11 : Fuses) (x12 : Security) (x13 : Tab ModelSlot) (x14 : Tab Die) (x15 : List (Nat × Nat)) (x16 : Tab Core) (x17 : Tab FeederQueue) (x18 : Memory) (x19 : Tab LaneStatus) (x20 : Tab (Option Nat)) (x21 : Tab MbxSlot) (x22 : Tab MbxPort) (x23 : Nat) (x24 : Bool) (x25 : Owner) (x26 : EventLog) (x27 : Tab PcieState) (x28 : Tab CxlState) (x29 : Cascade) (x30 : Tab Session) (x31 : Tab (List GrantReq)) (x32 : Nat) (x33 : Nat) (x34 : Tab Nat) (x35 : Nat) (x36 : BusAnswer) (x37 : Nat) :
    State.fixed ⟨x0, x1, x2, x3, x4, x5, x6, x7, x8, x9, x10, x11, x12, x13, x14, x15, x16, x17, x18, x19, x20, x21, x22, x23, x24, x25, x26, x27, x28, x29, x30, x31, x32, x33, x34, x35, x36, x37⟩ = (x0, x11) := rfl


/-! ### Ops -/

@[simp] theorem State.elapse_fixed (s : State) (dt : Nat) : (State.elapse s dt).fixed = s.fixed := by
  unfold State.elapse
  (repeat' split) <;> simp [*]

@[simp] theorem State.draw_fixed (s : State) : (State.draw s).fixed = s.fixed := by
  unfold State.draw
  (repeat' split) <;> simp [*]

@[simp] theorem State.updCore_fixed (s : State) (d c : Nat) (f : Core → Core) : (State.updCore s d c f).fixed = s.fixed := by
  unfold State.updCore
  (repeat' split) <;> simp [*]

@[simp] theorem State.updDie_fixed (s : State) (i : Nat) (f : Die → Die) : (State.updDie s i f).fixed = s.fixed := by
  unfold State.updDie
  (repeat' split) <;> simp [*]

@[simp] theorem State.updFeeder_fixed (s : State) (md q : Nat) (f : FeederQueue → FeederQueue) : (State.updFeeder s md q f).fixed = s.fixed := by
  unfold State.updFeeder
  (repeat' split) <;> simp [*]

@[simp] theorem State.updLane_fixed (s : State) (sd l : Nat) (f : LaneStatus → LaneStatus) : (State.updLane s sd l f).fixed = s.fixed := by
  unfold State.updLane
  (repeat' split) <;> simp [*]

@[simp] theorem State.updSlot_fixed (s : State) (p k : Nat) (f : MbxSlot → MbxSlot) : (State.updSlot s p k f).fixed = s.fixed := by
  unfold State.updSlot
  (repeat' split) <;> simp [*]

@[simp] theorem State.updPort_fixed (s : State) (p : Nat) (f : MbxPort → MbxPort) : (State.updPort s p f).fixed = s.fixed := by
  unfold State.updPort
  (repeat' split) <;> simp [*]

@[simp] theorem State.updPcie_fixed (s : State) (p : Nat) (f : PcieState → PcieState) : (State.updPcie s p f).fixed = s.fixed := by
  unfold State.updPcie
  (repeat' split) <;> simp [*]

@[simp] theorem State.updCxl_fixed (s : State) (x : Nat) (f : CxlState → CxlState) : (State.updCxl s x f).fixed = s.fixed := by
  unfold State.updCxl
  (repeat' split) <;> simp [*]

@[simp] theorem State.updCascadePort_fixed (s : State) (q : Nat) (f : CascadePort → CascadePort) : (State.updCascadePort s q f).fixed = s.fixed := by
  unfold State.updCascadePort
  (repeat' split) <;> simp [*]

@[simp] theorem State.updSession_fixed (s : State) (i : Nat) (f : Session → Session) : (State.updSession s i f).fixed = s.fixed := by
  unfold State.updSession
  (repeat' split) <;> simp [*]

@[simp] theorem State.updPll_fixed (s : State) (d : Nat) (f : Pll → Pll) : (State.updPll s d f).fixed = s.fixed := by
  unfold State.updPll
  (repeat' split) <;> simp [*]

@[simp] theorem State.updChannel_fixed (s : State) (md ch : Nat) (f : GddrChannel → GddrChannel) : (State.updChannel s md ch f).fixed = s.fixed := by
  unfold State.updChannel
  (repeat' split) <;> simp [*]

@[simp] theorem State.alert_fixed (s : State) : (State.alert s).fixed = s.fixed := by
  unfold State.alert
  (repeat' split) <;> simp [*]

@[simp] theorem State.raiseVector_fixed (s : State) (p v : Nat) : (State.raiseVector s p v).fixed = s.fixed := by
  unfold State.raiseVector
  (repeat' split) <;> simp [*]

@[simp] theorem State.noticeMaster_fixed (s : State) (code index : Nat) : (State.noticeMaster s code index).fixed = s.fixed := by
  unfold State.noticeMaster
  (repeat' split) <;> simp [*]

@[simp] theorem State.vector0_fixed (s : State) : (State.vector0 s).fixed = s.fixed := by
  unfold State.vector0
  (repeat' split) <;> simp [*]

@[simp] theorem State.vector1_fixed (s : State) : (State.vector1 s).fixed = s.fixed := by
  unfold State.vector1
  (repeat' split) <;> simp [*]

@[simp] theorem State.dieEvent_fixed (s : State) (owner die severity code : Nat) (arg : W32) (info : Nat) : (State.dieEvent s owner die severity code arg info).fixed = s.fixed := by
  unfold State.dieEvent
  (repeat' split) <;> simp [*]

@[simp] theorem State.moduleEvent_fixed (s : State) (severity code : Nat) (arg : W32) (info : Nat) : (State.moduleEvent s severity code arg info).fixed = s.fixed := by
  unfold State.moduleEvent
  (repeat' split) <;> simp [*]

@[simp] theorem State.gddrWrite_fixed (s : State) (a : Nat) (bs : Bytes) : (State.gddrWrite s a bs).fixed = s.fixed := by
  unfold State.gddrWrite
  (repeat' split) <;> simp [*]

@[simp] theorem State.answer_fixed (s : State) (p k : Nat) (a : Answer) : (State.answer s p k a).fixed = s.fixed := by
  unfold State.answer
  (repeat' split) <;> simp [*]

@[simp] theorem State.settleSlot_fixed (p : Nat) (s : State) (k : Nat) : (State.settleSlot p s k).fixed = s.fixed := by
  unfold State.settleSlot
  (repeat' split) <;> simp [*]

@[simp] theorem State.noteGap_fixed (s : State) (p : Nat) : (State.noteGap s p).fixed = s.fixed := by
  unfold State.noteGap
  (repeat' split) <;> simp [*]

@[simp] theorem State.settleSeq_fixed (s : State) (p : Nat) : (State.settleSeq s p).fixed = s.fixed := by
  unfold State.settleSeq
  (repeat' split) <;> simp [*]

@[simp] theorem State.accept_fixed (s : State) (p k : Nat) : (State.accept s p k).fixed = s.fixed := by
  unfold State.accept
  (repeat' split) <;> simp [*]

@[simp] theorem State.command_fixed (s : State) (p k : Nat) (mine : Nat → Bytes → Bool) (body : State → Bytes → State) (hbody : ∀ t r, (body t r).fixed = t.fixed) : (State.command s p k mine body).fixed = s.fixed := by
  unfold State.command
  (repeat' split) <;> simp [*]

@[simp] theorem State.checked_fixed (s : State) (p k : Nat) (checks : List (Bool × Answer)) (ok : State → State) (hok : ∀ t, (ok t).fixed = t.fixed) : (State.checked s p k checks ok).fixed = s.fixed := by
  unfold State.checked
  (repeat' split) <;> simp [*]

@[simp] theorem State.loseVolatile_fixed (s : State) : (State.loseVolatile s).fixed = s.fixed := by
  unfold State.loseVolatile
  (repeat' split) <;> simp [*]

@[simp] theorem State.recordStop_fixed (s : State) (reason cause : Nat) : (State.recordStop s reason cause).fixed = s.fixed := by
  unfold State.recordStop
  (repeat' split) <;> simp [*]

@[simp] theorem State.railsOff_fixed (s : State) (reason : Nat) : (State.railsOff s reason).fixed = s.fixed := by
  unfold State.railsOff
  (repeat' split) <;> simp [*]

@[simp] theorem State.hubFault_fixed (s : State) (cause : Nat) : (State.hubFault s cause).fixed = s.fixed := by
  unfold State.hubFault
  (repeat' split) <;> simp [*]

/-! ### Banks -/

@[simp] theorem State.settleBank_fixed (s : State) (d c b : Nat) : (State.settleBank s d c b).fixed = s.fixed := by
  unfold State.settleBank
  (repeat' split) <;> simp [*]

@[simp] theorem State.giveBank_fixed (s : State) (d c b own : Nat) : (State.giveBank s d c b own).fixed = s.fixed := by
  unfold State.giveBank
  (repeat' split) <;> simp [*]

/-! ### SessionOps -/

@[simp] theorem State.notify_fixed (s : State) (i : Nat) : (State.notify s i).fixed = s.fixed := by
  unfold State.notify
  (repeat' split) <;> simp [*]

@[simp] theorem State.signalSession_fixed (s : State) (i : Nat) : (State.signalSession s i).fixed = s.fixed := by
  unfold State.signalSession
  (repeat' split) <;> simp [*]

@[simp] theorem State.refreshWindow_fixed (s : State) (i : Nat) : (State.refreshWindow s i).fixed = s.fixed := by
  unfold State.refreshWindow
  (repeat' split) <;> simp [*]

@[simp] theorem State.writeEntry_fixed (s : State) (i : Nat) (e : RingEntry) : (State.writeEntry s i e).fixed = s.fixed := by
  unfold State.writeEntry
  (repeat' split) <;> simp [*]

@[simp] theorem State.recordStall_fixed (s : State) (i : Nat) : (State.recordStall s i).fixed = s.fixed := by
  unfold State.recordStall
  (repeat' split) <;> simp [*]

@[simp] theorem State.ringPut_fixed (s : State) (i type : Nat) (rec : Bytes) : (State.ringPut s i type rec).fixed = s.fixed := by
  unfold State.ringPut
  (repeat' split) <;> simp [*]

@[simp] theorem State.outWriteBytes_fixed (s : State) (i pos : Nat) (bs : Bytes) : (State.outWriteBytes s i pos bs).fixed = s.fixed := by
  unfold State.outWriteBytes
  (repeat' split) <;> simp [*]

@[simp] theorem State.watchRing_fixed (s : State) (i : Nat) : (State.watchRing s i).fixed = s.fixed := by
  unfold State.watchRing
  (repeat' split) <;> simp [*]

theorem State.flushOutput_fixed (n i : Nat) (s : State) : (State.flushOutput n i s).fixed = s.fixed := by
  induction n generalizing s with
  | zero => rfl
  | succ n ih =>
    unfold State.flushOutput
    dsimp only
    (repeat' split) <;> simp [ih]

theorem State.flushRecords_fixed (n i : Nat) (s : State) : (State.flushRecords n i s).fixed = s.fixed := by
  induction n generalizing s with
  | zero => rfl
  | succ n ih =>
    unfold State.flushRecords
    (repeat' split) <;> simp [ih]

@[simp] theorem State.outPut_fixed (s : State) (i pos : Nat) (bs : Bytes) : (State.outPut s i pos bs).fixed = s.fixed := by
  unfold State.outPut
  (repeat' split) <;> simp [State.flushOutput_fixed]

@[simp] theorem State.flushRings_fixed (s : State) : (State.flushRings s).fixed = s.fixed := by
  unfold State.flushRings
  exact State.foldl_fixed _ (fun t x => by simp [State.flushOutput_fixed, State.flushRecords_fixed]) _ _

@[simp] theorem State.setGrantQueue_fixed (s : State) (m : Nat) (q : List GrantReq) : (State.setGrantQueue s m q).fixed = s.fixed := by
  unfold State.setGrantQueue
  (repeat' split) <;> simp [*]

@[simp] theorem State.dropGrants_fixed (s : State) (i : Nat) (order : Option Nat) : (State.dropGrants s i order).fixed = s.fixed := by
  unfold State.dropGrants
  (repeat' split) <;> simp [*]

@[simp] theorem State.count_fixed (s : State) (i c n : Nat) : (State.count s i c n).fixed = s.fixed := by
  unfold State.count
  (repeat' split) <;> simp [*]

@[simp] theorem State.report_fixed (s : State) (i : Nat) (r : Report) : (State.report s i r).fixed = s.fixed := by
  unfold State.report
  (repeat' split) <;> simp [*]

@[simp] theorem State.sessionEvent_fixed (s : State) (i cause die : Nat) : (State.sessionEvent s i cause die).fixed = s.fixed := by
  unfold State.sessionEvent
  (repeat' split) <;> simp [*]

@[simp] theorem State.takeRecord_fixed (d c : Nat) (holder : Option Nat) (s : State) (r : Record) : (State.takeRecord d c holder s r).fixed = s.fixed := by
  unfold State.takeRecord
  dsimp only
  cases r.sess.orElse (fun _ => holder) <;> (split <;> simp)

@[simp] theorem State.collect_fixed (s : State) (d c : Nat) : (State.collect s d c).fixed = s.fixed := by
  unfold State.collect
  (repeat' split) <;> simp [*]

@[simp] theorem State.drainCore_fixed (s : State) (d c : Nat) : (State.drainCore s d c).fixed = s.fixed := by
  unfold State.drainCore
  (repeat' split) <;> simp [*]

@[simp] theorem State.cancelCore_fixed (s : State) (d c : Nat) : (State.cancelCore s d c).fixed = s.fixed := by
  unfold State.cancelCore
  (repeat' split) <;> simp [*]

@[simp] theorem State.cancelCores_fixed (s : State) (i : Nat) (cs : List (Nat × Nat)) : (State.cancelCores s i cs).fixed = s.fixed := by
  unfold State.cancelCores
  (repeat' split) <;> simp [*]

@[simp] theorem State.dropUnits_fixed (s : State) (i : Nat) : (State.dropUnits s i).fixed = s.fixed := by
  unfold State.dropUnits
  (repeat' split) <;> simp [*]

@[simp] theorem State.abandon_fixed (s : State) (i : Nat) : (State.abandon s i).fixed = s.fixed := by
  unfold State.abandon
  (repeat' split) <;> simp [*]

@[simp] theorem State.leaveCore_fixed (s : State) (d c : Nat) : (State.leaveCore s d c).fixed = s.fixed := by
  unfold State.leaveCore
  (repeat' split) <;> simp [*]

@[simp] theorem State.installTables_fixed (s : State) (slot : Nat) (cs : List (Nat × Nat)) : (State.installTables s slot cs).fixed = s.fixed := by
  unfold State.installTables
  (repeat' split) <;> simp [*]

@[simp] theorem State.loadCore_fixed (s : State) (l : CoreLoad) : (State.loadCore s l).fixed = s.fixed := by
  unfold State.loadCore
  (repeat' split) <;> simp [*]

@[simp] theorem State.applyLoads_fixed (s : State) (i : Nat) (ls : List CoreLoad) : (State.applyLoads s i ls).fixed = s.fixed := by
  unfold State.applyLoads
  (repeat' split) <;> simp [*]

@[simp] theorem State.setPleats_fixed (s : State) (i : Nat) (pl : CutPlan) : (State.setPleats s i pl).fixed = s.fixed := by
  unfold State.setPleats
  exact State.foldl_fixed _ (fun t x => by (repeat' split) <;> simp) _ _

@[simp] theorem State.formRings_fixed (s : State) (cs : List (Nat × Nat)) : (State.formRings s cs).fixed = s.fixed := by
  unfold State.formRings
  (repeat' split) <;> simp [*]

@[simp] theorem State.bindCores_fixed (s : State) (i : Nat) (old : List (Nat × Nat)) (pl : CutPlan) : (State.bindCores s i old pl).fixed = s.fixed := by
  unfold State.bindCores
  (repeat' split) <;> simp [*]

@[simp] theorem State.releaseGuards_fixed (s : State) (i : Nat) : (State.releaseGuards s i).fixed = s.fixed := by
  unfold State.releaseGuards
  (repeat' split) <;> simp [*]

@[simp] theorem State.bindGuard_fixed (s : State) (i sd : Nat) : (State.bindGuard s i sd).fixed = s.fixed := by
  unfold State.bindGuard
  (repeat' split) <;> simp [*]

@[simp] theorem State.moveLanes_fixed (s : State) (i : Nat) (old new : CutPlan) : (State.moveLanes s i old new).fixed = s.fixed := by
  unfold State.moveLanes
  (repeat' split) <;> simp [*]

@[simp] theorem State.initRing_fixed (s : State) (base produced : Nat) : (State.initRing s base produced).fixed = s.fixed := by
  unfold State.initRing
  (repeat' split) <;> simp [*]

@[simp] theorem State.moveRings_fixed (s : State) (i : Nat) (rings : Nat × Nat) : (State.moveRings s i rings).fixed = s.fixed := by
  unfold State.moveRings
  (repeat' split) <;> simp [*]

@[simp] theorem State.movePool_fixed (s : State) (i old new : Nat) (rings : Nat × Nat) : (State.movePool s i old new rings).fixed = s.fixed := by
  unfold State.movePool
  (repeat' split) <;> simp [*]

@[simp] theorem State.takeCut_fixed (s : State) (i : Nat) (pl : CutPlan) (place : Placement) (moved : Bool) : (State.takeCut s i pl place moved).fixed = s.fixed := by
  unfold State.takeCut
  (repeat' split) <;> simp [*]

@[simp] theorem State.finishRecut_fixed (s : State) (i : Nat) : (State.finishRecut s i).fixed = s.fixed := by
  unfold State.finishRecut
  (repeat' split) <;> simp [*]

@[simp] theorem State.finishParked_fixed (s : State) (i : Nat) : (State.finishParked s i).fixed = s.fixed := by
  unfold State.finishParked
  exact State.foldl_fixed _ (fun t x => by split <;> simp <;> (repeat' split) <;> simp) _ _

@[simp] theorem State.redoLanes_fixed (s : State) (i : Nat) : (State.redoLanes s i).fixed = s.fixed := by
  unfold State.redoLanes
  (repeat' split) <;> simp [*]

@[simp] theorem State.loseFrom_fixed (s : State) (loss : Loss) (cause die i : Nat) : (State.loseFrom s loss cause die i).fixed = s.fixed := by
  unfold State.loseFrom
  (repeat' split) <;> simp [*]

@[simp] theorem State.settleRecuts_fixed (s : State) (loss : Loss) : (State.settleRecuts s loss).fixed = s.fixed := by
  unfold State.settleRecuts
  (repeat' split) <;> simp [*]

@[simp] theorem State.applyLoss_fixed (s : State) (loss : Loss) (cause die : Nat) : (s.applyLoss loss cause die).1.fixed = s.fixed := by
  unfold State.applyLoss
  simp

@[simp] theorem State.dropCascade_fixed (s : State) : (State.dropCascade s).fixed = s.fixed := by
  unfold State.dropCascade
  (repeat' split) <;> simp [*]

@[simp] theorem State.fence_fixed (s : State) (d cause : Nat) : (State.fence s d cause).fixed = s.fixed := by
  unfold State.fence
  split
  · rfl
  · simp only
    (repeat' split) <;> simp

@[simp] theorem State.retire_fixed (s : State) (d c : Nat) : (State.retire s d c).fixed = s.fixed := by
  unfold State.retire
  split
  · rfl
  · simp

@[simp] theorem State.fencePair_fixed (s : State) (x : Nat × Nat) : (State.fencePair s x).fixed = s.fixed := by
  unfold State.fencePair
  (repeat' split) <;> simp [*]

@[simp] theorem State.fenceUnreachable_fixed (s : State) : (State.fenceUnreachable s).fixed = s.fixed := by
  unfold State.fenceUnreachable
  (repeat' split) <;> simp [*]

@[simp] theorem State.edgeFault_fixed (s : State) (a b : Nat) : (State.edgeFault s a b).fixed = s.fixed := by
  unfold State.edgeFault
  (repeat' split) <;> simp [*]

/-! ### Owner -/

@[simp] theorem State.setOwner_fixed (s : State) (port : Nat) (nonce : W32) (priority cause : Nat) : (State.setOwner s port nonce priority cause).fixed = s.fixed := by
  unfold State.setOwner
  (repeat' split) <;> simp [*]

@[simp] theorem State.loseOwner_fixed (s : State) (cause : Nat) : (State.loseOwner s cause).fixed = s.fixed := by
  unfold State.loseOwner
  (repeat' split) <;> simp [*]

@[simp] theorem State.expireLease_fixed (s : State) : (State.expireLease s).fixed = s.fixed := by
  unfold State.expireLease
  (repeat' split) <;> simp [*]

@[simp] theorem State.closeWindow_fixed (s : State) : (State.closeWindow s).fixed = s.fixed := by
  unfold State.closeWindow
  simp only
  split
  · simp
  · rw [State.foldl_fixed _ (fun t x => by simp)]
    simp

@[simp] theorem State.settleOwner_fixed (s : State) : (State.settleOwner s).fixed = s.fixed := by
  unfold State.settleOwner
  (repeat' split) <;> simp [*]

@[simp] theorem State.claim_fixed (s : State) (p k priority : Nat) (nonce : W32) : (State.claim s p k priority nonce).fixed = s.fixed := by
  unfold State.claim
  (repeat' split) <;> simp [*]

@[simp] theorem State.heartbeat_fixed (s : State) : (State.heartbeat s).fixed = s.fixed := by
  unfold State.heartbeat
  (repeat' split) <;> simp [*]

/-! ### Mailbox -/

@[simp] theorem State.writeSeal_fixed (s : State) (p k : Nat) (seq opcode : W16) : (State.writeSeal s p k seq opcode).fixed = s.fixed := by
  unfold State.writeSeal
  (repeat' split) <;> simp [*]

@[simp] theorem State.consumeSeq_fixed (s : State) (p : Nat) (seq : W16) : (State.consumeSeq s p seq).fixed = s.fixed := by
  unfold State.consumeSeq
  (repeat' split) <;> simp [*]

@[simp] theorem State.writeSlotState_fixed (s : State) (p k v : Nat) : (State.writeSlotState s p k v).fixed = s.fixed := by
  unfold State.writeSlotState
  (repeat' split) <;> simp [*]

@[simp] theorem State.writeOpenSlot_fixed (s : State) (p k : Nat) (f : MbxSlot → MbxSlot) : (State.writeOpenSlot s p k f).fixed = s.fixed := by
  unfold State.writeOpenSlot
  (repeat' split) <;> simp [*]

@[simp] theorem State.writeSlot_fixed (s : State) (p k off : Nat) (bs : Bytes) : (State.writeSlot s p k off bs).fixed = s.fixed := by
  unfold State.writeSlot
  (repeat' split) <;> simp [*]

@[simp] theorem State.writeBank_fixed (s : State) (p off : Nat) (bs : Bytes) : (State.writeBank s p off bs).fixed = s.fixed := by
  unfold State.writeBank
  exact State.foldl_fixed _ (fun t x => by (repeat' split) <;> simp) _ _

@[simp] theorem State.skipGap_fixed (s : State) (p : Nat) : (State.skipGap s p).fixed = s.fixed := by
  unfold State.skipGap
  (repeat' split) <;> simp [*]

@[simp] theorem State.setBus_fixed (s : State) (d : Bytes) : (State.setBus s d).fixed = s.fixed := by
  unfold State.setBus
  (repeat' split) <;> simp [*]

@[simp] theorem State.nackBus_fixed (s : State) : (State.nackBus s).fixed = s.fixed := by
  unfold State.nackBus
  (repeat' split) <;> simp [*]

@[simp] theorem State.pecDiscard_fixed (s : State) : (State.pecDiscard s).fixed = s.fixed := by
  unfold State.pecDiscard
  (repeat' split) <;> simp [*]

@[simp] theorem State.commitEvent_fixed (s : State) : (State.commitEvent s).fixed = s.fixed := by
  unfold State.commitEvent
  (repeat' split) <;> simp [*]

/-! ### Pcie -/

@[simp] theorem State.resetSlots_fixed (s : State) (p : Nat) : (State.resetSlots s p).fixed = s.fixed := by
  unfold State.resetSlots
  exact State.foldl_fixed _ (fun t x => by (repeat' split) <;> simp) _ _

@[simp] theorem State.losePortOwner_fixed (s : State) : (State.losePortOwner s).fixed = s.fixed := by
  unfold State.losePortOwner
  (repeat' split) <;> simp [*]

@[simp] theorem State.portReset_fixed (s : State) (p : Nat) : (State.portReset s p).fixed = s.fixed := by
  unfold State.portReset
  (repeat' split) <;> simp [*]

@[simp] theorem State.setPerst_fixed (s : State) (p : Nat) (v : Bool) : (State.setPerst s p v).fixed = s.fixed := by
  unfold State.setPerst
  (repeat' split) <;> simp [*]

@[simp] theorem State.startTraining_fixed (s : State) (p : Nat) : (State.startTraining s p).fixed = s.fixed := by
  unfold State.startTraining
  (repeat' split) <;> simp [*]

@[simp] theorem State.firePending_fixed (s : State) (p : Nat) : (State.firePending s p).fixed = s.fixed := by
  unfold State.firePending
  (repeat' split) <;> simp [*]

@[simp] theorem State.writeMsix_fixed (s : State) (p off : Nat) (bs : Bytes) : (State.writeMsix s p off bs).fixed = s.fixed := by
  unfold State.writeMsix
  (repeat' split) <;> simp [*]

@[simp] theorem State.bar2Hole_fixed (s : State) (p : Nat) : (State.bar2Hole s p).fixed = s.fixed := by
  unfold State.bar2Hole
  (repeat' split) <;> simp [*]

@[simp] theorem State.uncorrectable_fixed (s : State) (md ch : Nat) : (State.uncorrectable s md ch).fixed = s.fixed := by
  unfold State.uncorrectable
  (repeat' split) <;> simp [*]

/-! ### Routes -/

@[simp] theorem State.loseCascadePort_fixed (s : State) (q : Nat) : (State.loseCascadePort s q).fixed = s.fixed := by
  unfold State.loseCascadePort
  (repeat' split) <;> simp [*]

@[simp] theorem State.loseLink_fixed (s : State) (q : Nat) : (State.loseLink s q).fixed = s.fixed := by
  unfold State.loseLink
  simp

/-! ### Power -/

@[simp] theorem State.unpowered_fixed (s : State) (aux : Bool) : (State.unpowered s aux).fixed = s.fixed := by
  unfold State.unpowered
  (repeat' split) <;> simp [*]

@[simp] theorem State.setV54_fixed (s : State) (mv10 : Nat) : (State.setV54 s mv10).fixed = s.fixed := by
  unfold State.setV54
  (repeat' split) <;> simp [*]

@[simp] theorem State.supplyFault_fixed (s : State) : (State.supplyFault s).fixed = s.fixed := by
  unfold State.supplyFault
  (repeat' split) <;> simp [*]

@[simp] theorem State.sequenceRails_fixed (s : State) (failing : List Rail) : (State.sequenceRails s failing).fixed = s.fixed := by
  unfold State.sequenceRails
  (repeat' split) <;> simp [*]

@[simp] theorem State.moduleResetState_fixed (s : State) : (State.moduleResetState s).fixed = s.fixed := by
  unfold State.moduleResetState
  (repeat' split) <;> simp [*]

@[simp] theorem State.extendMr_fixed (s : State) (mr source : Nat) (info : Nat) (v : Bytes) : (State.extendMr s mr source info v).fixed = s.fixed := by
  unfold State.extendMr
  (repeat' split) <;> simp [*]

@[simp] theorem State.measureRom_fixed (s : State) : (State.measureRom s).fixed = s.fixed := by
  unfold State.measureRom
  (repeat' split) <;> simp [*]

@[simp] theorem State.romStart_fixed (s : State) : (State.romStart s).fixed = s.fixed := by
  unfold State.romStart
  (repeat' split) <;> simp [*]

@[simp] theorem State.pllDead_fixed (s : State) (d : Nat) : (State.pllDead s d).fixed = s.fixed := by
  unfold State.pllDead
  (repeat' split) <;> simp [*]

@[simp] theorem State.pllLossEffect_fixed (s : State) (d : Nat) : (State.pllLossEffect s d).fixed = s.fixed := by
  unfold State.pllLossEffect
  (repeat' split) <;> simp [*]

@[simp] theorem State.pllFailEffect_fixed (s : State) (d : Nat) : (State.pllFailEffect s d).fixed = s.fixed := by
  unfold State.pllFailEffect
  (repeat' split) <;> simp [*]

@[simp] theorem State.tapLoad_fixed (s : State) (i : TapInstr) (dr : List Bool) : (State.tapLoad s i dr).fixed = s.fixed := by
  unfold State.tapLoad
  (repeat' split) <;> simp [*]

@[simp] theorem State.countRetries_fixed (s : State) (d n : Nat) : (State.countRetries s d n).fixed = s.fixed := by
  unfold State.countRetries
  (repeat' split) <;> simp [*]

@[simp] theorem State.updateDemands_fixed (s : State) : (State.updateDemands s).fixed = s.fixed := by
  unfold State.updateDemands
  (repeat' split) <;> simp [*]

@[simp] theorem State.dieOff_fixed (s : State) (d : Nat) : (State.dieOff s d).fixed = s.fixed := by
  unfold State.dieOff
  (repeat' split) <;> simp [*]

@[simp] theorem State.diePowerEvent_fixed (s : State) : (State.diePowerEvent s).fixed = s.fixed := by
  unfold State.diePowerEvent
  (repeat' split) <;> simp [*]

@[simp] theorem State.wakeUp_fixed (s : State) : (State.wakeUp s).fixed = s.fixed := by
  unfold State.wakeUp
  (repeat' split) <;> simp [*]

/-! ### Thermal -/

@[simp] theorem State.setThrottle_fixed (s : State) (k : Nat) : (State.setThrottle s k).fixed = s.fixed := by
  unfold State.setThrottle
  (repeat' split) <;> simp [*]

@[simp] theorem State.moduleTrip_fixed (s : State) (reason cause : Nat) : (State.moduleTrip s reason cause).fixed = s.fixed := by
  unfold State.moduleTrip
  (repeat' split) <;> simp [*]

@[simp] theorem State.dieTrip_fixed (s : State) (d : Nat) (temp : Int) : (State.dieTrip s d temp).fixed = s.fixed := by
  unfold State.dieTrip
  (repeat' split) <;> simp [*]

@[simp] theorem State.clearTrip_fixed (s : State) : (State.clearTrip s).fixed = s.fixed := by
  unfold State.clearTrip
  (repeat' split) <;> simp [*]

/-! ### Spaces -/

@[simp] theorem State.writeScratch_fixed (s : State) (a : Nat) (bs : Bytes) : (State.writeScratch s a bs).fixed = s.fixed := by
  unfold State.writeScratch
  (repeat' split) <;> simp [*]

@[simp] theorem State.writeSpace_fixed (s : State) (space a : Nat) (bs : Bytes) : (State.writeSpace s space a bs).fixed = s.fixed := by
  unfold State.writeSpace
  (repeat' split) <;> simp [*]

@[simp] theorem State.storeForm_fixed (s : State) (form : Nat) (bs : Bytes) : (State.storeForm s form bs).fixed = s.fixed := by
  unfold State.storeForm
  (repeat' split) <;> simp [*]

/-! ### Security -/

@[simp] theorem State.updFwSlot_fixed (s : State) (i : Nat) (f : FwSlot → FwSlot) : (State.updFwSlot s i f).fixed = s.fixed := by
  unfold State.updFwSlot
  (repeat' split) <;> simp [*]

@[simp] theorem State.startFirmware_fixed (s : State) (slot : Nat) (img : Bytes) : (State.startFirmware s slot img).fixed = s.fixed := by
  unfold State.startFirmware
  (repeat' split) <;> simp [*]

@[simp] theorem State.enterRecovery_fixed (s : State) : (State.enterRecovery s).fixed = s.fixed := by
  unfold State.enterRecovery
  (repeat' split) <;> simp [*]

@[simp] theorem State.fallBack_fixed (s : State) (slot : Nat) : (State.fallBack s slot).fixed = s.fixed := by
  unfold State.fallBack
  (repeat' split) <;> simp [*]

@[simp] theorem State.measureUpdate_fixed (s : State) (op kind slot : Nat) (value : Bytes) : (State.measureUpdate s op kind slot value).fixed = s.fixed := by
  unfold State.measureUpdate
  (repeat' split) <;> simp [*]

@[simp] theorem State.fuseWritten_fixed (s : State) (op kind slot : Nat) : (State.fuseWritten s op kind slot).fixed = s.fixed := by
  unfold State.fuseWritten
  (repeat' split) <;> simp [*]

@[simp] theorem State.answerChunk_fixed (s : State) (p k : Nat) (req bs : Bytes) : (State.answerChunk s p k req bs).fixed = s.fixed := by
  unfold State.answerChunk
  (repeat' split) <;> simp [*]

/-! ### Gddr -/

@[simp] theorem State.trainChannels_fixed (s : State) (seedFail trainFail : List (Nat × Nat)) : (State.trainChannels s seedFail trainFail).fixed = s.fixed := by
  unfold State.trainChannels
  (repeat' split) <;> simp [*]

@[simp] theorem State.correctedEvent_fixed (s : State) (md ch : Nat) : (State.correctedEvent s md ch).fixed = s.fixed := by
  unfold State.correctedEvent
  (repeat' split) <;> simp [*]

@[simp] theorem State.poisonWord_fixed (s : State) (md w : Nat) : (State.poisonWord s md w).fixed = s.fixed := by
  unfold State.poisonWord
  (repeat' split) <;> simp [*]

@[simp] theorem State.cxlPoisoned_fixed (s : State) (x : Nat) : (State.cxlPoisoned s x).fixed = s.fixed := by
  unfold State.cxlPoisoned
  (repeat' split) <;> simp [*]

/-! ### Cascade -/

@[simp] theorem State.sendOn_fixed (s : State) (q t : Nat) (f : Flit) : (State.sendOn s q t f).fixed = s.fixed := by
  unfold State.sendOn
  (repeat' split) <;> simp [*]

@[simp] theorem State.sendTo_fixed (s : State) (r t : Nat) (f : Flit) : (State.sendTo s r t f).fixed = s.fixed := by
  unfold State.sendTo
  (repeat' split) <;> simp [*]

@[simp] theorem State.forward_fixed (s : State) (t : Nat) (f : Flit) : (State.forward s t f).fixed = s.fixed := by
  unfold State.forward
  (repeat' split) <;> simp [*]

@[simp] theorem State.decoded_fixed (s : State) (q : Nat) (f : Flit) : (State.decoded s q f).fixed = s.fixed := by
  unfold State.decoded
  (repeat' split) <;> simp [*]

@[simp] theorem State.sendRetry_fixed (s : State) (q : Nat) : (State.sendRetry s q).fixed = s.fixed := by
  unfold State.sendRetry
  (repeat' split) <;> simp [*]

@[simp] theorem State.acceptFlit_fixed (s : State) (q : Nat) (f : Flit) : (State.acceptFlit s q f).fixed = s.fixed := by
  unfold State.acceptFlit
  (repeat' split) <;> simp [*]

@[simp] theorem State.takeSequenced_fixed (s : State) (q t : Nat) (f : Flit) (effect : State → State) (heffect : ∀ t, (effect t).fixed = t.fixed) : (State.takeSequenced s q t f effect).fixed = s.fixed := by
  unfold State.takeSequenced
  (repeat' split) <;> simp [*]

@[simp] theorem State.unlockTime_fixed (s : State) : (State.unlockTime s).fixed = s.fixed := by
  unfold State.unlockTime
  (repeat' split) <;> simp [*]

@[simp] theorem State.stepTime_fixed (s : State) (theta : Int) : (State.stepTime s theta).fixed = s.fixed := by
  unfold State.stepTime
  (repeat' split) <;> simp [*]

@[simp] theorem State.takeOffset_fixed (s : State) (theta : Int) : (State.takeOffset s theta).fixed = s.fixed := by
  unfold State.takeOffset
  (repeat' split) <;> simp [*]

@[simp] theorem State.takeTime_fixed (s : State) (q : Nat) (f : Flit) : (State.takeTime s q f).fixed = s.fixed := by
  unfold State.takeTime
  (repeat' split) <;> simp [*]

@[simp] theorem State.slewTime_fixed (s : State) : (State.slewTime s).fixed = s.fixed := by
  unfold State.slewTime
  (repeat' split) <;> simp [*]

@[simp] theorem State.ctrlTo_fixed (s : State) (r op off : Nat) (data : Bytes) : (State.ctrlTo s r op off data).fixed = s.fixed := by
  unfold State.ctrlTo
  (repeat' split) <;> simp [*]

@[simp] theorem State.sendCtrl_fixed (s : State) (op off : Nat) (data : Bytes) : (State.sendCtrl s op off data).fixed = s.fixed := by
  unfold State.sendCtrl
  (repeat' split) <;> simp [*]

@[simp] theorem State.mbxWrite_fixed (s : State) (r off : Nat) (bs : Bytes) : (State.mbxWrite s r off bs).fixed = s.fixed := by
  unfold State.mbxWrite
  (repeat' split) <;> simp [*]

@[simp] theorem State.sealAt_fixed (s : State) (r op : Nat) (req : Bytes) : (State.sealAt s r op req).fixed = s.fixed := by
  unfold State.sealAt
  (repeat' split) <;> simp [*]

@[simp] theorem State.declare_fixed (s : State) : (State.declare s).fixed = s.fixed := by
  unfold State.declare
  (repeat' split) <;> simp [*]

@[simp] theorem State.claimMember_fixed (s : State) (r : Nat) : (State.claimMember s r).fixed = s.fixed := by
  unfold State.claimMember
  (repeat' split) <;> simp [*]

@[simp] theorem State.applyToMembers_fixed (s : State) (pl : CutPlan) (op : Nat) (req : Bytes) : (State.applyToMembers s pl op req).fixed = s.fixed := by
  unfold State.applyToMembers
  (repeat' split) <;> simp [*]

/-! ### Cores -/

@[simp] theorem State.orderRows_fixed (s : State) (d c : Nat) (down : Bool) : (State.orderRows s d c down).fixed = s.fixed := by
  unfold State.orderRows
  (repeat' split) <;> simp [*]

@[simp] theorem State.sendUnits_fixed (s : State) (rank d c : Nat) (down : Bool) (us : List (Bytes × Bool)) : (State.sendUnits s rank d c down us).fixed = s.fixed := by
  unfold State.sendUnits
  (repeat' split) <;> simp [*]

@[simp] theorem State.sendSeam_fixed (s : State) (d c : Nat) (down : Bool) : (State.sendSeam s d c down).fixed = s.fixed := by
  unfold State.sendSeam
  (repeat' split) <;> simp [*]

@[simp] theorem State.tee_fixed (s : State) (d c : Nat) (down : Bool) (rows : List Bytes) : (State.tee s d c down rows).fixed = s.fixed := by
  unfold State.tee
  (repeat' split) <;> simp [*]

@[simp] theorem State.issue_fixed (s : State) (d c : Nat) (run : Desc → Core → Done) : (State.issue s d c run).fixed = s.fixed := by
  unfold State.issue
  dsimp only
  (repeat' split) <;> simp [*]

/-! ### Seams -/

@[simp] theorem State.creditBack_fixed (s : State) (d c : Nat) (down : Bool) (credits rows : Nat) : (State.creditBack s d c down credits rows).fixed = s.fixed := by
  unfold State.creditBack
  (repeat' split) <;> simp [*]

@[simp] theorem State.peerSends_fixed (s : State) (d c : Nat) (down : Bool) : (State.peerSends s d c down).fixed = s.fixed := by
  unfold State.peerSends
  (repeat' split) <;> simp [*]

@[simp] theorem State.sendShard_fixed (s : State) (d a b : Nat) : (State.sendShard s d a b).fixed = s.fixed := by
  unfold State.sendShard
  (repeat' split) <;> simp [*]

@[simp] theorem State.releaseCut_fixed (s : State) (i : Nat) (flip : Bool) : (State.releaseCut s i flip).fixed = s.fixed := by
  unfold State.releaseCut
  (repeat' split) <;> simp [*]

/-! ### Deliver -/

@[simp] theorem State.deliverUnit_fixed (s : State) (d c : Nat) (down last : Bool) (bytes : Bytes) : (State.deliverUnit s d c down last bytes).fixed = s.fixed := by
  unfold State.deliverUnit
  (repeat' split) <;> simp [*]

@[simp] theorem State.deliverCredits_fixed (s : State) (d c : Nat) (down : Bool) (credits rows : Nat) : (State.deliverCredits s d c down credits rows).fixed = s.fixed := by
  unfold State.deliverCredits
  (repeat' split) <;> simp [*]

@[simp] theorem State.deliverCinch_fixed (s : State) (src : Nat) (payload : Bytes) : (State.deliverCinch s src payload).fixed = s.fixed := by
  unfold State.deliverCinch
  (repeat' split) <;> simp [*]

@[simp] theorem State.deliverData_fixed (s : State) (f : Flit) : (State.deliverData s f).fixed = s.fixed := by
  unfold State.deliverData
  (repeat' split) <;> simp [*]

/-! ### Models -/

@[simp] theorem State.installModel_fixed (s : State) (slot source : Nat) (pkg : Bytes) : (State.installModel s slot source pkg).fixed = s.fixed := by
  unfold State.installModel
  (repeat' split) <;> simp [*]

@[simp] theorem State.modelRefused_fixed (s : State) (a : Answer) (slot : Nat) : (State.modelRefused s a slot).fixed = s.fixed := by
  unfold State.modelRefused
  (repeat' split) <;> simp [*]

@[simp] theorem State.loadModel_fixed (s : State) (p k slot : Nat) (persist : Bool) (pkg : Bytes) : (State.loadModel s p k slot persist pkg).fixed = s.fixed := by
  unfold State.loadModel
  dsimp only
  (repeat' split) <;> simp [*]

/-! ### Sessions -/

@[simp] theorem State.answerFor_fixed (s : State) (p k i : Nat) (a : Answer) : (State.answerFor s p k i a).fixed = s.fixed := by
  unfold State.answerFor
  (repeat' split) <;> simp [*]

@[simp] theorem State.sessionChecked_fixed (s : State) (p k i : Nat) (checks : List (Bool × Answer)) (ok : State → State) (hok : ∀ t, (ok t).fixed = t.fixed) : (State.sessionChecked s p k i checks ok).fixed = s.fixed := by
  unfold State.sessionChecked
  (repeat' split) <;> simp [*]

@[simp] theorem State.bindPlan_fixed (s : State) (i : Nat) (pl : CutPlan) (place : Placement) : (State.bindPlan s i pl place).fixed = s.fixed := by
  unfold State.bindPlan
  (repeat' split) <;> simp [*]

@[simp] theorem State.endFault_fixed (s : State) (i : Nat) : (State.endFault s i).fixed = s.fixed := by
  unfold State.endFault
  (repeat' split) <;> simp [*]

@[simp] theorem State.retireAll_fixed (s : State) (l : List (CoreDie × CoreIx)) : (State.retireAll s l).fixed = s.fixed := by
  unfold State.retireAll
  (repeat' split) <;> simp [*]

@[simp] theorem State.remap_fixed (s : State) (p k i : Nat) (pl : CutPlan) (place : Placement) (mismatch : List (CoreDie × CoreIx)) : (State.remap s p k i pl place mismatch).fixed = s.fixed := by
  unfold State.remap
  (repeat' split) <;> simp [*]

@[simp] theorem State.recut_fixed (s : State) (p k i : Nat) (pl : CutPlan) (place : Placement) (mismatch : List (CoreDie × CoreIx)) : (State.recut s p k i pl place mismatch).fixed = s.fixed := by
  unfold State.recut
  (repeat' split) <;> simp [*]

@[simp] theorem State.abandonAll_fixed (s : State) (i : Nat) : (State.abandonAll s i).fixed = s.fixed := by
  unfold State.abandonAll
  (repeat' split) <;> simp [*]

@[simp] theorem State.unbind_fixed (s : State) (i : Nat) : (State.unbind s i).fixed = s.fixed := by
  unfold State.unbind
  (repeat' split) <;> simp [*]

@[simp] theorem State.fenceParked_fixed (s : State) (i : Nat) : (State.fenceParked s i).fixed = s.fixed := by
  unfold State.fenceParked
  (repeat' split) <;> simp [*]

@[simp] theorem State.grantPic_fixed (s : State) (i order need : Nat) : (State.grantPic s i order need).fixed = s.fixed := by
  unfold State.grantPic
  (repeat' split) <;> simp [*]

@[simp] theorem State.requestNeed_fixed (s : State) (i order need : Nat) : (State.requestNeed s i order need).fixed = s.fixed := by
  unfold State.requestNeed
  (repeat' split) <;> simp [*]

/-! ### Motion -/

@[simp] theorem State.tookTurn_fixed (s : State) (key i : Nat) : (State.tookTurn s key i).fixed = s.fixed := by
  unfold State.tookTurn
  (repeat' split) <;> simp [*]

@[simp] theorem State.reportMissingLib_fixed (s : State) (i : Nat) (p : Picture) (index : Nat) : (State.reportMissingLib s i p index).fixed = s.fixed := by
  unfold State.reportMissingLib
  (repeat' split) <;> simp [*]

/-! ### Rans -/

@[simp] theorem State.laneDone_fixed (s : State) (sd l i : Nat) (encode endErr overrun : Bool) : (State.laneDone s sd l i encode endErr overrun).fixed = s.fixed := by
  unfold State.laneDone
  (repeat' split) <;> simp [*]

/-! ### Feeder -/

@[simp] theorem State.writePieces_fixed (s : State) (space : Nat) (ps : List (Nat × Bytes)) : (State.writePieces s space ps).fixed = s.fixed := by
  unfold State.writePieces
  (repeat' split) <;> simp [*]

@[simp] theorem State.completeEntry_fixed (s : State) (md q : Nat) (e : Bytes) : (State.completeEntry s md q e).fixed = s.fixed := by
  unfold State.completeEntry
  (repeat' split) <;> simp [*]

@[simp] theorem State.countEcc_fixed (s : State) (d : TransferDesc) : (State.countEcc s d).fixed = s.fixed := by
  unfold State.countEcc
  (repeat' split) <;> simp [*]

@[simp] theorem State.landShort_fixed (s : State) (t : Transfer) (status landed : Nat) : (State.landShort s t status landed).1.fixed = s.fixed := by
  unfold State.landShort
  (repeat' split) <;> simp [*]

@[simp] theorem State.landTransfer_fixed (s : State) (t : Transfer) (badRead : Bool) (landed : Nat) : (State.landTransfer s t badRead landed).1.fixed = s.fixed := by
  unfold State.landTransfer
  dsimp only
  (repeat' split) <;> simp

@[simp] theorem State.finishTransfer_fixed (s : State) (md q : Nat) (t : Transfer) (badRead : Bool) (landed : Nat) : (State.finishTransfer s md q t badRead landed).fixed = s.fixed := by
  unfold State.finishTransfer
  (repeat' split) <;> simp [*]

@[simp] theorem State.landStitch_fixed (s : State) (md q : Nat) (badRead : Bool) (landed : Nat) : (State.landStitch s md q badRead landed).fixed = s.fixed := by
  unfold State.landStitch
  dsimp only
  (repeat' split) <;> simp

@[simp] theorem State.dropHead_fixed (s : State) (md q : Nat) : (State.dropHead s md q).fixed = s.fixed := by
  unfold State.dropHead
  (repeat' split) <;> simp [*]

@[simp] theorem State.cancelTransfer_fixed (s : State) (md q : Nat) (t : Transfer) (landed : Nat) : (State.cancelTransfer s md q t landed).fixed = s.fixed := by
  unfold State.cancelTransfer
  (repeat' split) <;> simp [*]

/-! ### Video -/

@[simp] theorem State.addPicture_fixed (s : State) (i : Nat) (p : Picture) : (State.addPicture s i p).fixed = s.fixed := by
  unfold State.addPicture
  (repeat' split) <;> simp [*]

@[simp] theorem State.startPhase1_fixed (s : State) (i : Nat) (poc : W32) (loads : List CoreLoad) : (State.startPhase1 s i poc loads).fixed = s.fixed := by
  unfold State.startPhase1
  (repeat' split) <;> simp [*]

@[simp] theorem State.appendStream_fixed (s : State) (i : Nat) (bs : Bytes) : (State.appendStream s i bs).fixed = s.fixed := by
  unfold State.appendStream
  (repeat' split) <;> simp [*]

@[simp] theorem State.commitUnit_fixed (s : State) (i : Nat) (poc : W32) (n : Nat) (bs : Bytes) : (State.commitUnit s i poc n bs).fixed = s.fixed := by
  unfold State.commitUnit
  (repeat' split) <;> simp [*]

@[simp] theorem State.beginPicture_fixed (s : State) (i : Nat) (p : Picture) : (State.beginPicture s i p).fixed = s.fixed := by
  unfold State.beginPicture
  (repeat' split) <;> simp [*]

@[simp] theorem State.writeSlotPlanes_fixed (s : State) (f : SeqFmt) (planes : List Plane) (slot : W32 × List W64 × Nat × Nat) : (State.writeSlotPlanes s f planes slot).fixed = s.fixed := by
  unfold State.writeSlotPlanes
  (repeat' split) <;> simp [*]

@[simp] theorem State.outputPicture_fixed (s : State) (i : Nat) (planes : List Plane) : (State.outputPicture s i planes).fixed = s.fixed := by
  unfold State.outputPicture
  dsimp only
  (repeat' split) <;> simp [*]

@[simp] theorem State.reportMarks_fixed (s : State) (i : Nat) (p : Picture) (missing : List Mark) : (State.reportMarks s i p missing).fixed = s.fixed := by
  unfold State.reportMarks
  (repeat' split) <;> simp [*]

@[simp] theorem State.afterPicture_fixed (s : State) (i : Nat) (p : Picture) (recon : List Plane) (libIndex : Option Nat) : (State.afterPicture s i p recon libIndex).fixed = s.fixed := by
  unfold State.afterPicture
  (repeat' split) <;> simp [*]

@[simp] theorem State.finishPicture_fixed (s : State) (i : Nat) (p : Picture) (recon : List Plane) (carry : List (List (List W16))) (trouble : Bool) : (State.finishPicture s i p recon carry trouble).fixed = s.fixed := by
  unfold State.finishPicture
  (repeat' split) <;> simp [*]

@[simp] theorem State.collectCores_fixed (s : State) (i : Nat) : (State.collectCores s i).fixed = s.fixed := by
  unfold State.collectCores
  (repeat' split) <;> simp [*]

@[simp] theorem State.reportWriteFail_fixed (s : State) (i index : Nat) : (State.reportWriteFail s i index).fixed = s.fixed := by
  unfold State.reportWriteFail
  (repeat' split) <;> simp [*]

/-! ### Tutik -/

@[simp] theorem State.updDec_fixed (s : State) (i : Nat) (f : Decoder → Decoder) : (State.updDec s i f).fixed = s.fixed := by
  unfold State.updDec
  (repeat' split) <;> simp [*]

@[simp] theorem State.dropPicture_fixed (s : State) (i : Nat) (poc : W32) (r : Report) : (State.dropPicture s i poc r).fixed = s.fixed := by
  unfold State.dropPicture
  dsimp only
  (repeat' split) <;> simp [*]

@[simp] theorem State.concealRows_fixed (s : State) (i : Nat) (poc : W32) (row n : Nat) : (State.concealRows s i poc row n).fixed = s.fixed := by
  unfold State.concealRows
  (repeat' split) <;> simp [*]

@[simp] theorem State.truncateGroup_fixed (s : State) (i : Nat) (tag : W32) (offset : Nat) : (State.truncateGroup s i tag offset).fixed = s.fixed := by
  unfold State.truncateGroup
  dsimp only
  (repeat' split) <;> simp [*]

@[simp] theorem State.concealWhole_fixed (s : State) (i : Nat) (p : Picture) : (State.concealWhole s i p).fixed = s.fixed := by
  unfold State.concealWhole
  (repeat' split) <;> simp [*]

@[simp] theorem State.settleLost_fixed (s : State) (i : Nat) : (State.settleLost s i).fixed = s.fixed := by
  unfold State.settleLost
  (repeat' split) <;> simp [*]

@[simp] theorem State.settleEnd_fixed (s : State) (i : Nat) : (State.settleEnd s i).fixed = s.fixed := by
  unfold State.settleEnd
  (repeat' split) <;> simp [*]

@[simp] theorem State.settleNeed_fixed (s : State) (i : Nat) : (State.settleNeed s i).fixed = s.fixed := by
  unfold State.settleNeed
  (repeat' split) <;> simp [*]

@[simp] theorem State.settleDecode_fixed (s : State) (i : Nat) : (State.settleDecode s i).fixed = s.fixed := by
  unfold State.settleDecode
  (repeat' split) <;> simp [*]

@[simp] theorem State.takeUnit_fixed (s : State) (i : Nat) (u : NextUnit) : (State.takeUnit s i u).fixed = s.fixed := by
  unfold State.takeUnit
  (repeat' split) <;> simp [*]

@[simp] theorem State.skipUnit_fixed (s : State) (i : Nat) (u : NextUnit) (r : Report) : (State.skipUnit s i u r).fixed = s.fixed := by
  unfold State.skipUnit
  (repeat' split) <;> simp [*]

@[simp] theorem State.passUnit_fixed (s : State) (i : Nat) (u : NextUnit) : (State.passUnit s i u).fixed = s.fixed := by
  unfold State.passUnit
  (repeat' split) <;> simp [*]

@[simp] theorem State.misplaced_fixed (s : State) (i : Nat) (u : NextUnit) (r : Report) : (State.misplaced s i u r).fixed = s.fixed := by
  unfold State.misplaced
  (repeat' split) <;> simp [*]

@[simp] theorem State.dropGroup_fixed (s : State) (i : Nat) (u : NextUnit) (r : Report) : (State.dropGroup s i u r).fixed = s.fixed := by
  unfold State.dropGroup
  (repeat' split) <;> simp [*]

@[simp] theorem State.startHunt_fixed (s : State) (i : Nat) (h : Hunt) : (State.startHunt s i h).fixed = s.fixed := by
  unfold State.startHunt
  (repeat' split) <;> simp [*]

@[simp] theorem State.huntFrom_fixed (s : State) (i : Nat) (u : NextUnit) (d : Damage) : (State.huntFrom s i u d).fixed = s.fixed := by
  unfold State.huntFrom
  (repeat' split) <;> simp [*]

@[simp] theorem State.huntPast_fixed (s : State) (i : Nat) (u : NextUnit) : (State.huntPast s i u).fixed = s.fixed := by
  unfold State.huntPast
  (repeat' split) <;> simp [*]

@[simp] theorem State.endHunt_fixed (s : State) (i : Nat) : (State.endHunt s i).fixed = s.fixed := by
  unfold State.endHunt
  (repeat' split) <;> simp [*]

@[simp] theorem State.settleRefused_fixed (s : State) (i : Nat) : (State.settleRefused s i).fixed = s.fixed := by
  unfold State.settleRefused
  dsimp only
  (repeat' split) <;> simp [*]

@[simp] theorem State.reportRefs_fixed (s : State) (i : Nat) (u : NextUnit) (poc : W32) (refs : List Ref) : (State.reportRefs s i u poc refs).fixed = s.fixed := by
  unfold State.reportRefs
  (repeat' split) <;> simp [*]

@[simp] theorem State.acceptPic_fixed (s : State) (i : Nat) (u : NextUnit) (p : Payload) (lost : Option Damage) : (State.acceptPic s i u p lost).fixed = s.fixed := by
  unfold State.acceptPic
  (repeat' split) <;> simp [*]

@[simp] theorem State.rowTaken_fixed (s : State) (i row : Nat) : (State.rowTaken s i row).fixed = s.fixed := by
  unfold State.rowTaken
  (repeat' split) <;> simp [*]

@[simp] theorem State.placeRow_fixed (s : State) (i : Nat) (poc : W32) (u : NextUnit) (p : Payload) : (State.placeRow s i poc u p).fixed = s.fixed := by
  unfold State.placeRow
  (repeat' split) <;> simp [*]

@[simp] theorem State.concealNext_fixed (s : State) (i : Nat) (poc : W32) (u : NextUnit) (d : Damage) : (State.concealNext s i poc u d).fixed = s.fixed := by
  unfold State.concealNext
  (repeat' split) <;> simp [*]

@[simp] theorem State.skipRows_fixed (s : State) (i : Nat) (poc : W32) (u : NextUnit) (p : Payload) : (State.skipRows s i poc u p).fixed = s.fixed := by
  unfold State.skipRows
  (repeat' split) <;> simp [*]

@[simp] theorem State.libOp_fixed (i : Nat) (u : NextUnit) (p : Payload) (s : State) (o : Nat × Nat × Bytes × Nat) : (State.libOp i u p s o).fixed = s.fixed := by
  unfold State.libOp
  (repeat' split) <;> simp [*]

/-! ### Audio -/

@[simp] theorem State.updAudio_fixed (s : State) (i g : Nat) (f : AudioGroup → AudioGroup) : (State.updAudio s i g f).fixed = s.fixed := by
  unfold State.updAudio
  (repeat' split) <;> simp [*]

@[simp] theorem State.writeSamples_fixed (s : State) (i g : Nat) (bs : Bytes) : (State.writeSamples s i g bs).fixed = s.fixed := by
  unfold State.writeSamples
  dsimp only
  (repeat' split) <;> simp [*]

@[simp] theorem State.addSampleCounts_fixed (s : State) (i : Nat) (cs : List ElemCount) : (State.addSampleCounts s i cs).fixed = s.fixed := by
  unfold State.addSampleCounts
  (repeat' split) <;> simp [*]

@[simp] theorem State.codeFrame_fixed (s : State) (i g : Nat) (c : GroupCfg) (b : AudioBlock) (bs : Bytes) : (State.codeFrame s i g c b bs).fixed = s.fixed := by
  unfold State.codeFrame
  dsimp only
  (repeat' split) <;> simp [*]

@[simp] theorem State.placeAud_fixed (s : State) (v : Nat) (bs : Bytes) : (State.placeAud s v bs).fixed = s.fixed := by
  unfold State.placeAud
  (repeat' split) <;> simp [*]

@[simp] theorem State.openAudio_fixed (s : State) (i : Nat) : (State.openAudio s i).fixed = s.fixed := by
  unfold State.openAudio
  (repeat' split) <;> simp [*]

@[simp] theorem State.muteFrame_fixed (s : State) (i g : Nat) (c : GroupCfg) (x : FrameInfo) : (State.muteFrame s i g c x).fixed = s.fixed := by
  unfold State.muteFrame
  (repeat' split) <;> simp [*]

@[simp] theorem State.muteFrames_fixed (s : State) (i g : Nat) (c : GroupCfg) (tag frame : W32) (n : Nat) : (State.muteFrames s i g c tag frame n).fixed = s.fixed := by
  unfold State.muteFrames
  (repeat' split) <;> simp [*]

@[simp] theorem State.startFrame_fixed (s : State) (i j g : Nat) (c : GroupCfg) (u : NextUnit) (p : Payload) (missing : Nat) : (State.startFrame s i j g c u p missing).fixed = s.fixed := by
  unfold State.startFrame
  (repeat' split) <;> simp [*]

@[simp] theorem State.takeFrame_fixed (s : State) (i j g : Nat) (c : GroupCfg) (u : NextUnit) (p : Payload) : (State.takeFrame s i j g c u p).fixed = s.fixed := by
  unfold State.takeFrame
  (repeat' split) <;> simp [*]

/-! ### Lanes -/

@[simp] theorem State.acceptFlags_fixed (s : State) (i : Nat) (u : UnitJob) (poc : W32) (row : Nat) : (State.acceptFlags s i u poc row).fixed = s.fixed := by
  unfold State.acceptFlags
  (repeat' split) <;> simp [*]

@[simp] theorem State.finishPic_fixed (s : State) (i : Nat) (u : UnitJob) (p : Picture) : (State.finishPic s i u p).fixed = s.fixed := by
  unfold State.finishPic
  (repeat' split) <;> simp [*]

@[simp] theorem State.finishRow_fixed (s : State) (i : Nat) (u : UnitJob) (p : Picture) : (State.finishRow s i u p).fixed = s.fixed := by
  unfold State.finishRow
  dsimp only
  (repeat' split) <;> simp [*]

@[simp] theorem State.finishAud_fixed (s : State) (i : Nat) (u : UnitJob) : (State.finishAud s i u).fixed = s.fixed := by
  unfold State.finishAud
  (repeat' split) <;> simp [*]

@[simp] theorem State.finishAgain_fixed (s : State) (i : Nat) (u : UnitJob) : (State.finishAgain s i u).fixed = s.fixed := by
  unfold State.finishAgain
  (repeat' split) <;> simp [*]

@[simp] theorem State.finishUnit_fixed (s : State) (i : Nat) (u : UnitJob) : (State.finishUnit s i u).fixed = s.fixed := by
  unfold State.finishUnit
  dsimp only
  (repeat' split) <;> simp [*]

/-! ### Regs -/

@[simp] theorem State.clearClk_fixed (s : State) (v : Nat) : (State.clearClk s v).fixed = s.fixed := by
  unfold State.clearClk
  (repeat' split) <;> simp [*]

@[simp] theorem State.clearTherm_fixed (s : State) (v : Nat) : (State.clearTherm s v).fixed = s.fixed := by
  unfold State.clearTherm
  (repeat' split) <;> simp [*]

@[simp] theorem State.clearCxl_fixed (s : State) (x v : Nat) : (State.clearCxl s x v).fixed = s.fixed := by
  unfold State.clearCxl
  (repeat' split) <;> simp [*]

@[simp] theorem State.writeHub_fixed (s : State) (p o v : Nat) : (State.writeHub s p o v).fixed = s.fixed := by
  unfold State.writeHub
  (repeat' split) <;> simp [*]

@[simp] theorem State.writeBar0_fixed (s : State) (p a : Nat) (bs : Bytes) : (State.writeBar0 s p a bs).fixed = s.fixed := by
  unfold State.writeBar0
  dsimp only
  split
  · exact State.foldl_fixed _ (fun t x => by simp) _ _
  · rw [State.foldl_fixed _ (fun t x => by (repeat' split) <;> simp)]
    split <;> simp

@[simp] theorem State.writeSmbus_fixed (s : State) (code v : Nat) : (State.writeSmbus s code v).fixed = s.fixed := by
  unfold State.writeSmbus
  (repeat' split) <;> simp [*]

@[simp] theorem State.writeCoreDie_fixed (s : State) (d o v : Nat) : (State.writeCoreDie s d o v).fixed = s.fixed := by
  unfold State.writeCoreDie
  (repeat' split) <;> simp [*]

@[simp] theorem State.writeMemDie_fixed (s : State) (m o v : Nat) : (State.writeMemDie s m o v).fixed = s.fixed := by
  unfold State.writeMemDie
  (repeat' split) <;> simp [*]

@[simp] theorem State.writeStreamDie_fixed (s : State) (k o v : Nat) : (State.writeStreamDie s k o v).fixed = s.fixed := by
  unfold State.writeStreamDie
  (repeat' split) <;> simp [*]

@[simp] theorem State.writeLinkDie_fixed (s : State) (o v : Nat) : (State.writeLinkDie s o v).fixed = s.fixed := by
  unfold State.writeLinkDie
  (repeat' split) <;> simp [*]

@[simp] theorem State.writeWindow_fixed (s : State) (addr v : Nat) : (State.writeWindow s addr v).fixed = s.fixed := by
  unfold State.writeWindow
  (repeat' split) <;> simp [*]

@[simp] theorem State.writeReg_fixed (s : State) (w : Writer) (addr : Nat) (data : Bytes) : (State.writeReg s w addr data).fixed = s.fixed := by
  unfold State.writeReg
  (repeat' split) <;> simp [*]

end Sys2Proof.Machine
end

