-- ==== Sys2Proof/Laws/Memory.lean ====
section
/-! SUPPORT. The memories outside the package's logic (GDDR7, both hosts, both expanders) keep their canonical form under every
operation: one lemma for each operation over the state, an equation where it leaves memory alone. -/

namespace Sys2Proof.Machine

@[simp] theorem State.memory_ite (c : Prop) [Decidable c] (a b : State) : (if c then a else b).memory = if c then a.memory else b.memory := by
  split <;> rfl

@[simp] theorem Memory.wf_ite (c : Prop) [Decidable c] (a b : Memory) : (if c then a else b).wf = if c then a.wf else b.wf := by
  split <;> rfl

/-- A fold of operations that keep the form keeps it. -/
@[simp] theorem State.foldl_memOk {α : Type} (f : State → α → State) (hf : ∀ t x, t.memory.wf = true → (f t x).memory.wf = true) (l : List α) (s : State)
    (h : s.memory.wf = true) : (l.foldl f s).memory.wf = true := by
  induction l generalizing s with
  | nil => exact h
  | cons a l ih => exact ih _ (hf s a h)

/-- A fold of operations that leave memory alone leaves it alone. -/
@[simp] theorem State.foldl_memory {α : Type} (f : State → α → State) (hf : ∀ t x, (f t x).memory = t.memory) (l : List α) (s : State) :
    (l.foldl f s).memory = s.memory := by
  induction l generalizing s with
  | nil => rfl
  | cons a l ih => rw [List.foldl_cons, ih, hf]

theorem Memory.wf_iff (m : Memory) :
    m.wf = true ↔ Mem.wf m.gddr = true ∧ Mem.wf m.host0 = true ∧ Mem.wf m.host1 = true ∧ Mem.wf m.cxlA = true ∧ Mem.wf m.cxlB = true := by
  simp [Memory.wf, and_assoc]

theorem Memory.wf_empty : Mem.wf [] = true := rfl


/-! ### Ops -/

@[simp] theorem State.updChannel_memOk (s : State) (md ch : Nat) (f : GddrChannel → GddrChannel) (h : s.memory.wf = true) : (State.updChannel s md ch f).memory.wf = true := by
  rw [Memory.wf_iff] at *
  exact h

@[simp] theorem State.raiseVector_memory (s : State) (p v : Nat) : (State.raiseVector s p v).memory = s.memory := by
  unfold State.raiseVector
  (repeat' split) <;> simp [*]

@[simp] theorem State.noticeMaster_memory (s : State) (code index : Nat) : (State.noticeMaster s code index).memory = s.memory := by
  unfold State.noticeMaster
  (repeat' split) <;> simp [*]

@[simp] theorem State.vector0_memory (s : State) : (State.vector0 s).memory = s.memory := by
  unfold State.vector0
  (repeat' split) <;> simp [*]

@[simp] theorem State.vector1_memory (s : State) : (State.vector1 s).memory = s.memory := by
  unfold State.vector1
  (repeat' split) <;> simp [*]

@[simp] theorem State.dieEvent_memory (s : State) (owner die severity code : Nat) (arg : W32) (info : Nat) : (State.dieEvent s owner die severity code arg info).memory = s.memory := by
  unfold State.dieEvent
  (repeat' split) <;> simp [*]

@[simp] theorem State.moduleEvent_memory (s : State) (severity code : Nat) (arg : W32) (info : Nat) : (State.moduleEvent s severity code arg info).memory = s.memory := by
  unfold State.moduleEvent
  (repeat' split) <;> simp [*]

@[simp] theorem State.gddrWrite_memOk (s : State) (a : Nat) (bs : Bytes) (h : s.memory.wf = true) : (State.gddrWrite s a bs).memory.wf = true := by
  unfold State.gddrWrite
  split
  · rw [Memory.wf_iff] at *
    exact ⟨Mem.wf_writeBytes _ _ _ h.1, h.2⟩
  · exact h

@[simp] theorem State.answer_memory (s : State) (p k : Nat) (a : Answer) : (State.answer s p k a).memory = s.memory := by
  unfold State.answer
  (repeat' split) <;> simp [*]

@[simp] theorem State.settleSlot_memory (p : Nat) (s : State) (k : Nat) : (State.settleSlot p s k).memory = s.memory := by
  unfold State.settleSlot
  (repeat' split) <;> simp [*]

@[simp] theorem State.noteGap_memory (s : State) (p : Nat) : (State.noteGap s p).memory = s.memory := by
  unfold State.noteGap
  (repeat' split) <;> simp [*]

@[simp] theorem State.settleSeq_memory (s : State) (p : Nat) : (State.settleSeq s p).memory = s.memory := by
  unfold State.settleSeq
  (repeat' split) <;> simp [*]

@[simp] theorem State.accept_memory (s : State) (p k : Nat) : (State.accept s p k).memory = s.memory := by
  unfold State.accept
  (repeat' split) <;> simp [*]

@[simp] theorem State.command_memOk (s : State) (p k : Nat) (mine : Nat → Bytes → Bool) (body : State → Bytes → State) (hbody : ∀ t r, t.memory.wf = true → (body t r).memory.wf = true) (h : s.memory.wf = true) : (State.command s p k mine body).memory.wf = true := by
  unfold State.command
  (repeat' split) <;> simp [*]

@[simp] theorem State.checked_memOk (s : State) (p k : Nat) (checks : List (Bool × Answer)) (ok : State → State) (hok : ∀ t, t.memory.wf = true → (ok t).memory.wf = true) (h : s.memory.wf = true) : (State.checked s p k checks ok).memory.wf = true := by
  unfold State.checked
  (repeat' split) <;> simp [*]

@[simp] theorem State.loseVolatile_memOk (s : State) (h : s.memory.wf = true) : (State.loseVolatile s).memory.wf = true := by
  rw [Memory.wf_iff] at *
  exact ⟨rfl, h.2⟩

@[simp] theorem State.railsOff_memOk (s : State) (reason : Nat) (h : s.memory.wf = true) : (State.railsOff s reason).memory.wf = true := by
  unfold State.railsOff
  (repeat' split) <;> simp [*]

@[simp] theorem State.hubFault_memOk (s : State) (cause : Nat) (h : s.memory.wf = true) : (State.hubFault s cause).memory.wf = true := by
  unfold State.hubFault
  (repeat' split) <;> simp [*]

/-! ### Banks -/

@[simp] theorem State.settleBank_memory (s : State) (d c b : Nat) : (State.settleBank s d c b).memory = s.memory := by
  unfold State.settleBank
  (repeat' split) <;> simp [*]

@[simp] theorem State.giveBank_memory (s : State) (d c b own : Nat) : (State.giveBank s d c b own).memory = s.memory := by
  unfold State.giveBank
  (repeat' split) <;> simp [*]

/-! ### SessionOps -/

@[simp] theorem State.notify_memory (s : State) (i : Nat) : (State.notify s i).memory = s.memory := by
  unfold State.notify
  (repeat' split) <;> simp [*]

@[simp] theorem State.signalSession_memory (s : State) (i : Nat) : (State.signalSession s i).memory = s.memory := by
  unfold State.signalSession
  (repeat' split) <;> simp [*]

@[simp] theorem State.refreshWindow_memory (s : State) (i : Nat) : (State.refreshWindow s i).memory = s.memory := by
  unfold State.refreshWindow
  (repeat' split) <;> simp [*]

@[simp] theorem State.writeEntry_memOk (s : State) (i : Nat) (e : RingEntry) (h : s.memory.wf = true) : (State.writeEntry s i e).memory.wf = true := by
  unfold State.writeEntry
  (repeat' split) <;> simp [*]

@[simp] theorem State.recordStall_memory (s : State) (i : Nat) : (State.recordStall s i).memory = s.memory := by
  unfold State.recordStall
  (repeat' split) <;> simp [*]

@[simp] theorem State.ringPut_memOk (s : State) (i type : Nat) (rec : Bytes) (h : s.memory.wf = true) : (State.ringPut s i type rec).memory.wf = true := by
  unfold State.ringPut
  (repeat' split) <;> simp [*]

@[simp] theorem State.outWriteBytes_memOk (s : State) (i pos : Nat) (bs : Bytes) (h : s.memory.wf = true) : (State.outWriteBytes s i pos bs).memory.wf = true := by
  unfold State.outWriteBytes
  (repeat' split) <;> simp [*]

@[simp] theorem State.watchRing_memory (s : State) (i : Nat) : (State.watchRing s i).memory = s.memory := by
  unfold State.watchRing
  (repeat' split) <;> simp [*]

@[simp] theorem State.flushOutput_memOk (n i : Nat) (s : State) (h : s.memory.wf = true) : (State.flushOutput n i s).memory.wf = true := by
  induction n generalizing s with
  | zero => exact h
  | succ n ih =>
    unfold State.flushOutput
    dsimp only
    (repeat' split) <;> simp (maxDischargeDepth := 12) [ih, h]

@[simp] theorem State.flushRecords_memOk (n i : Nat) (s : State) (h : s.memory.wf = true) : (State.flushRecords n i s).memory.wf = true := by
  induction n generalizing s with
  | zero => exact h
  | succ n ih =>
    unfold State.flushRecords
    (repeat' split) <;> simp [ih, h]

@[simp] theorem State.outPut_memOk (s : State) (i pos : Nat) (bs : Bytes) (h : s.memory.wf = true) : (State.outPut s i pos bs).memory.wf = true := by
  unfold State.outPut
  dsimp only
  split
  · exact h
  · exact State.flushOutput_memOk _ _ _ (by simp [h])

@[simp] theorem State.flushRings_memOk (s : State) (h : s.memory.wf = true) : (State.flushRings s).memory.wf = true := by
  unfold State.flushRings
  exact State.foldl_memOk _ (fun t x ht => State.flushOutput_memOk _ _ _ (State.flushRecords_memOk _ _ _ ht)) _ _ h

@[simp] theorem State.dropGrants_memory (s : State) (i : Nat) (order : Option Nat) : (State.dropGrants s i order).memory = s.memory := by
  unfold State.dropGrants
  (repeat' split) <;> simp [*]

@[simp] theorem State.count_memory (s : State) (i c n : Nat) : (State.count s i c n).memory = s.memory := by
  unfold State.count
  (repeat' split) <;> simp [*]

@[simp] theorem State.report_memOk (s : State) (i : Nat) (r : Report) (h : s.memory.wf = true) : (State.report s i r).memory.wf = true := by
  unfold State.report
  (repeat' split) <;> simp [*]

@[simp] theorem State.sessionEvent_memOk (s : State) (i cause die : Nat) (h : s.memory.wf = true) : (State.sessionEvent s i cause die).memory.wf = true := by
  unfold State.sessionEvent
  (repeat' split) <;> simp [*]

@[simp] theorem State.takeRecord_memory (d c : Nat) (holder : Option Nat) (s : State) (r : Record) : (State.takeRecord d c holder s r).memory = s.memory := by
  unfold State.takeRecord
  dsimp only
  cases r.sess.orElse (fun _ => holder) <;> (split <;> simp)

@[simp] theorem State.collect_memory (s : State) (d c : Nat) : (State.collect s d c).memory = s.memory := by
  unfold State.collect
  (repeat' split) <;> simp [*]

@[simp] theorem State.drainCore_memory (s : State) (d c : Nat) : (State.drainCore s d c).memory = s.memory := by
  unfold State.drainCore
  (repeat' split) <;> simp [*]

@[simp] theorem State.cancelCore_memory (s : State) (d c : Nat) : (State.cancelCore s d c).memory = s.memory := by
  unfold State.cancelCore
  (repeat' split) <;> simp [*]

@[simp] theorem State.cancelCores_memory (s : State) (i : Nat) (cs : List (Nat × Nat)) : (State.cancelCores s i cs).memory = s.memory := by
  unfold State.cancelCores
  (repeat' split) <;> simp [*]

@[simp] theorem State.dropUnits_memory (s : State) (i : Nat) : (State.dropUnits s i).memory = s.memory := by
  unfold State.dropUnits
  (repeat' split) <;> simp [*]

@[simp] theorem State.abandon_memOk (s : State) (i : Nat) (h : s.memory.wf = true) : (State.abandon s i).memory.wf = true := by
  unfold State.abandon
  dsimp only
  split <;>
    (simp only [State.moduleEvent_memory, State.updSession_memory]
     refine State.foldl_memOk _ (fun t x ht => by simp (maxDischargeDepth := 12) [ht]) _ _ (by simp [h]))

@[simp] theorem State.leaveCore_memory (s : State) (d c : Nat) : (State.leaveCore s d c).memory = s.memory := by
  unfold State.leaveCore
  (repeat' split) <;> simp [*]

@[simp] theorem State.installTables_memory (s : State) (slot : Nat) (cs : List (Nat × Nat)) : (State.installTables s slot cs).memory = s.memory := by
  unfold State.installTables
  dsimp only
  split
  · rfl
  · exact State.foldl_memory _ (by intro t x; exact State.updCore_memory _ _ _ _) _ _

@[simp] theorem State.loadCore_memory (s : State) (l : CoreLoad) : (State.loadCore s l).memory = s.memory := by
  unfold State.loadCore
  (repeat' split) <;> simp [*]

@[simp] theorem State.applyLoads_memory (s : State) (i : Nat) (ls : List CoreLoad) : (State.applyLoads s i ls).memory = s.memory := by
  unfold State.applyLoads
  (repeat' split) <;> simp [*]

@[simp] theorem State.setPleats_memory (s : State) (i : Nat) (pl : CutPlan) : (State.setPleats s i pl).memory = s.memory := by
  unfold State.setPleats
  exact State.foldl_memory _ (by intro t x; (repeat' split) <;> simp) _ _

@[simp] theorem State.formRings_memory (s : State) (cs : List (Nat × Nat)) : (State.formRings s cs).memory = s.memory := by
  unfold State.formRings
  exact State.foldl_memory _ (fun t x => by (repeat' split) <;> simp) _ _

@[simp] theorem State.bindCores_memory (s : State) (i : Nat) (old : List (Nat × Nat)) (pl : CutPlan) : (State.bindCores s i old pl).memory = s.memory := by
  unfold State.bindCores
  dsimp only
  rw [State.installTables_memory, State.setPleats_memory, State.formRings_memory]
  exact (State.foldl_memory _ (by intro t x; split <;> simp) _ _).trans (State.foldl_memory _ (by intro t x; exact State.leaveCore_memory _ _ _) _ _)

@[simp] theorem State.releaseGuards_memory (s : State) (i : Nat) : (State.releaseGuards s i).memory = s.memory := by
  unfold State.releaseGuards
  (repeat' split) <;> simp [*]

@[simp] theorem State.bindGuard_memory (s : State) (i sd : Nat) : (State.bindGuard s i sd).memory = s.memory := by
  unfold State.bindGuard
  (repeat' split) <;> simp [*]

@[simp] theorem State.moveLanes_memory (s : State) (i : Nat) (old new : CutPlan) : (State.moveLanes s i old new).memory = s.memory := by
  unfold State.moveLanes
  (repeat' split) <;> simp [*]

@[simp] theorem State.initRing_memOk (s : State) (base produced : Nat) (h : s.memory.wf = true) : (State.initRing s base produced).memory.wf = true := by
  unfold State.initRing
  (repeat' split) <;> simp [*]

@[simp] theorem State.moveRings_memOk (s : State) (i : Nat) (rings : Nat × Nat) (h : s.memory.wf = true) : (State.moveRings s i rings).memory.wf = true := by
  unfold State.moveRings
  (repeat' split) <;> simp [*]

@[simp] theorem State.movePool_memOk (s : State) (i old new : Nat) (rings : Nat × Nat) (h : s.memory.wf = true) : (State.movePool s i old new rings).memory.wf = true := by
  unfold State.movePool
  (repeat' split) <;> simp [*]

@[simp] theorem State.takeCut_memOk (s : State) (i : Nat) (pl : CutPlan) (place : Placement) (moved : Bool) (h : s.memory.wf = true) : (State.takeCut s i pl place moved).memory.wf = true := by
  unfold State.takeCut
  (repeat' split) <;> simp [*]

@[simp] theorem State.finishRecut_memOk (s : State) (i : Nat) (h : s.memory.wf = true) : (State.finishRecut s i).memory.wf = true := by
  unfold State.finishRecut
  (repeat' split) <;> simp [*]

@[simp] theorem State.finishParked_memOk (s : State) (i : Nat) (h : s.memory.wf = true) : (State.finishParked s i).memory.wf = true := by
  unfold State.finishParked
  refine State.foldl_memOk _ (fun t x ht => ?_) _ _ h
  split
  · exact ht
  · dsimp only
    split <;> simp (maxDischargeDepth := 12) [ht]

@[simp] theorem State.redoLanes_memory (s : State) (i : Nat) : (State.redoLanes s i).memory = s.memory := by
  unfold State.redoLanes
  (repeat' split) <;> simp [*]

@[simp] theorem State.loseFrom_memOk (s : State) (loss : Loss) (cause die i : Nat) (h : s.memory.wf = true) : (State.loseFrom s loss cause die i).memory.wf = true := by
  unfold State.loseFrom
  (repeat' split) <;> simp [*]

@[simp] theorem State.settleRecuts_memOk (s : State) (loss : Loss) (h : s.memory.wf = true) : (State.settleRecuts s loss).memory.wf = true := by
  unfold State.settleRecuts
  exact State.foldl_memOk _ (fun t x ht => by simp [ht]) _ _ h

@[simp] theorem State.applyLoss_memOk (s : State) (loss : Loss) (cause die : Nat) (h : s.memory.wf = true) :
    (s.applyLoss loss cause die).1.memory.wf = true := by
  unfold State.applyLoss
  exact State.foldl_memOk _ (fun t x ht => by simp [ht]) _ _ h

@[simp] theorem State.dropCascade_memory (s : State) : (State.dropCascade s).memory = s.memory := by
  unfold State.dropCascade
  (repeat' split) <;> simp [*]

@[simp] theorem State.fence_memOk (s : State) (d cause : Nat) (h : s.memory.wf = true) : (State.fence s d cause).memory.wf = true := by
  unfold State.fence
  dsimp only
  (repeat' split) <;> simp (maxDischargeDepth := 12) [*]

@[simp] theorem State.retire_memOk (s : State) (d c : Nat) (h : s.memory.wf = true) : (State.retire s d c).memory.wf = true := by
  unfold State.retire
  dsimp only
  (repeat' split) <;> simp (maxDischargeDepth := 12) [*]

@[simp] theorem State.fencePair_memOk (s : State) (x : Nat × Nat) (h : s.memory.wf = true) : (State.fencePair s x).memory.wf = true := by
  unfold State.fencePair
  (repeat' split) <;> simp [*]

@[simp] theorem State.fenceUnreachable_memOk (s : State) (h : s.memory.wf = true) : (State.fenceUnreachable s).memory.wf = true := by
  unfold State.fenceUnreachable
  exact State.foldl_memOk _ (fun t x ht => State.fencePair_memOk _ _ ht) _ _ h

@[simp] theorem State.edgeFault_memOk (s : State) (a b : Nat) (h : s.memory.wf = true) : (State.edgeFault s a b).memory.wf = true := by
  unfold State.edgeFault
  exact State.fenceUnreachable_memOk _ (State.fence_memOk _ _ _ (State.fence_memOk _ _ _ h))

/-! ### Owner -/

@[simp] theorem State.setOwner_memory (s : State) (port : Nat) (nonce : W32) (priority cause : Nat) : (State.setOwner s port nonce priority cause).memory = s.memory := by
  unfold State.setOwner
  (repeat' split) <;> simp [*]

@[simp] theorem State.loseOwner_memory (s : State) (cause : Nat) : (State.loseOwner s cause).memory = s.memory := by
  unfold State.loseOwner
  (repeat' split) <;> simp [*]

@[simp] theorem State.expireLease_memory (s : State) : (State.expireLease s).memory = s.memory := by
  unfold State.expireLease
  (repeat' split) <;> simp [*]

@[simp] theorem State.closeWindow_memory (s : State) : (State.closeWindow s).memory = s.memory := by
  unfold State.closeWindow
  dsimp only
  split
  · rfl
  · rw [State.foldl_memory _ (fun t x => by simp)]
    simp

@[simp] theorem State.settleOwner_memory (s : State) : (State.settleOwner s).memory = s.memory := by
  unfold State.settleOwner
  (repeat' split) <;> simp [*]

@[simp] theorem State.claim_memory (s : State) (p k priority : Nat) (nonce : W32) : (State.claim s p k priority nonce).memory = s.memory := by
  unfold State.claim
  (repeat' split) <;> simp [*]

@[simp] theorem State.heartbeat_memory (s : State) : (State.heartbeat s).memory = s.memory := by
  unfold State.heartbeat
  (repeat' split) <;> simp [*]

/-! ### Mailbox -/

@[simp] theorem State.writeSeal_memory (s : State) (p k : Nat) (seq opcode : W16) : (State.writeSeal s p k seq opcode).memory = s.memory := by
  unfold State.writeSeal
  (repeat' split) <;> simp [*]

@[simp] theorem State.consumeSeq_memory (s : State) (p : Nat) (seq : W16) : (State.consumeSeq s p seq).memory = s.memory := by
  unfold State.consumeSeq
  (repeat' split) <;> simp [*]

@[simp] theorem State.writeSlotState_memory (s : State) (p k v : Nat) : (State.writeSlotState s p k v).memory = s.memory := by
  unfold State.writeSlotState
  (repeat' split) <;> simp [*]

@[simp] theorem State.writeOpenSlot_memory (s : State) (p k : Nat) (f : MbxSlot → MbxSlot) : (State.writeOpenSlot s p k f).memory = s.memory := by
  unfold State.writeOpenSlot
  (repeat' split) <;> simp [*]

@[simp] theorem State.writeSlot_memory (s : State) (p k off : Nat) (bs : Bytes) : (State.writeSlot s p k off bs).memory = s.memory := by
  unfold State.writeSlot
  (repeat' split) <;> simp [*]

@[simp] theorem State.writeBank_memory (s : State) (p off : Nat) (bs : Bytes) : (State.writeBank s p off bs).memory = s.memory := by
  unfold State.writeBank
  exact State.foldl_memory _ (fun t x => by (repeat' split) <;> simp) _ _

@[simp] theorem State.skipGap_memory (s : State) (p : Nat) : (State.skipGap s p).memory = s.memory := by
  unfold State.skipGap
  (repeat' split) <;> simp [*]

@[simp] theorem State.pecDiscard_memory (s : State) : (State.pecDiscard s).memory = s.memory := by
  unfold State.pecDiscard
  (repeat' split) <;> simp [*]

@[simp] theorem State.commitEvent_memory (s : State) : (State.commitEvent s).memory = s.memory := by
  unfold State.commitEvent
  (repeat' split) <;> simp [*]

/-! ### Pcie -/

@[simp] theorem State.resetSlots_memory (s : State) (p : Nat) : (State.resetSlots s p).memory = s.memory := by
  unfold State.resetSlots
  exact State.foldl_memory _ (fun t x => by (repeat' split) <;> simp) _ _

@[simp] theorem State.losePortOwner_memory (s : State) : (State.losePortOwner s).memory = s.memory := by
  unfold State.losePortOwner
  (repeat' split) <;> simp [*]

@[simp] theorem State.portReset_memory (s : State) (p : Nat) : (State.portReset s p).memory = s.memory := by
  unfold State.portReset
  (repeat' split) <;> simp [*]

@[simp] theorem State.setPerst_memory (s : State) (p : Nat) (v : Bool) : (State.setPerst s p v).memory = s.memory := by
  unfold State.setPerst
  (repeat' split) <;> simp [*]

@[simp] theorem State.startTraining_memory (s : State) (p : Nat) : (State.startTraining s p).memory = s.memory := by
  unfold State.startTraining
  (repeat' split) <;> simp [*]

@[simp] theorem State.firePending_memory (s : State) (p : Nat) : (State.firePending s p).memory = s.memory := by
  unfold State.firePending
  (repeat' split) <;> simp [*]

@[simp] theorem State.writeMsix_memory (s : State) (p off : Nat) (bs : Bytes) : (State.writeMsix s p off bs).memory = s.memory := by
  unfold State.writeMsix
  (repeat' split) <;> simp [*]

@[simp] theorem State.bar2Hole_memory (s : State) (p : Nat) : (State.bar2Hole s p).memory = s.memory := by
  unfold State.bar2Hole
  (repeat' split) <;> simp [*]

@[simp] theorem State.uncorrectable_memOk (s : State) (md ch : Nat) (h : s.memory.wf = true) : (State.uncorrectable s md ch).memory.wf = true := by
  unfold State.uncorrectable
  (repeat' split) <;> simp [*]

/-! ### Routes -/

@[simp] theorem State.loseCascadePort_memory (s : State) (q : Nat) : (State.loseCascadePort s q).memory = s.memory := by
  unfold State.loseCascadePort
  (repeat' split) <;> simp [*]

@[simp] theorem State.loseLink_memOk (s : State) (q : Nat) (h : s.memory.wf = true) : (State.loseLink s q).memory.wf = true := by
  unfold State.loseLink
  dsimp only
  (repeat' split) <;> simp (maxDischargeDepth := 12) [*]

/-! ### Power -/

@[simp] theorem State.unpowered_memOk (s : State) (aux : Bool) (h : s.memory.wf = true) : (State.unpowered s aux).memory.wf = true := by
  unfold State.unpowered
  (repeat' split) <;> simp [*]

@[simp] theorem State.supplyFault_memOk (s : State) (h : s.memory.wf = true) : (State.supplyFault s).memory.wf = true := by
  unfold State.supplyFault
  (repeat' split) <;> simp [*]

@[simp] theorem State.sequenceRails_memOk (s : State) (failing : List Rail) (h : s.memory.wf = true) : (State.sequenceRails s failing).memory.wf = true := by
  unfold State.sequenceRails
  (repeat' split) <;> simp [*]

@[simp] theorem State.moduleResetState_memOk (s : State) (h : s.memory.wf = true) : (State.moduleResetState s).memory.wf = true := by
  unfold State.moduleResetState
  (repeat' split) <;> simp [*]

@[simp] theorem State.extendMr_memory (s : State) (mr source : Nat) (info : Nat) (v : Bytes) : (State.extendMr s mr source info v).memory = s.memory := by
  unfold State.extendMr
  (repeat' split) <;> simp [*]

@[simp] theorem State.measureRom_memory (s : State) : (State.measureRom s).memory = s.memory := by
  unfold State.measureRom
  (repeat' split) <;> simp [*]

@[simp] theorem State.romStart_memory (s : State) : (State.romStart s).memory = s.memory := by
  unfold State.romStart
  (repeat' split) <;> simp [*]

@[simp] theorem State.pllDead_memory (s : State) (d : Nat) : (State.pllDead s d).memory = s.memory := by
  unfold State.pllDead
  (repeat' split) <;> simp [*]

@[simp] theorem State.pllLossEffect_memOk (s : State) (d : Nat) (h : s.memory.wf = true) : (State.pllLossEffect s d).memory.wf = true := by
  unfold State.pllLossEffect
  (repeat' split) <;> simp [*]

@[simp] theorem State.pllFailEffect_memOk (s : State) (d : Nat) (h : s.memory.wf = true) : (State.pllFailEffect s d).memory.wf = true := by
  unfold State.pllFailEffect
  dsimp only
  (repeat' split) <;> simp (maxDischargeDepth := 12) [*]

@[simp] theorem State.tapLoad_memory (s : State) (i : TapInstr) (dr : List Bool) : (State.tapLoad s i dr).memory = s.memory := by
  unfold State.tapLoad
  (repeat' split) <;> simp [*]

@[simp] theorem State.countRetries_memOk (s : State) (d n : Nat) (h : s.memory.wf = true) : (State.countRetries s d n).memory.wf = true := by
  unfold State.countRetries
  (repeat' split) <;> simp [*]

@[simp] theorem State.updateDemands_memory (s : State) : (State.updateDemands s).memory = s.memory := by
  unfold State.updateDemands
  (repeat' split) <;> simp [*]

@[simp] theorem State.dieOff_memory (s : State) (d : Nat) : (State.dieOff s d).memory = s.memory := by
  unfold State.dieOff
  split
  · rfl
  · dsimp only
    split <;> exact State.foldl_memory _ (by intro t x; exact State.updPll_memory _ _ _) _ _

@[simp] theorem State.diePowerEvent_memory (s : State) : (State.diePowerEvent s).memory = s.memory := by
  unfold State.diePowerEvent
  (repeat' split) <;> simp [*]

@[simp] theorem State.wakeUp_memory (s : State) : (State.wakeUp s).memory = s.memory := by
  unfold State.wakeUp
  (repeat' split) <;> simp [*]

/-! ### Thermal -/

@[simp] theorem State.setThrottle_memory (s : State) (k : Nat) : (State.setThrottle s k).memory = s.memory := by
  unfold State.setThrottle
  (repeat' split) <;> simp [*]

@[simp] theorem State.moduleTrip_memOk (s : State) (reason cause : Nat) (h : s.memory.wf = true) : (State.moduleTrip s reason cause).memory.wf = true := by
  unfold State.moduleTrip
  (repeat' split) <;> simp [*]

@[simp] theorem State.dieTrip_memOk (s : State) (d : Nat) (temp : Int) (h : s.memory.wf = true) : (State.dieTrip s d temp).memory.wf = true := by
  unfold State.dieTrip
  (repeat' split) <;> simp [*]

@[simp] theorem State.clearTrip_memory (s : State) : (State.clearTrip s).memory = s.memory := by
  unfold State.clearTrip
  (repeat' split) <;> simp [*]

/-! ### Spaces -/

@[simp] theorem State.writeScratch_memory (s : State) (a : Nat) (bs : Bytes) : (State.writeScratch s a bs).memory = s.memory := by
  unfold State.writeScratch
  (repeat' split) <;> simp [*]

@[simp] theorem State.writeSpace_memOk (s : State) (space a : Nat) (bs : Bytes) (h : s.memory.wf = true) : (State.writeSpace s space a bs).memory.wf = true := by
  unfold State.writeSpace
  split
  · simp [h]
  rotate_right
  · exact State.foldl_memOk _ (fun t x ht => by simp [ht]) _ _ h
  all_goals rw [Memory.wf_iff] at *
  · exact ⟨h.1, Mem.wf_writeBytes _ _ _ h.2.1, h.2.2⟩
  · exact ⟨h.1, h.2.1, Mem.wf_writeBytes _ _ _ h.2.2.1, h.2.2.2⟩
  · exact ⟨h.1, h.2.1, h.2.2.1, Mem.wf_writeBytes _ _ _ h.2.2.2.1, h.2.2.2.2⟩
  · exact ⟨h.1, h.2.1, h.2.2.1, h.2.2.2.1, Mem.wf_writeBytes _ _ _ h.2.2.2.2⟩

@[simp] theorem State.storeForm_memOk (s : State) (form : Nat) (bs : Bytes) (h : s.memory.wf = true) : (State.storeForm s form bs).memory.wf = true := by
  unfold State.storeForm
  (repeat' split) <;> simp [*]

/-! ### Security -/

@[simp] theorem State.updFwSlot_memory (s : State) (i : Nat) (f : FwSlot → FwSlot) : (State.updFwSlot s i f).memory = s.memory := by
  unfold State.updFwSlot
  (repeat' split) <;> simp [*]

@[simp] theorem State.startFirmware_memory (s : State) (slot : Nat) (img : Bytes) : (State.startFirmware s slot img).memory = s.memory := by
  unfold State.startFirmware
  (repeat' split) <;> simp [*]

@[simp] theorem State.enterRecovery_memory (s : State) : (State.enterRecovery s).memory = s.memory := by
  unfold State.enterRecovery
  (repeat' split) <;> simp [*]

@[simp] theorem State.fallBack_memory (s : State) (slot : Nat) : (State.fallBack s slot).memory = s.memory := by
  unfold State.fallBack
  (repeat' split) <;> simp [*]

@[simp] theorem State.measureUpdate_memory (s : State) (op kind slot : Nat) (value : Bytes) : (State.measureUpdate s op kind slot value).memory = s.memory := by
  unfold State.measureUpdate
  (repeat' split) <;> simp [*]

@[simp] theorem State.fuseWritten_memory (s : State) (op kind slot : Nat) : (State.fuseWritten s op kind slot).memory = s.memory := by
  unfold State.fuseWritten
  (repeat' split) <;> simp [*]

@[simp] theorem State.answerChunk_memory (s : State) (p k : Nat) (req bs : Bytes) : (State.answerChunk s p k req bs).memory = s.memory := by
  unfold State.answerChunk
  (repeat' split) <;> simp [*]

/-! ### Gddr -/

@[simp] theorem State.trainChannels_memOk (s : State) (seedFail trainFail : List (Nat × Nat)) (h : s.memory.wf = true) : (State.trainChannels s seedFail trainFail).memory.wf = true := by
  unfold State.trainChannels
  exact State.foldl_memOk _ (fun t x ht => State.updChannel_memOk _ _ _ _ ht) _ _ h

@[simp] theorem State.correctedEvent_memOk (s : State) (md ch : Nat) (h : s.memory.wf = true) : (State.correctedEvent s md ch).memory.wf = true := by
  unfold State.correctedEvent
  (repeat' split) <;> simp [*]

@[simp] theorem State.poisonWord_memOk (s : State) (md w : Nat) (h : s.memory.wf = true) : (State.poisonWord s md w).memory.wf = true := by
  rw [Memory.wf_iff] at *
  exact h

@[simp] theorem State.cxlPoisoned_memory (s : State) (x : Nat) : (State.cxlPoisoned s x).memory = s.memory := by
  unfold State.cxlPoisoned
  (repeat' split) <;> simp [*]

/-! ### Cascade -/

@[simp] theorem State.sendOn_memory (s : State) (q t : Nat) (f : Flit) : (State.sendOn s q t f).memory = s.memory := by
  unfold State.sendOn
  (repeat' split) <;> simp [*]

@[simp] theorem State.sendTo_memory (s : State) (r t : Nat) (f : Flit) : (State.sendTo s r t f).memory = s.memory := by
  unfold State.sendTo
  (repeat' split) <;> simp [*]

@[simp] theorem State.forward_memory (s : State) (t : Nat) (f : Flit) : (State.forward s t f).memory = s.memory := by
  unfold State.forward
  (repeat' split) <;> simp [*]

@[simp] theorem State.decoded_memory (s : State) (q : Nat) (f : Flit) : (State.decoded s q f).memory = s.memory := by
  unfold State.decoded
  (repeat' split) <;> simp [*]

@[simp] theorem State.sendRetry_memory (s : State) (q : Nat) : (State.sendRetry s q).memory = s.memory := by
  unfold State.sendRetry
  (repeat' split) <;> simp [*]

@[simp] theorem State.acceptFlit_memory (s : State) (q : Nat) (f : Flit) : (State.acceptFlit s q f).memory = s.memory := by
  unfold State.acceptFlit
  (repeat' split) <;> simp [*]

@[simp] theorem State.takeSequenced_memOk (s : State) (q t : Nat) (f : Flit) (effect : State → State) (heffect : ∀ t, t.memory.wf = true → (effect t).memory.wf = true) (h : s.memory.wf = true) : (State.takeSequenced s q t f effect).memory.wf = true := by
  unfold State.takeSequenced
  (repeat' split) <;> simp [*]

@[simp] theorem State.unlockTime_memory (s : State) : (State.unlockTime s).memory = s.memory := by
  unfold State.unlockTime
  (repeat' split) <;> simp [*]

@[simp] theorem State.stepTime_memory (s : State) (theta : Int) : (State.stepTime s theta).memory = s.memory := by
  unfold State.stepTime
  (repeat' split) <;> simp [*]

@[simp] theorem State.takeOffset_memory (s : State) (theta : Int) : (State.takeOffset s theta).memory = s.memory := by
  unfold State.takeOffset
  (repeat' split) <;> simp [*]

@[simp] theorem State.takeTime_memory (s : State) (q : Nat) (f : Flit) : (State.takeTime s q f).memory = s.memory := by
  unfold State.takeTime
  (repeat' split) <;> simp [*]

@[simp] theorem State.slewTime_memory (s : State) : (State.slewTime s).memory = s.memory := by
  unfold State.slewTime
  (repeat' split) <;> simp [*]

@[simp] theorem State.ctrlTo_memory (s : State) (r op off : Nat) (data : Bytes) : (State.ctrlTo s r op off data).memory = s.memory := by
  unfold State.ctrlTo
  (repeat' split) <;> simp [*]

@[simp] theorem State.sendCtrl_memory (s : State) (op off : Nat) (data : Bytes) : (State.sendCtrl s op off data).memory = s.memory := by
  unfold State.sendCtrl
  (repeat' split) <;> simp [*]

@[simp] theorem State.mbxWrite_memory (s : State) (r off : Nat) (bs : Bytes) : (State.mbxWrite s r off bs).memory = s.memory := by
  unfold State.mbxWrite
  (repeat' split) <;> simp [*]

@[simp] theorem State.sealAt_memory (s : State) (r op : Nat) (req : Bytes) : (State.sealAt s r op req).memory = s.memory := by
  unfold State.sealAt
  (repeat' split) <;> simp [*]

@[simp] theorem State.declare_memory (s : State) : (State.declare s).memory = s.memory := by
  unfold State.declare
  (repeat' split) <;> simp [*]

@[simp] theorem State.claimMember_memory (s : State) (r : Nat) : (State.claimMember s r).memory = s.memory := by
  unfold State.claimMember
  (repeat' split) <;> simp [*]

@[simp] theorem State.applyToMembers_memory (s : State) (pl : CutPlan) (op : Nat) (req : Bytes) : (State.applyToMembers s pl op req).memory = s.memory := by
  unfold State.applyToMembers
  (repeat' split) <;> simp [*]

/-! ### Cores -/

@[simp] theorem State.orderRows_memory (s : State) (d c : Nat) (down : Bool) : (State.orderRows s d c down).memory = s.memory := by
  unfold State.orderRows
  (repeat' split) <;> simp [*]

@[simp] theorem State.sendUnits_memory (s : State) (rank d c : Nat) (down : Bool) (us : List (Bytes × Bool)) : (State.sendUnits s rank d c down us).memory = s.memory := by
  unfold State.sendUnits
  (repeat' split) <;> simp [*]

@[simp] theorem State.sendSeam_memory (s : State) (d c : Nat) (down : Bool) : (State.sendSeam s d c down).memory = s.memory := by
  unfold State.sendSeam
  (repeat' split) <;> simp [*]

@[simp] theorem State.tee_memory (s : State) (d c : Nat) (down : Bool) (rows : List Bytes) : (State.tee s d c down rows).memory = s.memory := by
  unfold State.tee
  (repeat' split) <;> simp [*]

@[simp] theorem State.issue_memory (s : State) (d c : Nat) (run : Desc → Core → Done) : (State.issue s d c run).memory = s.memory := by
  unfold State.issue
  dsimp only
  (repeat' split) <;> simp (maxDischargeDepth := 12) [*]

/-! ### Seams -/

@[simp] theorem State.creditBack_memory (s : State) (d c : Nat) (down : Bool) (credits rows : Nat) : (State.creditBack s d c down credits rows).memory = s.memory := by
  unfold State.creditBack
  (repeat' split) <;> simp [*]

@[simp] theorem State.peerSends_memory (s : State) (d c : Nat) (down : Bool) : (State.peerSends s d c down).memory = s.memory := by
  unfold State.peerSends
  (repeat' split) <;> simp [*]

@[simp] theorem State.sendShard_memory (s : State) (d a b : Nat) : (State.sendShard s d a b).memory = s.memory := by
  unfold State.sendShard
  (repeat' split) <;> simp [*]

@[simp] theorem State.releaseCut_memory (s : State) (i : Nat) (flip : Bool) : (State.releaseCut s i flip).memory = s.memory := by
  unfold State.releaseCut
  dsimp only
  simp only [State.updSession_memory]
  exact State.foldl_memory _ (by intro t x; exact State.updCore_memory _ _ _ _) _ _

/-! ### Deliver -/

@[simp] theorem State.deliverUnit_memory (s : State) (d c : Nat) (down last : Bool) (bytes : Bytes) : (State.deliverUnit s d c down last bytes).memory = s.memory := by
  unfold State.deliverUnit
  (repeat' split) <;> simp [*]

@[simp] theorem State.deliverCredits_memory (s : State) (d c : Nat) (down : Bool) (credits rows : Nat) : (State.deliverCredits s d c down credits rows).memory = s.memory := by
  unfold State.deliverCredits
  (repeat' split) <;> simp [*]

@[simp] theorem State.deliverCinch_memory (s : State) (src : Nat) (payload : Bytes) : (State.deliverCinch s src payload).memory = s.memory := by
  unfold State.deliverCinch
  (repeat' split) <;> simp [*]

@[simp] theorem State.deliverData_memOk (s : State) (f : Flit) (h : s.memory.wf = true) : (State.deliverData s f).memory.wf = true := by
  unfold State.deliverData
  (repeat' split) <;> simp [*]

/-! ### Models -/

@[simp] theorem State.installModel_memory (s : State) (slot source : Nat) (pkg : Bytes) : (State.installModel s slot source pkg).memory = s.memory := by
  unfold State.installModel
  (repeat' split) <;> simp [*]

@[simp] theorem State.modelRefused_memory (s : State) (a : Answer) (slot : Nat) : (State.modelRefused s a slot).memory = s.memory := by
  unfold State.modelRefused
  (repeat' split) <;> simp [*]

@[simp] theorem State.loadModel_memory (s : State) (p k slot : Nat) (persist : Bool) (pkg : Bytes) : (State.loadModel s p k slot persist pkg).memory = s.memory := by
  unfold State.loadModel
  dsimp only
  (repeat' split) <;> simp (maxDischargeDepth := 12) [*]

/-! ### Sessions -/

@[simp] theorem State.answerFor_memory (s : State) (p k i : Nat) (a : Answer) : (State.answerFor s p k i a).memory = s.memory := by
  unfold State.answerFor
  (repeat' split) <;> simp [*]

@[simp] theorem State.sessionChecked_memOk (s : State) (p k i : Nat) (checks : List (Bool × Answer)) (ok : State → State) (hok : ∀ t, t.memory.wf = true → (ok t).memory.wf = true) (h : s.memory.wf = true) : (State.sessionChecked s p k i checks ok).memory.wf = true := by
  unfold State.sessionChecked
  (repeat' split) <;> simp [*]

@[simp] theorem State.bindPlan_memOk (s : State) (i : Nat) (pl : CutPlan) (place : Placement) (h : s.memory.wf = true) : (State.bindPlan s i pl place).memory.wf = true := by
  unfold State.bindPlan
  (repeat' split) <;> simp [*]

@[simp] theorem State.endFault_memOk (s : State) (i : Nat) (h : s.memory.wf = true) : (State.endFault s i).memory.wf = true := by
  unfold State.endFault
  (repeat' split) <;> simp [*]

@[simp] theorem State.retireAll_memOk (s : State) (l : List (CoreDie × CoreIx)) (h : s.memory.wf = true) : (State.retireAll s l).memory.wf = true := by
  unfold State.retireAll
  exact State.foldl_memOk _ (fun t x ht => by (repeat' split) <;> simp (maxDischargeDepth := 12) [*]) _ _ h

@[simp] theorem State.remap_memOk (s : State) (p k i : Nat) (pl : CutPlan) (place : Placement) (mismatch : List (CoreDie × CoreIx)) (h : s.memory.wf = true) : (State.remap s p k i pl place mismatch).memory.wf = true := by
  unfold State.remap
  dsimp only
  simp only [State.answerFor_memory]
  refine State.retireAll_memOk _ _ (State.endFault_memOk _ _ (State.takeCut_memOk _ _ _ _ _ ?_))
  split <;> simp [h]

@[simp] theorem State.recut_memOk (s : State) (p k i : Nat) (pl : CutPlan) (place : Placement) (mismatch : List (CoreDie × CoreIx)) (h : s.memory.wf = true) : (State.recut s p k i pl place mismatch).memory.wf = true := by
  unfold State.recut
  (repeat' split) <;> simp [*]

@[simp] theorem State.abandonAll_memOk (s : State) (i : Nat) (h : s.memory.wf = true) : (State.abandonAll s i).memory.wf = true := by
  unfold State.abandonAll
  (repeat' split) <;> simp [*]

@[simp] theorem State.unbind_memory (s : State) (i : Nat) : (State.unbind s i).memory = s.memory := by
  unfold State.unbind
  simp only [State.updSession_memory, State.moveLanes_memory, State.dropGrants_memory, State.releaseGuards_memory]
  exact State.foldl_memory _ (by intro t x; exact State.leaveCore_memory _ _ _) _ _

@[simp] theorem State.fenceParked_memory (s : State) (i : Nat) : (State.fenceParked s i).memory = s.memory := by
  unfold State.fenceParked
  (repeat' split) <;> simp [*]

@[simp] theorem State.grantPic_memory (s : State) (i order need : Nat) : (State.grantPic s i order need).memory = s.memory := by
  unfold State.grantPic
  (repeat' split) <;> simp [*]

@[simp] theorem State.requestNeed_memory (s : State) (i order need : Nat) : (State.requestNeed s i order need).memory = s.memory := by
  unfold State.requestNeed
  (repeat' split) <;> simp [*]

/-! ### Motion -/

@[simp] theorem State.tookTurn_memory (s : State) (key i : Nat) : (State.tookTurn s key i).memory = s.memory := by
  unfold State.tookTurn
  (repeat' split) <;> simp [*]

@[simp] theorem State.reportMissingLib_memOk (s : State) (i : Nat) (p : Picture) (index : Nat) (h : s.memory.wf = true) : (State.reportMissingLib s i p index).memory.wf = true := by
  unfold State.reportMissingLib
  (repeat' split) <;> simp [*]

/-! ### Rans -/

@[simp] theorem State.laneDone_memory (s : State) (sd l i : Nat) (encode endErr overrun : Bool) : (State.laneDone s sd l i encode endErr overrun).memory = s.memory := by
  unfold State.laneDone
  (repeat' split) <;> simp [*]

/-! ### Feeder -/

@[simp] theorem State.writePieces_memOk (s : State) (space : Nat) (ps : List (Nat × Bytes)) (h : s.memory.wf = true) : (State.writePieces s space ps).memory.wf = true := by
  unfold State.writePieces
  exact State.foldl_memOk _ (fun t x ht => by (repeat' split) <;> simp (maxDischargeDepth := 12) [*]) _ _ h

@[simp] theorem State.completeEntry_memOk (s : State) (md q : Nat) (e : Bytes) (h : s.memory.wf = true) : (State.completeEntry s md q e).memory.wf = true := by
  unfold State.completeEntry
  (repeat' split) <;> simp [*]

@[simp] theorem State.countEcc_memOk (s : State) (d : TransferDesc) (h : s.memory.wf = true) : (State.countEcc s d).memory.wf = true := by
  unfold State.countEcc
  (repeat' split) <;> simp [*]

@[simp] theorem State.landShort_memOk (s : State) (t : Transfer) (status landed : Nat) (h : s.memory.wf = true) : (State.landShort s t status landed).1.memory.wf = true := by
  unfold State.landShort
  (repeat' split) <;> simp [*]

@[simp] theorem State.landTransfer_memOk (s : State) (t : Transfer) (badRead : Bool) (landed : Nat) (h : s.memory.wf = true) : (State.landTransfer s t badRead landed).1.memory.wf = true := by
  unfold State.landTransfer
  dsimp only
  (repeat' split) <;> simp (maxDischargeDepth := 12) [*]

@[simp] theorem State.finishTransfer_memOk (s : State) (md q : Nat) (t : Transfer) (badRead : Bool) (landed : Nat) (h : s.memory.wf = true) : (State.finishTransfer s md q t badRead landed).memory.wf = true := by
  unfold State.finishTransfer
  dsimp only
  (repeat' split) <;> simp (maxDischargeDepth := 12) [*]

@[simp] theorem State.landStitch_memOk (s : State) (md q : Nat) (badRead : Bool) (landed : Nat) (h : s.memory.wf = true) : (State.landStitch s md q badRead landed).memory.wf = true := by
  unfold State.landStitch
  dsimp only
  (repeat' split) <;> simp (maxDischargeDepth := 12) [*]

@[simp] theorem State.dropHead_memory (s : State) (md q : Nat) : (State.dropHead s md q).memory = s.memory := by
  unfold State.dropHead
  (repeat' split) <;> simp [*]

@[simp] theorem State.cancelTransfer_memOk (s : State) (md q : Nat) (t : Transfer) (landed : Nat) (h : s.memory.wf = true) : (State.cancelTransfer s md q t landed).memory.wf = true := by
  unfold State.cancelTransfer
  dsimp only
  (repeat' split) <;> simp (maxDischargeDepth := 12) [*]

/-! ### Video -/

@[simp] theorem State.addPicture_memory (s : State) (i : Nat) (p : Picture) : (State.addPicture s i p).memory = s.memory := by
  unfold State.addPicture
  (repeat' split) <;> simp [*]

@[simp] theorem State.startPhase1_memory (s : State) (i : Nat) (poc : W32) (loads : List CoreLoad) : (State.startPhase1 s i poc loads).memory = s.memory := by
  unfold State.startPhase1
  (repeat' split) <;> simp [*]

@[simp] theorem State.appendStream_memOk (s : State) (i : Nat) (bs : Bytes) (h : s.memory.wf = true) : (State.appendStream s i bs).memory.wf = true := by
  unfold State.appendStream
  (repeat' split) <;> simp [*]

@[simp] theorem State.commitUnit_memOk (s : State) (i : Nat) (poc : W32) (n : Nat) (bs : Bytes) (h : s.memory.wf = true) : (State.commitUnit s i poc n bs).memory.wf = true := by
  unfold State.commitUnit
  (repeat' split) <;> simp [*]

@[simp] theorem State.beginPicture_memory (s : State) (i : Nat) (p : Picture) : (State.beginPicture s i p).memory = s.memory := by
  unfold State.beginPicture
  (repeat' split) <;> simp [*]

@[simp] theorem State.writeSlotPlanes_memOk (s : State) (f : SeqFmt) (planes : List Plane) (slot : W32 × List W64 × Nat × Nat) (h : s.memory.wf = true) : (State.writeSlotPlanes s f planes slot).memory.wf = true := by
  unfold State.writeSlotPlanes
  exact State.foldl_memOk _ (fun t x ht => State.foldl_memOk _ (fun u y hu => State.storeForm_memOk _ _ _ hu) _ _ ht) _ _ h

@[simp] theorem State.outputPicture_memOk (s : State) (i : Nat) (planes : List Plane) (h : s.memory.wf = true) : (State.outputPicture s i planes).memory.wf = true := by
  unfold State.outputPicture
  dsimp only
  (repeat' split) <;> simp (maxDischargeDepth := 12) [*]

@[simp] theorem State.reportMarks_memOk (s : State) (i : Nat) (p : Picture) (missing : List Mark) (h : s.memory.wf = true) : (State.reportMarks s i p missing).memory.wf = true := by
  unfold State.reportMarks
  split
  · exact h
  · exact State.foldl_memOk _ (fun t x ht => State.report_memOk _ _ _ ht) _ _ h

@[simp] theorem State.afterPicture_memOk (s : State) (i : Nat) (p : Picture) (recon : List Plane) (libIndex : Option Nat) (h : s.memory.wf = true) : (State.afterPicture s i p recon libIndex).memory.wf = true := by
  unfold State.afterPicture
  (repeat' split) <;> simp [*]

@[simp] theorem State.finishPicture_memOk (s : State) (i : Nat) (p : Picture) (recon : List Plane) (carry : List (List (List W16))) (trouble : Bool) (h : s.memory.wf = true) : (State.finishPicture s i p recon carry trouble).memory.wf = true := by
  unfold State.finishPicture
  dsimp only
  (repeat' split) <;> simp (maxDischargeDepth := 12) [*]

@[simp] theorem State.collectCores_memory (s : State) (i : Nat) : (State.collectCores s i).memory = s.memory := by
  unfold State.collectCores
  (repeat' split) <;> simp [*]

@[simp] theorem State.reportWriteFail_memOk (s : State) (i index : Nat) (h : s.memory.wf = true) : (State.reportWriteFail s i index).memory.wf = true := by
  unfold State.reportWriteFail
  (repeat' split) <;> simp [*]

/-! ### Tutik -/

@[simp] theorem State.updDec_memory (s : State) (i : Nat) (f : Decoder → Decoder) : (State.updDec s i f).memory = s.memory := by
  unfold State.updDec
  (repeat' split) <;> simp [*]

@[simp] theorem State.dropPicture_memOk (s : State) (i : Nat) (poc : W32) (r : Report) (h : s.memory.wf = true) : (State.dropPicture s i poc r).memory.wf = true := by
  unfold State.dropPicture
  dsimp only
  (repeat' split) <;> simp (maxDischargeDepth := 12) [*]

@[simp] theorem State.concealRows_memory (s : State) (i : Nat) (poc : W32) (row n : Nat) : (State.concealRows s i poc row n).memory = s.memory := by
  unfold State.concealRows
  (repeat' split) <;> simp [*]

@[simp] theorem State.truncateGroup_memOk (s : State) (i : Nat) (tag : W32) (offset : Nat) (h : s.memory.wf = true) : (State.truncateGroup s i tag offset).memory.wf = true := by
  unfold State.truncateGroup
  dsimp only
  (repeat' split) <;> simp (maxDischargeDepth := 12) [*]

@[simp] theorem State.concealWhole_memOk (s : State) (i : Nat) (p : Picture) (h : s.memory.wf = true) : (State.concealWhole s i p).memory.wf = true := by
  unfold State.concealWhole
  (repeat' split) <;> simp [*]

@[simp] theorem State.settleLost_memOk (s : State) (i : Nat) (h : s.memory.wf = true) : (State.settleLost s i).memory.wf = true := by
  unfold State.settleLost
  (repeat' split) <;> simp [*]

@[simp] theorem State.settleEnd_memOk (s : State) (i : Nat) (h : s.memory.wf = true) : (State.settleEnd s i).memory.wf = true := by
  unfold State.settleEnd
  (repeat' split) <;> simp [*]

@[simp] theorem State.settleNeed_memory (s : State) (i : Nat) : (State.settleNeed s i).memory = s.memory := by
  unfold State.settleNeed
  (repeat' split) <;> simp [*]

@[simp] theorem State.settleDecode_memOk (s : State) (i : Nat) (h : s.memory.wf = true) : (State.settleDecode s i).memory.wf = true := by
  unfold State.settleDecode
  (repeat' split) <;> simp [*]

@[simp] theorem State.takeUnit_memory (s : State) (i : Nat) (u : NextUnit) : (State.takeUnit s i u).memory = s.memory := by
  unfold State.takeUnit
  (repeat' split) <;> simp [*]

@[simp] theorem State.skipUnit_memOk (s : State) (i : Nat) (u : NextUnit) (r : Report) (h : s.memory.wf = true) : (State.skipUnit s i u r).memory.wf = true := by
  unfold State.skipUnit
  (repeat' split) <;> simp [*]

@[simp] theorem State.passUnit_memory (s : State) (i : Nat) (u : NextUnit) : (State.passUnit s i u).memory = s.memory := by
  unfold State.passUnit
  (repeat' split) <;> simp [*]

@[simp] theorem State.misplaced_memOk (s : State) (i : Nat) (u : NextUnit) (r : Report) (h : s.memory.wf = true) : (State.misplaced s i u r).memory.wf = true := by
  unfold State.misplaced
  (repeat' split) <;> simp [*]

@[simp] theorem State.dropGroup_memOk (s : State) (i : Nat) (u : NextUnit) (r : Report) (h : s.memory.wf = true) : (State.dropGroup s i u r).memory.wf = true := by
  unfold State.dropGroup
  (repeat' split) <;> simp [*]

@[simp] theorem State.startHunt_memory (s : State) (i : Nat) (h : Hunt) : (State.startHunt s i h).memory = s.memory := by
  unfold State.startHunt
  (repeat' split) <;> simp [*]

@[simp] theorem State.huntFrom_memory (s : State) (i : Nat) (u : NextUnit) (d : Damage) : (State.huntFrom s i u d).memory = s.memory := by
  unfold State.huntFrom
  (repeat' split) <;> simp [*]

@[simp] theorem State.huntPast_memory (s : State) (i : Nat) (u : NextUnit) : (State.huntPast s i u).memory = s.memory := by
  unfold State.huntPast
  (repeat' split) <;> simp [*]

@[simp] theorem State.endHunt_memOk (s : State) (i : Nat) (h : s.memory.wf = true) : (State.endHunt s i).memory.wf = true := by
  unfold State.endHunt
  (repeat' split) <;> simp [*]

@[simp] theorem State.settleRefused_memOk (s : State) (i : Nat) (h : s.memory.wf = true) : (State.settleRefused s i).memory.wf = true := by
  unfold State.settleRefused
  dsimp only
  (repeat' split) <;> simp (maxDischargeDepth := 12) [*]

@[simp] theorem State.reportRefs_memOk (s : State) (i : Nat) (u : NextUnit) (poc : W32) (refs : List Ref) (h : s.memory.wf = true) : (State.reportRefs s i u poc refs).memory.wf = true := by
  unfold State.reportRefs
  exact State.foldl_memOk _ (fun t x ht => by (repeat' split) <;> simp (maxDischargeDepth := 12) [*]) _ _ h

@[simp] theorem State.acceptPic_memOk (s : State) (i : Nat) (u : NextUnit) (p : Payload) (lost : Option Damage) (h : s.memory.wf = true) : (State.acceptPic s i u p lost).memory.wf = true := by
  unfold State.acceptPic
  (repeat' split) <;> simp [*]

@[simp] theorem State.rowTaken_memory (s : State) (i row : Nat) : (State.rowTaken s i row).memory = s.memory := by
  unfold State.rowTaken
  (repeat' split) <;> simp [*]

@[simp] theorem State.placeRow_memory (s : State) (i : Nat) (poc : W32) (u : NextUnit) (p : Payload) : (State.placeRow s i poc u p).memory = s.memory := by
  unfold State.placeRow
  (repeat' split) <;> simp [*]

@[simp] theorem State.concealNext_memOk (s : State) (i : Nat) (poc : W32) (u : NextUnit) (d : Damage) (h : s.memory.wf = true) : (State.concealNext s i poc u d).memory.wf = true := by
  unfold State.concealNext
  (repeat' split) <;> simp [*]

@[simp] theorem State.skipRows_memOk (s : State) (i : Nat) (poc : W32) (u : NextUnit) (p : Payload) (h : s.memory.wf = true) : (State.skipRows s i poc u p).memory.wf = true := by
  unfold State.skipRows
  (repeat' split) <;> simp [*]

@[simp] theorem State.libOp_memOk (i : Nat) (u : NextUnit) (p : Payload) (s : State) (o : Nat × Nat × Bytes × Nat) (h : s.memory.wf = true) : (State.libOp i u p s o).memory.wf = true := by
  unfold State.libOp
  (repeat' split) <;> simp [*]

/-! ### Audio -/

@[simp] theorem State.updAudio_memory (s : State) (i g : Nat) (f : AudioGroup → AudioGroup) : (State.updAudio s i g f).memory = s.memory := by
  unfold State.updAudio
  (repeat' split) <;> simp [*]

@[simp] theorem State.writeSamples_memOk (s : State) (i g : Nat) (bs : Bytes) (h : s.memory.wf = true) : (State.writeSamples s i g bs).memory.wf = true := by
  unfold State.writeSamples
  dsimp only
  (repeat' split) <;> simp (maxDischargeDepth := 12) [*]

@[simp] theorem State.addSampleCounts_memory (s : State) (i : Nat) (cs : List ElemCount) : (State.addSampleCounts s i cs).memory = s.memory := by
  unfold State.addSampleCounts
  (repeat' split) <;> simp [*]

@[simp] theorem State.codeFrame_memory (s : State) (i g : Nat) (c : GroupCfg) (b : AudioBlock) (bs : Bytes) : (State.codeFrame s i g c b bs).memory = s.memory := by
  unfold State.codeFrame
  dsimp only
  (repeat' split) <;> simp (maxDischargeDepth := 12) [*]

@[simp] theorem State.placeAud_memOk (s : State) (v : Nat) (bs : Bytes) (h : s.memory.wf = true) : (State.placeAud s v bs).memory.wf = true := by
  unfold State.placeAud
  (repeat' split) <;> simp [*]

@[simp] theorem State.openAudio_memOk (s : State) (i : Nat) (h : s.memory.wf = true) : (State.openAudio s i).memory.wf = true := by
  unfold State.openAudio
  (repeat' split) <;> simp [*]

@[simp] theorem State.muteFrame_memOk (s : State) (i g : Nat) (c : GroupCfg) (x : FrameInfo) (h : s.memory.wf = true) : (State.muteFrame s i g c x).memory.wf = true := by
  unfold State.muteFrame
  (repeat' split) <;> simp [*]

@[simp] theorem State.muteFrames_memOk (s : State) (i g : Nat) (c : GroupCfg) (tag frame : W32) (n : Nat) (h : s.memory.wf = true) : (State.muteFrames s i g c tag frame n).memory.wf = true := by
  unfold State.muteFrames
  exact State.foldl_memOk _ (fun t x ht => by (repeat' split) <;> simp (maxDischargeDepth := 12) [*]) _ _ h

@[simp] theorem State.startFrame_memOk (s : State) (i j g : Nat) (c : GroupCfg) (u : NextUnit) (p : Payload) (missing : Nat) (h : s.memory.wf = true) : (State.startFrame s i j g c u p missing).memory.wf = true := by
  unfold State.startFrame
  (repeat' split) <;> simp [*]

@[simp] theorem State.takeFrame_memOk (s : State) (i j g : Nat) (c : GroupCfg) (u : NextUnit) (p : Payload) (h : s.memory.wf = true) : (State.takeFrame s i j g c u p).memory.wf = true := by
  unfold State.takeFrame
  (repeat' split) <;> simp [*]

/-! ### Lanes -/

@[simp] theorem State.acceptFlags_memOk (s : State) (i : Nat) (u : UnitJob) (poc : W32) (row : Nat) (h : s.memory.wf = true) : (State.acceptFlags s i u poc row).memory.wf = true := by
  unfold State.acceptFlags
  (repeat' split) <;> simp [*]

@[simp] theorem State.finishPic_memOk (s : State) (i : Nat) (u : UnitJob) (p : Picture) (h : s.memory.wf = true) : (State.finishPic s i u p).memory.wf = true := by
  unfold State.finishPic
  (repeat' split) <;> simp [*]

@[simp] theorem State.finishRow_memOk (s : State) (i : Nat) (u : UnitJob) (p : Picture) (h : s.memory.wf = true) : (State.finishRow s i u p).memory.wf = true := by
  unfold State.finishRow
  dsimp only
  (repeat' split) <;> simp (maxDischargeDepth := 12) [*]

@[simp] theorem State.finishAud_memOk (s : State) (i : Nat) (u : UnitJob) (h : s.memory.wf = true) : (State.finishAud s i u).memory.wf = true := by
  unfold State.finishAud
  (repeat' split) <;> simp [*]

@[simp] theorem State.finishAgain_memory (s : State) (i : Nat) (u : UnitJob) : (State.finishAgain s i u).memory = s.memory := by
  unfold State.finishAgain
  (repeat' split) <;> simp [*]

@[simp] theorem State.finishUnit_memOk (s : State) (i : Nat) (u : UnitJob) (h : s.memory.wf = true) : (State.finishUnit s i u).memory.wf = true := by
  unfold State.finishUnit
  dsimp only
  (repeat' split) <;> simp (maxDischargeDepth := 12) [*]

/-! ### Regs -/

@[simp] theorem State.clearClk_memory (s : State) (v : Nat) : (State.clearClk s v).memory = s.memory := by
  unfold State.clearClk
  (repeat' split) <;> simp [*]

@[simp] theorem State.clearTherm_memory (s : State) (v : Nat) : (State.clearTherm s v).memory = s.memory := by
  unfold State.clearTherm
  (repeat' split) <;> simp [*]

@[simp] theorem State.clearCxl_memory (s : State) (x v : Nat) : (State.clearCxl s x v).memory = s.memory := by
  unfold State.clearCxl
  (repeat' split) <;> simp [*]

@[simp] theorem State.writeHub_memory (s : State) (p o v : Nat) : (State.writeHub s p o v).memory = s.memory := by
  unfold State.writeHub
  (repeat' split) <;> simp [*]

@[simp] theorem State.writeBar0_memory (s : State) (p a : Nat) (bs : Bytes) : (State.writeBar0 s p a bs).memory = s.memory := by
  unfold State.writeBar0
  dsimp only
  split
  · exact State.foldl_memory _ (fun t x => by simp) _ _
  · rw [State.foldl_memory _ (fun t x => by (repeat' split) <;> simp)]
    split <;> simp

@[simp] theorem State.writeSmbus_memory (s : State) (code v : Nat) : (State.writeSmbus s code v).memory = s.memory := by
  unfold State.writeSmbus
  (repeat' split) <;> simp [*]

@[simp] theorem State.writeCoreDie_memory (s : State) (d o v : Nat) : (State.writeCoreDie s d o v).memory = s.memory := by
  unfold State.writeCoreDie
  (repeat' split) <;> simp [*]

@[simp] theorem State.writeMemDie_memOk (s : State) (m o v : Nat) (h : s.memory.wf = true) : (State.writeMemDie s m o v).memory.wf = true := by
  unfold State.writeMemDie
  (repeat' split) <;> simp [*]

@[simp] theorem State.writeStreamDie_memory (s : State) (k o v : Nat) : (State.writeStreamDie s k o v).memory = s.memory := by
  unfold State.writeStreamDie
  (repeat' split) <;> simp [*]

@[simp] theorem State.writeLinkDie_memory (s : State) (o v : Nat) : (State.writeLinkDie s o v).memory = s.memory := by
  unfold State.writeLinkDie
  (repeat' split) <;> simp [*]

@[simp] theorem State.writeWindow_memOk (s : State) (addr v : Nat) (h : s.memory.wf = true) : (State.writeWindow s addr v).memory.wf = true := by
  unfold State.writeWindow
  (repeat' split) <;> simp [*]

@[simp] theorem State.writeReg_memOk (s : State) (w : Writer) (addr : Nat) (data : Bytes) (h : s.memory.wf = true) : (State.writeReg s w addr data).memory.wf = true := by
  unfold State.writeReg
  (repeat' split) <;> simp [*]

end Sys2Proof.Machine
end

