-- ==== Sys2Proof/Laws/Fields.lean ====
section
/-! SUPPORT. What each operation over the state leaves alone: one lemma for each operation, with one equation for each field it does
not touch, so that a frame is proved by rewriting. -/

namespace Sys2Proof.Machine

/-- A fold of operations that keep a part of the state keeps it. -/
theorem State.foldl_same {α β : Type} (π : State → β) (f : State → α → State) (hf : ∀ t x, π (f t x) = π t) (l : List α) (s : State) :
    π (l.foldl f s) = π s := by
  induction l generalizing s with
  | nil => rfl
  | cons a l ih => rw [List.foldl_cons, ih, hf]

@[simp] theorem State.foldl_pending {α : Type} (f : State → α → State) (hf : ∀ t x, (f t x).pending = t.pending) (l : List α) (s : State) :
    (l.foldl f s).pending = s.pending := State.foldl_same State.pending f hf l s
@[simp] theorem State.ite_pending (c : Prop) [Decidable c] (a b : State) : (if c then a else b).pending = if c then a.pending else b.pending := by split <;> rfl

@[simp] theorem State.foldl_wall {α : Type} (f : State → α → State) (hf : ∀ t x, (f t x).wall = t.wall) (l : List α) (s : State) :
    (l.foldl f s).wall = s.wall := State.foldl_same State.wall f hf l s
@[simp] theorem State.ite_wall (c : Prop) [Decidable c] (a b : State) : (if c then a else b).wall = if c then a.wall else b.wall := by split <;> rfl

@[simp] theorem State.foldl_time {α : Type} (f : State → α → State) (hf : ∀ t x, (f t x).time = t.time) (l : List α) (s : State) :
    (l.foldl f s).time = s.time := State.foldl_same State.time f hf l s
@[simp] theorem State.ite_time (c : Prop) [Decidable c] (a b : State) : (if c then a else b).time = if c then a.time else b.time := by split <;> rfl

@[simp] theorem State.foldl_board {α : Type} (f : State → α → State) (hf : ∀ t x, (f t x).board = t.board) (l : List α) (s : State) :
    (l.foldl f s).board = s.board := State.foldl_same State.board f hf l s
@[simp] theorem State.ite_board (c : Prop) [Decidable c] (a b : State) : (if c then a else b).board = if c then a.board else b.board := by split <;> rfl

@[simp] theorem State.foldl_tap {α : Type} (f : State → α → State) (hf : ∀ t x, (f t x).tap = t.tap) (l : List α) (s : State) :
    (l.foldl f s).tap = s.tap := State.foldl_same State.tap f hf l s
@[simp] theorem State.ite_tap (c : Prop) [Decidable c] (a b : State) : (if c then a else b).tap = if c then a.tap else b.tap := by split <;> rfl

@[simp] theorem State.foldl_power {α : Type} (f : State → α → State) (hf : ∀ t x, (f t x).power = t.power) (l : List α) (s : State) :
    (l.foldl f s).power = s.power := State.foldl_same State.power f hf l s
@[simp] theorem State.ite_power (c : Prop) [Decidable c] (a b : State) : (if c then a else b).power = if c then a.power else b.power := by split <;> rfl

@[simp] theorem State.foldl_clocks {α : Type} (f : State → α → State) (hf : ∀ t x, (f t x).clocks = t.clocks) (l : List α) (s : State) :
    (l.foldl f s).clocks = s.clocks := State.foldl_same State.clocks f hf l s
@[simp] theorem State.ite_clocks (c : Prop) [Decidable c] (a b : State) : (if c then a else b).clocks = if c then a.clocks else b.clocks := by split <;> rfl

@[simp] theorem State.foldl_thermal {α : Type} (f : State → α → State) (hf : ∀ t x, (f t x).thermal = t.thermal) (l : List α) (s : State) :
    (l.foldl f s).thermal = s.thermal := State.foldl_same State.thermal f hf l s
@[simp] theorem State.ite_thermal (c : Prop) [Decidable c] (a b : State) : (if c then a else b).thermal = if c then a.thermal else b.thermal := by split <;> rfl

@[simp] theorem State.foldl_straps {α : Type} (f : State → α → State) (hf : ∀ t x, (f t x).straps = t.straps) (l : List α) (s : State) :
    (l.foldl f s).straps = s.straps := State.foldl_same State.straps f hf l s
@[simp] theorem State.ite_straps (c : Prop) [Decidable c] (a b : State) : (if c then a else b).straps = if c then a.straps else b.straps := by split <;> rfl

@[simp] theorem State.foldl_boot {α : Type} (f : State → α → State) (hf : ∀ t x, (f t x).boot = t.boot) (l : List α) (s : State) :
    (l.foldl f s).boot = s.boot := State.foldl_same State.boot f hf l s
@[simp] theorem State.ite_boot (c : Prop) [Decidable c] (a b : State) : (if c then a else b).boot = if c then a.boot else b.boot := by split <;> rfl

@[simp] theorem State.foldl_flash {α : Type} (f : State → α → State) (hf : ∀ t x, (f t x).flash = t.flash) (l : List α) (s : State) :
    (l.foldl f s).flash = s.flash := State.foldl_same State.flash f hf l s
@[simp] theorem State.ite_flash (c : Prop) [Decidable c] (a b : State) : (if c then a else b).flash = if c then a.flash else b.flash := by split <;> rfl

@[simp] theorem State.foldl_fuses {α : Type} (f : State → α → State) (hf : ∀ t x, (f t x).fuses = t.fuses) (l : List α) (s : State) :
    (l.foldl f s).fuses = s.fuses := State.foldl_same State.fuses f hf l s
@[simp] theorem State.ite_fuses (c : Prop) [Decidable c] (a b : State) : (if c then a else b).fuses = if c then a.fuses else b.fuses := by split <;> rfl

@[simp] theorem State.foldl_security {α : Type} (f : State → α → State) (hf : ∀ t x, (f t x).security = t.security) (l : List α) (s : State) :
    (l.foldl f s).security = s.security := State.foldl_same State.security f hf l s
@[simp] theorem State.ite_security (c : Prop) [Decidable c] (a b : State) : (if c then a else b).security = if c then a.security else b.security := by split <;> rfl

@[simp] theorem State.foldl_models {α : Type} (f : State → α → State) (hf : ∀ t x, (f t x).models = t.models) (l : List α) (s : State) :
    (l.foldl f s).models = s.models := State.foldl_same State.models f hf l s
@[simp] theorem State.ite_models (c : Prop) [Decidable c] (a b : State) : (if c then a else b).models = if c then a.models else b.models := by split <;> rfl

@[simp] theorem State.foldl_dies {α : Type} (f : State → α → State) (hf : ∀ t x, (f t x).dies = t.dies) (l : List α) (s : State) :
    (l.foldl f s).dies = s.dies := State.foldl_same State.dies f hf l s
@[simp] theorem State.ite_dies (c : Prop) [Decidable c] (a b : State) : (if c then a else b).dies = if c then a.dies else b.dies := by split <;> rfl

@[simp] theorem State.foldl_faultyEdges {α : Type} (f : State → α → State) (hf : ∀ t x, (f t x).faultyEdges = t.faultyEdges) (l : List α) (s : State) :
    (l.foldl f s).faultyEdges = s.faultyEdges := State.foldl_same State.faultyEdges f hf l s
@[simp] theorem State.ite_faultyEdges (c : Prop) [Decidable c] (a b : State) : (if c then a else b).faultyEdges = if c then a.faultyEdges else b.faultyEdges := by split <;> rfl

@[simp] theorem State.foldl_cores {α : Type} (f : State → α → State) (hf : ∀ t x, (f t x).cores = t.cores) (l : List α) (s : State) :
    (l.foldl f s).cores = s.cores := State.foldl_same State.cores f hf l s
@[simp] theorem State.ite_cores (c : Prop) [Decidable c] (a b : State) : (if c then a else b).cores = if c then a.cores else b.cores := by split <;> rfl

@[simp] theorem State.foldl_feeders {α : Type} (f : State → α → State) (hf : ∀ t x, (f t x).feeders = t.feeders) (l : List α) (s : State) :
    (l.foldl f s).feeders = s.feeders := State.foldl_same State.feeders f hf l s
@[simp] theorem State.ite_feeders (c : Prop) [Decidable c] (a b : State) : (if c then a else b).feeders = if c then a.feeders else b.feeders := by split <;> rfl

@[simp] theorem State.foldl_lanes {α : Type} (f : State → α → State) (hf : ∀ t x, (f t x).lanes = t.lanes) (l : List α) (s : State) :
    (l.foldl f s).lanes = s.lanes := State.foldl_same State.lanes f hf l s
@[simp] theorem State.ite_lanes (c : Prop) [Decidable c] (a b : State) : (if c then a else b).lanes = if c then a.lanes else b.lanes := by split <;> rfl

@[simp] theorem State.foldl_guards {α : Type} (f : State → α → State) (hf : ∀ t x, (f t x).guards = t.guards) (l : List α) (s : State) :
    (l.foldl f s).guards = s.guards := State.foldl_same State.guards f hf l s
@[simp] theorem State.ite_guards (c : Prop) [Decidable c] (a b : State) : (if c then a else b).guards = if c then a.guards else b.guards := by split <;> rfl

@[simp] theorem State.foldl_mbx {α : Type} (f : State → α → State) (hf : ∀ t x, (f t x).mbx = t.mbx) (l : List α) (s : State) :
    (l.foldl f s).mbx = s.mbx := State.foldl_same State.mbx f hf l s
@[simp] theorem State.ite_mbx (c : Prop) [Decidable c] (a b : State) : (if c then a else b).mbx = if c then a.mbx else b.mbx := by split <;> rfl

@[simp] theorem State.foldl_ports {α : Type} (f : State → α → State) (hf : ∀ t x, (f t x).ports = t.ports) (l : List α) (s : State) :
    (l.foldl f s).ports = s.ports := State.foldl_same State.ports f hf l s
@[simp] theorem State.ite_ports (c : Prop) [Decidable c] (a b : State) : (if c then a else b).ports = if c then a.ports else b.ports := by split <;> rfl

@[simp] theorem State.foldl_smbOffset {α : Type} (f : State → α → State) (hf : ∀ t x, (f t x).smbOffset = t.smbOffset) (l : List α) (s : State) :
    (l.foldl f s).smbOffset = s.smbOffset := State.foldl_same State.smbOffset f hf l s
@[simp] theorem State.ite_smbOffset (c : Prop) [Decidable c] (a b : State) : (if c then a else b).smbOffset = if c then a.smbOffset else b.smbOffset := by split <;> rfl

@[simp] theorem State.foldl_alertPending {α : Type} (f : State → α → State) (hf : ∀ t x, (f t x).alertPending = t.alertPending) (l : List α) (s : State) :
    (l.foldl f s).alertPending = s.alertPending := State.foldl_same State.alertPending f hf l s
@[simp] theorem State.ite_alertPending (c : Prop) [Decidable c] (a b : State) : (if c then a else b).alertPending = if c then a.alertPending else b.alertPending := by split <;> rfl

@[simp] theorem State.foldl_owner {α : Type} (f : State → α → State) (hf : ∀ t x, (f t x).owner = t.owner) (l : List α) (s : State) :
    (l.foldl f s).owner = s.owner := State.foldl_same State.owner f hf l s
@[simp] theorem State.ite_owner (c : Prop) [Decidable c] (a b : State) : (if c then a else b).owner = if c then a.owner else b.owner := by split <;> rfl

@[simp] theorem State.foldl_log {α : Type} (f : State → α → State) (hf : ∀ t x, (f t x).log = t.log) (l : List α) (s : State) :
    (l.foldl f s).log = s.log := State.foldl_same State.log f hf l s
@[simp] theorem State.ite_log (c : Prop) [Decidable c] (a b : State) : (if c then a else b).log = if c then a.log else b.log := by split <;> rfl

@[simp] theorem State.foldl_pcie {α : Type} (f : State → α → State) (hf : ∀ t x, (f t x).pcie = t.pcie) (l : List α) (s : State) :
    (l.foldl f s).pcie = s.pcie := State.foldl_same State.pcie f hf l s
@[simp] theorem State.ite_pcie (c : Prop) [Decidable c] (a b : State) : (if c then a else b).pcie = if c then a.pcie else b.pcie := by split <;> rfl

@[simp] theorem State.foldl_cxl {α : Type} (f : State → α → State) (hf : ∀ t x, (f t x).cxl = t.cxl) (l : List α) (s : State) :
    (l.foldl f s).cxl = s.cxl := State.foldl_same State.cxl f hf l s
@[simp] theorem State.ite_cxl (c : Prop) [Decidable c] (a b : State) : (if c then a else b).cxl = if c then a.cxl else b.cxl := by split <;> rfl

@[simp] theorem State.foldl_cascade {α : Type} (f : State → α → State) (hf : ∀ t x, (f t x).cascade = t.cascade) (l : List α) (s : State) :
    (l.foldl f s).cascade = s.cascade := State.foldl_same State.cascade f hf l s
@[simp] theorem State.ite_cascade (c : Prop) [Decidable c] (a b : State) : (if c then a else b).cascade = if c then a.cascade else b.cascade := by split <;> rfl

@[simp] theorem State.foldl_sessions {α : Type} (f : State → α → State) (hf : ∀ t x, (f t x).sessions = t.sessions) (l : List α) (s : State) :
    (l.foldl f s).sessions = s.sessions := State.foldl_same State.sessions f hf l s
@[simp] theorem State.ite_sessions (c : Prop) [Decidable c] (a b : State) : (if c then a else b).sessions = if c then a.sessions else b.sessions := by split <;> rfl

@[simp] theorem State.foldl_grants {α : Type} (f : State → α → State) (hf : ∀ t x, (f t x).grants = t.grants) (l : List α) (s : State) :
    (l.foldl f s).grants = s.grants := State.foldl_same State.grants f hf l s
@[simp] theorem State.ite_grants (c : Prop) [Decidable c] (a b : State) : (if c then a else b).grants = if c then a.grants else b.grants := by split <;> rfl

@[simp] theorem State.foldl_fabricSeq {α : Type} (f : State → α → State) (hf : ∀ t x, (f t x).fabricSeq = t.fabricSeq) (l : List α) (s : State) :
    (l.foldl f s).fabricSeq = s.fabricSeq := State.foldl_same State.fabricSeq f hf l s
@[simp] theorem State.ite_fabricSeq (c : Prop) [Decidable c] (a b : State) : (if c then a else b).fabricSeq = if c then a.fabricSeq else b.fabricSeq := by split <;> rfl

@[simp] theorem State.foldl_mbxTurn {α : Type} (f : State → α → State) (hf : ∀ t x, (f t x).mbxTurn = t.mbxTurn) (l : List α) (s : State) :
    (l.foldl f s).mbxTurn = s.mbxTurn := State.foldl_same State.mbxTurn f hf l s
@[simp] theorem State.ite_mbxTurn (c : Prop) [Decidable c] (a b : State) : (if c then a else b).mbxTurn = if c then a.mbxTurn else b.mbxTurn := by split <;> rfl

@[simp] theorem State.foldl_turns {α : Type} (f : State → α → State) (hf : ∀ t x, (f t x).turns = t.turns) (l : List α) (s : State) :
    (l.foldl f s).turns = s.turns := State.foldl_same State.turns f hf l s
@[simp] theorem State.ite_turns (c : Prop) [Decidable c] (a b : State) : (if c then a else b).turns = if c then a.turns else b.turns := by split <;> rfl

@[simp] theorem State.foldl_accepted {α : Type} (f : State → α → State) (hf : ∀ t x, (f t x).accepted = t.accepted) (l : List α) (s : State) :
    (l.foldl f s).accepted = s.accepted := State.foldl_same State.accepted f hf l s
@[simp] theorem State.ite_accepted (c : Prop) [Decidable c] (a b : State) : (if c then a else b).accepted = if c then a.accepted else b.accepted := by split <;> rfl

@[simp] theorem State.foldl_bus {α : Type} (f : State → α → State) (hf : ∀ t x, (f t x).bus = t.bus) (l : List α) (s : State) :
    (l.foldl f s).bus = s.bus := State.foldl_same State.bus f hf l s
@[simp] theorem State.ite_bus (c : Prop) [Decidable c] (a b : State) : (if c then a else b).bus = if c then a.bus else b.bus := by split <;> rfl

@[simp] theorem State.foldl_freeTick {α : Type} (f : State → α → State) (hf : ∀ t x, (f t x).freeTick = t.freeTick) (l : List α) (s : State) :
    (l.foldl f s).freeTick = s.freeTick := State.foldl_same State.freeTick f hf l s
@[simp] theorem State.ite_freeTick (c : Prop) [Decidable c] (a b : State) : (if c then a else b).freeTick = if c then a.freeTick else b.freeTick := by split <;> rfl

/-! ### Ops -/

@[simp] theorem State.elapse_leaves (s : State) (dt : Nat) :
    (State.elapse s dt).pending = s.pending ∧ (State.elapse s dt).board = s.board ∧ (State.elapse s dt).tap = s.tap ∧ (State.elapse s dt).power = s.power ∧ (State.elapse s dt).clocks = s.clocks ∧ (State.elapse s dt).thermal = s.thermal ∧ (State.elapse s dt).straps = s.straps ∧ (State.elapse s dt).boot = s.boot ∧ (State.elapse s dt).flash = s.flash ∧ (State.elapse s dt).fuses = s.fuses ∧ (State.elapse s dt).security = s.security ∧ (State.elapse s dt).models = s.models ∧ (State.elapse s dt).dies = s.dies ∧ (State.elapse s dt).faultyEdges = s.faultyEdges ∧ (State.elapse s dt).cores = s.cores ∧ (State.elapse s dt).feeders = s.feeders ∧ (State.elapse s dt).memory = s.memory ∧ (State.elapse s dt).lanes = s.lanes ∧ (State.elapse s dt).guards = s.guards ∧ (State.elapse s dt).mbx = s.mbx ∧ (State.elapse s dt).ports = s.ports ∧ (State.elapse s dt).smbOffset = s.smbOffset ∧ (State.elapse s dt).alertPending = s.alertPending ∧ (State.elapse s dt).owner = s.owner ∧ (State.elapse s dt).log = s.log ∧ (State.elapse s dt).pcie = s.pcie ∧ (State.elapse s dt).cxl = s.cxl ∧ (State.elapse s dt).cascade = s.cascade ∧ (State.elapse s dt).sessions = s.sessions ∧ (State.elapse s dt).grants = s.grants ∧ (State.elapse s dt).fabricSeq = s.fabricSeq ∧ (State.elapse s dt).mbxTurn = s.mbxTurn ∧ (State.elapse s dt).turns = s.turns ∧ (State.elapse s dt).accepted = s.accepted ∧ (State.elapse s dt).bus = s.bus ∧ (State.elapse s dt).freeTick = s.freeTick := by
  unfold State.elapse
  try dsimp only
  (repeat' split) <;> simp

@[simp] theorem State.alert_leaves (s : State) :
    (State.alert s).pending = s.pending ∧ (State.alert s).wall = s.wall ∧ (State.alert s).time = s.time ∧ (State.alert s).board = s.board ∧ (State.alert s).tap = s.tap ∧ (State.alert s).power = s.power ∧ (State.alert s).clocks = s.clocks ∧ (State.alert s).thermal = s.thermal ∧ (State.alert s).straps = s.straps ∧ (State.alert s).boot = s.boot ∧ (State.alert s).flash = s.flash ∧ (State.alert s).fuses = s.fuses ∧ (State.alert s).security = s.security ∧ (State.alert s).models = s.models ∧ (State.alert s).dies = s.dies ∧ (State.alert s).faultyEdges = s.faultyEdges ∧ (State.alert s).cores = s.cores ∧ (State.alert s).feeders = s.feeders ∧ (State.alert s).memory = s.memory ∧ (State.alert s).lanes = s.lanes ∧ (State.alert s).guards = s.guards ∧ (State.alert s).mbx = s.mbx ∧ (State.alert s).ports = s.ports ∧ (State.alert s).smbOffset = s.smbOffset ∧ (State.alert s).owner = s.owner ∧ (State.alert s).log = s.log ∧ (State.alert s).pcie = s.pcie ∧ (State.alert s).cxl = s.cxl ∧ (State.alert s).cascade = s.cascade ∧ (State.alert s).sessions = s.sessions ∧ (State.alert s).grants = s.grants ∧ (State.alert s).fabricSeq = s.fabricSeq ∧ (State.alert s).mbxTurn = s.mbxTurn ∧ (State.alert s).turns = s.turns ∧ (State.alert s).accepted = s.accepted ∧ (State.alert s).bus = s.bus ∧ (State.alert s).freeTick = s.freeTick := by
  unfold State.alert
  try dsimp only
  (repeat' split) <;> simp

@[simp] theorem State.raiseVector_leaves (s : State) (p v : Nat) :
    (State.raiseVector s p v).pending = s.pending ∧ (State.raiseVector s p v).wall = s.wall ∧ (State.raiseVector s p v).time = s.time ∧ (State.raiseVector s p v).board = s.board ∧ (State.raiseVector s p v).tap = s.tap ∧ (State.raiseVector s p v).power = s.power ∧ (State.raiseVector s p v).clocks = s.clocks ∧ (State.raiseVector s p v).thermal = s.thermal ∧ (State.raiseVector s p v).straps = s.straps ∧ (State.raiseVector s p v).boot = s.boot ∧ (State.raiseVector s p v).flash = s.flash ∧ (State.raiseVector s p v).fuses = s.fuses ∧ (State.raiseVector s p v).security = s.security ∧ (State.raiseVector s p v).models = s.models ∧ (State.raiseVector s p v).dies = s.dies ∧ (State.raiseVector s p v).faultyEdges = s.faultyEdges ∧ (State.raiseVector s p v).cores = s.cores ∧ (State.raiseVector s p v).feeders = s.feeders ∧ (State.raiseVector s p v).memory = s.memory ∧ (State.raiseVector s p v).lanes = s.lanes ∧ (State.raiseVector s p v).guards = s.guards ∧ (State.raiseVector s p v).mbx = s.mbx ∧ (State.raiseVector s p v).ports = s.ports ∧ (State.raiseVector s p v).smbOffset = s.smbOffset ∧ (State.raiseVector s p v).alertPending = s.alertPending ∧ (State.raiseVector s p v).owner = s.owner ∧ (State.raiseVector s p v).log = s.log ∧ (State.raiseVector s p v).cxl = s.cxl ∧ (State.raiseVector s p v).cascade = s.cascade ∧ (State.raiseVector s p v).sessions = s.sessions ∧ (State.raiseVector s p v).grants = s.grants ∧ (State.raiseVector s p v).fabricSeq = s.fabricSeq ∧ (State.raiseVector s p v).mbxTurn = s.mbxTurn ∧ (State.raiseVector s p v).turns = s.turns ∧ (State.raiseVector s p v).accepted = s.accepted ∧ (State.raiseVector s p v).bus = s.bus ∧ (State.raiseVector s p v).freeTick = s.freeTick := by
  unfold State.raiseVector
  try dsimp only
  (repeat' split) <;> simp

@[simp] theorem State.noticeMaster_leaves (s : State) (code index : Nat) :
    (State.noticeMaster s code index).pending = s.pending ∧ (State.noticeMaster s code index).wall = s.wall ∧ (State.noticeMaster s code index).time = s.time ∧ (State.noticeMaster s code index).board = s.board ∧ (State.noticeMaster s code index).tap = s.tap ∧ (State.noticeMaster s code index).power = s.power ∧ (State.noticeMaster s code index).clocks = s.clocks ∧ (State.noticeMaster s code index).thermal = s.thermal ∧ (State.noticeMaster s code index).straps = s.straps ∧ (State.noticeMaster s code index).boot = s.boot ∧ (State.noticeMaster s code index).flash = s.flash ∧ (State.noticeMaster s code index).fuses = s.fuses ∧ (State.noticeMaster s code index).security = s.security ∧ (State.noticeMaster s code index).models = s.models ∧ (State.noticeMaster s code index).dies = s.dies ∧ (State.noticeMaster s code index).faultyEdges = s.faultyEdges ∧ (State.noticeMaster s code index).cores = s.cores ∧ (State.noticeMaster s code index).feeders = s.feeders ∧ (State.noticeMaster s code index).memory = s.memory ∧ (State.noticeMaster s code index).lanes = s.lanes ∧ (State.noticeMaster s code index).guards = s.guards ∧ (State.noticeMaster s code index).mbx = s.mbx ∧ (State.noticeMaster s code index).ports = s.ports ∧ (State.noticeMaster s code index).smbOffset = s.smbOffset ∧ (State.noticeMaster s code index).alertPending = s.alertPending ∧ (State.noticeMaster s code index).owner = s.owner ∧ (State.noticeMaster s code index).log = s.log ∧ (State.noticeMaster s code index).pcie = s.pcie ∧ (State.noticeMaster s code index).cxl = s.cxl ∧ (State.noticeMaster s code index).sessions = s.sessions ∧ (State.noticeMaster s code index).grants = s.grants ∧ (State.noticeMaster s code index).fabricSeq = s.fabricSeq ∧ (State.noticeMaster s code index).mbxTurn = s.mbxTurn ∧ (State.noticeMaster s code index).turns = s.turns ∧ (State.noticeMaster s code index).accepted = s.accepted ∧ (State.noticeMaster s code index).bus = s.bus ∧ (State.noticeMaster s code index).freeTick = s.freeTick := by
  unfold State.noticeMaster
  try dsimp only
  (repeat' split) <;> simp

@[simp] theorem State.vector0_leaves (s : State) :
    (State.vector0 s).pending = s.pending ∧ (State.vector0 s).wall = s.wall ∧ (State.vector0 s).time = s.time ∧ (State.vector0 s).board = s.board ∧ (State.vector0 s).tap = s.tap ∧ (State.vector0 s).power = s.power ∧ (State.vector0 s).clocks = s.clocks ∧ (State.vector0 s).thermal = s.thermal ∧ (State.vector0 s).straps = s.straps ∧ (State.vector0 s).boot = s.boot ∧ (State.vector0 s).flash = s.flash ∧ (State.vector0 s).fuses = s.fuses ∧ (State.vector0 s).security = s.security ∧ (State.vector0 s).models = s.models ∧ (State.vector0 s).dies = s.dies ∧ (State.vector0 s).faultyEdges = s.faultyEdges ∧ (State.vector0 s).cores = s.cores ∧ (State.vector0 s).feeders = s.feeders ∧ (State.vector0 s).memory = s.memory ∧ (State.vector0 s).lanes = s.lanes ∧ (State.vector0 s).guards = s.guards ∧ (State.vector0 s).mbx = s.mbx ∧ (State.vector0 s).ports = s.ports ∧ (State.vector0 s).smbOffset = s.smbOffset ∧ (State.vector0 s).owner = s.owner ∧ (State.vector0 s).log = s.log ∧ (State.vector0 s).cxl = s.cxl ∧ (State.vector0 s).sessions = s.sessions ∧ (State.vector0 s).grants = s.grants ∧ (State.vector0 s).fabricSeq = s.fabricSeq ∧ (State.vector0 s).mbxTurn = s.mbxTurn ∧ (State.vector0 s).turns = s.turns ∧ (State.vector0 s).accepted = s.accepted ∧ (State.vector0 s).bus = s.bus ∧ (State.vector0 s).freeTick = s.freeTick := by
  unfold State.vector0
  try dsimp only
  (repeat' split) <;> simp

@[simp] theorem State.vector1_leaves (s : State) :
    (State.vector1 s).pending = s.pending ∧ (State.vector1 s).wall = s.wall ∧ (State.vector1 s).time = s.time ∧ (State.vector1 s).board = s.board ∧ (State.vector1 s).tap = s.tap ∧ (State.vector1 s).power = s.power ∧ (State.vector1 s).clocks = s.clocks ∧ (State.vector1 s).thermal = s.thermal ∧ (State.vector1 s).straps = s.straps ∧ (State.vector1 s).boot = s.boot ∧ (State.vector1 s).flash = s.flash ∧ (State.vector1 s).fuses = s.fuses ∧ (State.vector1 s).security = s.security ∧ (State.vector1 s).models = s.models ∧ (State.vector1 s).dies = s.dies ∧ (State.vector1 s).faultyEdges = s.faultyEdges ∧ (State.vector1 s).cores = s.cores ∧ (State.vector1 s).feeders = s.feeders ∧ (State.vector1 s).memory = s.memory ∧ (State.vector1 s).lanes = s.lanes ∧ (State.vector1 s).guards = s.guards ∧ (State.vector1 s).mbx = s.mbx ∧ (State.vector1 s).ports = s.ports ∧ (State.vector1 s).smbOffset = s.smbOffset ∧ (State.vector1 s).owner = s.owner ∧ (State.vector1 s).log = s.log ∧ (State.vector1 s).cxl = s.cxl ∧ (State.vector1 s).sessions = s.sessions ∧ (State.vector1 s).grants = s.grants ∧ (State.vector1 s).fabricSeq = s.fabricSeq ∧ (State.vector1 s).mbxTurn = s.mbxTurn ∧ (State.vector1 s).turns = s.turns ∧ (State.vector1 s).accepted = s.accepted ∧ (State.vector1 s).bus = s.bus ∧ (State.vector1 s).freeTick = s.freeTick := by
  unfold State.vector1
  try dsimp only
  (repeat' split) <;> simp

@[simp] theorem State.dieEvent_leaves (s : State) (owner die severity code : Nat) (arg : W32) (info : Nat) :
    (State.dieEvent s owner die severity code arg info).pending = s.pending ∧ (State.dieEvent s owner die severity code arg info).wall = s.wall ∧ (State.dieEvent s owner die severity code arg info).time = s.time ∧ (State.dieEvent s owner die severity code arg info).board = s.board ∧ (State.dieEvent s owner die severity code arg info).tap = s.tap ∧ (State.dieEvent s owner die severity code arg info).power = s.power ∧ (State.dieEvent s owner die severity code arg info).clocks = s.clocks ∧ (State.dieEvent s owner die severity code arg info).thermal = s.thermal ∧ (State.dieEvent s owner die severity code arg info).straps = s.straps ∧ (State.dieEvent s owner die severity code arg info).boot = s.boot ∧ (State.dieEvent s owner die severity code arg info).flash = s.flash ∧ (State.dieEvent s owner die severity code arg info).fuses = s.fuses ∧ (State.dieEvent s owner die severity code arg info).security = s.security ∧ (State.dieEvent s owner die severity code arg info).models = s.models ∧ (State.dieEvent s owner die severity code arg info).faultyEdges = s.faultyEdges ∧ (State.dieEvent s owner die severity code arg info).cores = s.cores ∧ (State.dieEvent s owner die severity code arg info).feeders = s.feeders ∧ (State.dieEvent s owner die severity code arg info).memory = s.memory ∧ (State.dieEvent s owner die severity code arg info).lanes = s.lanes ∧ (State.dieEvent s owner die severity code arg info).guards = s.guards ∧ (State.dieEvent s owner die severity code arg info).mbx = s.mbx ∧ (State.dieEvent s owner die severity code arg info).ports = s.ports ∧ (State.dieEvent s owner die severity code arg info).smbOffset = s.smbOffset ∧ (State.dieEvent s owner die severity code arg info).alertPending = s.alertPending ∧ (State.dieEvent s owner die severity code arg info).owner = s.owner ∧ (State.dieEvent s owner die severity code arg info).pcie = s.pcie ∧ (State.dieEvent s owner die severity code arg info).cxl = s.cxl ∧ (State.dieEvent s owner die severity code arg info).cascade = s.cascade ∧ (State.dieEvent s owner die severity code arg info).sessions = s.sessions ∧ (State.dieEvent s owner die severity code arg info).grants = s.grants ∧ (State.dieEvent s owner die severity code arg info).fabricSeq = s.fabricSeq ∧ (State.dieEvent s owner die severity code arg info).mbxTurn = s.mbxTurn ∧ (State.dieEvent s owner die severity code arg info).turns = s.turns ∧ (State.dieEvent s owner die severity code arg info).accepted = s.accepted ∧ (State.dieEvent s owner die severity code arg info).bus = s.bus ∧ (State.dieEvent s owner die severity code arg info).freeTick = s.freeTick := by
  unfold State.dieEvent
  try dsimp only
  (repeat' split) <;> simp

@[simp] theorem State.moduleEvent_leaves (s : State) (severity code : Nat) (arg : W32) (info : Nat) :
    (State.moduleEvent s severity code arg info).pending = s.pending ∧ (State.moduleEvent s severity code arg info).wall = s.wall ∧ (State.moduleEvent s severity code arg info).time = s.time ∧ (State.moduleEvent s severity code arg info).board = s.board ∧ (State.moduleEvent s severity code arg info).tap = s.tap ∧ (State.moduleEvent s severity code arg info).power = s.power ∧ (State.moduleEvent s severity code arg info).clocks = s.clocks ∧ (State.moduleEvent s severity code arg info).thermal = s.thermal ∧ (State.moduleEvent s severity code arg info).straps = s.straps ∧ (State.moduleEvent s severity code arg info).boot = s.boot ∧ (State.moduleEvent s severity code arg info).flash = s.flash ∧ (State.moduleEvent s severity code arg info).fuses = s.fuses ∧ (State.moduleEvent s severity code arg info).security = s.security ∧ (State.moduleEvent s severity code arg info).models = s.models ∧ (State.moduleEvent s severity code arg info).faultyEdges = s.faultyEdges ∧ (State.moduleEvent s severity code arg info).cores = s.cores ∧ (State.moduleEvent s severity code arg info).feeders = s.feeders ∧ (State.moduleEvent s severity code arg info).memory = s.memory ∧ (State.moduleEvent s severity code arg info).lanes = s.lanes ∧ (State.moduleEvent s severity code arg info).guards = s.guards ∧ (State.moduleEvent s severity code arg info).mbx = s.mbx ∧ (State.moduleEvent s severity code arg info).ports = s.ports ∧ (State.moduleEvent s severity code arg info).smbOffset = s.smbOffset ∧ (State.moduleEvent s severity code arg info).alertPending = s.alertPending ∧ (State.moduleEvent s severity code arg info).owner = s.owner ∧ (State.moduleEvent s severity code arg info).pcie = s.pcie ∧ (State.moduleEvent s severity code arg info).cxl = s.cxl ∧ (State.moduleEvent s severity code arg info).cascade = s.cascade ∧ (State.moduleEvent s severity code arg info).sessions = s.sessions ∧ (State.moduleEvent s severity code arg info).grants = s.grants ∧ (State.moduleEvent s severity code arg info).fabricSeq = s.fabricSeq ∧ (State.moduleEvent s severity code arg info).mbxTurn = s.mbxTurn ∧ (State.moduleEvent s severity code arg info).turns = s.turns ∧ (State.moduleEvent s severity code arg info).accepted = s.accepted ∧ (State.moduleEvent s severity code arg info).bus = s.bus ∧ (State.moduleEvent s severity code arg info).freeTick = s.freeTick := by
  unfold State.moduleEvent
  try dsimp only
  (repeat' split) <;> simp

@[simp] theorem State.gddrWrite_leaves (s : State) (a : Nat) (bs : Bytes) :
    (State.gddrWrite s a bs).pending = s.pending ∧ (State.gddrWrite s a bs).wall = s.wall ∧ (State.gddrWrite s a bs).time = s.time ∧ (State.gddrWrite s a bs).board = s.board ∧ (State.gddrWrite s a bs).tap = s.tap ∧ (State.gddrWrite s a bs).power = s.power ∧ (State.gddrWrite s a bs).clocks = s.clocks ∧ (State.gddrWrite s a bs).thermal = s.thermal ∧ (State.gddrWrite s a bs).straps = s.straps ∧ (State.gddrWrite s a bs).boot = s.boot ∧ (State.gddrWrite s a bs).flash = s.flash ∧ (State.gddrWrite s a bs).fuses = s.fuses ∧ (State.gddrWrite s a bs).security = s.security ∧ (State.gddrWrite s a bs).models = s.models ∧ (State.gddrWrite s a bs).dies = s.dies ∧ (State.gddrWrite s a bs).faultyEdges = s.faultyEdges ∧ (State.gddrWrite s a bs).cores = s.cores ∧ (State.gddrWrite s a bs).feeders = s.feeders ∧ (State.gddrWrite s a bs).lanes = s.lanes ∧ (State.gddrWrite s a bs).guards = s.guards ∧ (State.gddrWrite s a bs).mbx = s.mbx ∧ (State.gddrWrite s a bs).ports = s.ports ∧ (State.gddrWrite s a bs).smbOffset = s.smbOffset ∧ (State.gddrWrite s a bs).alertPending = s.alertPending ∧ (State.gddrWrite s a bs).owner = s.owner ∧ (State.gddrWrite s a bs).log = s.log ∧ (State.gddrWrite s a bs).pcie = s.pcie ∧ (State.gddrWrite s a bs).cxl = s.cxl ∧ (State.gddrWrite s a bs).cascade = s.cascade ∧ (State.gddrWrite s a bs).sessions = s.sessions ∧ (State.gddrWrite s a bs).grants = s.grants ∧ (State.gddrWrite s a bs).fabricSeq = s.fabricSeq ∧ (State.gddrWrite s a bs).mbxTurn = s.mbxTurn ∧ (State.gddrWrite s a bs).turns = s.turns ∧ (State.gddrWrite s a bs).accepted = s.accepted ∧ (State.gddrWrite s a bs).bus = s.bus ∧ (State.gddrWrite s a bs).freeTick = s.freeTick := by
  unfold State.gddrWrite
  try dsimp only
  (repeat' split) <;> simp

@[simp] theorem State.answer_leaves (s : State) (p k : Nat) (a : Answer) :
    (State.answer s p k a).pending = s.pending ∧ (State.answer s p k a).wall = s.wall ∧ (State.answer s p k a).time = s.time ∧ (State.answer s p k a).board = s.board ∧ (State.answer s p k a).tap = s.tap ∧ (State.answer s p k a).power = s.power ∧ (State.answer s p k a).clocks = s.clocks ∧ (State.answer s p k a).thermal = s.thermal ∧ (State.answer s p k a).straps = s.straps ∧ (State.answer s p k a).boot = s.boot ∧ (State.answer s p k a).flash = s.flash ∧ (State.answer s p k a).fuses = s.fuses ∧ (State.answer s p k a).security = s.security ∧ (State.answer s p k a).models = s.models ∧ (State.answer s p k a).dies = s.dies ∧ (State.answer s p k a).faultyEdges = s.faultyEdges ∧ (State.answer s p k a).cores = s.cores ∧ (State.answer s p k a).feeders = s.feeders ∧ (State.answer s p k a).memory = s.memory ∧ (State.answer s p k a).lanes = s.lanes ∧ (State.answer s p k a).guards = s.guards ∧ (State.answer s p k a).ports = s.ports ∧ (State.answer s p k a).smbOffset = s.smbOffset ∧ (State.answer s p k a).owner = s.owner ∧ (State.answer s p k a).log = s.log ∧ (State.answer s p k a).cxl = s.cxl ∧ (State.answer s p k a).sessions = s.sessions ∧ (State.answer s p k a).grants = s.grants ∧ (State.answer s p k a).fabricSeq = s.fabricSeq ∧ (State.answer s p k a).mbxTurn = s.mbxTurn ∧ (State.answer s p k a).turns = s.turns ∧ (State.answer s p k a).accepted = s.accepted ∧ (State.answer s p k a).bus = s.bus ∧ (State.answer s p k a).freeTick = s.freeTick := by
  unfold State.answer
  try dsimp only
  (repeat' split) <;> simp

@[simp] theorem State.settleSlot_leaves (p : Nat) (s : State) (k : Nat) :
    (State.settleSlot p s k).pending = s.pending ∧ (State.settleSlot p s k).wall = s.wall ∧ (State.settleSlot p s k).time = s.time ∧ (State.settleSlot p s k).board = s.board ∧ (State.settleSlot p s k).tap = s.tap ∧ (State.settleSlot p s k).power = s.power ∧ (State.settleSlot p s k).clocks = s.clocks ∧ (State.settleSlot p s k).thermal = s.thermal ∧ (State.settleSlot p s k).straps = s.straps ∧ (State.settleSlot p s k).boot = s.boot ∧ (State.settleSlot p s k).flash = s.flash ∧ (State.settleSlot p s k).fuses = s.fuses ∧ (State.settleSlot p s k).security = s.security ∧ (State.settleSlot p s k).models = s.models ∧ (State.settleSlot p s k).dies = s.dies ∧ (State.settleSlot p s k).faultyEdges = s.faultyEdges ∧ (State.settleSlot p s k).cores = s.cores ∧ (State.settleSlot p s k).feeders = s.feeders ∧ (State.settleSlot p s k).memory = s.memory ∧ (State.settleSlot p s k).lanes = s.lanes ∧ (State.settleSlot p s k).guards = s.guards ∧ (State.settleSlot p s k).ports = s.ports ∧ (State.settleSlot p s k).smbOffset = s.smbOffset ∧ (State.settleSlot p s k).owner = s.owner ∧ (State.settleSlot p s k).log = s.log ∧ (State.settleSlot p s k).cxl = s.cxl ∧ (State.settleSlot p s k).sessions = s.sessions ∧ (State.settleSlot p s k).grants = s.grants ∧ (State.settleSlot p s k).fabricSeq = s.fabricSeq ∧ (State.settleSlot p s k).mbxTurn = s.mbxTurn ∧ (State.settleSlot p s k).turns = s.turns ∧ (State.settleSlot p s k).accepted = s.accepted ∧ (State.settleSlot p s k).bus = s.bus ∧ (State.settleSlot p s k).freeTick = s.freeTick := by
  unfold State.settleSlot
  try dsimp only
  (repeat' split) <;> simp

@[simp] theorem State.noteGap_leaves (s : State) (p : Nat) :
    (State.noteGap s p).pending = s.pending ∧ (State.noteGap s p).wall = s.wall ∧ (State.noteGap s p).time = s.time ∧ (State.noteGap s p).board = s.board ∧ (State.noteGap s p).tap = s.tap ∧ (State.noteGap s p).power = s.power ∧ (State.noteGap s p).clocks = s.clocks ∧ (State.noteGap s p).thermal = s.thermal ∧ (State.noteGap s p).straps = s.straps ∧ (State.noteGap s p).boot = s.boot ∧ (State.noteGap s p).flash = s.flash ∧ (State.noteGap s p).fuses = s.fuses ∧ (State.noteGap s p).security = s.security ∧ (State.noteGap s p).models = s.models ∧ (State.noteGap s p).dies = s.dies ∧ (State.noteGap s p).faultyEdges = s.faultyEdges ∧ (State.noteGap s p).cores = s.cores ∧ (State.noteGap s p).feeders = s.feeders ∧ (State.noteGap s p).memory = s.memory ∧ (State.noteGap s p).lanes = s.lanes ∧ (State.noteGap s p).guards = s.guards ∧ (State.noteGap s p).mbx = s.mbx ∧ (State.noteGap s p).smbOffset = s.smbOffset ∧ (State.noteGap s p).alertPending = s.alertPending ∧ (State.noteGap s p).owner = s.owner ∧ (State.noteGap s p).log = s.log ∧ (State.noteGap s p).pcie = s.pcie ∧ (State.noteGap s p).cxl = s.cxl ∧ (State.noteGap s p).cascade = s.cascade ∧ (State.noteGap s p).sessions = s.sessions ∧ (State.noteGap s p).grants = s.grants ∧ (State.noteGap s p).fabricSeq = s.fabricSeq ∧ (State.noteGap s p).mbxTurn = s.mbxTurn ∧ (State.noteGap s p).turns = s.turns ∧ (State.noteGap s p).accepted = s.accepted ∧ (State.noteGap s p).bus = s.bus ∧ (State.noteGap s p).freeTick = s.freeTick := by
  unfold State.noteGap
  try dsimp only
  (repeat' split) <;> simp

@[simp] theorem State.settleSeq_leaves (s : State) (p : Nat) :
    (State.settleSeq s p).pending = s.pending ∧ (State.settleSeq s p).wall = s.wall ∧ (State.settleSeq s p).time = s.time ∧ (State.settleSeq s p).board = s.board ∧ (State.settleSeq s p).tap = s.tap ∧ (State.settleSeq s p).power = s.power ∧ (State.settleSeq s p).clocks = s.clocks ∧ (State.settleSeq s p).thermal = s.thermal ∧ (State.settleSeq s p).straps = s.straps ∧ (State.settleSeq s p).boot = s.boot ∧ (State.settleSeq s p).flash = s.flash ∧ (State.settleSeq s p).fuses = s.fuses ∧ (State.settleSeq s p).security = s.security ∧ (State.settleSeq s p).models = s.models ∧ (State.settleSeq s p).dies = s.dies ∧ (State.settleSeq s p).faultyEdges = s.faultyEdges ∧ (State.settleSeq s p).cores = s.cores ∧ (State.settleSeq s p).feeders = s.feeders ∧ (State.settleSeq s p).memory = s.memory ∧ (State.settleSeq s p).lanes = s.lanes ∧ (State.settleSeq s p).guards = s.guards ∧ (State.settleSeq s p).smbOffset = s.smbOffset ∧ (State.settleSeq s p).owner = s.owner ∧ (State.settleSeq s p).log = s.log ∧ (State.settleSeq s p).cxl = s.cxl ∧ (State.settleSeq s p).sessions = s.sessions ∧ (State.settleSeq s p).grants = s.grants ∧ (State.settleSeq s p).fabricSeq = s.fabricSeq ∧ (State.settleSeq s p).mbxTurn = s.mbxTurn ∧ (State.settleSeq s p).turns = s.turns ∧ (State.settleSeq s p).accepted = s.accepted ∧ (State.settleSeq s p).bus = s.bus ∧ (State.settleSeq s p).freeTick = s.freeTick := by
  unfold State.settleSeq
  try dsimp only
  (repeat' split) <;> simp

@[simp] theorem State.accept_leaves (s : State) (p k : Nat) :
    (State.accept s p k).pending = s.pending ∧ (State.accept s p k).wall = s.wall ∧ (State.accept s p k).time = s.time ∧ (State.accept s p k).board = s.board ∧ (State.accept s p k).tap = s.tap ∧ (State.accept s p k).power = s.power ∧ (State.accept s p k).clocks = s.clocks ∧ (State.accept s p k).thermal = s.thermal ∧ (State.accept s p k).straps = s.straps ∧ (State.accept s p k).boot = s.boot ∧ (State.accept s p k).flash = s.flash ∧ (State.accept s p k).fuses = s.fuses ∧ (State.accept s p k).security = s.security ∧ (State.accept s p k).models = s.models ∧ (State.accept s p k).dies = s.dies ∧ (State.accept s p k).faultyEdges = s.faultyEdges ∧ (State.accept s p k).cores = s.cores ∧ (State.accept s p k).feeders = s.feeders ∧ (State.accept s p k).memory = s.memory ∧ (State.accept s p k).lanes = s.lanes ∧ (State.accept s p k).guards = s.guards ∧ (State.accept s p k).smbOffset = s.smbOffset ∧ (State.accept s p k).owner = s.owner ∧ (State.accept s p k).log = s.log ∧ (State.accept s p k).cxl = s.cxl ∧ (State.accept s p k).sessions = s.sessions ∧ (State.accept s p k).grants = s.grants ∧ (State.accept s p k).fabricSeq = s.fabricSeq ∧ (State.accept s p k).turns = s.turns ∧ (State.accept s p k).accepted = s.accepted ∧ (State.accept s p k).bus = s.bus ∧ (State.accept s p k).freeTick = s.freeTick := by
  unfold State.accept
  try dsimp only
  (repeat' split) <;> simp

@[simp] theorem State.loseVolatile_leaves (s : State) :
    (State.loseVolatile s).pending = s.pending ∧ (State.loseVolatile s).wall = s.wall ∧ (State.loseVolatile s).board = s.board ∧ (State.loseVolatile s).tap = s.tap ∧ (State.loseVolatile s).straps = s.straps ∧ (State.loseVolatile s).fuses = s.fuses ∧ (State.loseVolatile s).alertPending = s.alertPending ∧ (State.loseVolatile s).bus = s.bus ∧ (State.loseVolatile s).freeTick = s.freeTick := by
  unfold State.loseVolatile
  try dsimp only
  (repeat' split) <;> simp

@[simp] theorem State.recordStop_leaves (s : State) (reason cause : Nat) :
    (State.recordStop s reason cause).pending = s.pending ∧ (State.recordStop s reason cause).wall = s.wall ∧ (State.recordStop s reason cause).time = s.time ∧ (State.recordStop s reason cause).board = s.board ∧ (State.recordStop s reason cause).tap = s.tap ∧ (State.recordStop s reason cause).power = s.power ∧ (State.recordStop s reason cause).clocks = s.clocks ∧ (State.recordStop s reason cause).thermal = s.thermal ∧ (State.recordStop s reason cause).straps = s.straps ∧ (State.recordStop s reason cause).flash = s.flash ∧ (State.recordStop s reason cause).fuses = s.fuses ∧ (State.recordStop s reason cause).security = s.security ∧ (State.recordStop s reason cause).models = s.models ∧ (State.recordStop s reason cause).dies = s.dies ∧ (State.recordStop s reason cause).faultyEdges = s.faultyEdges ∧ (State.recordStop s reason cause).cores = s.cores ∧ (State.recordStop s reason cause).feeders = s.feeders ∧ (State.recordStop s reason cause).memory = s.memory ∧ (State.recordStop s reason cause).lanes = s.lanes ∧ (State.recordStop s reason cause).guards = s.guards ∧ (State.recordStop s reason cause).mbx = s.mbx ∧ (State.recordStop s reason cause).ports = s.ports ∧ (State.recordStop s reason cause).smbOffset = s.smbOffset ∧ (State.recordStop s reason cause).alertPending = s.alertPending ∧ (State.recordStop s reason cause).owner = s.owner ∧ (State.recordStop s reason cause).log = s.log ∧ (State.recordStop s reason cause).pcie = s.pcie ∧ (State.recordStop s reason cause).cxl = s.cxl ∧ (State.recordStop s reason cause).cascade = s.cascade ∧ (State.recordStop s reason cause).sessions = s.sessions ∧ (State.recordStop s reason cause).grants = s.grants ∧ (State.recordStop s reason cause).fabricSeq = s.fabricSeq ∧ (State.recordStop s reason cause).mbxTurn = s.mbxTurn ∧ (State.recordStop s reason cause).turns = s.turns ∧ (State.recordStop s reason cause).accepted = s.accepted ∧ (State.recordStop s reason cause).bus = s.bus ∧ (State.recordStop s reason cause).freeTick = s.freeTick := by
  unfold State.recordStop
  try dsimp only
  (repeat' split) <;> simp

@[simp] theorem State.railsOff_leaves (s : State) (reason : Nat) :
    (State.railsOff s reason).pending = s.pending ∧ (State.railsOff s reason).wall = s.wall ∧ (State.railsOff s reason).board = s.board ∧ (State.railsOff s reason).tap = s.tap ∧ (State.railsOff s reason).straps = s.straps ∧ (State.railsOff s reason).fuses = s.fuses ∧ (State.railsOff s reason).alertPending = s.alertPending ∧ (State.railsOff s reason).bus = s.bus ∧ (State.railsOff s reason).freeTick = s.freeTick := by
  unfold State.railsOff
  try dsimp only
  (repeat' split) <;> simp

@[simp] theorem State.hubFault_leaves (s : State) (cause : Nat) :
    (State.hubFault s cause).pending = s.pending ∧ (State.hubFault s cause).wall = s.wall ∧ (State.hubFault s cause).board = s.board ∧ (State.hubFault s cause).tap = s.tap ∧ (State.hubFault s cause).straps = s.straps ∧ (State.hubFault s cause).fuses = s.fuses ∧ (State.hubFault s cause).bus = s.bus ∧ (State.hubFault s cause).freeTick = s.freeTick := by
  unfold State.hubFault
  try dsimp only
  (repeat' split) <;> simp

/-! ### Banks -/

@[simp] theorem State.settleBank_leaves (s : State) (d c b : Nat) :
    (State.settleBank s d c b).pending = s.pending ∧ (State.settleBank s d c b).wall = s.wall ∧ (State.settleBank s d c b).time = s.time ∧ (State.settleBank s d c b).board = s.board ∧ (State.settleBank s d c b).tap = s.tap ∧ (State.settleBank s d c b).power = s.power ∧ (State.settleBank s d c b).clocks = s.clocks ∧ (State.settleBank s d c b).thermal = s.thermal ∧ (State.settleBank s d c b).straps = s.straps ∧ (State.settleBank s d c b).boot = s.boot ∧ (State.settleBank s d c b).flash = s.flash ∧ (State.settleBank s d c b).fuses = s.fuses ∧ (State.settleBank s d c b).security = s.security ∧ (State.settleBank s d c b).models = s.models ∧ (State.settleBank s d c b).dies = s.dies ∧ (State.settleBank s d c b).faultyEdges = s.faultyEdges ∧ (State.settleBank s d c b).feeders = s.feeders ∧ (State.settleBank s d c b).memory = s.memory ∧ (State.settleBank s d c b).lanes = s.lanes ∧ (State.settleBank s d c b).guards = s.guards ∧ (State.settleBank s d c b).mbx = s.mbx ∧ (State.settleBank s d c b).ports = s.ports ∧ (State.settleBank s d c b).smbOffset = s.smbOffset ∧ (State.settleBank s d c b).alertPending = s.alertPending ∧ (State.settleBank s d c b).owner = s.owner ∧ (State.settleBank s d c b).log = s.log ∧ (State.settleBank s d c b).pcie = s.pcie ∧ (State.settleBank s d c b).cxl = s.cxl ∧ (State.settleBank s d c b).cascade = s.cascade ∧ (State.settleBank s d c b).sessions = s.sessions ∧ (State.settleBank s d c b).grants = s.grants ∧ (State.settleBank s d c b).fabricSeq = s.fabricSeq ∧ (State.settleBank s d c b).mbxTurn = s.mbxTurn ∧ (State.settleBank s d c b).turns = s.turns ∧ (State.settleBank s d c b).accepted = s.accepted ∧ (State.settleBank s d c b).bus = s.bus ∧ (State.settleBank s d c b).freeTick = s.freeTick := by
  unfold State.settleBank
  try dsimp only
  (repeat' split) <;> simp

@[simp] theorem State.giveBank_leaves (s : State) (d c b own : Nat) :
    (State.giveBank s d c b own).pending = s.pending ∧ (State.giveBank s d c b own).wall = s.wall ∧ (State.giveBank s d c b own).time = s.time ∧ (State.giveBank s d c b own).board = s.board ∧ (State.giveBank s d c b own).tap = s.tap ∧ (State.giveBank s d c b own).power = s.power ∧ (State.giveBank s d c b own).clocks = s.clocks ∧ (State.giveBank s d c b own).thermal = s.thermal ∧ (State.giveBank s d c b own).straps = s.straps ∧ (State.giveBank s d c b own).boot = s.boot ∧ (State.giveBank s d c b own).flash = s.flash ∧ (State.giveBank s d c b own).fuses = s.fuses ∧ (State.giveBank s d c b own).security = s.security ∧ (State.giveBank s d c b own).models = s.models ∧ (State.giveBank s d c b own).dies = s.dies ∧ (State.giveBank s d c b own).faultyEdges = s.faultyEdges ∧ (State.giveBank s d c b own).feeders = s.feeders ∧ (State.giveBank s d c b own).memory = s.memory ∧ (State.giveBank s d c b own).lanes = s.lanes ∧ (State.giveBank s d c b own).guards = s.guards ∧ (State.giveBank s d c b own).mbx = s.mbx ∧ (State.giveBank s d c b own).ports = s.ports ∧ (State.giveBank s d c b own).smbOffset = s.smbOffset ∧ (State.giveBank s d c b own).alertPending = s.alertPending ∧ (State.giveBank s d c b own).owner = s.owner ∧ (State.giveBank s d c b own).log = s.log ∧ (State.giveBank s d c b own).pcie = s.pcie ∧ (State.giveBank s d c b own).cxl = s.cxl ∧ (State.giveBank s d c b own).cascade = s.cascade ∧ (State.giveBank s d c b own).sessions = s.sessions ∧ (State.giveBank s d c b own).grants = s.grants ∧ (State.giveBank s d c b own).fabricSeq = s.fabricSeq ∧ (State.giveBank s d c b own).mbxTurn = s.mbxTurn ∧ (State.giveBank s d c b own).turns = s.turns ∧ (State.giveBank s d c b own).accepted = s.accepted ∧ (State.giveBank s d c b own).bus = s.bus ∧ (State.giveBank s d c b own).freeTick = s.freeTick := by
  unfold State.giveBank
  try dsimp only
  (repeat' split) <;> simp

/-! ### SessionOps -/

@[simp] theorem State.notify_leaves (s : State) (i : Nat) :
    (State.notify s i).pending = s.pending ∧ (State.notify s i).wall = s.wall ∧ (State.notify s i).time = s.time ∧ (State.notify s i).board = s.board ∧ (State.notify s i).tap = s.tap ∧ (State.notify s i).power = s.power ∧ (State.notify s i).clocks = s.clocks ∧ (State.notify s i).thermal = s.thermal ∧ (State.notify s i).straps = s.straps ∧ (State.notify s i).boot = s.boot ∧ (State.notify s i).flash = s.flash ∧ (State.notify s i).fuses = s.fuses ∧ (State.notify s i).security = s.security ∧ (State.notify s i).models = s.models ∧ (State.notify s i).dies = s.dies ∧ (State.notify s i).faultyEdges = s.faultyEdges ∧ (State.notify s i).cores = s.cores ∧ (State.notify s i).feeders = s.feeders ∧ (State.notify s i).memory = s.memory ∧ (State.notify s i).lanes = s.lanes ∧ (State.notify s i).guards = s.guards ∧ (State.notify s i).mbx = s.mbx ∧ (State.notify s i).ports = s.ports ∧ (State.notify s i).smbOffset = s.smbOffset ∧ (State.notify s i).owner = s.owner ∧ (State.notify s i).log = s.log ∧ (State.notify s i).cxl = s.cxl ∧ (State.notify s i).sessions = s.sessions ∧ (State.notify s i).grants = s.grants ∧ (State.notify s i).fabricSeq = s.fabricSeq ∧ (State.notify s i).mbxTurn = s.mbxTurn ∧ (State.notify s i).turns = s.turns ∧ (State.notify s i).accepted = s.accepted ∧ (State.notify s i).bus = s.bus ∧ (State.notify s i).freeTick = s.freeTick := by
  unfold State.notify
  try dsimp only
  (repeat' split) <;> simp

@[simp] theorem State.signalSession_leaves (s : State) (i : Nat) :
    (State.signalSession s i).pending = s.pending ∧ (State.signalSession s i).wall = s.wall ∧ (State.signalSession s i).time = s.time ∧ (State.signalSession s i).board = s.board ∧ (State.signalSession s i).tap = s.tap ∧ (State.signalSession s i).power = s.power ∧ (State.signalSession s i).clocks = s.clocks ∧ (State.signalSession s i).thermal = s.thermal ∧ (State.signalSession s i).straps = s.straps ∧ (State.signalSession s i).boot = s.boot ∧ (State.signalSession s i).flash = s.flash ∧ (State.signalSession s i).fuses = s.fuses ∧ (State.signalSession s i).security = s.security ∧ (State.signalSession s i).models = s.models ∧ (State.signalSession s i).dies = s.dies ∧ (State.signalSession s i).faultyEdges = s.faultyEdges ∧ (State.signalSession s i).cores = s.cores ∧ (State.signalSession s i).feeders = s.feeders ∧ (State.signalSession s i).memory = s.memory ∧ (State.signalSession s i).lanes = s.lanes ∧ (State.signalSession s i).guards = s.guards ∧ (State.signalSession s i).mbx = s.mbx ∧ (State.signalSession s i).ports = s.ports ∧ (State.signalSession s i).smbOffset = s.smbOffset ∧ (State.signalSession s i).owner = s.owner ∧ (State.signalSession s i).log = s.log ∧ (State.signalSession s i).cxl = s.cxl ∧ (State.signalSession s i).grants = s.grants ∧ (State.signalSession s i).fabricSeq = s.fabricSeq ∧ (State.signalSession s i).mbxTurn = s.mbxTurn ∧ (State.signalSession s i).turns = s.turns ∧ (State.signalSession s i).accepted = s.accepted ∧ (State.signalSession s i).bus = s.bus ∧ (State.signalSession s i).freeTick = s.freeTick := by
  unfold State.signalSession
  try dsimp only
  (repeat' split) <;> simp

@[simp] theorem State.refreshWindow_leaves (s : State) (i : Nat) :
    (State.refreshWindow s i).pending = s.pending ∧ (State.refreshWindow s i).wall = s.wall ∧ (State.refreshWindow s i).time = s.time ∧ (State.refreshWindow s i).board = s.board ∧ (State.refreshWindow s i).tap = s.tap ∧ (State.refreshWindow s i).power = s.power ∧ (State.refreshWindow s i).clocks = s.clocks ∧ (State.refreshWindow s i).thermal = s.thermal ∧ (State.refreshWindow s i).straps = s.straps ∧ (State.refreshWindow s i).boot = s.boot ∧ (State.refreshWindow s i).flash = s.flash ∧ (State.refreshWindow s i).fuses = s.fuses ∧ (State.refreshWindow s i).security = s.security ∧ (State.refreshWindow s i).models = s.models ∧ (State.refreshWindow s i).dies = s.dies ∧ (State.refreshWindow s i).faultyEdges = s.faultyEdges ∧ (State.refreshWindow s i).cores = s.cores ∧ (State.refreshWindow s i).feeders = s.feeders ∧ (State.refreshWindow s i).memory = s.memory ∧ (State.refreshWindow s i).lanes = s.lanes ∧ (State.refreshWindow s i).guards = s.guards ∧ (State.refreshWindow s i).mbx = s.mbx ∧ (State.refreshWindow s i).ports = s.ports ∧ (State.refreshWindow s i).smbOffset = s.smbOffset ∧ (State.refreshWindow s i).alertPending = s.alertPending ∧ (State.refreshWindow s i).owner = s.owner ∧ (State.refreshWindow s i).log = s.log ∧ (State.refreshWindow s i).pcie = s.pcie ∧ (State.refreshWindow s i).cxl = s.cxl ∧ (State.refreshWindow s i).cascade = s.cascade ∧ (State.refreshWindow s i).grants = s.grants ∧ (State.refreshWindow s i).fabricSeq = s.fabricSeq ∧ (State.refreshWindow s i).mbxTurn = s.mbxTurn ∧ (State.refreshWindow s i).turns = s.turns ∧ (State.refreshWindow s i).accepted = s.accepted ∧ (State.refreshWindow s i).bus = s.bus ∧ (State.refreshWindow s i).freeTick = s.freeTick := by
  unfold State.refreshWindow
  try dsimp only
  (repeat' split) <;> simp

@[simp] theorem State.writeEntry_leaves (s : State) (i : Nat) (e : RingEntry) :
    (State.writeEntry s i e).pending = s.pending ∧ (State.writeEntry s i e).wall = s.wall ∧ (State.writeEntry s i e).time = s.time ∧ (State.writeEntry s i e).board = s.board ∧ (State.writeEntry s i e).tap = s.tap ∧ (State.writeEntry s i e).power = s.power ∧ (State.writeEntry s i e).clocks = s.clocks ∧ (State.writeEntry s i e).thermal = s.thermal ∧ (State.writeEntry s i e).straps = s.straps ∧ (State.writeEntry s i e).boot = s.boot ∧ (State.writeEntry s i e).flash = s.flash ∧ (State.writeEntry s i e).fuses = s.fuses ∧ (State.writeEntry s i e).security = s.security ∧ (State.writeEntry s i e).models = s.models ∧ (State.writeEntry s i e).dies = s.dies ∧ (State.writeEntry s i e).faultyEdges = s.faultyEdges ∧ (State.writeEntry s i e).cores = s.cores ∧ (State.writeEntry s i e).feeders = s.feeders ∧ (State.writeEntry s i e).lanes = s.lanes ∧ (State.writeEntry s i e).guards = s.guards ∧ (State.writeEntry s i e).mbx = s.mbx ∧ (State.writeEntry s i e).ports = s.ports ∧ (State.writeEntry s i e).smbOffset = s.smbOffset ∧ (State.writeEntry s i e).owner = s.owner ∧ (State.writeEntry s i e).log = s.log ∧ (State.writeEntry s i e).cxl = s.cxl ∧ (State.writeEntry s i e).grants = s.grants ∧ (State.writeEntry s i e).fabricSeq = s.fabricSeq ∧ (State.writeEntry s i e).mbxTurn = s.mbxTurn ∧ (State.writeEntry s i e).turns = s.turns ∧ (State.writeEntry s i e).accepted = s.accepted ∧ (State.writeEntry s i e).bus = s.bus ∧ (State.writeEntry s i e).freeTick = s.freeTick := by
  unfold State.writeEntry
  try dsimp only
  (repeat' split) <;> simp

@[simp] theorem State.recordStall_leaves (s : State) (i : Nat) :
    (State.recordStall s i).pending = s.pending ∧ (State.recordStall s i).wall = s.wall ∧ (State.recordStall s i).time = s.time ∧ (State.recordStall s i).board = s.board ∧ (State.recordStall s i).tap = s.tap ∧ (State.recordStall s i).power = s.power ∧ (State.recordStall s i).clocks = s.clocks ∧ (State.recordStall s i).thermal = s.thermal ∧ (State.recordStall s i).straps = s.straps ∧ (State.recordStall s i).boot = s.boot ∧ (State.recordStall s i).flash = s.flash ∧ (State.recordStall s i).fuses = s.fuses ∧ (State.recordStall s i).security = s.security ∧ (State.recordStall s i).models = s.models ∧ (State.recordStall s i).faultyEdges = s.faultyEdges ∧ (State.recordStall s i).cores = s.cores ∧ (State.recordStall s i).feeders = s.feeders ∧ (State.recordStall s i).memory = s.memory ∧ (State.recordStall s i).lanes = s.lanes ∧ (State.recordStall s i).guards = s.guards ∧ (State.recordStall s i).mbx = s.mbx ∧ (State.recordStall s i).ports = s.ports ∧ (State.recordStall s i).smbOffset = s.smbOffset ∧ (State.recordStall s i).alertPending = s.alertPending ∧ (State.recordStall s i).owner = s.owner ∧ (State.recordStall s i).pcie = s.pcie ∧ (State.recordStall s i).cxl = s.cxl ∧ (State.recordStall s i).cascade = s.cascade ∧ (State.recordStall s i).grants = s.grants ∧ (State.recordStall s i).fabricSeq = s.fabricSeq ∧ (State.recordStall s i).mbxTurn = s.mbxTurn ∧ (State.recordStall s i).turns = s.turns ∧ (State.recordStall s i).accepted = s.accepted ∧ (State.recordStall s i).bus = s.bus ∧ (State.recordStall s i).freeTick = s.freeTick := by
  unfold State.recordStall
  try dsimp only
  (repeat' split) <;> simp

@[simp] theorem State.ringPut_leaves (s : State) (i type : Nat) (rec : Bytes) :
    (State.ringPut s i type rec).pending = s.pending ∧ (State.ringPut s i type rec).wall = s.wall ∧ (State.ringPut s i type rec).time = s.time ∧ (State.ringPut s i type rec).board = s.board ∧ (State.ringPut s i type rec).tap = s.tap ∧ (State.ringPut s i type rec).power = s.power ∧ (State.ringPut s i type rec).clocks = s.clocks ∧ (State.ringPut s i type rec).thermal = s.thermal ∧ (State.ringPut s i type rec).straps = s.straps ∧ (State.ringPut s i type rec).boot = s.boot ∧ (State.ringPut s i type rec).flash = s.flash ∧ (State.ringPut s i type rec).fuses = s.fuses ∧ (State.ringPut s i type rec).security = s.security ∧ (State.ringPut s i type rec).models = s.models ∧ (State.ringPut s i type rec).faultyEdges = s.faultyEdges ∧ (State.ringPut s i type rec).cores = s.cores ∧ (State.ringPut s i type rec).feeders = s.feeders ∧ (State.ringPut s i type rec).lanes = s.lanes ∧ (State.ringPut s i type rec).guards = s.guards ∧ (State.ringPut s i type rec).mbx = s.mbx ∧ (State.ringPut s i type rec).ports = s.ports ∧ (State.ringPut s i type rec).smbOffset = s.smbOffset ∧ (State.ringPut s i type rec).owner = s.owner ∧ (State.ringPut s i type rec).cxl = s.cxl ∧ (State.ringPut s i type rec).grants = s.grants ∧ (State.ringPut s i type rec).fabricSeq = s.fabricSeq ∧ (State.ringPut s i type rec).mbxTurn = s.mbxTurn ∧ (State.ringPut s i type rec).turns = s.turns ∧ (State.ringPut s i type rec).accepted = s.accepted ∧ (State.ringPut s i type rec).bus = s.bus ∧ (State.ringPut s i type rec).freeTick = s.freeTick := by
  unfold State.ringPut
  try dsimp only
  (repeat' split) <;> simp

@[simp] theorem State.outWriteBytes_leaves (s : State) (i pos : Nat) (bs : Bytes) :
    (State.outWriteBytes s i pos bs).pending = s.pending ∧ (State.outWriteBytes s i pos bs).wall = s.wall ∧ (State.outWriteBytes s i pos bs).time = s.time ∧ (State.outWriteBytes s i pos bs).board = s.board ∧ (State.outWriteBytes s i pos bs).tap = s.tap ∧ (State.outWriteBytes s i pos bs).power = s.power ∧ (State.outWriteBytes s i pos bs).clocks = s.clocks ∧ (State.outWriteBytes s i pos bs).thermal = s.thermal ∧ (State.outWriteBytes s i pos bs).straps = s.straps ∧ (State.outWriteBytes s i pos bs).boot = s.boot ∧ (State.outWriteBytes s i pos bs).flash = s.flash ∧ (State.outWriteBytes s i pos bs).fuses = s.fuses ∧ (State.outWriteBytes s i pos bs).security = s.security ∧ (State.outWriteBytes s i pos bs).models = s.models ∧ (State.outWriteBytes s i pos bs).dies = s.dies ∧ (State.outWriteBytes s i pos bs).faultyEdges = s.faultyEdges ∧ (State.outWriteBytes s i pos bs).cores = s.cores ∧ (State.outWriteBytes s i pos bs).feeders = s.feeders ∧ (State.outWriteBytes s i pos bs).lanes = s.lanes ∧ (State.outWriteBytes s i pos bs).guards = s.guards ∧ (State.outWriteBytes s i pos bs).mbx = s.mbx ∧ (State.outWriteBytes s i pos bs).ports = s.ports ∧ (State.outWriteBytes s i pos bs).smbOffset = s.smbOffset ∧ (State.outWriteBytes s i pos bs).alertPending = s.alertPending ∧ (State.outWriteBytes s i pos bs).owner = s.owner ∧ (State.outWriteBytes s i pos bs).log = s.log ∧ (State.outWriteBytes s i pos bs).pcie = s.pcie ∧ (State.outWriteBytes s i pos bs).cxl = s.cxl ∧ (State.outWriteBytes s i pos bs).cascade = s.cascade ∧ (State.outWriteBytes s i pos bs).sessions = s.sessions ∧ (State.outWriteBytes s i pos bs).grants = s.grants ∧ (State.outWriteBytes s i pos bs).fabricSeq = s.fabricSeq ∧ (State.outWriteBytes s i pos bs).mbxTurn = s.mbxTurn ∧ (State.outWriteBytes s i pos bs).turns = s.turns ∧ (State.outWriteBytes s i pos bs).accepted = s.accepted ∧ (State.outWriteBytes s i pos bs).bus = s.bus ∧ (State.outWriteBytes s i pos bs).freeTick = s.freeTick := by
  unfold State.outWriteBytes
  try dsimp only
  (repeat' split) <;> simp

@[simp] theorem State.watchRing_leaves (s : State) (i : Nat) :
    (State.watchRing s i).pending = s.pending ∧ (State.watchRing s i).wall = s.wall ∧ (State.watchRing s i).time = s.time ∧ (State.watchRing s i).board = s.board ∧ (State.watchRing s i).tap = s.tap ∧ (State.watchRing s i).power = s.power ∧ (State.watchRing s i).clocks = s.clocks ∧ (State.watchRing s i).thermal = s.thermal ∧ (State.watchRing s i).straps = s.straps ∧ (State.watchRing s i).boot = s.boot ∧ (State.watchRing s i).flash = s.flash ∧ (State.watchRing s i).fuses = s.fuses ∧ (State.watchRing s i).security = s.security ∧ (State.watchRing s i).models = s.models ∧ (State.watchRing s i).dies = s.dies ∧ (State.watchRing s i).faultyEdges = s.faultyEdges ∧ (State.watchRing s i).cores = s.cores ∧ (State.watchRing s i).feeders = s.feeders ∧ (State.watchRing s i).memory = s.memory ∧ (State.watchRing s i).lanes = s.lanes ∧ (State.watchRing s i).guards = s.guards ∧ (State.watchRing s i).mbx = s.mbx ∧ (State.watchRing s i).ports = s.ports ∧ (State.watchRing s i).smbOffset = s.smbOffset ∧ (State.watchRing s i).alertPending = s.alertPending ∧ (State.watchRing s i).owner = s.owner ∧ (State.watchRing s i).log = s.log ∧ (State.watchRing s i).pcie = s.pcie ∧ (State.watchRing s i).cxl = s.cxl ∧ (State.watchRing s i).cascade = s.cascade ∧ (State.watchRing s i).grants = s.grants ∧ (State.watchRing s i).fabricSeq = s.fabricSeq ∧ (State.watchRing s i).mbxTurn = s.mbxTurn ∧ (State.watchRing s i).turns = s.turns ∧ (State.watchRing s i).accepted = s.accepted ∧ (State.watchRing s i).bus = s.bus ∧ (State.watchRing s i).freeTick = s.freeTick := by
  unfold State.watchRing
  try dsimp only
  (repeat' split) <;> simp

@[simp] theorem State.flushOutput_leaves (n i : Nat) (s : State) :
    (State.flushOutput n i s).pending = s.pending ∧ (State.flushOutput n i s).wall = s.wall ∧ (State.flushOutput n i s).time = s.time ∧ (State.flushOutput n i s).board = s.board ∧ (State.flushOutput n i s).tap = s.tap ∧ (State.flushOutput n i s).power = s.power ∧ (State.flushOutput n i s).clocks = s.clocks ∧ (State.flushOutput n i s).thermal = s.thermal ∧ (State.flushOutput n i s).straps = s.straps ∧ (State.flushOutput n i s).boot = s.boot ∧ (State.flushOutput n i s).flash = s.flash ∧ (State.flushOutput n i s).fuses = s.fuses ∧ (State.flushOutput n i s).security = s.security ∧ (State.flushOutput n i s).models = s.models ∧ (State.flushOutput n i s).dies = s.dies ∧ (State.flushOutput n i s).faultyEdges = s.faultyEdges ∧ (State.flushOutput n i s).cores = s.cores ∧ (State.flushOutput n i s).feeders = s.feeders ∧ (State.flushOutput n i s).lanes = s.lanes ∧ (State.flushOutput n i s).guards = s.guards ∧ (State.flushOutput n i s).mbx = s.mbx ∧ (State.flushOutput n i s).ports = s.ports ∧ (State.flushOutput n i s).smbOffset = s.smbOffset ∧ (State.flushOutput n i s).owner = s.owner ∧ (State.flushOutput n i s).log = s.log ∧ (State.flushOutput n i s).cxl = s.cxl ∧ (State.flushOutput n i s).grants = s.grants ∧ (State.flushOutput n i s).fabricSeq = s.fabricSeq ∧ (State.flushOutput n i s).mbxTurn = s.mbxTurn ∧ (State.flushOutput n i s).turns = s.turns ∧ (State.flushOutput n i s).accepted = s.accepted ∧ (State.flushOutput n i s).bus = s.bus ∧ (State.flushOutput n i s).freeTick = s.freeTick := by
  induction n generalizing s with
  | zero => simp [State.flushOutput]
  | succ n ih =>
    unfold State.flushOutput
    try dsimp only
    (repeat' split) <;> simp [ih]

@[simp] theorem State.flushRecords_leaves (n i : Nat) (s : State) :
    (State.flushRecords n i s).pending = s.pending ∧ (State.flushRecords n i s).wall = s.wall ∧ (State.flushRecords n i s).time = s.time ∧ (State.flushRecords n i s).board = s.board ∧ (State.flushRecords n i s).tap = s.tap ∧ (State.flushRecords n i s).power = s.power ∧ (State.flushRecords n i s).clocks = s.clocks ∧ (State.flushRecords n i s).thermal = s.thermal ∧ (State.flushRecords n i s).straps = s.straps ∧ (State.flushRecords n i s).boot = s.boot ∧ (State.flushRecords n i s).flash = s.flash ∧ (State.flushRecords n i s).fuses = s.fuses ∧ (State.flushRecords n i s).security = s.security ∧ (State.flushRecords n i s).models = s.models ∧ (State.flushRecords n i s).dies = s.dies ∧ (State.flushRecords n i s).faultyEdges = s.faultyEdges ∧ (State.flushRecords n i s).cores = s.cores ∧ (State.flushRecords n i s).feeders = s.feeders ∧ (State.flushRecords n i s).lanes = s.lanes ∧ (State.flushRecords n i s).guards = s.guards ∧ (State.flushRecords n i s).mbx = s.mbx ∧ (State.flushRecords n i s).ports = s.ports ∧ (State.flushRecords n i s).smbOffset = s.smbOffset ∧ (State.flushRecords n i s).owner = s.owner ∧ (State.flushRecords n i s).log = s.log ∧ (State.flushRecords n i s).cxl = s.cxl ∧ (State.flushRecords n i s).grants = s.grants ∧ (State.flushRecords n i s).fabricSeq = s.fabricSeq ∧ (State.flushRecords n i s).mbxTurn = s.mbxTurn ∧ (State.flushRecords n i s).turns = s.turns ∧ (State.flushRecords n i s).accepted = s.accepted ∧ (State.flushRecords n i s).bus = s.bus ∧ (State.flushRecords n i s).freeTick = s.freeTick := by
  induction n generalizing s with
  | zero => simp [State.flushRecords]
  | succ n ih =>
    unfold State.flushRecords
    try dsimp only
    (repeat' split) <;> simp [ih]

@[simp] theorem State.outPut_leaves (s : State) (i pos : Nat) (bs : Bytes) :
    (State.outPut s i pos bs).pending = s.pending ∧ (State.outPut s i pos bs).wall = s.wall ∧ (State.outPut s i pos bs).time = s.time ∧ (State.outPut s i pos bs).board = s.board ∧ (State.outPut s i pos bs).tap = s.tap ∧ (State.outPut s i pos bs).power = s.power ∧ (State.outPut s i pos bs).clocks = s.clocks ∧ (State.outPut s i pos bs).thermal = s.thermal ∧ (State.outPut s i pos bs).straps = s.straps ∧ (State.outPut s i pos bs).boot = s.boot ∧ (State.outPut s i pos bs).flash = s.flash ∧ (State.outPut s i pos bs).fuses = s.fuses ∧ (State.outPut s i pos bs).security = s.security ∧ (State.outPut s i pos bs).models = s.models ∧ (State.outPut s i pos bs).dies = s.dies ∧ (State.outPut s i pos bs).faultyEdges = s.faultyEdges ∧ (State.outPut s i pos bs).cores = s.cores ∧ (State.outPut s i pos bs).feeders = s.feeders ∧ (State.outPut s i pos bs).lanes = s.lanes ∧ (State.outPut s i pos bs).guards = s.guards ∧ (State.outPut s i pos bs).mbx = s.mbx ∧ (State.outPut s i pos bs).ports = s.ports ∧ (State.outPut s i pos bs).smbOffset = s.smbOffset ∧ (State.outPut s i pos bs).owner = s.owner ∧ (State.outPut s i pos bs).log = s.log ∧ (State.outPut s i pos bs).cxl = s.cxl ∧ (State.outPut s i pos bs).grants = s.grants ∧ (State.outPut s i pos bs).fabricSeq = s.fabricSeq ∧ (State.outPut s i pos bs).mbxTurn = s.mbxTurn ∧ (State.outPut s i pos bs).turns = s.turns ∧ (State.outPut s i pos bs).accepted = s.accepted ∧ (State.outPut s i pos bs).bus = s.bus ∧ (State.outPut s i pos bs).freeTick = s.freeTick := by
  unfold State.outPut
  try dsimp only
  (repeat' split) <;> simp

@[simp] theorem State.flushRings_leaves (s : State) :
    (State.flushRings s).pending = s.pending ∧ (State.flushRings s).wall = s.wall ∧ (State.flushRings s).time = s.time ∧ (State.flushRings s).board = s.board ∧ (State.flushRings s).tap = s.tap ∧ (State.flushRings s).power = s.power ∧ (State.flushRings s).clocks = s.clocks ∧ (State.flushRings s).thermal = s.thermal ∧ (State.flushRings s).straps = s.straps ∧ (State.flushRings s).boot = s.boot ∧ (State.flushRings s).flash = s.flash ∧ (State.flushRings s).fuses = s.fuses ∧ (State.flushRings s).security = s.security ∧ (State.flushRings s).models = s.models ∧ (State.flushRings s).dies = s.dies ∧ (State.flushRings s).faultyEdges = s.faultyEdges ∧ (State.flushRings s).cores = s.cores ∧ (State.flushRings s).feeders = s.feeders ∧ (State.flushRings s).lanes = s.lanes ∧ (State.flushRings s).guards = s.guards ∧ (State.flushRings s).mbx = s.mbx ∧ (State.flushRings s).ports = s.ports ∧ (State.flushRings s).smbOffset = s.smbOffset ∧ (State.flushRings s).owner = s.owner ∧ (State.flushRings s).log = s.log ∧ (State.flushRings s).cxl = s.cxl ∧ (State.flushRings s).grants = s.grants ∧ (State.flushRings s).fabricSeq = s.fabricSeq ∧ (State.flushRings s).mbxTurn = s.mbxTurn ∧ (State.flushRings s).turns = s.turns ∧ (State.flushRings s).accepted = s.accepted ∧ (State.flushRings s).bus = s.bus ∧ (State.flushRings s).freeTick = s.freeTick := by
  unfold State.flushRings
  try dsimp only
  (repeat' split) <;> simp

@[simp] theorem State.setGrantQueue_leaves (s : State) (m : Nat) (q : List GrantReq) :
    (State.setGrantQueue s m q).pending = s.pending ∧ (State.setGrantQueue s m q).wall = s.wall ∧ (State.setGrantQueue s m q).time = s.time ∧ (State.setGrantQueue s m q).board = s.board ∧ (State.setGrantQueue s m q).tap = s.tap ∧ (State.setGrantQueue s m q).power = s.power ∧ (State.setGrantQueue s m q).clocks = s.clocks ∧ (State.setGrantQueue s m q).thermal = s.thermal ∧ (State.setGrantQueue s m q).straps = s.straps ∧ (State.setGrantQueue s m q).boot = s.boot ∧ (State.setGrantQueue s m q).flash = s.flash ∧ (State.setGrantQueue s m q).fuses = s.fuses ∧ (State.setGrantQueue s m q).security = s.security ∧ (State.setGrantQueue s m q).models = s.models ∧ (State.setGrantQueue s m q).dies = s.dies ∧ (State.setGrantQueue s m q).faultyEdges = s.faultyEdges ∧ (State.setGrantQueue s m q).cores = s.cores ∧ (State.setGrantQueue s m q).feeders = s.feeders ∧ (State.setGrantQueue s m q).memory = s.memory ∧ (State.setGrantQueue s m q).lanes = s.lanes ∧ (State.setGrantQueue s m q).guards = s.guards ∧ (State.setGrantQueue s m q).mbx = s.mbx ∧ (State.setGrantQueue s m q).ports = s.ports ∧ (State.setGrantQueue s m q).smbOffset = s.smbOffset ∧ (State.setGrantQueue s m q).alertPending = s.alertPending ∧ (State.setGrantQueue s m q).owner = s.owner ∧ (State.setGrantQueue s m q).log = s.log ∧ (State.setGrantQueue s m q).pcie = s.pcie ∧ (State.setGrantQueue s m q).cxl = s.cxl ∧ (State.setGrantQueue s m q).cascade = s.cascade ∧ (State.setGrantQueue s m q).sessions = s.sessions ∧ (State.setGrantQueue s m q).fabricSeq = s.fabricSeq ∧ (State.setGrantQueue s m q).mbxTurn = s.mbxTurn ∧ (State.setGrantQueue s m q).turns = s.turns ∧ (State.setGrantQueue s m q).accepted = s.accepted ∧ (State.setGrantQueue s m q).bus = s.bus ∧ (State.setGrantQueue s m q).freeTick = s.freeTick := by
  unfold State.setGrantQueue
  try dsimp only
  (repeat' split) <;> simp

@[simp] theorem State.dropGrants_leaves (s : State) (i : Nat) (order : Option Nat) :
    (State.dropGrants s i order).pending = s.pending ∧ (State.dropGrants s i order).wall = s.wall ∧ (State.dropGrants s i order).time = s.time ∧ (State.dropGrants s i order).board = s.board ∧ (State.dropGrants s i order).tap = s.tap ∧ (State.dropGrants s i order).power = s.power ∧ (State.dropGrants s i order).clocks = s.clocks ∧ (State.dropGrants s i order).thermal = s.thermal ∧ (State.dropGrants s i order).straps = s.straps ∧ (State.dropGrants s i order).boot = s.boot ∧ (State.dropGrants s i order).flash = s.flash ∧ (State.dropGrants s i order).fuses = s.fuses ∧ (State.dropGrants s i order).security = s.security ∧ (State.dropGrants s i order).models = s.models ∧ (State.dropGrants s i order).dies = s.dies ∧ (State.dropGrants s i order).faultyEdges = s.faultyEdges ∧ (State.dropGrants s i order).cores = s.cores ∧ (State.dropGrants s i order).feeders = s.feeders ∧ (State.dropGrants s i order).memory = s.memory ∧ (State.dropGrants s i order).lanes = s.lanes ∧ (State.dropGrants s i order).guards = s.guards ∧ (State.dropGrants s i order).mbx = s.mbx ∧ (State.dropGrants s i order).ports = s.ports ∧ (State.dropGrants s i order).smbOffset = s.smbOffset ∧ (State.dropGrants s i order).alertPending = s.alertPending ∧ (State.dropGrants s i order).owner = s.owner ∧ (State.dropGrants s i order).log = s.log ∧ (State.dropGrants s i order).pcie = s.pcie ∧ (State.dropGrants s i order).cxl = s.cxl ∧ (State.dropGrants s i order).cascade = s.cascade ∧ (State.dropGrants s i order).sessions = s.sessions ∧ (State.dropGrants s i order).fabricSeq = s.fabricSeq ∧ (State.dropGrants s i order).mbxTurn = s.mbxTurn ∧ (State.dropGrants s i order).turns = s.turns ∧ (State.dropGrants s i order).accepted = s.accepted ∧ (State.dropGrants s i order).bus = s.bus ∧ (State.dropGrants s i order).freeTick = s.freeTick := by
  unfold State.dropGrants
  try dsimp only
  (repeat' split) <;> simp

@[simp] theorem State.count_leaves (s : State) (i c n : Nat) :
    (State.count s i c n).pending = s.pending ∧ (State.count s i c n).wall = s.wall ∧ (State.count s i c n).time = s.time ∧ (State.count s i c n).board = s.board ∧ (State.count s i c n).tap = s.tap ∧ (State.count s i c n).power = s.power ∧ (State.count s i c n).clocks = s.clocks ∧ (State.count s i c n).thermal = s.thermal ∧ (State.count s i c n).straps = s.straps ∧ (State.count s i c n).boot = s.boot ∧ (State.count s i c n).flash = s.flash ∧ (State.count s i c n).fuses = s.fuses ∧ (State.count s i c n).security = s.security ∧ (State.count s i c n).models = s.models ∧ (State.count s i c n).dies = s.dies ∧ (State.count s i c n).faultyEdges = s.faultyEdges ∧ (State.count s i c n).cores = s.cores ∧ (State.count s i c n).feeders = s.feeders ∧ (State.count s i c n).memory = s.memory ∧ (State.count s i c n).lanes = s.lanes ∧ (State.count s i c n).guards = s.guards ∧ (State.count s i c n).mbx = s.mbx ∧ (State.count s i c n).ports = s.ports ∧ (State.count s i c n).smbOffset = s.smbOffset ∧ (State.count s i c n).alertPending = s.alertPending ∧ (State.count s i c n).owner = s.owner ∧ (State.count s i c n).log = s.log ∧ (State.count s i c n).pcie = s.pcie ∧ (State.count s i c n).cxl = s.cxl ∧ (State.count s i c n).cascade = s.cascade ∧ (State.count s i c n).grants = s.grants ∧ (State.count s i c n).fabricSeq = s.fabricSeq ∧ (State.count s i c n).mbxTurn = s.mbxTurn ∧ (State.count s i c n).turns = s.turns ∧ (State.count s i c n).accepted = s.accepted ∧ (State.count s i c n).bus = s.bus ∧ (State.count s i c n).freeTick = s.freeTick := by
  unfold State.count
  try dsimp only
  (repeat' split) <;> simp

@[simp] theorem State.report_leaves (s : State) (i : Nat) (r : Report) :
    (State.report s i r).pending = s.pending ∧ (State.report s i r).wall = s.wall ∧ (State.report s i r).time = s.time ∧ (State.report s i r).board = s.board ∧ (State.report s i r).tap = s.tap ∧ (State.report s i r).power = s.power ∧ (State.report s i r).clocks = s.clocks ∧ (State.report s i r).thermal = s.thermal ∧ (State.report s i r).straps = s.straps ∧ (State.report s i r).boot = s.boot ∧ (State.report s i r).flash = s.flash ∧ (State.report s i r).fuses = s.fuses ∧ (State.report s i r).security = s.security ∧ (State.report s i r).models = s.models ∧ (State.report s i r).faultyEdges = s.faultyEdges ∧ (State.report s i r).cores = s.cores ∧ (State.report s i r).feeders = s.feeders ∧ (State.report s i r).lanes = s.lanes ∧ (State.report s i r).guards = s.guards ∧ (State.report s i r).mbx = s.mbx ∧ (State.report s i r).ports = s.ports ∧ (State.report s i r).smbOffset = s.smbOffset ∧ (State.report s i r).owner = s.owner ∧ (State.report s i r).cxl = s.cxl ∧ (State.report s i r).grants = s.grants ∧ (State.report s i r).fabricSeq = s.fabricSeq ∧ (State.report s i r).mbxTurn = s.mbxTurn ∧ (State.report s i r).turns = s.turns ∧ (State.report s i r).accepted = s.accepted ∧ (State.report s i r).bus = s.bus ∧ (State.report s i r).freeTick = s.freeTick := by
  unfold State.report
  try dsimp only
  (repeat' split) <;> simp

@[simp] theorem State.sessionEvent_leaves (s : State) (i cause die : Nat) :
    (State.sessionEvent s i cause die).pending = s.pending ∧ (State.sessionEvent s i cause die).wall = s.wall ∧ (State.sessionEvent s i cause die).time = s.time ∧ (State.sessionEvent s i cause die).board = s.board ∧ (State.sessionEvent s i cause die).tap = s.tap ∧ (State.sessionEvent s i cause die).power = s.power ∧ (State.sessionEvent s i cause die).clocks = s.clocks ∧ (State.sessionEvent s i cause die).thermal = s.thermal ∧ (State.sessionEvent s i cause die).straps = s.straps ∧ (State.sessionEvent s i cause die).boot = s.boot ∧ (State.sessionEvent s i cause die).flash = s.flash ∧ (State.sessionEvent s i cause die).fuses = s.fuses ∧ (State.sessionEvent s i cause die).security = s.security ∧ (State.sessionEvent s i cause die).models = s.models ∧ (State.sessionEvent s i cause die).faultyEdges = s.faultyEdges ∧ (State.sessionEvent s i cause die).cores = s.cores ∧ (State.sessionEvent s i cause die).feeders = s.feeders ∧ (State.sessionEvent s i cause die).lanes = s.lanes ∧ (State.sessionEvent s i cause die).guards = s.guards ∧ (State.sessionEvent s i cause die).mbx = s.mbx ∧ (State.sessionEvent s i cause die).ports = s.ports ∧ (State.sessionEvent s i cause die).smbOffset = s.smbOffset ∧ (State.sessionEvent s i cause die).owner = s.owner ∧ (State.sessionEvent s i cause die).cxl = s.cxl ∧ (State.sessionEvent s i cause die).grants = s.grants ∧ (State.sessionEvent s i cause die).fabricSeq = s.fabricSeq ∧ (State.sessionEvent s i cause die).mbxTurn = s.mbxTurn ∧ (State.sessionEvent s i cause die).turns = s.turns ∧ (State.sessionEvent s i cause die).accepted = s.accepted ∧ (State.sessionEvent s i cause die).bus = s.bus ∧ (State.sessionEvent s i cause die).freeTick = s.freeTick := by
  unfold State.sessionEvent
  try dsimp only
  (repeat' split) <;> simp

@[simp] theorem State.takeRecord_leaves (d c : Nat) (holder : Option Nat) (s : State) (r : Record) :
    (State.takeRecord d c holder s r).pending = s.pending ∧ (State.takeRecord d c holder s r).wall = s.wall ∧ (State.takeRecord d c holder s r).time = s.time ∧ (State.takeRecord d c holder s r).board = s.board ∧ (State.takeRecord d c holder s r).tap = s.tap ∧ (State.takeRecord d c holder s r).power = s.power ∧ (State.takeRecord d c holder s r).clocks = s.clocks ∧ (State.takeRecord d c holder s r).thermal = s.thermal ∧ (State.takeRecord d c holder s r).straps = s.straps ∧ (State.takeRecord d c holder s r).boot = s.boot ∧ (State.takeRecord d c holder s r).flash = s.flash ∧ (State.takeRecord d c holder s r).fuses = s.fuses ∧ (State.takeRecord d c holder s r).security = s.security ∧ (State.takeRecord d c holder s r).models = s.models ∧ (State.takeRecord d c holder s r).faultyEdges = s.faultyEdges ∧ (State.takeRecord d c holder s r).cores = s.cores ∧ (State.takeRecord d c holder s r).feeders = s.feeders ∧ (State.takeRecord d c holder s r).memory = s.memory ∧ (State.takeRecord d c holder s r).lanes = s.lanes ∧ (State.takeRecord d c holder s r).guards = s.guards ∧ (State.takeRecord d c holder s r).mbx = s.mbx ∧ (State.takeRecord d c holder s r).ports = s.ports ∧ (State.takeRecord d c holder s r).smbOffset = s.smbOffset ∧ (State.takeRecord d c holder s r).alertPending = s.alertPending ∧ (State.takeRecord d c holder s r).owner = s.owner ∧ (State.takeRecord d c holder s r).pcie = s.pcie ∧ (State.takeRecord d c holder s r).cxl = s.cxl ∧ (State.takeRecord d c holder s r).cascade = s.cascade ∧ (State.takeRecord d c holder s r).grants = s.grants ∧ (State.takeRecord d c holder s r).fabricSeq = s.fabricSeq ∧ (State.takeRecord d c holder s r).mbxTurn = s.mbxTurn ∧ (State.takeRecord d c holder s r).turns = s.turns ∧ (State.takeRecord d c holder s r).accepted = s.accepted ∧ (State.takeRecord d c holder s r).bus = s.bus ∧ (State.takeRecord d c holder s r).freeTick = s.freeTick := by
  unfold State.takeRecord
  try dsimp only
  (repeat' split) <;> simp

@[simp] theorem State.collect_leaves (s : State) (d c : Nat) :
    (State.collect s d c).pending = s.pending ∧ (State.collect s d c).wall = s.wall ∧ (State.collect s d c).time = s.time ∧ (State.collect s d c).board = s.board ∧ (State.collect s d c).tap = s.tap ∧ (State.collect s d c).power = s.power ∧ (State.collect s d c).clocks = s.clocks ∧ (State.collect s d c).thermal = s.thermal ∧ (State.collect s d c).straps = s.straps ∧ (State.collect s d c).boot = s.boot ∧ (State.collect s d c).flash = s.flash ∧ (State.collect s d c).fuses = s.fuses ∧ (State.collect s d c).security = s.security ∧ (State.collect s d c).models = s.models ∧ (State.collect s d c).faultyEdges = s.faultyEdges ∧ (State.collect s d c).feeders = s.feeders ∧ (State.collect s d c).memory = s.memory ∧ (State.collect s d c).lanes = s.lanes ∧ (State.collect s d c).guards = s.guards ∧ (State.collect s d c).mbx = s.mbx ∧ (State.collect s d c).ports = s.ports ∧ (State.collect s d c).smbOffset = s.smbOffset ∧ (State.collect s d c).alertPending = s.alertPending ∧ (State.collect s d c).owner = s.owner ∧ (State.collect s d c).pcie = s.pcie ∧ (State.collect s d c).cxl = s.cxl ∧ (State.collect s d c).cascade = s.cascade ∧ (State.collect s d c).grants = s.grants ∧ (State.collect s d c).fabricSeq = s.fabricSeq ∧ (State.collect s d c).mbxTurn = s.mbxTurn ∧ (State.collect s d c).turns = s.turns ∧ (State.collect s d c).accepted = s.accepted ∧ (State.collect s d c).bus = s.bus ∧ (State.collect s d c).freeTick = s.freeTick := by
  unfold State.collect
  try dsimp only
  (repeat' split) <;> simp

@[simp] theorem State.drainCore_leaves (s : State) (d c : Nat) :
    (State.drainCore s d c).pending = s.pending ∧ (State.drainCore s d c).wall = s.wall ∧ (State.drainCore s d c).time = s.time ∧ (State.drainCore s d c).board = s.board ∧ (State.drainCore s d c).tap = s.tap ∧ (State.drainCore s d c).power = s.power ∧ (State.drainCore s d c).clocks = s.clocks ∧ (State.drainCore s d c).thermal = s.thermal ∧ (State.drainCore s d c).straps = s.straps ∧ (State.drainCore s d c).boot = s.boot ∧ (State.drainCore s d c).flash = s.flash ∧ (State.drainCore s d c).fuses = s.fuses ∧ (State.drainCore s d c).security = s.security ∧ (State.drainCore s d c).models = s.models ∧ (State.drainCore s d c).dies = s.dies ∧ (State.drainCore s d c).faultyEdges = s.faultyEdges ∧ (State.drainCore s d c).feeders = s.feeders ∧ (State.drainCore s d c).memory = s.memory ∧ (State.drainCore s d c).lanes = s.lanes ∧ (State.drainCore s d c).guards = s.guards ∧ (State.drainCore s d c).mbx = s.mbx ∧ (State.drainCore s d c).ports = s.ports ∧ (State.drainCore s d c).smbOffset = s.smbOffset ∧ (State.drainCore s d c).alertPending = s.alertPending ∧ (State.drainCore s d c).owner = s.owner ∧ (State.drainCore s d c).log = s.log ∧ (State.drainCore s d c).pcie = s.pcie ∧ (State.drainCore s d c).cxl = s.cxl ∧ (State.drainCore s d c).cascade = s.cascade ∧ (State.drainCore s d c).sessions = s.sessions ∧ (State.drainCore s d c).grants = s.grants ∧ (State.drainCore s d c).fabricSeq = s.fabricSeq ∧ (State.drainCore s d c).mbxTurn = s.mbxTurn ∧ (State.drainCore s d c).turns = s.turns ∧ (State.drainCore s d c).accepted = s.accepted ∧ (State.drainCore s d c).bus = s.bus ∧ (State.drainCore s d c).freeTick = s.freeTick := by
  unfold State.drainCore
  try dsimp only
  (repeat' split) <;> simp

@[simp] theorem State.cancelCore_leaves (s : State) (d c : Nat) :
    (State.cancelCore s d c).pending = s.pending ∧ (State.cancelCore s d c).wall = s.wall ∧ (State.cancelCore s d c).time = s.time ∧ (State.cancelCore s d c).board = s.board ∧ (State.cancelCore s d c).tap = s.tap ∧ (State.cancelCore s d c).power = s.power ∧ (State.cancelCore s d c).clocks = s.clocks ∧ (State.cancelCore s d c).thermal = s.thermal ∧ (State.cancelCore s d c).straps = s.straps ∧ (State.cancelCore s d c).boot = s.boot ∧ (State.cancelCore s d c).flash = s.flash ∧ (State.cancelCore s d c).fuses = s.fuses ∧ (State.cancelCore s d c).security = s.security ∧ (State.cancelCore s d c).models = s.models ∧ (State.cancelCore s d c).faultyEdges = s.faultyEdges ∧ (State.cancelCore s d c).feeders = s.feeders ∧ (State.cancelCore s d c).memory = s.memory ∧ (State.cancelCore s d c).lanes = s.lanes ∧ (State.cancelCore s d c).guards = s.guards ∧ (State.cancelCore s d c).mbx = s.mbx ∧ (State.cancelCore s d c).ports = s.ports ∧ (State.cancelCore s d c).smbOffset = s.smbOffset ∧ (State.cancelCore s d c).alertPending = s.alertPending ∧ (State.cancelCore s d c).owner = s.owner ∧ (State.cancelCore s d c).pcie = s.pcie ∧ (State.cancelCore s d c).cxl = s.cxl ∧ (State.cancelCore s d c).cascade = s.cascade ∧ (State.cancelCore s d c).grants = s.grants ∧ (State.cancelCore s d c).fabricSeq = s.fabricSeq ∧ (State.cancelCore s d c).mbxTurn = s.mbxTurn ∧ (State.cancelCore s d c).turns = s.turns ∧ (State.cancelCore s d c).accepted = s.accepted ∧ (State.cancelCore s d c).bus = s.bus := by
  unfold State.cancelCore
  try dsimp only
  (repeat' split) <;> simp

@[simp] theorem State.cancelCores_leaves (s : State) (i : Nat) (cs : List (Nat × Nat)) :
    (State.cancelCores s i cs).pending = s.pending ∧ (State.cancelCores s i cs).wall = s.wall ∧ (State.cancelCores s i cs).time = s.time ∧ (State.cancelCores s i cs).board = s.board ∧ (State.cancelCores s i cs).tap = s.tap ∧ (State.cancelCores s i cs).power = s.power ∧ (State.cancelCores s i cs).clocks = s.clocks ∧ (State.cancelCores s i cs).thermal = s.thermal ∧ (State.cancelCores s i cs).straps = s.straps ∧ (State.cancelCores s i cs).boot = s.boot ∧ (State.cancelCores s i cs).flash = s.flash ∧ (State.cancelCores s i cs).fuses = s.fuses ∧ (State.cancelCores s i cs).security = s.security ∧ (State.cancelCores s i cs).models = s.models ∧ (State.cancelCores s i cs).faultyEdges = s.faultyEdges ∧ (State.cancelCores s i cs).feeders = s.feeders ∧ (State.cancelCores s i cs).memory = s.memory ∧ (State.cancelCores s i cs).lanes = s.lanes ∧ (State.cancelCores s i cs).guards = s.guards ∧ (State.cancelCores s i cs).mbx = s.mbx ∧ (State.cancelCores s i cs).ports = s.ports ∧ (State.cancelCores s i cs).smbOffset = s.smbOffset ∧ (State.cancelCores s i cs).alertPending = s.alertPending ∧ (State.cancelCores s i cs).owner = s.owner ∧ (State.cancelCores s i cs).pcie = s.pcie ∧ (State.cancelCores s i cs).cxl = s.cxl ∧ (State.cancelCores s i cs).cascade = s.cascade ∧ (State.cancelCores s i cs).grants = s.grants ∧ (State.cancelCores s i cs).fabricSeq = s.fabricSeq ∧ (State.cancelCores s i cs).mbxTurn = s.mbxTurn ∧ (State.cancelCores s i cs).turns = s.turns ∧ (State.cancelCores s i cs).accepted = s.accepted ∧ (State.cancelCores s i cs).bus = s.bus := by
  unfold State.cancelCores
  try dsimp only
  (repeat' split) <;> simp

@[simp] theorem State.dropUnits_leaves (s : State) (i : Nat) :
    (State.dropUnits s i).pending = s.pending ∧ (State.dropUnits s i).wall = s.wall ∧ (State.dropUnits s i).time = s.time ∧ (State.dropUnits s i).board = s.board ∧ (State.dropUnits s i).tap = s.tap ∧ (State.dropUnits s i).power = s.power ∧ (State.dropUnits s i).clocks = s.clocks ∧ (State.dropUnits s i).thermal = s.thermal ∧ (State.dropUnits s i).straps = s.straps ∧ (State.dropUnits s i).boot = s.boot ∧ (State.dropUnits s i).flash = s.flash ∧ (State.dropUnits s i).fuses = s.fuses ∧ (State.dropUnits s i).security = s.security ∧ (State.dropUnits s i).models = s.models ∧ (State.dropUnits s i).dies = s.dies ∧ (State.dropUnits s i).faultyEdges = s.faultyEdges ∧ (State.dropUnits s i).cores = s.cores ∧ (State.dropUnits s i).feeders = s.feeders ∧ (State.dropUnits s i).memory = s.memory ∧ (State.dropUnits s i).lanes = s.lanes ∧ (State.dropUnits s i).guards = s.guards ∧ (State.dropUnits s i).mbx = s.mbx ∧ (State.dropUnits s i).ports = s.ports ∧ (State.dropUnits s i).smbOffset = s.smbOffset ∧ (State.dropUnits s i).alertPending = s.alertPending ∧ (State.dropUnits s i).owner = s.owner ∧ (State.dropUnits s i).log = s.log ∧ (State.dropUnits s i).pcie = s.pcie ∧ (State.dropUnits s i).cxl = s.cxl ∧ (State.dropUnits s i).cascade = s.cascade ∧ (State.dropUnits s i).grants = s.grants ∧ (State.dropUnits s i).fabricSeq = s.fabricSeq ∧ (State.dropUnits s i).mbxTurn = s.mbxTurn ∧ (State.dropUnits s i).turns = s.turns ∧ (State.dropUnits s i).accepted = s.accepted ∧ (State.dropUnits s i).bus = s.bus ∧ (State.dropUnits s i).freeTick = s.freeTick := by
  unfold State.dropUnits
  try dsimp only
  (repeat' split) <;> simp

@[simp] theorem State.abandon_leaves (s : State) (i : Nat) :
    (State.abandon s i).pending = s.pending ∧ (State.abandon s i).wall = s.wall ∧ (State.abandon s i).time = s.time ∧ (State.abandon s i).board = s.board ∧ (State.abandon s i).tap = s.tap ∧ (State.abandon s i).power = s.power ∧ (State.abandon s i).clocks = s.clocks ∧ (State.abandon s i).thermal = s.thermal ∧ (State.abandon s i).straps = s.straps ∧ (State.abandon s i).boot = s.boot ∧ (State.abandon s i).flash = s.flash ∧ (State.abandon s i).fuses = s.fuses ∧ (State.abandon s i).security = s.security ∧ (State.abandon s i).models = s.models ∧ (State.abandon s i).faultyEdges = s.faultyEdges ∧ (State.abandon s i).feeders = s.feeders ∧ (State.abandon s i).lanes = s.lanes ∧ (State.abandon s i).guards = s.guards ∧ (State.abandon s i).mbx = s.mbx ∧ (State.abandon s i).ports = s.ports ∧ (State.abandon s i).smbOffset = s.smbOffset ∧ (State.abandon s i).owner = s.owner ∧ (State.abandon s i).cxl = s.cxl ∧ (State.abandon s i).fabricSeq = s.fabricSeq ∧ (State.abandon s i).mbxTurn = s.mbxTurn ∧ (State.abandon s i).turns = s.turns ∧ (State.abandon s i).accepted = s.accepted ∧ (State.abandon s i).bus = s.bus := by
  unfold State.abandon
  try dsimp only
  (repeat' split) <;> simp

@[simp] theorem State.leaveCore_leaves (s : State) (d c : Nat) :
    (State.leaveCore s d c).pending = s.pending ∧ (State.leaveCore s d c).wall = s.wall ∧ (State.leaveCore s d c).time = s.time ∧ (State.leaveCore s d c).board = s.board ∧ (State.leaveCore s d c).tap = s.tap ∧ (State.leaveCore s d c).power = s.power ∧ (State.leaveCore s d c).clocks = s.clocks ∧ (State.leaveCore s d c).thermal = s.thermal ∧ (State.leaveCore s d c).straps = s.straps ∧ (State.leaveCore s d c).boot = s.boot ∧ (State.leaveCore s d c).flash = s.flash ∧ (State.leaveCore s d c).fuses = s.fuses ∧ (State.leaveCore s d c).security = s.security ∧ (State.leaveCore s d c).models = s.models ∧ (State.leaveCore s d c).faultyEdges = s.faultyEdges ∧ (State.leaveCore s d c).feeders = s.feeders ∧ (State.leaveCore s d c).memory = s.memory ∧ (State.leaveCore s d c).lanes = s.lanes ∧ (State.leaveCore s d c).guards = s.guards ∧ (State.leaveCore s d c).mbx = s.mbx ∧ (State.leaveCore s d c).ports = s.ports ∧ (State.leaveCore s d c).smbOffset = s.smbOffset ∧ (State.leaveCore s d c).alertPending = s.alertPending ∧ (State.leaveCore s d c).owner = s.owner ∧ (State.leaveCore s d c).pcie = s.pcie ∧ (State.leaveCore s d c).cxl = s.cxl ∧ (State.leaveCore s d c).cascade = s.cascade ∧ (State.leaveCore s d c).grants = s.grants ∧ (State.leaveCore s d c).fabricSeq = s.fabricSeq ∧ (State.leaveCore s d c).mbxTurn = s.mbxTurn ∧ (State.leaveCore s d c).turns = s.turns ∧ (State.leaveCore s d c).accepted = s.accepted ∧ (State.leaveCore s d c).bus = s.bus := by
  unfold State.leaveCore
  try dsimp only
  (repeat' split) <;> simp

@[simp] theorem State.installTables_leaves (s : State) (slot : Nat) (cs : List (Nat × Nat)) :
    (State.installTables s slot cs).pending = s.pending ∧ (State.installTables s slot cs).wall = s.wall ∧ (State.installTables s slot cs).time = s.time ∧ (State.installTables s slot cs).board = s.board ∧ (State.installTables s slot cs).tap = s.tap ∧ (State.installTables s slot cs).power = s.power ∧ (State.installTables s slot cs).clocks = s.clocks ∧ (State.installTables s slot cs).thermal = s.thermal ∧ (State.installTables s slot cs).straps = s.straps ∧ (State.installTables s slot cs).boot = s.boot ∧ (State.installTables s slot cs).flash = s.flash ∧ (State.installTables s slot cs).fuses = s.fuses ∧ (State.installTables s slot cs).security = s.security ∧ (State.installTables s slot cs).models = s.models ∧ (State.installTables s slot cs).dies = s.dies ∧ (State.installTables s slot cs).faultyEdges = s.faultyEdges ∧ (State.installTables s slot cs).feeders = s.feeders ∧ (State.installTables s slot cs).memory = s.memory ∧ (State.installTables s slot cs).lanes = s.lanes ∧ (State.installTables s slot cs).guards = s.guards ∧ (State.installTables s slot cs).mbx = s.mbx ∧ (State.installTables s slot cs).ports = s.ports ∧ (State.installTables s slot cs).smbOffset = s.smbOffset ∧ (State.installTables s slot cs).alertPending = s.alertPending ∧ (State.installTables s slot cs).owner = s.owner ∧ (State.installTables s slot cs).log = s.log ∧ (State.installTables s slot cs).pcie = s.pcie ∧ (State.installTables s slot cs).cxl = s.cxl ∧ (State.installTables s slot cs).cascade = s.cascade ∧ (State.installTables s slot cs).sessions = s.sessions ∧ (State.installTables s slot cs).grants = s.grants ∧ (State.installTables s slot cs).fabricSeq = s.fabricSeq ∧ (State.installTables s slot cs).mbxTurn = s.mbxTurn ∧ (State.installTables s slot cs).turns = s.turns ∧ (State.installTables s slot cs).accepted = s.accepted ∧ (State.installTables s slot cs).bus = s.bus ∧ (State.installTables s slot cs).freeTick = s.freeTick := by
  unfold State.installTables
  dsimp only
  split
  · simp
  · refine ⟨?_, ?_, ?_, ?_, ?_, ?_, ?_, ?_, ?_, ?_, ?_, ?_, ?_, ?_, ?_, ?_, ?_, ?_, ?_, ?_, ?_, ?_, ?_, ?_, ?_, ?_, ?_, ?_, ?_, ?_, ?_, ?_, ?_, ?_, ?_, ?_, ?_⟩ <;> exact State.foldl_same _ _ (by intro t x; simp) _ _

@[simp] theorem State.loadCore_leaves (s : State) (l : CoreLoad) :
    (State.loadCore s l).pending = s.pending ∧ (State.loadCore s l).wall = s.wall ∧ (State.loadCore s l).time = s.time ∧ (State.loadCore s l).board = s.board ∧ (State.loadCore s l).tap = s.tap ∧ (State.loadCore s l).power = s.power ∧ (State.loadCore s l).clocks = s.clocks ∧ (State.loadCore s l).thermal = s.thermal ∧ (State.loadCore s l).straps = s.straps ∧ (State.loadCore s l).boot = s.boot ∧ (State.loadCore s l).flash = s.flash ∧ (State.loadCore s l).fuses = s.fuses ∧ (State.loadCore s l).security = s.security ∧ (State.loadCore s l).models = s.models ∧ (State.loadCore s l).dies = s.dies ∧ (State.loadCore s l).faultyEdges = s.faultyEdges ∧ (State.loadCore s l).feeders = s.feeders ∧ (State.loadCore s l).memory = s.memory ∧ (State.loadCore s l).lanes = s.lanes ∧ (State.loadCore s l).guards = s.guards ∧ (State.loadCore s l).mbx = s.mbx ∧ (State.loadCore s l).ports = s.ports ∧ (State.loadCore s l).smbOffset = s.smbOffset ∧ (State.loadCore s l).alertPending = s.alertPending ∧ (State.loadCore s l).owner = s.owner ∧ (State.loadCore s l).log = s.log ∧ (State.loadCore s l).pcie = s.pcie ∧ (State.loadCore s l).cxl = s.cxl ∧ (State.loadCore s l).cascade = s.cascade ∧ (State.loadCore s l).sessions = s.sessions ∧ (State.loadCore s l).grants = s.grants ∧ (State.loadCore s l).fabricSeq = s.fabricSeq ∧ (State.loadCore s l).mbxTurn = s.mbxTurn ∧ (State.loadCore s l).turns = s.turns ∧ (State.loadCore s l).accepted = s.accepted ∧ (State.loadCore s l).bus = s.bus ∧ (State.loadCore s l).freeTick = s.freeTick := by
  unfold State.loadCore
  try dsimp only
  (repeat' split) <;> simp

@[simp] theorem State.applyLoads_leaves (s : State) (i : Nat) (ls : List CoreLoad) :
    (State.applyLoads s i ls).pending = s.pending ∧ (State.applyLoads s i ls).wall = s.wall ∧ (State.applyLoads s i ls).time = s.time ∧ (State.applyLoads s i ls).board = s.board ∧ (State.applyLoads s i ls).tap = s.tap ∧ (State.applyLoads s i ls).power = s.power ∧ (State.applyLoads s i ls).clocks = s.clocks ∧ (State.applyLoads s i ls).thermal = s.thermal ∧ (State.applyLoads s i ls).straps = s.straps ∧ (State.applyLoads s i ls).boot = s.boot ∧ (State.applyLoads s i ls).flash = s.flash ∧ (State.applyLoads s i ls).fuses = s.fuses ∧ (State.applyLoads s i ls).security = s.security ∧ (State.applyLoads s i ls).models = s.models ∧ (State.applyLoads s i ls).dies = s.dies ∧ (State.applyLoads s i ls).faultyEdges = s.faultyEdges ∧ (State.applyLoads s i ls).feeders = s.feeders ∧ (State.applyLoads s i ls).memory = s.memory ∧ (State.applyLoads s i ls).lanes = s.lanes ∧ (State.applyLoads s i ls).guards = s.guards ∧ (State.applyLoads s i ls).mbx = s.mbx ∧ (State.applyLoads s i ls).ports = s.ports ∧ (State.applyLoads s i ls).smbOffset = s.smbOffset ∧ (State.applyLoads s i ls).alertPending = s.alertPending ∧ (State.applyLoads s i ls).owner = s.owner ∧ (State.applyLoads s i ls).log = s.log ∧ (State.applyLoads s i ls).pcie = s.pcie ∧ (State.applyLoads s i ls).cxl = s.cxl ∧ (State.applyLoads s i ls).cascade = s.cascade ∧ (State.applyLoads s i ls).sessions = s.sessions ∧ (State.applyLoads s i ls).grants = s.grants ∧ (State.applyLoads s i ls).fabricSeq = s.fabricSeq ∧ (State.applyLoads s i ls).mbxTurn = s.mbxTurn ∧ (State.applyLoads s i ls).turns = s.turns ∧ (State.applyLoads s i ls).accepted = s.accepted ∧ (State.applyLoads s i ls).bus = s.bus ∧ (State.applyLoads s i ls).freeTick = s.freeTick := by
  unfold State.applyLoads
  try dsimp only
  (repeat' split) <;> simp

@[simp] theorem State.setPleats_leaves (s : State) (i : Nat) (pl : CutPlan) :
    (State.setPleats s i pl).pending = s.pending ∧ (State.setPleats s i pl).wall = s.wall ∧ (State.setPleats s i pl).time = s.time ∧ (State.setPleats s i pl).board = s.board ∧ (State.setPleats s i pl).tap = s.tap ∧ (State.setPleats s i pl).power = s.power ∧ (State.setPleats s i pl).clocks = s.clocks ∧ (State.setPleats s i pl).thermal = s.thermal ∧ (State.setPleats s i pl).straps = s.straps ∧ (State.setPleats s i pl).boot = s.boot ∧ (State.setPleats s i pl).flash = s.flash ∧ (State.setPleats s i pl).fuses = s.fuses ∧ (State.setPleats s i pl).security = s.security ∧ (State.setPleats s i pl).models = s.models ∧ (State.setPleats s i pl).dies = s.dies ∧ (State.setPleats s i pl).faultyEdges = s.faultyEdges ∧ (State.setPleats s i pl).feeders = s.feeders ∧ (State.setPleats s i pl).memory = s.memory ∧ (State.setPleats s i pl).lanes = s.lanes ∧ (State.setPleats s i pl).guards = s.guards ∧ (State.setPleats s i pl).mbx = s.mbx ∧ (State.setPleats s i pl).ports = s.ports ∧ (State.setPleats s i pl).smbOffset = s.smbOffset ∧ (State.setPleats s i pl).alertPending = s.alertPending ∧ (State.setPleats s i pl).owner = s.owner ∧ (State.setPleats s i pl).log = s.log ∧ (State.setPleats s i pl).pcie = s.pcie ∧ (State.setPleats s i pl).cxl = s.cxl ∧ (State.setPleats s i pl).cascade = s.cascade ∧ (State.setPleats s i pl).sessions = s.sessions ∧ (State.setPleats s i pl).grants = s.grants ∧ (State.setPleats s i pl).fabricSeq = s.fabricSeq ∧ (State.setPleats s i pl).mbxTurn = s.mbxTurn ∧ (State.setPleats s i pl).turns = s.turns ∧ (State.setPleats s i pl).accepted = s.accepted ∧ (State.setPleats s i pl).bus = s.bus ∧ (State.setPleats s i pl).freeTick = s.freeTick := by
  unfold State.setPleats
  refine ⟨?_, ?_, ?_, ?_, ?_, ?_, ?_, ?_, ?_, ?_, ?_, ?_, ?_, ?_, ?_, ?_, ?_, ?_, ?_, ?_, ?_, ?_, ?_, ?_, ?_, ?_, ?_, ?_, ?_, ?_, ?_, ?_, ?_, ?_, ?_, ?_, ?_⟩ <;> exact (State.foldl_same _ _ (by intro t x; (repeat' split) <;> simp) _ _)

@[simp] theorem State.formRings_leaves (s : State) (cs : List (Nat × Nat)) :
    (State.formRings s cs).pending = s.pending ∧ (State.formRings s cs).wall = s.wall ∧ (State.formRings s cs).time = s.time ∧ (State.formRings s cs).board = s.board ∧ (State.formRings s cs).tap = s.tap ∧ (State.formRings s cs).power = s.power ∧ (State.formRings s cs).clocks = s.clocks ∧ (State.formRings s cs).thermal = s.thermal ∧ (State.formRings s cs).straps = s.straps ∧ (State.formRings s cs).boot = s.boot ∧ (State.formRings s cs).flash = s.flash ∧ (State.formRings s cs).fuses = s.fuses ∧ (State.formRings s cs).security = s.security ∧ (State.formRings s cs).models = s.models ∧ (State.formRings s cs).dies = s.dies ∧ (State.formRings s cs).faultyEdges = s.faultyEdges ∧ (State.formRings s cs).feeders = s.feeders ∧ (State.formRings s cs).memory = s.memory ∧ (State.formRings s cs).lanes = s.lanes ∧ (State.formRings s cs).guards = s.guards ∧ (State.formRings s cs).mbx = s.mbx ∧ (State.formRings s cs).ports = s.ports ∧ (State.formRings s cs).smbOffset = s.smbOffset ∧ (State.formRings s cs).alertPending = s.alertPending ∧ (State.formRings s cs).owner = s.owner ∧ (State.formRings s cs).log = s.log ∧ (State.formRings s cs).pcie = s.pcie ∧ (State.formRings s cs).cxl = s.cxl ∧ (State.formRings s cs).cascade = s.cascade ∧ (State.formRings s cs).sessions = s.sessions ∧ (State.formRings s cs).grants = s.grants ∧ (State.formRings s cs).fabricSeq = s.fabricSeq ∧ (State.formRings s cs).mbxTurn = s.mbxTurn ∧ (State.formRings s cs).turns = s.turns ∧ (State.formRings s cs).accepted = s.accepted ∧ (State.formRings s cs).bus = s.bus ∧ (State.formRings s cs).freeTick = s.freeTick := by
  unfold State.formRings
  refine ⟨?_, ?_, ?_, ?_, ?_, ?_, ?_, ?_, ?_, ?_, ?_, ?_, ?_, ?_, ?_, ?_, ?_, ?_, ?_, ?_, ?_, ?_, ?_, ?_, ?_, ?_, ?_, ?_, ?_, ?_, ?_, ?_, ?_, ?_, ?_, ?_, ?_⟩ <;> exact State.foldl_same _ _ (fun t x => by (repeat' split) <;> simp) _ _

@[simp] theorem State.bindCores_leaves (s : State) (i : Nat) (old : List (Nat × Nat)) (pl : CutPlan) :
    (State.bindCores s i old pl).pending = s.pending ∧ (State.bindCores s i old pl).wall = s.wall ∧ (State.bindCores s i old pl).time = s.time ∧ (State.bindCores s i old pl).board = s.board ∧ (State.bindCores s i old pl).tap = s.tap ∧ (State.bindCores s i old pl).power = s.power ∧ (State.bindCores s i old pl).clocks = s.clocks ∧ (State.bindCores s i old pl).thermal = s.thermal ∧ (State.bindCores s i old pl).straps = s.straps ∧ (State.bindCores s i old pl).boot = s.boot ∧ (State.bindCores s i old pl).flash = s.flash ∧ (State.bindCores s i old pl).fuses = s.fuses ∧ (State.bindCores s i old pl).security = s.security ∧ (State.bindCores s i old pl).models = s.models ∧ (State.bindCores s i old pl).faultyEdges = s.faultyEdges ∧ (State.bindCores s i old pl).feeders = s.feeders ∧ (State.bindCores s i old pl).memory = s.memory ∧ (State.bindCores s i old pl).lanes = s.lanes ∧ (State.bindCores s i old pl).guards = s.guards ∧ (State.bindCores s i old pl).mbx = s.mbx ∧ (State.bindCores s i old pl).ports = s.ports ∧ (State.bindCores s i old pl).smbOffset = s.smbOffset ∧ (State.bindCores s i old pl).alertPending = s.alertPending ∧ (State.bindCores s i old pl).owner = s.owner ∧ (State.bindCores s i old pl).pcie = s.pcie ∧ (State.bindCores s i old pl).cxl = s.cxl ∧ (State.bindCores s i old pl).cascade = s.cascade ∧ (State.bindCores s i old pl).grants = s.grants ∧ (State.bindCores s i old pl).fabricSeq = s.fabricSeq ∧ (State.bindCores s i old pl).mbxTurn = s.mbxTurn ∧ (State.bindCores s i old pl).turns = s.turns ∧ (State.bindCores s i old pl).accepted = s.accepted ∧ (State.bindCores s i old pl).bus = s.bus := by
  unfold State.bindCores
  dsimp only
  simp only [State.installTables_leaves, State.setPleats_leaves, State.formRings_leaves]
  refine ⟨?_, ?_, ?_, ?_, ?_, ?_, ?_, ?_, ?_, ?_, ?_, ?_, ?_, ?_, ?_, ?_, ?_, ?_, ?_, ?_, ?_, ?_, ?_, ?_, ?_, ?_, ?_, ?_, ?_, ?_, ?_, ?_, ?_⟩ <;> exact (State.foldl_same _ _ (by intro t x; split <;> simp) _ _).trans (State.foldl_same _ _ (by intro t x; simp) _ _)

@[simp] theorem State.releaseGuards_leaves (s : State) (i : Nat) :
    (State.releaseGuards s i).pending = s.pending ∧ (State.releaseGuards s i).wall = s.wall ∧ (State.releaseGuards s i).time = s.time ∧ (State.releaseGuards s i).board = s.board ∧ (State.releaseGuards s i).tap = s.tap ∧ (State.releaseGuards s i).power = s.power ∧ (State.releaseGuards s i).clocks = s.clocks ∧ (State.releaseGuards s i).thermal = s.thermal ∧ (State.releaseGuards s i).straps = s.straps ∧ (State.releaseGuards s i).boot = s.boot ∧ (State.releaseGuards s i).flash = s.flash ∧ (State.releaseGuards s i).fuses = s.fuses ∧ (State.releaseGuards s i).security = s.security ∧ (State.releaseGuards s i).models = s.models ∧ (State.releaseGuards s i).dies = s.dies ∧ (State.releaseGuards s i).faultyEdges = s.faultyEdges ∧ (State.releaseGuards s i).cores = s.cores ∧ (State.releaseGuards s i).feeders = s.feeders ∧ (State.releaseGuards s i).memory = s.memory ∧ (State.releaseGuards s i).lanes = s.lanes ∧ (State.releaseGuards s i).mbx = s.mbx ∧ (State.releaseGuards s i).ports = s.ports ∧ (State.releaseGuards s i).smbOffset = s.smbOffset ∧ (State.releaseGuards s i).alertPending = s.alertPending ∧ (State.releaseGuards s i).owner = s.owner ∧ (State.releaseGuards s i).log = s.log ∧ (State.releaseGuards s i).pcie = s.pcie ∧ (State.releaseGuards s i).cxl = s.cxl ∧ (State.releaseGuards s i).cascade = s.cascade ∧ (State.releaseGuards s i).sessions = s.sessions ∧ (State.releaseGuards s i).grants = s.grants ∧ (State.releaseGuards s i).fabricSeq = s.fabricSeq ∧ (State.releaseGuards s i).mbxTurn = s.mbxTurn ∧ (State.releaseGuards s i).turns = s.turns ∧ (State.releaseGuards s i).accepted = s.accepted ∧ (State.releaseGuards s i).bus = s.bus ∧ (State.releaseGuards s i).freeTick = s.freeTick := by
  unfold State.releaseGuards
  try dsimp only
  (repeat' split) <;> simp

@[simp] theorem State.bindGuard_leaves (s : State) (i sd : Nat) :
    (State.bindGuard s i sd).pending = s.pending ∧ (State.bindGuard s i sd).wall = s.wall ∧ (State.bindGuard s i sd).time = s.time ∧ (State.bindGuard s i sd).board = s.board ∧ (State.bindGuard s i sd).tap = s.tap ∧ (State.bindGuard s i sd).power = s.power ∧ (State.bindGuard s i sd).clocks = s.clocks ∧ (State.bindGuard s i sd).thermal = s.thermal ∧ (State.bindGuard s i sd).straps = s.straps ∧ (State.bindGuard s i sd).boot = s.boot ∧ (State.bindGuard s i sd).flash = s.flash ∧ (State.bindGuard s i sd).fuses = s.fuses ∧ (State.bindGuard s i sd).security = s.security ∧ (State.bindGuard s i sd).models = s.models ∧ (State.bindGuard s i sd).dies = s.dies ∧ (State.bindGuard s i sd).faultyEdges = s.faultyEdges ∧ (State.bindGuard s i sd).cores = s.cores ∧ (State.bindGuard s i sd).feeders = s.feeders ∧ (State.bindGuard s i sd).memory = s.memory ∧ (State.bindGuard s i sd).lanes = s.lanes ∧ (State.bindGuard s i sd).mbx = s.mbx ∧ (State.bindGuard s i sd).ports = s.ports ∧ (State.bindGuard s i sd).smbOffset = s.smbOffset ∧ (State.bindGuard s i sd).alertPending = s.alertPending ∧ (State.bindGuard s i sd).owner = s.owner ∧ (State.bindGuard s i sd).log = s.log ∧ (State.bindGuard s i sd).pcie = s.pcie ∧ (State.bindGuard s i sd).cxl = s.cxl ∧ (State.bindGuard s i sd).cascade = s.cascade ∧ (State.bindGuard s i sd).sessions = s.sessions ∧ (State.bindGuard s i sd).grants = s.grants ∧ (State.bindGuard s i sd).fabricSeq = s.fabricSeq ∧ (State.bindGuard s i sd).mbxTurn = s.mbxTurn ∧ (State.bindGuard s i sd).turns = s.turns ∧ (State.bindGuard s i sd).accepted = s.accepted ∧ (State.bindGuard s i sd).bus = s.bus ∧ (State.bindGuard s i sd).freeTick = s.freeTick := by
  unfold State.bindGuard
  try dsimp only
  (repeat' split) <;> simp

@[simp] theorem State.moveLanes_leaves (s : State) (i : Nat) (old new : CutPlan) :
    (State.moveLanes s i old new).pending = s.pending ∧ (State.moveLanes s i old new).wall = s.wall ∧ (State.moveLanes s i old new).time = s.time ∧ (State.moveLanes s i old new).board = s.board ∧ (State.moveLanes s i old new).tap = s.tap ∧ (State.moveLanes s i old new).power = s.power ∧ (State.moveLanes s i old new).clocks = s.clocks ∧ (State.moveLanes s i old new).thermal = s.thermal ∧ (State.moveLanes s i old new).straps = s.straps ∧ (State.moveLanes s i old new).boot = s.boot ∧ (State.moveLanes s i old new).flash = s.flash ∧ (State.moveLanes s i old new).fuses = s.fuses ∧ (State.moveLanes s i old new).security = s.security ∧ (State.moveLanes s i old new).models = s.models ∧ (State.moveLanes s i old new).dies = s.dies ∧ (State.moveLanes s i old new).faultyEdges = s.faultyEdges ∧ (State.moveLanes s i old new).cores = s.cores ∧ (State.moveLanes s i old new).feeders = s.feeders ∧ (State.moveLanes s i old new).memory = s.memory ∧ (State.moveLanes s i old new).guards = s.guards ∧ (State.moveLanes s i old new).mbx = s.mbx ∧ (State.moveLanes s i old new).ports = s.ports ∧ (State.moveLanes s i old new).smbOffset = s.smbOffset ∧ (State.moveLanes s i old new).alertPending = s.alertPending ∧ (State.moveLanes s i old new).owner = s.owner ∧ (State.moveLanes s i old new).log = s.log ∧ (State.moveLanes s i old new).pcie = s.pcie ∧ (State.moveLanes s i old new).cxl = s.cxl ∧ (State.moveLanes s i old new).cascade = s.cascade ∧ (State.moveLanes s i old new).sessions = s.sessions ∧ (State.moveLanes s i old new).grants = s.grants ∧ (State.moveLanes s i old new).fabricSeq = s.fabricSeq ∧ (State.moveLanes s i old new).mbxTurn = s.mbxTurn ∧ (State.moveLanes s i old new).turns = s.turns ∧ (State.moveLanes s i old new).accepted = s.accepted ∧ (State.moveLanes s i old new).bus = s.bus ∧ (State.moveLanes s i old new).freeTick = s.freeTick := by
  unfold State.moveLanes
  try dsimp only
  (repeat' split) <;> simp

@[simp] theorem State.initRing_leaves (s : State) (base produced : Nat) :
    (State.initRing s base produced).pending = s.pending ∧ (State.initRing s base produced).wall = s.wall ∧ (State.initRing s base produced).time = s.time ∧ (State.initRing s base produced).board = s.board ∧ (State.initRing s base produced).tap = s.tap ∧ (State.initRing s base produced).power = s.power ∧ (State.initRing s base produced).clocks = s.clocks ∧ (State.initRing s base produced).thermal = s.thermal ∧ (State.initRing s base produced).straps = s.straps ∧ (State.initRing s base produced).boot = s.boot ∧ (State.initRing s base produced).flash = s.flash ∧ (State.initRing s base produced).fuses = s.fuses ∧ (State.initRing s base produced).security = s.security ∧ (State.initRing s base produced).models = s.models ∧ (State.initRing s base produced).dies = s.dies ∧ (State.initRing s base produced).faultyEdges = s.faultyEdges ∧ (State.initRing s base produced).cores = s.cores ∧ (State.initRing s base produced).feeders = s.feeders ∧ (State.initRing s base produced).lanes = s.lanes ∧ (State.initRing s base produced).guards = s.guards ∧ (State.initRing s base produced).mbx = s.mbx ∧ (State.initRing s base produced).ports = s.ports ∧ (State.initRing s base produced).smbOffset = s.smbOffset ∧ (State.initRing s base produced).alertPending = s.alertPending ∧ (State.initRing s base produced).owner = s.owner ∧ (State.initRing s base produced).log = s.log ∧ (State.initRing s base produced).pcie = s.pcie ∧ (State.initRing s base produced).cxl = s.cxl ∧ (State.initRing s base produced).cascade = s.cascade ∧ (State.initRing s base produced).sessions = s.sessions ∧ (State.initRing s base produced).grants = s.grants ∧ (State.initRing s base produced).fabricSeq = s.fabricSeq ∧ (State.initRing s base produced).mbxTurn = s.mbxTurn ∧ (State.initRing s base produced).turns = s.turns ∧ (State.initRing s base produced).accepted = s.accepted ∧ (State.initRing s base produced).bus = s.bus ∧ (State.initRing s base produced).freeTick = s.freeTick := by
  unfold State.initRing
  try dsimp only
  (repeat' split) <;> simp

@[simp] theorem State.moveRings_leaves (s : State) (i : Nat) (rings : Nat × Nat) :
    (State.moveRings s i rings).pending = s.pending ∧ (State.moveRings s i rings).wall = s.wall ∧ (State.moveRings s i rings).time = s.time ∧ (State.moveRings s i rings).board = s.board ∧ (State.moveRings s i rings).tap = s.tap ∧ (State.moveRings s i rings).power = s.power ∧ (State.moveRings s i rings).clocks = s.clocks ∧ (State.moveRings s i rings).thermal = s.thermal ∧ (State.moveRings s i rings).straps = s.straps ∧ (State.moveRings s i rings).boot = s.boot ∧ (State.moveRings s i rings).flash = s.flash ∧ (State.moveRings s i rings).fuses = s.fuses ∧ (State.moveRings s i rings).security = s.security ∧ (State.moveRings s i rings).models = s.models ∧ (State.moveRings s i rings).dies = s.dies ∧ (State.moveRings s i rings).faultyEdges = s.faultyEdges ∧ (State.moveRings s i rings).cores = s.cores ∧ (State.moveRings s i rings).feeders = s.feeders ∧ (State.moveRings s i rings).lanes = s.lanes ∧ (State.moveRings s i rings).guards = s.guards ∧ (State.moveRings s i rings).mbx = s.mbx ∧ (State.moveRings s i rings).ports = s.ports ∧ (State.moveRings s i rings).smbOffset = s.smbOffset ∧ (State.moveRings s i rings).alertPending = s.alertPending ∧ (State.moveRings s i rings).owner = s.owner ∧ (State.moveRings s i rings).log = s.log ∧ (State.moveRings s i rings).pcie = s.pcie ∧ (State.moveRings s i rings).cxl = s.cxl ∧ (State.moveRings s i rings).cascade = s.cascade ∧ (State.moveRings s i rings).grants = s.grants ∧ (State.moveRings s i rings).fabricSeq = s.fabricSeq ∧ (State.moveRings s i rings).mbxTurn = s.mbxTurn ∧ (State.moveRings s i rings).turns = s.turns ∧ (State.moveRings s i rings).accepted = s.accepted ∧ (State.moveRings s i rings).bus = s.bus ∧ (State.moveRings s i rings).freeTick = s.freeTick := by
  unfold State.moveRings
  try dsimp only
  (repeat' split) <;> simp

@[simp] theorem State.movePool_leaves (s : State) (i old new : Nat) (rings : Nat × Nat) :
    (State.movePool s i old new rings).pending = s.pending ∧ (State.movePool s i old new rings).wall = s.wall ∧ (State.movePool s i old new rings).time = s.time ∧ (State.movePool s i old new rings).board = s.board ∧ (State.movePool s i old new rings).tap = s.tap ∧ (State.movePool s i old new rings).power = s.power ∧ (State.movePool s i old new rings).clocks = s.clocks ∧ (State.movePool s i old new rings).thermal = s.thermal ∧ (State.movePool s i old new rings).straps = s.straps ∧ (State.movePool s i old new rings).boot = s.boot ∧ (State.movePool s i old new rings).flash = s.flash ∧ (State.movePool s i old new rings).fuses = s.fuses ∧ (State.movePool s i old new rings).security = s.security ∧ (State.movePool s i old new rings).models = s.models ∧ (State.movePool s i old new rings).dies = s.dies ∧ (State.movePool s i old new rings).faultyEdges = s.faultyEdges ∧ (State.movePool s i old new rings).cores = s.cores ∧ (State.movePool s i old new rings).feeders = s.feeders ∧ (State.movePool s i old new rings).lanes = s.lanes ∧ (State.movePool s i old new rings).guards = s.guards ∧ (State.movePool s i old new rings).mbx = s.mbx ∧ (State.movePool s i old new rings).ports = s.ports ∧ (State.movePool s i old new rings).smbOffset = s.smbOffset ∧ (State.movePool s i old new rings).alertPending = s.alertPending ∧ (State.movePool s i old new rings).owner = s.owner ∧ (State.movePool s i old new rings).log = s.log ∧ (State.movePool s i old new rings).pcie = s.pcie ∧ (State.movePool s i old new rings).cxl = s.cxl ∧ (State.movePool s i old new rings).cascade = s.cascade ∧ (State.movePool s i old new rings).fabricSeq = s.fabricSeq ∧ (State.movePool s i old new rings).mbxTurn = s.mbxTurn ∧ (State.movePool s i old new rings).turns = s.turns ∧ (State.movePool s i old new rings).accepted = s.accepted ∧ (State.movePool s i old new rings).bus = s.bus ∧ (State.movePool s i old new rings).freeTick = s.freeTick := by
  unfold State.movePool
  try dsimp only
  (repeat' split) <;> simp

@[simp] theorem State.takeCut_leaves (s : State) (i : Nat) (pl : CutPlan) (place : Placement) (moved : Bool) :
    (State.takeCut s i pl place moved).pending = s.pending ∧ (State.takeCut s i pl place moved).wall = s.wall ∧ (State.takeCut s i pl place moved).time = s.time ∧ (State.takeCut s i pl place moved).board = s.board ∧ (State.takeCut s i pl place moved).tap = s.tap ∧ (State.takeCut s i pl place moved).power = s.power ∧ (State.takeCut s i pl place moved).clocks = s.clocks ∧ (State.takeCut s i pl place moved).thermal = s.thermal ∧ (State.takeCut s i pl place moved).straps = s.straps ∧ (State.takeCut s i pl place moved).boot = s.boot ∧ (State.takeCut s i pl place moved).flash = s.flash ∧ (State.takeCut s i pl place moved).fuses = s.fuses ∧ (State.takeCut s i pl place moved).security = s.security ∧ (State.takeCut s i pl place moved).models = s.models ∧ (State.takeCut s i pl place moved).faultyEdges = s.faultyEdges ∧ (State.takeCut s i pl place moved).feeders = s.feeders ∧ (State.takeCut s i pl place moved).mbx = s.mbx ∧ (State.takeCut s i pl place moved).ports = s.ports ∧ (State.takeCut s i pl place moved).smbOffset = s.smbOffset ∧ (State.takeCut s i pl place moved).alertPending = s.alertPending ∧ (State.takeCut s i pl place moved).owner = s.owner ∧ (State.takeCut s i pl place moved).pcie = s.pcie ∧ (State.takeCut s i pl place moved).cxl = s.cxl ∧ (State.takeCut s i pl place moved).cascade = s.cascade ∧ (State.takeCut s i pl place moved).fabricSeq = s.fabricSeq ∧ (State.takeCut s i pl place moved).mbxTurn = s.mbxTurn ∧ (State.takeCut s i pl place moved).turns = s.turns ∧ (State.takeCut s i pl place moved).accepted = s.accepted ∧ (State.takeCut s i pl place moved).bus = s.bus := by
  unfold State.takeCut
  try dsimp only
  (repeat' split) <;> simp

@[simp] theorem State.finishRecut_leaves (s : State) (i : Nat) :
    (State.finishRecut s i).pending = s.pending ∧ (State.finishRecut s i).wall = s.wall ∧ (State.finishRecut s i).time = s.time ∧ (State.finishRecut s i).board = s.board ∧ (State.finishRecut s i).tap = s.tap ∧ (State.finishRecut s i).power = s.power ∧ (State.finishRecut s i).clocks = s.clocks ∧ (State.finishRecut s i).thermal = s.thermal ∧ (State.finishRecut s i).straps = s.straps ∧ (State.finishRecut s i).boot = s.boot ∧ (State.finishRecut s i).flash = s.flash ∧ (State.finishRecut s i).fuses = s.fuses ∧ (State.finishRecut s i).security = s.security ∧ (State.finishRecut s i).models = s.models ∧ (State.finishRecut s i).faultyEdges = s.faultyEdges ∧ (State.finishRecut s i).feeders = s.feeders ∧ (State.finishRecut s i).ports = s.ports ∧ (State.finishRecut s i).smbOffset = s.smbOffset ∧ (State.finishRecut s i).owner = s.owner ∧ (State.finishRecut s i).cxl = s.cxl ∧ (State.finishRecut s i).fabricSeq = s.fabricSeq ∧ (State.finishRecut s i).mbxTurn = s.mbxTurn ∧ (State.finishRecut s i).turns = s.turns ∧ (State.finishRecut s i).accepted = s.accepted ∧ (State.finishRecut s i).bus = s.bus := by
  unfold State.finishRecut
  try dsimp only
  (repeat' split) <;> simp

@[simp] theorem State.finishParked_leaves (s : State) (i : Nat) :
    (State.finishParked s i).pending = s.pending ∧ (State.finishParked s i).wall = s.wall ∧ (State.finishParked s i).time = s.time ∧ (State.finishParked s i).board = s.board ∧ (State.finishParked s i).tap = s.tap ∧ (State.finishParked s i).power = s.power ∧ (State.finishParked s i).clocks = s.clocks ∧ (State.finishParked s i).thermal = s.thermal ∧ (State.finishParked s i).straps = s.straps ∧ (State.finishParked s i).boot = s.boot ∧ (State.finishParked s i).flash = s.flash ∧ (State.finishParked s i).fuses = s.fuses ∧ (State.finishParked s i).security = s.security ∧ (State.finishParked s i).models = s.models ∧ (State.finishParked s i).faultyEdges = s.faultyEdges ∧ (State.finishParked s i).feeders = s.feeders ∧ (State.finishParked s i).ports = s.ports ∧ (State.finishParked s i).smbOffset = s.smbOffset ∧ (State.finishParked s i).owner = s.owner ∧ (State.finishParked s i).cxl = s.cxl ∧ (State.finishParked s i).fabricSeq = s.fabricSeq ∧ (State.finishParked s i).mbxTurn = s.mbxTurn ∧ (State.finishParked s i).turns = s.turns ∧ (State.finishParked s i).accepted = s.accepted ∧ (State.finishParked s i).bus = s.bus := by
  unfold State.finishParked
  refine ⟨?_, ?_, ?_, ?_, ?_, ?_, ?_, ?_, ?_, ?_, ?_, ?_, ?_, ?_, ?_, ?_, ?_, ?_, ?_, ?_, ?_, ?_, ?_, ?_, ?_⟩ <;> exact State.foldl_same _ _ (by intro t x; split <;> simp <;> (repeat' split) <;> simp) _ _

@[simp] theorem State.redoLanes_leaves (s : State) (i : Nat) :
    (State.redoLanes s i).pending = s.pending ∧ (State.redoLanes s i).wall = s.wall ∧ (State.redoLanes s i).time = s.time ∧ (State.redoLanes s i).board = s.board ∧ (State.redoLanes s i).tap = s.tap ∧ (State.redoLanes s i).power = s.power ∧ (State.redoLanes s i).clocks = s.clocks ∧ (State.redoLanes s i).thermal = s.thermal ∧ (State.redoLanes s i).straps = s.straps ∧ (State.redoLanes s i).boot = s.boot ∧ (State.redoLanes s i).flash = s.flash ∧ (State.redoLanes s i).fuses = s.fuses ∧ (State.redoLanes s i).security = s.security ∧ (State.redoLanes s i).models = s.models ∧ (State.redoLanes s i).dies = s.dies ∧ (State.redoLanes s i).faultyEdges = s.faultyEdges ∧ (State.redoLanes s i).cores = s.cores ∧ (State.redoLanes s i).feeders = s.feeders ∧ (State.redoLanes s i).memory = s.memory ∧ (State.redoLanes s i).lanes = s.lanes ∧ (State.redoLanes s i).guards = s.guards ∧ (State.redoLanes s i).mbx = s.mbx ∧ (State.redoLanes s i).ports = s.ports ∧ (State.redoLanes s i).smbOffset = s.smbOffset ∧ (State.redoLanes s i).alertPending = s.alertPending ∧ (State.redoLanes s i).owner = s.owner ∧ (State.redoLanes s i).log = s.log ∧ (State.redoLanes s i).pcie = s.pcie ∧ (State.redoLanes s i).cxl = s.cxl ∧ (State.redoLanes s i).cascade = s.cascade ∧ (State.redoLanes s i).grants = s.grants ∧ (State.redoLanes s i).fabricSeq = s.fabricSeq ∧ (State.redoLanes s i).mbxTurn = s.mbxTurn ∧ (State.redoLanes s i).turns = s.turns ∧ (State.redoLanes s i).accepted = s.accepted ∧ (State.redoLanes s i).bus = s.bus ∧ (State.redoLanes s i).freeTick = s.freeTick := by
  unfold State.redoLanes
  try dsimp only
  (repeat' split) <;> simp

@[simp] theorem State.loseFrom_leaves (s : State) (loss : Loss) (cause die i : Nat) :
    (State.loseFrom s loss cause die i).pending = s.pending ∧ (State.loseFrom s loss cause die i).wall = s.wall ∧ (State.loseFrom s loss cause die i).time = s.time ∧ (State.loseFrom s loss cause die i).board = s.board ∧ (State.loseFrom s loss cause die i).tap = s.tap ∧ (State.loseFrom s loss cause die i).power = s.power ∧ (State.loseFrom s loss cause die i).clocks = s.clocks ∧ (State.loseFrom s loss cause die i).thermal = s.thermal ∧ (State.loseFrom s loss cause die i).straps = s.straps ∧ (State.loseFrom s loss cause die i).boot = s.boot ∧ (State.loseFrom s loss cause die i).flash = s.flash ∧ (State.loseFrom s loss cause die i).fuses = s.fuses ∧ (State.loseFrom s loss cause die i).security = s.security ∧ (State.loseFrom s loss cause die i).models = s.models ∧ (State.loseFrom s loss cause die i).faultyEdges = s.faultyEdges ∧ (State.loseFrom s loss cause die i).feeders = s.feeders ∧ (State.loseFrom s loss cause die i).guards = s.guards ∧ (State.loseFrom s loss cause die i).mbx = s.mbx ∧ (State.loseFrom s loss cause die i).ports = s.ports ∧ (State.loseFrom s loss cause die i).smbOffset = s.smbOffset ∧ (State.loseFrom s loss cause die i).owner = s.owner ∧ (State.loseFrom s loss cause die i).cxl = s.cxl ∧ (State.loseFrom s loss cause die i).fabricSeq = s.fabricSeq ∧ (State.loseFrom s loss cause die i).mbxTurn = s.mbxTurn ∧ (State.loseFrom s loss cause die i).turns = s.turns ∧ (State.loseFrom s loss cause die i).accepted = s.accepted ∧ (State.loseFrom s loss cause die i).bus = s.bus := by
  unfold State.loseFrom
  try dsimp only
  (repeat' split) <;> simp

@[simp] theorem State.settleRecuts_leaves (s : State) (loss : Loss) :
    (State.settleRecuts s loss).pending = s.pending ∧ (State.settleRecuts s loss).wall = s.wall ∧ (State.settleRecuts s loss).time = s.time ∧ (State.settleRecuts s loss).board = s.board ∧ (State.settleRecuts s loss).tap = s.tap ∧ (State.settleRecuts s loss).power = s.power ∧ (State.settleRecuts s loss).clocks = s.clocks ∧ (State.settleRecuts s loss).thermal = s.thermal ∧ (State.settleRecuts s loss).straps = s.straps ∧ (State.settleRecuts s loss).boot = s.boot ∧ (State.settleRecuts s loss).flash = s.flash ∧ (State.settleRecuts s loss).fuses = s.fuses ∧ (State.settleRecuts s loss).security = s.security ∧ (State.settleRecuts s loss).models = s.models ∧ (State.settleRecuts s loss).faultyEdges = s.faultyEdges ∧ (State.settleRecuts s loss).feeders = s.feeders ∧ (State.settleRecuts s loss).ports = s.ports ∧ (State.settleRecuts s loss).smbOffset = s.smbOffset ∧ (State.settleRecuts s loss).owner = s.owner ∧ (State.settleRecuts s loss).cxl = s.cxl ∧ (State.settleRecuts s loss).fabricSeq = s.fabricSeq ∧ (State.settleRecuts s loss).mbxTurn = s.mbxTurn ∧ (State.settleRecuts s loss).turns = s.turns ∧ (State.settleRecuts s loss).accepted = s.accepted ∧ (State.settleRecuts s loss).bus = s.bus := by
  unfold State.settleRecuts
  try dsimp only
  (repeat' split) <;> simp

@[simp] theorem State.applyLoss_leaves (s : State) (loss : Loss) (cause die : Nat) :
    (s.applyLoss loss cause die).1.pending = s.pending ∧ (s.applyLoss loss cause die).1.wall = s.wall ∧ (s.applyLoss loss cause die).1.time = s.time ∧ (s.applyLoss loss cause die).1.board = s.board ∧ (s.applyLoss loss cause die).1.tap = s.tap ∧ (s.applyLoss loss cause die).1.power = s.power ∧ (s.applyLoss loss cause die).1.clocks = s.clocks ∧ (s.applyLoss loss cause die).1.thermal = s.thermal ∧ (s.applyLoss loss cause die).1.straps = s.straps ∧ (s.applyLoss loss cause die).1.boot = s.boot ∧ (s.applyLoss loss cause die).1.flash = s.flash ∧ (s.applyLoss loss cause die).1.fuses = s.fuses ∧ (s.applyLoss loss cause die).1.security = s.security ∧ (s.applyLoss loss cause die).1.models = s.models ∧ (s.applyLoss loss cause die).1.faultyEdges = s.faultyEdges ∧ (s.applyLoss loss cause die).1.feeders = s.feeders ∧ (s.applyLoss loss cause die).1.guards = s.guards ∧ (s.applyLoss loss cause die).1.mbx = s.mbx ∧ (s.applyLoss loss cause die).1.ports = s.ports ∧ (s.applyLoss loss cause die).1.smbOffset = s.smbOffset ∧ (s.applyLoss loss cause die).1.owner = s.owner ∧ (s.applyLoss loss cause die).1.cxl = s.cxl ∧ (s.applyLoss loss cause die).1.fabricSeq = s.fabricSeq ∧ (s.applyLoss loss cause die).1.mbxTurn = s.mbxTurn ∧ (s.applyLoss loss cause die).1.turns = s.turns ∧ (s.applyLoss loss cause die).1.accepted = s.accepted ∧ (s.applyLoss loss cause die).1.bus = s.bus := by
  unfold State.applyLoss
  simp

@[simp] theorem State.dropCascade_leaves (s : State) :
    (State.dropCascade s).pending = s.pending ∧ (State.dropCascade s).wall = s.wall ∧ (State.dropCascade s).time = s.time ∧ (State.dropCascade s).board = s.board ∧ (State.dropCascade s).tap = s.tap ∧ (State.dropCascade s).power = s.power ∧ (State.dropCascade s).clocks = s.clocks ∧ (State.dropCascade s).thermal = s.thermal ∧ (State.dropCascade s).straps = s.straps ∧ (State.dropCascade s).boot = s.boot ∧ (State.dropCascade s).flash = s.flash ∧ (State.dropCascade s).fuses = s.fuses ∧ (State.dropCascade s).security = s.security ∧ (State.dropCascade s).models = s.models ∧ (State.dropCascade s).dies = s.dies ∧ (State.dropCascade s).faultyEdges = s.faultyEdges ∧ (State.dropCascade s).cores = s.cores ∧ (State.dropCascade s).feeders = s.feeders ∧ (State.dropCascade s).memory = s.memory ∧ (State.dropCascade s).lanes = s.lanes ∧ (State.dropCascade s).guards = s.guards ∧ (State.dropCascade s).mbx = s.mbx ∧ (State.dropCascade s).ports = s.ports ∧ (State.dropCascade s).smbOffset = s.smbOffset ∧ (State.dropCascade s).alertPending = s.alertPending ∧ (State.dropCascade s).owner = s.owner ∧ (State.dropCascade s).log = s.log ∧ (State.dropCascade s).pcie = s.pcie ∧ (State.dropCascade s).cxl = s.cxl ∧ (State.dropCascade s).sessions = s.sessions ∧ (State.dropCascade s).grants = s.grants ∧ (State.dropCascade s).fabricSeq = s.fabricSeq ∧ (State.dropCascade s).mbxTurn = s.mbxTurn ∧ (State.dropCascade s).turns = s.turns ∧ (State.dropCascade s).accepted = s.accepted ∧ (State.dropCascade s).bus = s.bus ∧ (State.dropCascade s).freeTick = s.freeTick := by
  unfold State.dropCascade
  try dsimp only
  (repeat' split) <;> simp

@[simp] theorem State.fence_leaves (s : State) (d cause : Nat) :
    (State.fence s d cause).pending = s.pending ∧ (State.fence s d cause).wall = s.wall ∧ (State.fence s d cause).time = s.time ∧ (State.fence s d cause).board = s.board ∧ (State.fence s d cause).tap = s.tap ∧ (State.fence s d cause).power = s.power ∧ (State.fence s d cause).clocks = s.clocks ∧ (State.fence s d cause).straps = s.straps ∧ (State.fence s d cause).boot = s.boot ∧ (State.fence s d cause).flash = s.flash ∧ (State.fence s d cause).fuses = s.fuses ∧ (State.fence s d cause).security = s.security ∧ (State.fence s d cause).models = s.models ∧ (State.fence s d cause).faultyEdges = s.faultyEdges ∧ (State.fence s d cause).feeders = s.feeders ∧ (State.fence s d cause).ports = s.ports ∧ (State.fence s d cause).smbOffset = s.smbOffset ∧ (State.fence s d cause).owner = s.owner ∧ (State.fence s d cause).cxl = s.cxl ∧ (State.fence s d cause).fabricSeq = s.fabricSeq ∧ (State.fence s d cause).mbxTurn = s.mbxTurn ∧ (State.fence s d cause).turns = s.turns ∧ (State.fence s d cause).accepted = s.accepted ∧ (State.fence s d cause).bus = s.bus := by
  unfold State.fence
  try dsimp only
  (repeat' split) <;> simp

@[simp] theorem State.retire_leaves (s : State) (d c : Nat) :
    (State.retire s d c).pending = s.pending ∧ (State.retire s d c).wall = s.wall ∧ (State.retire s d c).time = s.time ∧ (State.retire s d c).board = s.board ∧ (State.retire s d c).tap = s.tap ∧ (State.retire s d c).power = s.power ∧ (State.retire s d c).clocks = s.clocks ∧ (State.retire s d c).thermal = s.thermal ∧ (State.retire s d c).straps = s.straps ∧ (State.retire s d c).boot = s.boot ∧ (State.retire s d c).flash = s.flash ∧ (State.retire s d c).fuses = s.fuses ∧ (State.retire s d c).security = s.security ∧ (State.retire s d c).models = s.models ∧ (State.retire s d c).faultyEdges = s.faultyEdges ∧ (State.retire s d c).feeders = s.feeders ∧ (State.retire s d c).ports = s.ports ∧ (State.retire s d c).smbOffset = s.smbOffset ∧ (State.retire s d c).owner = s.owner ∧ (State.retire s d c).cxl = s.cxl ∧ (State.retire s d c).fabricSeq = s.fabricSeq ∧ (State.retire s d c).mbxTurn = s.mbxTurn ∧ (State.retire s d c).turns = s.turns ∧ (State.retire s d c).accepted = s.accepted ∧ (State.retire s d c).bus = s.bus := by
  unfold State.retire
  try dsimp only
  (repeat' split) <;> simp

@[simp] theorem State.fencePair_leaves (s : State) (x : Nat × Nat) :
    (State.fencePair s x).pending = s.pending ∧ (State.fencePair s x).wall = s.wall ∧ (State.fencePair s x).time = s.time ∧ (State.fencePair s x).board = s.board ∧ (State.fencePair s x).tap = s.tap ∧ (State.fencePair s x).power = s.power ∧ (State.fencePair s x).clocks = s.clocks ∧ (State.fencePair s x).straps = s.straps ∧ (State.fencePair s x).boot = s.boot ∧ (State.fencePair s x).flash = s.flash ∧ (State.fencePair s x).fuses = s.fuses ∧ (State.fencePair s x).security = s.security ∧ (State.fencePair s x).models = s.models ∧ (State.fencePair s x).faultyEdges = s.faultyEdges ∧ (State.fencePair s x).feeders = s.feeders ∧ (State.fencePair s x).ports = s.ports ∧ (State.fencePair s x).smbOffset = s.smbOffset ∧ (State.fencePair s x).owner = s.owner ∧ (State.fencePair s x).cxl = s.cxl ∧ (State.fencePair s x).fabricSeq = s.fabricSeq ∧ (State.fencePair s x).mbxTurn = s.mbxTurn ∧ (State.fencePair s x).turns = s.turns ∧ (State.fencePair s x).accepted = s.accepted ∧ (State.fencePair s x).bus = s.bus := by
  unfold State.fencePair
  try dsimp only
  (repeat' split) <;> simp

@[simp] theorem State.fenceUnreachable_leaves (s : State) :
    (State.fenceUnreachable s).pending = s.pending ∧ (State.fenceUnreachable s).wall = s.wall ∧ (State.fenceUnreachable s).time = s.time ∧ (State.fenceUnreachable s).board = s.board ∧ (State.fenceUnreachable s).tap = s.tap ∧ (State.fenceUnreachable s).power = s.power ∧ (State.fenceUnreachable s).clocks = s.clocks ∧ (State.fenceUnreachable s).straps = s.straps ∧ (State.fenceUnreachable s).boot = s.boot ∧ (State.fenceUnreachable s).flash = s.flash ∧ (State.fenceUnreachable s).fuses = s.fuses ∧ (State.fenceUnreachable s).security = s.security ∧ (State.fenceUnreachable s).models = s.models ∧ (State.fenceUnreachable s).faultyEdges = s.faultyEdges ∧ (State.fenceUnreachable s).feeders = s.feeders ∧ (State.fenceUnreachable s).ports = s.ports ∧ (State.fenceUnreachable s).smbOffset = s.smbOffset ∧ (State.fenceUnreachable s).owner = s.owner ∧ (State.fenceUnreachable s).cxl = s.cxl ∧ (State.fenceUnreachable s).fabricSeq = s.fabricSeq ∧ (State.fenceUnreachable s).mbxTurn = s.mbxTurn ∧ (State.fenceUnreachable s).turns = s.turns ∧ (State.fenceUnreachable s).accepted = s.accepted ∧ (State.fenceUnreachable s).bus = s.bus := by
  unfold State.fenceUnreachable
  try dsimp only
  (repeat' split) <;> simp

theorem State.edge_pending (u : State) (a b : Nat) : ((u.fence a 3).fence b 3).fenceUnreachable.pending = u.pending := by simp
theorem State.edge_wall (u : State) (a b : Nat) : ((u.fence a 3).fence b 3).fenceUnreachable.wall = u.wall := by simp
theorem State.edge_time (u : State) (a b : Nat) : ((u.fence a 3).fence b 3).fenceUnreachable.time = u.time := by simp
theorem State.edge_board (u : State) (a b : Nat) : ((u.fence a 3).fence b 3).fenceUnreachable.board = u.board := by simp
theorem State.edge_tap (u : State) (a b : Nat) : ((u.fence a 3).fence b 3).fenceUnreachable.tap = u.tap := by simp
theorem State.edge_power (u : State) (a b : Nat) : ((u.fence a 3).fence b 3).fenceUnreachable.power = u.power := by simp
theorem State.edge_clocks (u : State) (a b : Nat) : ((u.fence a 3).fence b 3).fenceUnreachable.clocks = u.clocks := by simp
theorem State.edge_straps (u : State) (a b : Nat) : ((u.fence a 3).fence b 3).fenceUnreachable.straps = u.straps := by simp
theorem State.edge_boot (u : State) (a b : Nat) : ((u.fence a 3).fence b 3).fenceUnreachable.boot = u.boot := by simp
theorem State.edge_flash (u : State) (a b : Nat) : ((u.fence a 3).fence b 3).fenceUnreachable.flash = u.flash := by simp
theorem State.edge_fuses (u : State) (a b : Nat) : ((u.fence a 3).fence b 3).fenceUnreachable.fuses = u.fuses := by simp
theorem State.edge_security (u : State) (a b : Nat) : ((u.fence a 3).fence b 3).fenceUnreachable.security = u.security := by simp
theorem State.edge_models (u : State) (a b : Nat) : ((u.fence a 3).fence b 3).fenceUnreachable.models = u.models := by simp
theorem State.edge_feeders (u : State) (a b : Nat) : ((u.fence a 3).fence b 3).fenceUnreachable.feeders = u.feeders := by simp
theorem State.edge_ports (u : State) (a b : Nat) : ((u.fence a 3).fence b 3).fenceUnreachable.ports = u.ports := by simp
theorem State.edge_smbOffset (u : State) (a b : Nat) : ((u.fence a 3).fence b 3).fenceUnreachable.smbOffset = u.smbOffset := by simp
theorem State.edge_owner (u : State) (a b : Nat) : ((u.fence a 3).fence b 3).fenceUnreachable.owner = u.owner := by simp
theorem State.edge_cxl (u : State) (a b : Nat) : ((u.fence a 3).fence b 3).fenceUnreachable.cxl = u.cxl := by simp
theorem State.edge_fabricSeq (u : State) (a b : Nat) : ((u.fence a 3).fence b 3).fenceUnreachable.fabricSeq = u.fabricSeq := by simp
theorem State.edge_mbxTurn (u : State) (a b : Nat) : ((u.fence a 3).fence b 3).fenceUnreachable.mbxTurn = u.mbxTurn := by simp
theorem State.edge_turns (u : State) (a b : Nat) : ((u.fence a 3).fence b 3).fenceUnreachable.turns = u.turns := by simp
theorem State.edge_accepted (u : State) (a b : Nat) : ((u.fence a 3).fence b 3).fenceUnreachable.accepted = u.accepted := by simp
theorem State.edge_bus (u : State) (a b : Nat) : ((u.fence a 3).fence b 3).fenceUnreachable.bus = u.bus := by simp
theorem State.edgeFault_eq (s : State) (a b : Nat) : ∃ u : State, s.edgeFault a b = ((u.fence a 3).fence b 3).fenceUnreachable ∧
    { u with faultyEdges := s.faultyEdges } = s := ⟨_, rfl, rfl⟩

@[simp] theorem State.edgeFault_leaves (s : State) (a b : Nat) :
    (State.edgeFault s a b).pending = s.pending ∧ (State.edgeFault s a b).wall = s.wall ∧ (State.edgeFault s a b).time = s.time ∧ (State.edgeFault s a b).board = s.board ∧ (State.edgeFault s a b).tap = s.tap ∧ (State.edgeFault s a b).power = s.power ∧ (State.edgeFault s a b).clocks = s.clocks ∧ (State.edgeFault s a b).straps = s.straps ∧ (State.edgeFault s a b).boot = s.boot ∧ (State.edgeFault s a b).flash = s.flash ∧ (State.edgeFault s a b).fuses = s.fuses ∧ (State.edgeFault s a b).security = s.security ∧ (State.edgeFault s a b).models = s.models ∧ (State.edgeFault s a b).feeders = s.feeders ∧ (State.edgeFault s a b).ports = s.ports ∧ (State.edgeFault s a b).smbOffset = s.smbOffset ∧ (State.edgeFault s a b).owner = s.owner ∧ (State.edgeFault s a b).cxl = s.cxl ∧ (State.edgeFault s a b).fabricSeq = s.fabricSeq ∧ (State.edgeFault s a b).mbxTurn = s.mbxTurn ∧ (State.edgeFault s a b).turns = s.turns ∧ (State.edgeFault s a b).accepted = s.accepted ∧ (State.edgeFault s a b).bus = s.bus := by
  obtain ⟨u, hu, hs⟩ := State.edgeFault_eq s a b
  rw [hu]
  exact ⟨(State.edge_pending _ a b).trans (by have q := congrArg State.pending hs; exact q), (State.edge_wall _ a b).trans (by have q := congrArg State.wall hs; exact q), (State.edge_time _ a b).trans (by have q := congrArg State.time hs; exact q), (State.edge_board _ a b).trans (by have q := congrArg State.board hs; exact q), (State.edge_tap _ a b).trans (by have q := congrArg State.tap hs; exact q), (State.edge_power _ a b).trans (by have q := congrArg State.power hs; exact q), (State.edge_clocks _ a b).trans (by have q := congrArg State.clocks hs; exact q), (State.edge_straps _ a b).trans (by have q := congrArg State.straps hs; exact q), (State.edge_boot _ a b).trans (by have q := congrArg State.boot hs; exact q), (State.edge_flash _ a b).trans (by have q := congrArg State.flash hs; exact q), (State.edge_fuses _ a b).trans (by have q := congrArg State.fuses hs; exact q), (State.edge_security _ a b).trans (by have q := congrArg State.security hs; exact q), (State.edge_models _ a b).trans (by have q := congrArg State.models hs; exact q), (State.edge_feeders _ a b).trans (by have q := congrArg State.feeders hs; exact q), (State.edge_ports _ a b).trans (by have q := congrArg State.ports hs; exact q), (State.edge_smbOffset _ a b).trans (by have q := congrArg State.smbOffset hs; exact q), (State.edge_owner _ a b).trans (by have q := congrArg State.owner hs; exact q), (State.edge_cxl _ a b).trans (by have q := congrArg State.cxl hs; exact q), (State.edge_fabricSeq _ a b).trans (by have q := congrArg State.fabricSeq hs; exact q), (State.edge_mbxTurn _ a b).trans (by have q := congrArg State.mbxTurn hs; exact q), (State.edge_turns _ a b).trans (by have q := congrArg State.turns hs; exact q), (State.edge_accepted _ a b).trans (by have q := congrArg State.accepted hs; exact q), (State.edge_bus _ a b).trans (by have q := congrArg State.bus hs; exact q)⟩

/-! ### Owner -/

@[simp] theorem State.setOwner_leaves (s : State) (port : Nat) (nonce : W32) (priority cause : Nat) :
    (State.setOwner s port nonce priority cause).pending = s.pending ∧ (State.setOwner s port nonce priority cause).wall = s.wall ∧ (State.setOwner s port nonce priority cause).time = s.time ∧ (State.setOwner s port nonce priority cause).board = s.board ∧ (State.setOwner s port nonce priority cause).tap = s.tap ∧ (State.setOwner s port nonce priority cause).power = s.power ∧ (State.setOwner s port nonce priority cause).clocks = s.clocks ∧ (State.setOwner s port nonce priority cause).thermal = s.thermal ∧ (State.setOwner s port nonce priority cause).straps = s.straps ∧ (State.setOwner s port nonce priority cause).boot = s.boot ∧ (State.setOwner s port nonce priority cause).flash = s.flash ∧ (State.setOwner s port nonce priority cause).fuses = s.fuses ∧ (State.setOwner s port nonce priority cause).security = s.security ∧ (State.setOwner s port nonce priority cause).models = s.models ∧ (State.setOwner s port nonce priority cause).faultyEdges = s.faultyEdges ∧ (State.setOwner s port nonce priority cause).cores = s.cores ∧ (State.setOwner s port nonce priority cause).feeders = s.feeders ∧ (State.setOwner s port nonce priority cause).memory = s.memory ∧ (State.setOwner s port nonce priority cause).lanes = s.lanes ∧ (State.setOwner s port nonce priority cause).guards = s.guards ∧ (State.setOwner s port nonce priority cause).mbx = s.mbx ∧ (State.setOwner s port nonce priority cause).ports = s.ports ∧ (State.setOwner s port nonce priority cause).smbOffset = s.smbOffset ∧ (State.setOwner s port nonce priority cause).cxl = s.cxl ∧ (State.setOwner s port nonce priority cause).sessions = s.sessions ∧ (State.setOwner s port nonce priority cause).grants = s.grants ∧ (State.setOwner s port nonce priority cause).fabricSeq = s.fabricSeq ∧ (State.setOwner s port nonce priority cause).mbxTurn = s.mbxTurn ∧ (State.setOwner s port nonce priority cause).turns = s.turns ∧ (State.setOwner s port nonce priority cause).accepted = s.accepted ∧ (State.setOwner s port nonce priority cause).bus = s.bus ∧ (State.setOwner s port nonce priority cause).freeTick = s.freeTick := by
  unfold State.setOwner
  try dsimp only
  (repeat' split) <;> simp

@[simp] theorem State.loseOwner_leaves (s : State) (cause : Nat) :
    (State.loseOwner s cause).pending = s.pending ∧ (State.loseOwner s cause).wall = s.wall ∧ (State.loseOwner s cause).time = s.time ∧ (State.loseOwner s cause).board = s.board ∧ (State.loseOwner s cause).tap = s.tap ∧ (State.loseOwner s cause).power = s.power ∧ (State.loseOwner s cause).clocks = s.clocks ∧ (State.loseOwner s cause).thermal = s.thermal ∧ (State.loseOwner s cause).straps = s.straps ∧ (State.loseOwner s cause).boot = s.boot ∧ (State.loseOwner s cause).flash = s.flash ∧ (State.loseOwner s cause).fuses = s.fuses ∧ (State.loseOwner s cause).security = s.security ∧ (State.loseOwner s cause).models = s.models ∧ (State.loseOwner s cause).faultyEdges = s.faultyEdges ∧ (State.loseOwner s cause).cores = s.cores ∧ (State.loseOwner s cause).feeders = s.feeders ∧ (State.loseOwner s cause).memory = s.memory ∧ (State.loseOwner s cause).lanes = s.lanes ∧ (State.loseOwner s cause).guards = s.guards ∧ (State.loseOwner s cause).mbx = s.mbx ∧ (State.loseOwner s cause).ports = s.ports ∧ (State.loseOwner s cause).smbOffset = s.smbOffset ∧ (State.loseOwner s cause).cxl = s.cxl ∧ (State.loseOwner s cause).sessions = s.sessions ∧ (State.loseOwner s cause).grants = s.grants ∧ (State.loseOwner s cause).fabricSeq = s.fabricSeq ∧ (State.loseOwner s cause).mbxTurn = s.mbxTurn ∧ (State.loseOwner s cause).turns = s.turns ∧ (State.loseOwner s cause).accepted = s.accepted ∧ (State.loseOwner s cause).bus = s.bus ∧ (State.loseOwner s cause).freeTick = s.freeTick := by
  unfold State.loseOwner
  try dsimp only
  (repeat' split) <;> simp

@[simp] theorem State.expireLease_leaves (s : State) :
    (State.expireLease s).pending = s.pending ∧ (State.expireLease s).wall = s.wall ∧ (State.expireLease s).time = s.time ∧ (State.expireLease s).board = s.board ∧ (State.expireLease s).tap = s.tap ∧ (State.expireLease s).power = s.power ∧ (State.expireLease s).clocks = s.clocks ∧ (State.expireLease s).thermal = s.thermal ∧ (State.expireLease s).straps = s.straps ∧ (State.expireLease s).boot = s.boot ∧ (State.expireLease s).flash = s.flash ∧ (State.expireLease s).fuses = s.fuses ∧ (State.expireLease s).security = s.security ∧ (State.expireLease s).models = s.models ∧ (State.expireLease s).faultyEdges = s.faultyEdges ∧ (State.expireLease s).cores = s.cores ∧ (State.expireLease s).feeders = s.feeders ∧ (State.expireLease s).memory = s.memory ∧ (State.expireLease s).lanes = s.lanes ∧ (State.expireLease s).guards = s.guards ∧ (State.expireLease s).mbx = s.mbx ∧ (State.expireLease s).ports = s.ports ∧ (State.expireLease s).smbOffset = s.smbOffset ∧ (State.expireLease s).cxl = s.cxl ∧ (State.expireLease s).sessions = s.sessions ∧ (State.expireLease s).grants = s.grants ∧ (State.expireLease s).fabricSeq = s.fabricSeq ∧ (State.expireLease s).mbxTurn = s.mbxTurn ∧ (State.expireLease s).turns = s.turns ∧ (State.expireLease s).accepted = s.accepted ∧ (State.expireLease s).bus = s.bus ∧ (State.expireLease s).freeTick = s.freeTick := by
  unfold State.expireLease
  try dsimp only
  (repeat' split) <;> simp

@[simp] theorem State.closeWindow_leaves (s : State) :
    (State.closeWindow s).pending = s.pending ∧ (State.closeWindow s).wall = s.wall ∧ (State.closeWindow s).time = s.time ∧ (State.closeWindow s).board = s.board ∧ (State.closeWindow s).tap = s.tap ∧ (State.closeWindow s).power = s.power ∧ (State.closeWindow s).clocks = s.clocks ∧ (State.closeWindow s).thermal = s.thermal ∧ (State.closeWindow s).straps = s.straps ∧ (State.closeWindow s).boot = s.boot ∧ (State.closeWindow s).flash = s.flash ∧ (State.closeWindow s).fuses = s.fuses ∧ (State.closeWindow s).security = s.security ∧ (State.closeWindow s).models = s.models ∧ (State.closeWindow s).faultyEdges = s.faultyEdges ∧ (State.closeWindow s).cores = s.cores ∧ (State.closeWindow s).feeders = s.feeders ∧ (State.closeWindow s).memory = s.memory ∧ (State.closeWindow s).lanes = s.lanes ∧ (State.closeWindow s).guards = s.guards ∧ (State.closeWindow s).ports = s.ports ∧ (State.closeWindow s).smbOffset = s.smbOffset ∧ (State.closeWindow s).cxl = s.cxl ∧ (State.closeWindow s).sessions = s.sessions ∧ (State.closeWindow s).grants = s.grants ∧ (State.closeWindow s).fabricSeq = s.fabricSeq ∧ (State.closeWindow s).mbxTurn = s.mbxTurn ∧ (State.closeWindow s).turns = s.turns ∧ (State.closeWindow s).accepted = s.accepted ∧ (State.closeWindow s).bus = s.bus ∧ (State.closeWindow s).freeTick = s.freeTick := by
  unfold State.closeWindow
  try dsimp only
  (repeat' split) <;> simp

@[simp] theorem State.settleOwner_leaves (s : State) :
    (State.settleOwner s).pending = s.pending ∧ (State.settleOwner s).wall = s.wall ∧ (State.settleOwner s).time = s.time ∧ (State.settleOwner s).board = s.board ∧ (State.settleOwner s).tap = s.tap ∧ (State.settleOwner s).power = s.power ∧ (State.settleOwner s).clocks = s.clocks ∧ (State.settleOwner s).thermal = s.thermal ∧ (State.settleOwner s).straps = s.straps ∧ (State.settleOwner s).boot = s.boot ∧ (State.settleOwner s).flash = s.flash ∧ (State.settleOwner s).fuses = s.fuses ∧ (State.settleOwner s).security = s.security ∧ (State.settleOwner s).models = s.models ∧ (State.settleOwner s).faultyEdges = s.faultyEdges ∧ (State.settleOwner s).cores = s.cores ∧ (State.settleOwner s).feeders = s.feeders ∧ (State.settleOwner s).memory = s.memory ∧ (State.settleOwner s).lanes = s.lanes ∧ (State.settleOwner s).guards = s.guards ∧ (State.settleOwner s).ports = s.ports ∧ (State.settleOwner s).smbOffset = s.smbOffset ∧ (State.settleOwner s).cxl = s.cxl ∧ (State.settleOwner s).sessions = s.sessions ∧ (State.settleOwner s).grants = s.grants ∧ (State.settleOwner s).fabricSeq = s.fabricSeq ∧ (State.settleOwner s).mbxTurn = s.mbxTurn ∧ (State.settleOwner s).turns = s.turns ∧ (State.settleOwner s).accepted = s.accepted ∧ (State.settleOwner s).bus = s.bus ∧ (State.settleOwner s).freeTick = s.freeTick := by
  unfold State.settleOwner
  try dsimp only
  (repeat' split) <;> simp

@[simp] theorem State.claim_leaves (s : State) (p k priority : Nat) (nonce : W32) :
    (State.claim s p k priority nonce).pending = s.pending ∧ (State.claim s p k priority nonce).wall = s.wall ∧ (State.claim s p k priority nonce).time = s.time ∧ (State.claim s p k priority nonce).board = s.board ∧ (State.claim s p k priority nonce).tap = s.tap ∧ (State.claim s p k priority nonce).power = s.power ∧ (State.claim s p k priority nonce).clocks = s.clocks ∧ (State.claim s p k priority nonce).thermal = s.thermal ∧ (State.claim s p k priority nonce).straps = s.straps ∧ (State.claim s p k priority nonce).boot = s.boot ∧ (State.claim s p k priority nonce).flash = s.flash ∧ (State.claim s p k priority nonce).fuses = s.fuses ∧ (State.claim s p k priority nonce).security = s.security ∧ (State.claim s p k priority nonce).models = s.models ∧ (State.claim s p k priority nonce).faultyEdges = s.faultyEdges ∧ (State.claim s p k priority nonce).cores = s.cores ∧ (State.claim s p k priority nonce).feeders = s.feeders ∧ (State.claim s p k priority nonce).memory = s.memory ∧ (State.claim s p k priority nonce).lanes = s.lanes ∧ (State.claim s p k priority nonce).guards = s.guards ∧ (State.claim s p k priority nonce).ports = s.ports ∧ (State.claim s p k priority nonce).smbOffset = s.smbOffset ∧ (State.claim s p k priority nonce).cxl = s.cxl ∧ (State.claim s p k priority nonce).sessions = s.sessions ∧ (State.claim s p k priority nonce).grants = s.grants ∧ (State.claim s p k priority nonce).fabricSeq = s.fabricSeq ∧ (State.claim s p k priority nonce).mbxTurn = s.mbxTurn ∧ (State.claim s p k priority nonce).turns = s.turns ∧ (State.claim s p k priority nonce).accepted = s.accepted ∧ (State.claim s p k priority nonce).bus = s.bus ∧ (State.claim s p k priority nonce).freeTick = s.freeTick := by
  unfold State.claim
  try dsimp only
  (repeat' split) <;> simp

@[simp] theorem State.heartbeat_leaves (s : State) :
    (State.heartbeat s).pending = s.pending ∧ (State.heartbeat s).wall = s.wall ∧ (State.heartbeat s).time = s.time ∧ (State.heartbeat s).board = s.board ∧ (State.heartbeat s).tap = s.tap ∧ (State.heartbeat s).power = s.power ∧ (State.heartbeat s).clocks = s.clocks ∧ (State.heartbeat s).thermal = s.thermal ∧ (State.heartbeat s).straps = s.straps ∧ (State.heartbeat s).boot = s.boot ∧ (State.heartbeat s).flash = s.flash ∧ (State.heartbeat s).fuses = s.fuses ∧ (State.heartbeat s).security = s.security ∧ (State.heartbeat s).models = s.models ∧ (State.heartbeat s).faultyEdges = s.faultyEdges ∧ (State.heartbeat s).cores = s.cores ∧ (State.heartbeat s).feeders = s.feeders ∧ (State.heartbeat s).memory = s.memory ∧ (State.heartbeat s).lanes = s.lanes ∧ (State.heartbeat s).guards = s.guards ∧ (State.heartbeat s).mbx = s.mbx ∧ (State.heartbeat s).ports = s.ports ∧ (State.heartbeat s).smbOffset = s.smbOffset ∧ (State.heartbeat s).alertPending = s.alertPending ∧ (State.heartbeat s).pcie = s.pcie ∧ (State.heartbeat s).cxl = s.cxl ∧ (State.heartbeat s).cascade = s.cascade ∧ (State.heartbeat s).sessions = s.sessions ∧ (State.heartbeat s).grants = s.grants ∧ (State.heartbeat s).fabricSeq = s.fabricSeq ∧ (State.heartbeat s).mbxTurn = s.mbxTurn ∧ (State.heartbeat s).turns = s.turns ∧ (State.heartbeat s).accepted = s.accepted ∧ (State.heartbeat s).bus = s.bus ∧ (State.heartbeat s).freeTick = s.freeTick := by
  unfold State.heartbeat
  try dsimp only
  (repeat' split) <;> simp

/-! ### Mailbox -/

@[simp] theorem State.writeSeal_leaves (s : State) (p k : Nat) (seq opcode : W16) :
    (State.writeSeal s p k seq opcode).pending = s.pending ∧ (State.writeSeal s p k seq opcode).wall = s.wall ∧ (State.writeSeal s p k seq opcode).time = s.time ∧ (State.writeSeal s p k seq opcode).board = s.board ∧ (State.writeSeal s p k seq opcode).tap = s.tap ∧ (State.writeSeal s p k seq opcode).power = s.power ∧ (State.writeSeal s p k seq opcode).clocks = s.clocks ∧ (State.writeSeal s p k seq opcode).thermal = s.thermal ∧ (State.writeSeal s p k seq opcode).straps = s.straps ∧ (State.writeSeal s p k seq opcode).boot = s.boot ∧ (State.writeSeal s p k seq opcode).flash = s.flash ∧ (State.writeSeal s p k seq opcode).fuses = s.fuses ∧ (State.writeSeal s p k seq opcode).security = s.security ∧ (State.writeSeal s p k seq opcode).models = s.models ∧ (State.writeSeal s p k seq opcode).dies = s.dies ∧ (State.writeSeal s p k seq opcode).faultyEdges = s.faultyEdges ∧ (State.writeSeal s p k seq opcode).cores = s.cores ∧ (State.writeSeal s p k seq opcode).feeders = s.feeders ∧ (State.writeSeal s p k seq opcode).memory = s.memory ∧ (State.writeSeal s p k seq opcode).lanes = s.lanes ∧ (State.writeSeal s p k seq opcode).guards = s.guards ∧ (State.writeSeal s p k seq opcode).smbOffset = s.smbOffset ∧ (State.writeSeal s p k seq opcode).owner = s.owner ∧ (State.writeSeal s p k seq opcode).log = s.log ∧ (State.writeSeal s p k seq opcode).cxl = s.cxl ∧ (State.writeSeal s p k seq opcode).sessions = s.sessions ∧ (State.writeSeal s p k seq opcode).grants = s.grants ∧ (State.writeSeal s p k seq opcode).fabricSeq = s.fabricSeq ∧ (State.writeSeal s p k seq opcode).mbxTurn = s.mbxTurn ∧ (State.writeSeal s p k seq opcode).turns = s.turns ∧ (State.writeSeal s p k seq opcode).accepted = s.accepted ∧ (State.writeSeal s p k seq opcode).bus = s.bus ∧ (State.writeSeal s p k seq opcode).freeTick = s.freeTick := by
  unfold State.writeSeal
  try dsimp only
  (repeat' split) <;> simp

@[simp] theorem State.consumeSeq_leaves (s : State) (p : Nat) (seq : W16) :
    (State.consumeSeq s p seq).pending = s.pending ∧ (State.consumeSeq s p seq).wall = s.wall ∧ (State.consumeSeq s p seq).time = s.time ∧ (State.consumeSeq s p seq).board = s.board ∧ (State.consumeSeq s p seq).tap = s.tap ∧ (State.consumeSeq s p seq).power = s.power ∧ (State.consumeSeq s p seq).clocks = s.clocks ∧ (State.consumeSeq s p seq).thermal = s.thermal ∧ (State.consumeSeq s p seq).straps = s.straps ∧ (State.consumeSeq s p seq).boot = s.boot ∧ (State.consumeSeq s p seq).flash = s.flash ∧ (State.consumeSeq s p seq).fuses = s.fuses ∧ (State.consumeSeq s p seq).security = s.security ∧ (State.consumeSeq s p seq).models = s.models ∧ (State.consumeSeq s p seq).dies = s.dies ∧ (State.consumeSeq s p seq).faultyEdges = s.faultyEdges ∧ (State.consumeSeq s p seq).cores = s.cores ∧ (State.consumeSeq s p seq).feeders = s.feeders ∧ (State.consumeSeq s p seq).memory = s.memory ∧ (State.consumeSeq s p seq).lanes = s.lanes ∧ (State.consumeSeq s p seq).guards = s.guards ∧ (State.consumeSeq s p seq).mbx = s.mbx ∧ (State.consumeSeq s p seq).smbOffset = s.smbOffset ∧ (State.consumeSeq s p seq).alertPending = s.alertPending ∧ (State.consumeSeq s p seq).owner = s.owner ∧ (State.consumeSeq s p seq).log = s.log ∧ (State.consumeSeq s p seq).pcie = s.pcie ∧ (State.consumeSeq s p seq).cxl = s.cxl ∧ (State.consumeSeq s p seq).cascade = s.cascade ∧ (State.consumeSeq s p seq).sessions = s.sessions ∧ (State.consumeSeq s p seq).grants = s.grants ∧ (State.consumeSeq s p seq).fabricSeq = s.fabricSeq ∧ (State.consumeSeq s p seq).mbxTurn = s.mbxTurn ∧ (State.consumeSeq s p seq).turns = s.turns ∧ (State.consumeSeq s p seq).accepted = s.accepted ∧ (State.consumeSeq s p seq).bus = s.bus ∧ (State.consumeSeq s p seq).freeTick = s.freeTick := by
  unfold State.consumeSeq
  try dsimp only
  (repeat' split) <;> simp

@[simp] theorem State.writeSlotState_leaves (s : State) (p k v : Nat) :
    (State.writeSlotState s p k v).pending = s.pending ∧ (State.writeSlotState s p k v).wall = s.wall ∧ (State.writeSlotState s p k v).time = s.time ∧ (State.writeSlotState s p k v).board = s.board ∧ (State.writeSlotState s p k v).tap = s.tap ∧ (State.writeSlotState s p k v).power = s.power ∧ (State.writeSlotState s p k v).clocks = s.clocks ∧ (State.writeSlotState s p k v).thermal = s.thermal ∧ (State.writeSlotState s p k v).straps = s.straps ∧ (State.writeSlotState s p k v).boot = s.boot ∧ (State.writeSlotState s p k v).flash = s.flash ∧ (State.writeSlotState s p k v).fuses = s.fuses ∧ (State.writeSlotState s p k v).security = s.security ∧ (State.writeSlotState s p k v).models = s.models ∧ (State.writeSlotState s p k v).dies = s.dies ∧ (State.writeSlotState s p k v).faultyEdges = s.faultyEdges ∧ (State.writeSlotState s p k v).cores = s.cores ∧ (State.writeSlotState s p k v).feeders = s.feeders ∧ (State.writeSlotState s p k v).memory = s.memory ∧ (State.writeSlotState s p k v).lanes = s.lanes ∧ (State.writeSlotState s p k v).guards = s.guards ∧ (State.writeSlotState s p k v).smbOffset = s.smbOffset ∧ (State.writeSlotState s p k v).owner = s.owner ∧ (State.writeSlotState s p k v).log = s.log ∧ (State.writeSlotState s p k v).cxl = s.cxl ∧ (State.writeSlotState s p k v).sessions = s.sessions ∧ (State.writeSlotState s p k v).grants = s.grants ∧ (State.writeSlotState s p k v).fabricSeq = s.fabricSeq ∧ (State.writeSlotState s p k v).mbxTurn = s.mbxTurn ∧ (State.writeSlotState s p k v).turns = s.turns ∧ (State.writeSlotState s p k v).accepted = s.accepted ∧ (State.writeSlotState s p k v).bus = s.bus ∧ (State.writeSlotState s p k v).freeTick = s.freeTick := by
  unfold State.writeSlotState
  try dsimp only
  (repeat' split) <;> simp

@[simp] theorem State.writeOpenSlot_leaves (s : State) (p k : Nat) (f : MbxSlot → MbxSlot) :
    (State.writeOpenSlot s p k f).pending = s.pending ∧ (State.writeOpenSlot s p k f).wall = s.wall ∧ (State.writeOpenSlot s p k f).time = s.time ∧ (State.writeOpenSlot s p k f).board = s.board ∧ (State.writeOpenSlot s p k f).tap = s.tap ∧ (State.writeOpenSlot s p k f).power = s.power ∧ (State.writeOpenSlot s p k f).clocks = s.clocks ∧ (State.writeOpenSlot s p k f).thermal = s.thermal ∧ (State.writeOpenSlot s p k f).straps = s.straps ∧ (State.writeOpenSlot s p k f).boot = s.boot ∧ (State.writeOpenSlot s p k f).flash = s.flash ∧ (State.writeOpenSlot s p k f).fuses = s.fuses ∧ (State.writeOpenSlot s p k f).security = s.security ∧ (State.writeOpenSlot s p k f).models = s.models ∧ (State.writeOpenSlot s p k f).dies = s.dies ∧ (State.writeOpenSlot s p k f).faultyEdges = s.faultyEdges ∧ (State.writeOpenSlot s p k f).cores = s.cores ∧ (State.writeOpenSlot s p k f).feeders = s.feeders ∧ (State.writeOpenSlot s p k f).memory = s.memory ∧ (State.writeOpenSlot s p k f).lanes = s.lanes ∧ (State.writeOpenSlot s p k f).guards = s.guards ∧ (State.writeOpenSlot s p k f).smbOffset = s.smbOffset ∧ (State.writeOpenSlot s p k f).alertPending = s.alertPending ∧ (State.writeOpenSlot s p k f).owner = s.owner ∧ (State.writeOpenSlot s p k f).log = s.log ∧ (State.writeOpenSlot s p k f).pcie = s.pcie ∧ (State.writeOpenSlot s p k f).cxl = s.cxl ∧ (State.writeOpenSlot s p k f).cascade = s.cascade ∧ (State.writeOpenSlot s p k f).sessions = s.sessions ∧ (State.writeOpenSlot s p k f).grants = s.grants ∧ (State.writeOpenSlot s p k f).fabricSeq = s.fabricSeq ∧ (State.writeOpenSlot s p k f).mbxTurn = s.mbxTurn ∧ (State.writeOpenSlot s p k f).turns = s.turns ∧ (State.writeOpenSlot s p k f).accepted = s.accepted ∧ (State.writeOpenSlot s p k f).bus = s.bus ∧ (State.writeOpenSlot s p k f).freeTick = s.freeTick := by
  unfold State.writeOpenSlot
  try dsimp only
  (repeat' split) <;> simp

@[simp] theorem State.writeSlot_leaves (s : State) (p k off : Nat) (bs : Bytes) :
    (State.writeSlot s p k off bs).pending = s.pending ∧ (State.writeSlot s p k off bs).wall = s.wall ∧ (State.writeSlot s p k off bs).time = s.time ∧ (State.writeSlot s p k off bs).board = s.board ∧ (State.writeSlot s p k off bs).tap = s.tap ∧ (State.writeSlot s p k off bs).power = s.power ∧ (State.writeSlot s p k off bs).clocks = s.clocks ∧ (State.writeSlot s p k off bs).thermal = s.thermal ∧ (State.writeSlot s p k off bs).straps = s.straps ∧ (State.writeSlot s p k off bs).boot = s.boot ∧ (State.writeSlot s p k off bs).flash = s.flash ∧ (State.writeSlot s p k off bs).fuses = s.fuses ∧ (State.writeSlot s p k off bs).security = s.security ∧ (State.writeSlot s p k off bs).models = s.models ∧ (State.writeSlot s p k off bs).dies = s.dies ∧ (State.writeSlot s p k off bs).faultyEdges = s.faultyEdges ∧ (State.writeSlot s p k off bs).cores = s.cores ∧ (State.writeSlot s p k off bs).feeders = s.feeders ∧ (State.writeSlot s p k off bs).memory = s.memory ∧ (State.writeSlot s p k off bs).lanes = s.lanes ∧ (State.writeSlot s p k off bs).guards = s.guards ∧ (State.writeSlot s p k off bs).smbOffset = s.smbOffset ∧ (State.writeSlot s p k off bs).owner = s.owner ∧ (State.writeSlot s p k off bs).log = s.log ∧ (State.writeSlot s p k off bs).cxl = s.cxl ∧ (State.writeSlot s p k off bs).sessions = s.sessions ∧ (State.writeSlot s p k off bs).grants = s.grants ∧ (State.writeSlot s p k off bs).fabricSeq = s.fabricSeq ∧ (State.writeSlot s p k off bs).mbxTurn = s.mbxTurn ∧ (State.writeSlot s p k off bs).turns = s.turns ∧ (State.writeSlot s p k off bs).accepted = s.accepted ∧ (State.writeSlot s p k off bs).bus = s.bus ∧ (State.writeSlot s p k off bs).freeTick = s.freeTick := by
  unfold State.writeSlot
  try dsimp only
  (repeat' split) <;> simp

@[simp] theorem State.writeBank_leaves (s : State) (p off : Nat) (bs : Bytes) :
    (State.writeBank s p off bs).pending = s.pending ∧ (State.writeBank s p off bs).wall = s.wall ∧ (State.writeBank s p off bs).time = s.time ∧ (State.writeBank s p off bs).board = s.board ∧ (State.writeBank s p off bs).tap = s.tap ∧ (State.writeBank s p off bs).power = s.power ∧ (State.writeBank s p off bs).clocks = s.clocks ∧ (State.writeBank s p off bs).thermal = s.thermal ∧ (State.writeBank s p off bs).straps = s.straps ∧ (State.writeBank s p off bs).boot = s.boot ∧ (State.writeBank s p off bs).flash = s.flash ∧ (State.writeBank s p off bs).fuses = s.fuses ∧ (State.writeBank s p off bs).security = s.security ∧ (State.writeBank s p off bs).models = s.models ∧ (State.writeBank s p off bs).dies = s.dies ∧ (State.writeBank s p off bs).faultyEdges = s.faultyEdges ∧ (State.writeBank s p off bs).cores = s.cores ∧ (State.writeBank s p off bs).feeders = s.feeders ∧ (State.writeBank s p off bs).memory = s.memory ∧ (State.writeBank s p off bs).lanes = s.lanes ∧ (State.writeBank s p off bs).guards = s.guards ∧ (State.writeBank s p off bs).smbOffset = s.smbOffset ∧ (State.writeBank s p off bs).owner = s.owner ∧ (State.writeBank s p off bs).log = s.log ∧ (State.writeBank s p off bs).cxl = s.cxl ∧ (State.writeBank s p off bs).sessions = s.sessions ∧ (State.writeBank s p off bs).grants = s.grants ∧ (State.writeBank s p off bs).fabricSeq = s.fabricSeq ∧ (State.writeBank s p off bs).mbxTurn = s.mbxTurn ∧ (State.writeBank s p off bs).turns = s.turns ∧ (State.writeBank s p off bs).accepted = s.accepted ∧ (State.writeBank s p off bs).bus = s.bus ∧ (State.writeBank s p off bs).freeTick = s.freeTick := by
  unfold State.writeBank
  refine ⟨?_, ?_, ?_, ?_, ?_, ?_, ?_, ?_, ?_, ?_, ?_, ?_, ?_, ?_, ?_, ?_, ?_, ?_, ?_, ?_, ?_, ?_, ?_, ?_, ?_, ?_, ?_, ?_, ?_, ?_, ?_, ?_, ?_⟩ <;> exact State.foldl_same _ _ (fun t x => by (repeat' split) <;> simp) _ _

@[simp] theorem State.skipGap_leaves (s : State) (p : Nat) :
    (State.skipGap s p).pending = s.pending ∧ (State.skipGap s p).wall = s.wall ∧ (State.skipGap s p).time = s.time ∧ (State.skipGap s p).board = s.board ∧ (State.skipGap s p).tap = s.tap ∧ (State.skipGap s p).power = s.power ∧ (State.skipGap s p).clocks = s.clocks ∧ (State.skipGap s p).thermal = s.thermal ∧ (State.skipGap s p).straps = s.straps ∧ (State.skipGap s p).boot = s.boot ∧ (State.skipGap s p).flash = s.flash ∧ (State.skipGap s p).fuses = s.fuses ∧ (State.skipGap s p).security = s.security ∧ (State.skipGap s p).models = s.models ∧ (State.skipGap s p).faultyEdges = s.faultyEdges ∧ (State.skipGap s p).cores = s.cores ∧ (State.skipGap s p).feeders = s.feeders ∧ (State.skipGap s p).memory = s.memory ∧ (State.skipGap s p).lanes = s.lanes ∧ (State.skipGap s p).guards = s.guards ∧ (State.skipGap s p).smbOffset = s.smbOffset ∧ (State.skipGap s p).owner = s.owner ∧ (State.skipGap s p).cxl = s.cxl ∧ (State.skipGap s p).sessions = s.sessions ∧ (State.skipGap s p).grants = s.grants ∧ (State.skipGap s p).fabricSeq = s.fabricSeq ∧ (State.skipGap s p).mbxTurn = s.mbxTurn ∧ (State.skipGap s p).turns = s.turns ∧ (State.skipGap s p).accepted = s.accepted ∧ (State.skipGap s p).bus = s.bus ∧ (State.skipGap s p).freeTick = s.freeTick := by
  unfold State.skipGap
  try dsimp only
  (repeat' split) <;> simp

@[simp] theorem State.setBus_leaves (s : State) (d : Bytes) :
    (State.setBus s d).pending = s.pending ∧ (State.setBus s d).wall = s.wall ∧ (State.setBus s d).time = s.time ∧ (State.setBus s d).board = s.board ∧ (State.setBus s d).tap = s.tap ∧ (State.setBus s d).power = s.power ∧ (State.setBus s d).clocks = s.clocks ∧ (State.setBus s d).thermal = s.thermal ∧ (State.setBus s d).straps = s.straps ∧ (State.setBus s d).boot = s.boot ∧ (State.setBus s d).flash = s.flash ∧ (State.setBus s d).fuses = s.fuses ∧ (State.setBus s d).security = s.security ∧ (State.setBus s d).models = s.models ∧ (State.setBus s d).dies = s.dies ∧ (State.setBus s d).faultyEdges = s.faultyEdges ∧ (State.setBus s d).cores = s.cores ∧ (State.setBus s d).feeders = s.feeders ∧ (State.setBus s d).memory = s.memory ∧ (State.setBus s d).lanes = s.lanes ∧ (State.setBus s d).guards = s.guards ∧ (State.setBus s d).mbx = s.mbx ∧ (State.setBus s d).ports = s.ports ∧ (State.setBus s d).smbOffset = s.smbOffset ∧ (State.setBus s d).alertPending = s.alertPending ∧ (State.setBus s d).owner = s.owner ∧ (State.setBus s d).log = s.log ∧ (State.setBus s d).pcie = s.pcie ∧ (State.setBus s d).cxl = s.cxl ∧ (State.setBus s d).cascade = s.cascade ∧ (State.setBus s d).sessions = s.sessions ∧ (State.setBus s d).grants = s.grants ∧ (State.setBus s d).fabricSeq = s.fabricSeq ∧ (State.setBus s d).mbxTurn = s.mbxTurn ∧ (State.setBus s d).turns = s.turns ∧ (State.setBus s d).accepted = s.accepted ∧ (State.setBus s d).freeTick = s.freeTick := by
  unfold State.setBus
  try dsimp only
  (repeat' split) <;> simp

@[simp] theorem State.nackBus_leaves (s : State) :
    (State.nackBus s).pending = s.pending ∧ (State.nackBus s).wall = s.wall ∧ (State.nackBus s).time = s.time ∧ (State.nackBus s).board = s.board ∧ (State.nackBus s).tap = s.tap ∧ (State.nackBus s).power = s.power ∧ (State.nackBus s).clocks = s.clocks ∧ (State.nackBus s).thermal = s.thermal ∧ (State.nackBus s).straps = s.straps ∧ (State.nackBus s).boot = s.boot ∧ (State.nackBus s).flash = s.flash ∧ (State.nackBus s).fuses = s.fuses ∧ (State.nackBus s).security = s.security ∧ (State.nackBus s).models = s.models ∧ (State.nackBus s).dies = s.dies ∧ (State.nackBus s).faultyEdges = s.faultyEdges ∧ (State.nackBus s).cores = s.cores ∧ (State.nackBus s).feeders = s.feeders ∧ (State.nackBus s).memory = s.memory ∧ (State.nackBus s).lanes = s.lanes ∧ (State.nackBus s).guards = s.guards ∧ (State.nackBus s).mbx = s.mbx ∧ (State.nackBus s).ports = s.ports ∧ (State.nackBus s).smbOffset = s.smbOffset ∧ (State.nackBus s).alertPending = s.alertPending ∧ (State.nackBus s).owner = s.owner ∧ (State.nackBus s).log = s.log ∧ (State.nackBus s).pcie = s.pcie ∧ (State.nackBus s).cxl = s.cxl ∧ (State.nackBus s).cascade = s.cascade ∧ (State.nackBus s).sessions = s.sessions ∧ (State.nackBus s).grants = s.grants ∧ (State.nackBus s).fabricSeq = s.fabricSeq ∧ (State.nackBus s).mbxTurn = s.mbxTurn ∧ (State.nackBus s).turns = s.turns ∧ (State.nackBus s).accepted = s.accepted ∧ (State.nackBus s).freeTick = s.freeTick := by
  unfold State.nackBus
  try dsimp only
  (repeat' split) <;> simp

@[simp] theorem State.pecDiscard_leaves (s : State) :
    (State.pecDiscard s).pending = s.pending ∧ (State.pecDiscard s).wall = s.wall ∧ (State.pecDiscard s).time = s.time ∧ (State.pecDiscard s).board = s.board ∧ (State.pecDiscard s).tap = s.tap ∧ (State.pecDiscard s).power = s.power ∧ (State.pecDiscard s).clocks = s.clocks ∧ (State.pecDiscard s).thermal = s.thermal ∧ (State.pecDiscard s).straps = s.straps ∧ (State.pecDiscard s).boot = s.boot ∧ (State.pecDiscard s).flash = s.flash ∧ (State.pecDiscard s).fuses = s.fuses ∧ (State.pecDiscard s).security = s.security ∧ (State.pecDiscard s).models = s.models ∧ (State.pecDiscard s).dies = s.dies ∧ (State.pecDiscard s).faultyEdges = s.faultyEdges ∧ (State.pecDiscard s).cores = s.cores ∧ (State.pecDiscard s).feeders = s.feeders ∧ (State.pecDiscard s).memory = s.memory ∧ (State.pecDiscard s).lanes = s.lanes ∧ (State.pecDiscard s).guards = s.guards ∧ (State.pecDiscard s).mbx = s.mbx ∧ (State.pecDiscard s).smbOffset = s.smbOffset ∧ (State.pecDiscard s).alertPending = s.alertPending ∧ (State.pecDiscard s).owner = s.owner ∧ (State.pecDiscard s).log = s.log ∧ (State.pecDiscard s).pcie = s.pcie ∧ (State.pecDiscard s).cxl = s.cxl ∧ (State.pecDiscard s).cascade = s.cascade ∧ (State.pecDiscard s).sessions = s.sessions ∧ (State.pecDiscard s).grants = s.grants ∧ (State.pecDiscard s).fabricSeq = s.fabricSeq ∧ (State.pecDiscard s).mbxTurn = s.mbxTurn ∧ (State.pecDiscard s).turns = s.turns ∧ (State.pecDiscard s).accepted = s.accepted ∧ (State.pecDiscard s).bus = s.bus ∧ (State.pecDiscard s).freeTick = s.freeTick := by
  unfold State.pecDiscard
  try dsimp only
  (repeat' split) <;> simp

@[simp] theorem State.commitEvent_leaves (s : State) :
    (State.commitEvent s).pending = s.pending ∧ (State.commitEvent s).wall = s.wall ∧ (State.commitEvent s).time = s.time ∧ (State.commitEvent s).board = s.board ∧ (State.commitEvent s).tap = s.tap ∧ (State.commitEvent s).power = s.power ∧ (State.commitEvent s).clocks = s.clocks ∧ (State.commitEvent s).thermal = s.thermal ∧ (State.commitEvent s).straps = s.straps ∧ (State.commitEvent s).boot = s.boot ∧ (State.commitEvent s).flash = s.flash ∧ (State.commitEvent s).fuses = s.fuses ∧ (State.commitEvent s).security = s.security ∧ (State.commitEvent s).models = s.models ∧ (State.commitEvent s).dies = s.dies ∧ (State.commitEvent s).faultyEdges = s.faultyEdges ∧ (State.commitEvent s).cores = s.cores ∧ (State.commitEvent s).feeders = s.feeders ∧ (State.commitEvent s).memory = s.memory ∧ (State.commitEvent s).lanes = s.lanes ∧ (State.commitEvent s).guards = s.guards ∧ (State.commitEvent s).mbx = s.mbx ∧ (State.commitEvent s).ports = s.ports ∧ (State.commitEvent s).smbOffset = s.smbOffset ∧ (State.commitEvent s).owner = s.owner ∧ (State.commitEvent s).cxl = s.cxl ∧ (State.commitEvent s).sessions = s.sessions ∧ (State.commitEvent s).grants = s.grants ∧ (State.commitEvent s).fabricSeq = s.fabricSeq ∧ (State.commitEvent s).mbxTurn = s.mbxTurn ∧ (State.commitEvent s).turns = s.turns ∧ (State.commitEvent s).accepted = s.accepted ∧ (State.commitEvent s).bus = s.bus ∧ (State.commitEvent s).freeTick = s.freeTick := by
  unfold State.commitEvent
  try dsimp only
  (repeat' split) <;> simp

/-! ### Pcie -/

@[simp] theorem State.resetSlots_leaves (s : State) (p : Nat) :
    (State.resetSlots s p).pending = s.pending ∧ (State.resetSlots s p).wall = s.wall ∧ (State.resetSlots s p).time = s.time ∧ (State.resetSlots s p).board = s.board ∧ (State.resetSlots s p).tap = s.tap ∧ (State.resetSlots s p).power = s.power ∧ (State.resetSlots s p).clocks = s.clocks ∧ (State.resetSlots s p).thermal = s.thermal ∧ (State.resetSlots s p).straps = s.straps ∧ (State.resetSlots s p).boot = s.boot ∧ (State.resetSlots s p).flash = s.flash ∧ (State.resetSlots s p).fuses = s.fuses ∧ (State.resetSlots s p).security = s.security ∧ (State.resetSlots s p).models = s.models ∧ (State.resetSlots s p).dies = s.dies ∧ (State.resetSlots s p).faultyEdges = s.faultyEdges ∧ (State.resetSlots s p).cores = s.cores ∧ (State.resetSlots s p).feeders = s.feeders ∧ (State.resetSlots s p).memory = s.memory ∧ (State.resetSlots s p).lanes = s.lanes ∧ (State.resetSlots s p).guards = s.guards ∧ (State.resetSlots s p).ports = s.ports ∧ (State.resetSlots s p).smbOffset = s.smbOffset ∧ (State.resetSlots s p).alertPending = s.alertPending ∧ (State.resetSlots s p).owner = s.owner ∧ (State.resetSlots s p).log = s.log ∧ (State.resetSlots s p).pcie = s.pcie ∧ (State.resetSlots s p).cxl = s.cxl ∧ (State.resetSlots s p).cascade = s.cascade ∧ (State.resetSlots s p).sessions = s.sessions ∧ (State.resetSlots s p).grants = s.grants ∧ (State.resetSlots s p).fabricSeq = s.fabricSeq ∧ (State.resetSlots s p).mbxTurn = s.mbxTurn ∧ (State.resetSlots s p).turns = s.turns ∧ (State.resetSlots s p).accepted = s.accepted ∧ (State.resetSlots s p).bus = s.bus ∧ (State.resetSlots s p).freeTick = s.freeTick := by
  unfold State.resetSlots
  refine ⟨?_, ?_, ?_, ?_, ?_, ?_, ?_, ?_, ?_, ?_, ?_, ?_, ?_, ?_, ?_, ?_, ?_, ?_, ?_, ?_, ?_, ?_, ?_, ?_, ?_, ?_, ?_, ?_, ?_, ?_, ?_, ?_, ?_, ?_, ?_, ?_, ?_⟩ <;> exact State.foldl_same _ _ (fun t x => by (repeat' split) <;> simp) _ _

@[simp] theorem State.losePortOwner_leaves (s : State) :
    (State.losePortOwner s).pending = s.pending ∧ (State.losePortOwner s).wall = s.wall ∧ (State.losePortOwner s).time = s.time ∧ (State.losePortOwner s).board = s.board ∧ (State.losePortOwner s).tap = s.tap ∧ (State.losePortOwner s).power = s.power ∧ (State.losePortOwner s).clocks = s.clocks ∧ (State.losePortOwner s).thermal = s.thermal ∧ (State.losePortOwner s).straps = s.straps ∧ (State.losePortOwner s).boot = s.boot ∧ (State.losePortOwner s).flash = s.flash ∧ (State.losePortOwner s).fuses = s.fuses ∧ (State.losePortOwner s).security = s.security ∧ (State.losePortOwner s).models = s.models ∧ (State.losePortOwner s).faultyEdges = s.faultyEdges ∧ (State.losePortOwner s).cores = s.cores ∧ (State.losePortOwner s).feeders = s.feeders ∧ (State.losePortOwner s).memory = s.memory ∧ (State.losePortOwner s).lanes = s.lanes ∧ (State.losePortOwner s).guards = s.guards ∧ (State.losePortOwner s).smbOffset = s.smbOffset ∧ (State.losePortOwner s).cxl = s.cxl ∧ (State.losePortOwner s).sessions = s.sessions ∧ (State.losePortOwner s).grants = s.grants ∧ (State.losePortOwner s).fabricSeq = s.fabricSeq ∧ (State.losePortOwner s).mbxTurn = s.mbxTurn ∧ (State.losePortOwner s).turns = s.turns ∧ (State.losePortOwner s).accepted = s.accepted ∧ (State.losePortOwner s).bus = s.bus ∧ (State.losePortOwner s).freeTick = s.freeTick := by
  unfold State.losePortOwner
  try dsimp only
  (repeat' split) <;> simp

@[simp] theorem State.portReset_leaves (s : State) (p : Nat) :
    (State.portReset s p).pending = s.pending ∧ (State.portReset s p).wall = s.wall ∧ (State.portReset s p).time = s.time ∧ (State.portReset s p).board = s.board ∧ (State.portReset s p).tap = s.tap ∧ (State.portReset s p).power = s.power ∧ (State.portReset s p).clocks = s.clocks ∧ (State.portReset s p).thermal = s.thermal ∧ (State.portReset s p).straps = s.straps ∧ (State.portReset s p).boot = s.boot ∧ (State.portReset s p).flash = s.flash ∧ (State.portReset s p).fuses = s.fuses ∧ (State.portReset s p).security = s.security ∧ (State.portReset s p).models = s.models ∧ (State.portReset s p).faultyEdges = s.faultyEdges ∧ (State.portReset s p).cores = s.cores ∧ (State.portReset s p).feeders = s.feeders ∧ (State.portReset s p).memory = s.memory ∧ (State.portReset s p).lanes = s.lanes ∧ (State.portReset s p).guards = s.guards ∧ (State.portReset s p).smbOffset = s.smbOffset ∧ (State.portReset s p).cxl = s.cxl ∧ (State.portReset s p).sessions = s.sessions ∧ (State.portReset s p).grants = s.grants ∧ (State.portReset s p).fabricSeq = s.fabricSeq ∧ (State.portReset s p).mbxTurn = s.mbxTurn ∧ (State.portReset s p).turns = s.turns ∧ (State.portReset s p).accepted = s.accepted ∧ (State.portReset s p).bus = s.bus ∧ (State.portReset s p).freeTick = s.freeTick := by
  unfold State.portReset
  try dsimp only
  (repeat' split) <;> simp

@[simp] theorem State.setPerst_leaves (s : State) (p : Nat) (v : Bool) :
    (State.setPerst s p v).pending = s.pending ∧ (State.setPerst s p v).wall = s.wall ∧ (State.setPerst s p v).time = s.time ∧ (State.setPerst s p v).tap = s.tap ∧ (State.setPerst s p v).power = s.power ∧ (State.setPerst s p v).clocks = s.clocks ∧ (State.setPerst s p v).thermal = s.thermal ∧ (State.setPerst s p v).straps = s.straps ∧ (State.setPerst s p v).boot = s.boot ∧ (State.setPerst s p v).flash = s.flash ∧ (State.setPerst s p v).fuses = s.fuses ∧ (State.setPerst s p v).security = s.security ∧ (State.setPerst s p v).models = s.models ∧ (State.setPerst s p v).dies = s.dies ∧ (State.setPerst s p v).faultyEdges = s.faultyEdges ∧ (State.setPerst s p v).cores = s.cores ∧ (State.setPerst s p v).feeders = s.feeders ∧ (State.setPerst s p v).memory = s.memory ∧ (State.setPerst s p v).lanes = s.lanes ∧ (State.setPerst s p v).guards = s.guards ∧ (State.setPerst s p v).mbx = s.mbx ∧ (State.setPerst s p v).ports = s.ports ∧ (State.setPerst s p v).smbOffset = s.smbOffset ∧ (State.setPerst s p v).alertPending = s.alertPending ∧ (State.setPerst s p v).owner = s.owner ∧ (State.setPerst s p v).log = s.log ∧ (State.setPerst s p v).pcie = s.pcie ∧ (State.setPerst s p v).cxl = s.cxl ∧ (State.setPerst s p v).cascade = s.cascade ∧ (State.setPerst s p v).sessions = s.sessions ∧ (State.setPerst s p v).grants = s.grants ∧ (State.setPerst s p v).fabricSeq = s.fabricSeq ∧ (State.setPerst s p v).mbxTurn = s.mbxTurn ∧ (State.setPerst s p v).turns = s.turns ∧ (State.setPerst s p v).accepted = s.accepted ∧ (State.setPerst s p v).bus = s.bus ∧ (State.setPerst s p v).freeTick = s.freeTick := by
  unfold State.setPerst
  try dsimp only
  (repeat' split) <;> simp

@[simp] theorem State.startTraining_leaves (s : State) (p : Nat) :
    (State.startTraining s p).pending = s.pending ∧ (State.startTraining s p).wall = s.wall ∧ (State.startTraining s p).time = s.time ∧ (State.startTraining s p).board = s.board ∧ (State.startTraining s p).tap = s.tap ∧ (State.startTraining s p).power = s.power ∧ (State.startTraining s p).clocks = s.clocks ∧ (State.startTraining s p).thermal = s.thermal ∧ (State.startTraining s p).straps = s.straps ∧ (State.startTraining s p).boot = s.boot ∧ (State.startTraining s p).flash = s.flash ∧ (State.startTraining s p).fuses = s.fuses ∧ (State.startTraining s p).security = s.security ∧ (State.startTraining s p).models = s.models ∧ (State.startTraining s p).dies = s.dies ∧ (State.startTraining s p).faultyEdges = s.faultyEdges ∧ (State.startTraining s p).cores = s.cores ∧ (State.startTraining s p).feeders = s.feeders ∧ (State.startTraining s p).memory = s.memory ∧ (State.startTraining s p).lanes = s.lanes ∧ (State.startTraining s p).guards = s.guards ∧ (State.startTraining s p).mbx = s.mbx ∧ (State.startTraining s p).ports = s.ports ∧ (State.startTraining s p).smbOffset = s.smbOffset ∧ (State.startTraining s p).alertPending = s.alertPending ∧ (State.startTraining s p).owner = s.owner ∧ (State.startTraining s p).log = s.log ∧ (State.startTraining s p).cxl = s.cxl ∧ (State.startTraining s p).cascade = s.cascade ∧ (State.startTraining s p).sessions = s.sessions ∧ (State.startTraining s p).grants = s.grants ∧ (State.startTraining s p).fabricSeq = s.fabricSeq ∧ (State.startTraining s p).mbxTurn = s.mbxTurn ∧ (State.startTraining s p).turns = s.turns ∧ (State.startTraining s p).accepted = s.accepted ∧ (State.startTraining s p).bus = s.bus ∧ (State.startTraining s p).freeTick = s.freeTick := by
  unfold State.startTraining
  try dsimp only
  (repeat' split) <;> simp

@[simp] theorem State.firePending_leaves (s : State) (p : Nat) :
    (State.firePending s p).pending = s.pending ∧ (State.firePending s p).wall = s.wall ∧ (State.firePending s p).time = s.time ∧ (State.firePending s p).board = s.board ∧ (State.firePending s p).tap = s.tap ∧ (State.firePending s p).power = s.power ∧ (State.firePending s p).clocks = s.clocks ∧ (State.firePending s p).thermal = s.thermal ∧ (State.firePending s p).straps = s.straps ∧ (State.firePending s p).boot = s.boot ∧ (State.firePending s p).flash = s.flash ∧ (State.firePending s p).fuses = s.fuses ∧ (State.firePending s p).security = s.security ∧ (State.firePending s p).models = s.models ∧ (State.firePending s p).dies = s.dies ∧ (State.firePending s p).faultyEdges = s.faultyEdges ∧ (State.firePending s p).cores = s.cores ∧ (State.firePending s p).feeders = s.feeders ∧ (State.firePending s p).memory = s.memory ∧ (State.firePending s p).lanes = s.lanes ∧ (State.firePending s p).guards = s.guards ∧ (State.firePending s p).mbx = s.mbx ∧ (State.firePending s p).ports = s.ports ∧ (State.firePending s p).smbOffset = s.smbOffset ∧ (State.firePending s p).alertPending = s.alertPending ∧ (State.firePending s p).owner = s.owner ∧ (State.firePending s p).log = s.log ∧ (State.firePending s p).cxl = s.cxl ∧ (State.firePending s p).cascade = s.cascade ∧ (State.firePending s p).sessions = s.sessions ∧ (State.firePending s p).grants = s.grants ∧ (State.firePending s p).fabricSeq = s.fabricSeq ∧ (State.firePending s p).mbxTurn = s.mbxTurn ∧ (State.firePending s p).turns = s.turns ∧ (State.firePending s p).accepted = s.accepted ∧ (State.firePending s p).bus = s.bus ∧ (State.firePending s p).freeTick = s.freeTick := by
  unfold State.firePending
  try dsimp only
  (repeat' split) <;> simp

@[simp] theorem State.writeMsix_leaves (s : State) (p off : Nat) (bs : Bytes) :
    (State.writeMsix s p off bs).pending = s.pending ∧ (State.writeMsix s p off bs).wall = s.wall ∧ (State.writeMsix s p off bs).time = s.time ∧ (State.writeMsix s p off bs).board = s.board ∧ (State.writeMsix s p off bs).tap = s.tap ∧ (State.writeMsix s p off bs).power = s.power ∧ (State.writeMsix s p off bs).clocks = s.clocks ∧ (State.writeMsix s p off bs).thermal = s.thermal ∧ (State.writeMsix s p off bs).straps = s.straps ∧ (State.writeMsix s p off bs).boot = s.boot ∧ (State.writeMsix s p off bs).flash = s.flash ∧ (State.writeMsix s p off bs).fuses = s.fuses ∧ (State.writeMsix s p off bs).security = s.security ∧ (State.writeMsix s p off bs).models = s.models ∧ (State.writeMsix s p off bs).dies = s.dies ∧ (State.writeMsix s p off bs).faultyEdges = s.faultyEdges ∧ (State.writeMsix s p off bs).cores = s.cores ∧ (State.writeMsix s p off bs).feeders = s.feeders ∧ (State.writeMsix s p off bs).memory = s.memory ∧ (State.writeMsix s p off bs).lanes = s.lanes ∧ (State.writeMsix s p off bs).guards = s.guards ∧ (State.writeMsix s p off bs).mbx = s.mbx ∧ (State.writeMsix s p off bs).ports = s.ports ∧ (State.writeMsix s p off bs).smbOffset = s.smbOffset ∧ (State.writeMsix s p off bs).alertPending = s.alertPending ∧ (State.writeMsix s p off bs).owner = s.owner ∧ (State.writeMsix s p off bs).log = s.log ∧ (State.writeMsix s p off bs).cxl = s.cxl ∧ (State.writeMsix s p off bs).cascade = s.cascade ∧ (State.writeMsix s p off bs).sessions = s.sessions ∧ (State.writeMsix s p off bs).grants = s.grants ∧ (State.writeMsix s p off bs).fabricSeq = s.fabricSeq ∧ (State.writeMsix s p off bs).mbxTurn = s.mbxTurn ∧ (State.writeMsix s p off bs).turns = s.turns ∧ (State.writeMsix s p off bs).accepted = s.accepted ∧ (State.writeMsix s p off bs).bus = s.bus ∧ (State.writeMsix s p off bs).freeTick = s.freeTick := by
  unfold State.writeMsix
  try dsimp only
  (repeat' split) <;> simp

@[simp] theorem State.bar2Hole_leaves (s : State) (p : Nat) :
    (State.bar2Hole s p).pending = s.pending ∧ (State.bar2Hole s p).wall = s.wall ∧ (State.bar2Hole s p).time = s.time ∧ (State.bar2Hole s p).board = s.board ∧ (State.bar2Hole s p).tap = s.tap ∧ (State.bar2Hole s p).power = s.power ∧ (State.bar2Hole s p).clocks = s.clocks ∧ (State.bar2Hole s p).thermal = s.thermal ∧ (State.bar2Hole s p).straps = s.straps ∧ (State.bar2Hole s p).boot = s.boot ∧ (State.bar2Hole s p).flash = s.flash ∧ (State.bar2Hole s p).fuses = s.fuses ∧ (State.bar2Hole s p).security = s.security ∧ (State.bar2Hole s p).models = s.models ∧ (State.bar2Hole s p).dies = s.dies ∧ (State.bar2Hole s p).faultyEdges = s.faultyEdges ∧ (State.bar2Hole s p).cores = s.cores ∧ (State.bar2Hole s p).feeders = s.feeders ∧ (State.bar2Hole s p).memory = s.memory ∧ (State.bar2Hole s p).lanes = s.lanes ∧ (State.bar2Hole s p).guards = s.guards ∧ (State.bar2Hole s p).mbx = s.mbx ∧ (State.bar2Hole s p).ports = s.ports ∧ (State.bar2Hole s p).smbOffset = s.smbOffset ∧ (State.bar2Hole s p).alertPending = s.alertPending ∧ (State.bar2Hole s p).owner = s.owner ∧ (State.bar2Hole s p).log = s.log ∧ (State.bar2Hole s p).cxl = s.cxl ∧ (State.bar2Hole s p).cascade = s.cascade ∧ (State.bar2Hole s p).sessions = s.sessions ∧ (State.bar2Hole s p).grants = s.grants ∧ (State.bar2Hole s p).fabricSeq = s.fabricSeq ∧ (State.bar2Hole s p).mbxTurn = s.mbxTurn ∧ (State.bar2Hole s p).turns = s.turns ∧ (State.bar2Hole s p).accepted = s.accepted ∧ (State.bar2Hole s p).bus = s.bus ∧ (State.bar2Hole s p).freeTick = s.freeTick := by
  unfold State.bar2Hole
  try dsimp only
  (repeat' split) <;> simp

@[simp] theorem State.uncorrectable_leaves (s : State) (md ch : Nat) :
    (State.uncorrectable s md ch).pending = s.pending ∧ (State.uncorrectable s md ch).wall = s.wall ∧ (State.uncorrectable s md ch).time = s.time ∧ (State.uncorrectable s md ch).board = s.board ∧ (State.uncorrectable s md ch).tap = s.tap ∧ (State.uncorrectable s md ch).power = s.power ∧ (State.uncorrectable s md ch).clocks = s.clocks ∧ (State.uncorrectable s md ch).straps = s.straps ∧ (State.uncorrectable s md ch).boot = s.boot ∧ (State.uncorrectable s md ch).flash = s.flash ∧ (State.uncorrectable s md ch).fuses = s.fuses ∧ (State.uncorrectable s md ch).security = s.security ∧ (State.uncorrectable s md ch).models = s.models ∧ (State.uncorrectable s md ch).faultyEdges = s.faultyEdges ∧ (State.uncorrectable s md ch).feeders = s.feeders ∧ (State.uncorrectable s md ch).ports = s.ports ∧ (State.uncorrectable s md ch).smbOffset = s.smbOffset ∧ (State.uncorrectable s md ch).owner = s.owner ∧ (State.uncorrectable s md ch).cxl = s.cxl ∧ (State.uncorrectable s md ch).fabricSeq = s.fabricSeq ∧ (State.uncorrectable s md ch).mbxTurn = s.mbxTurn ∧ (State.uncorrectable s md ch).turns = s.turns ∧ (State.uncorrectable s md ch).accepted = s.accepted ∧ (State.uncorrectable s md ch).bus = s.bus := by
  unfold State.uncorrectable
  try dsimp only
  (repeat' split) <;> simp

/-! ### Routes -/

@[simp] theorem State.loseCascadePort_leaves (s : State) (q : Nat) :
    (State.loseCascadePort s q).pending = s.pending ∧ (State.loseCascadePort s q).wall = s.wall ∧ (State.loseCascadePort s q).time = s.time ∧ (State.loseCascadePort s q).board = s.board ∧ (State.loseCascadePort s q).tap = s.tap ∧ (State.loseCascadePort s q).power = s.power ∧ (State.loseCascadePort s q).clocks = s.clocks ∧ (State.loseCascadePort s q).thermal = s.thermal ∧ (State.loseCascadePort s q).straps = s.straps ∧ (State.loseCascadePort s q).boot = s.boot ∧ (State.loseCascadePort s q).flash = s.flash ∧ (State.loseCascadePort s q).fuses = s.fuses ∧ (State.loseCascadePort s q).security = s.security ∧ (State.loseCascadePort s q).models = s.models ∧ (State.loseCascadePort s q).faultyEdges = s.faultyEdges ∧ (State.loseCascadePort s q).cores = s.cores ∧ (State.loseCascadePort s q).feeders = s.feeders ∧ (State.loseCascadePort s q).memory = s.memory ∧ (State.loseCascadePort s q).lanes = s.lanes ∧ (State.loseCascadePort s q).guards = s.guards ∧ (State.loseCascadePort s q).mbx = s.mbx ∧ (State.loseCascadePort s q).ports = s.ports ∧ (State.loseCascadePort s q).smbOffset = s.smbOffset ∧ (State.loseCascadePort s q).alertPending = s.alertPending ∧ (State.loseCascadePort s q).owner = s.owner ∧ (State.loseCascadePort s q).pcie = s.pcie ∧ (State.loseCascadePort s q).cxl = s.cxl ∧ (State.loseCascadePort s q).sessions = s.sessions ∧ (State.loseCascadePort s q).grants = s.grants ∧ (State.loseCascadePort s q).fabricSeq = s.fabricSeq ∧ (State.loseCascadePort s q).mbxTurn = s.mbxTurn ∧ (State.loseCascadePort s q).turns = s.turns ∧ (State.loseCascadePort s q).accepted = s.accepted ∧ (State.loseCascadePort s q).bus = s.bus ∧ (State.loseCascadePort s q).freeTick = s.freeTick := by
  unfold State.loseCascadePort
  try dsimp only
  (repeat' split) <;> simp

@[simp] theorem State.loseLink_leaves (s : State) (q : Nat) :
    (State.loseLink s q).pending = s.pending ∧ (State.loseLink s q).wall = s.wall ∧ (State.loseLink s q).time = s.time ∧ (State.loseLink s q).board = s.board ∧ (State.loseLink s q).tap = s.tap ∧ (State.loseLink s q).power = s.power ∧ (State.loseLink s q).clocks = s.clocks ∧ (State.loseLink s q).thermal = s.thermal ∧ (State.loseLink s q).straps = s.straps ∧ (State.loseLink s q).boot = s.boot ∧ (State.loseLink s q).flash = s.flash ∧ (State.loseLink s q).fuses = s.fuses ∧ (State.loseLink s q).security = s.security ∧ (State.loseLink s q).models = s.models ∧ (State.loseLink s q).faultyEdges = s.faultyEdges ∧ (State.loseLink s q).feeders = s.feeders ∧ (State.loseLink s q).ports = s.ports ∧ (State.loseLink s q).smbOffset = s.smbOffset ∧ (State.loseLink s q).owner = s.owner ∧ (State.loseLink s q).cxl = s.cxl ∧ (State.loseLink s q).fabricSeq = s.fabricSeq ∧ (State.loseLink s q).mbxTurn = s.mbxTurn ∧ (State.loseLink s q).turns = s.turns ∧ (State.loseLink s q).accepted = s.accepted ∧ (State.loseLink s q).bus = s.bus := by
  unfold State.loseLink
  simp

/-! ### Power -/

@[simp] theorem State.unpowered_leaves (s : State) (aux : Bool) :
    (State.unpowered s aux).pending = s.pending ∧ (State.unpowered s aux).wall = s.wall ∧ (State.unpowered s aux).fuses = s.fuses ∧ (State.unpowered s aux).bus = s.bus ∧ (State.unpowered s aux).freeTick = s.freeTick := by
  unfold State.unpowered
  try dsimp only
  (repeat' split) <;> simp

@[simp] theorem State.setV54_leaves (s : State) (mv10 : Nat) :
    (State.setV54 s mv10).pending = s.pending ∧ (State.setV54 s mv10).wall = s.wall ∧ (State.setV54 s mv10).time = s.time ∧ (State.setV54 s mv10).tap = s.tap ∧ (State.setV54 s mv10).power = s.power ∧ (State.setV54 s mv10).clocks = s.clocks ∧ (State.setV54 s mv10).thermal = s.thermal ∧ (State.setV54 s mv10).straps = s.straps ∧ (State.setV54 s mv10).boot = s.boot ∧ (State.setV54 s mv10).flash = s.flash ∧ (State.setV54 s mv10).fuses = s.fuses ∧ (State.setV54 s mv10).security = s.security ∧ (State.setV54 s mv10).models = s.models ∧ (State.setV54 s mv10).dies = s.dies ∧ (State.setV54 s mv10).faultyEdges = s.faultyEdges ∧ (State.setV54 s mv10).cores = s.cores ∧ (State.setV54 s mv10).feeders = s.feeders ∧ (State.setV54 s mv10).memory = s.memory ∧ (State.setV54 s mv10).lanes = s.lanes ∧ (State.setV54 s mv10).guards = s.guards ∧ (State.setV54 s mv10).mbx = s.mbx ∧ (State.setV54 s mv10).ports = s.ports ∧ (State.setV54 s mv10).smbOffset = s.smbOffset ∧ (State.setV54 s mv10).alertPending = s.alertPending ∧ (State.setV54 s mv10).owner = s.owner ∧ (State.setV54 s mv10).log = s.log ∧ (State.setV54 s mv10).pcie = s.pcie ∧ (State.setV54 s mv10).cxl = s.cxl ∧ (State.setV54 s mv10).cascade = s.cascade ∧ (State.setV54 s mv10).sessions = s.sessions ∧ (State.setV54 s mv10).grants = s.grants ∧ (State.setV54 s mv10).fabricSeq = s.fabricSeq ∧ (State.setV54 s mv10).mbxTurn = s.mbxTurn ∧ (State.setV54 s mv10).turns = s.turns ∧ (State.setV54 s mv10).accepted = s.accepted ∧ (State.setV54 s mv10).bus = s.bus ∧ (State.setV54 s mv10).freeTick = s.freeTick := by
  unfold State.setV54
  try dsimp only
  (repeat' split) <;> simp

@[simp] theorem State.supplyFault_leaves (s : State) :
    (State.supplyFault s).pending = s.pending ∧ (State.supplyFault s).wall = s.wall ∧ (State.supplyFault s).board = s.board ∧ (State.supplyFault s).tap = s.tap ∧ (State.supplyFault s).straps = s.straps ∧ (State.supplyFault s).fuses = s.fuses ∧ (State.supplyFault s).alertPending = s.alertPending ∧ (State.supplyFault s).bus = s.bus ∧ (State.supplyFault s).freeTick = s.freeTick := by
  unfold State.supplyFault
  try dsimp only
  (repeat' split) <;> simp

@[simp] theorem State.sequenceRails_leaves (s : State) (failing : List Rail) :
    (State.sequenceRails s failing).pending = s.pending ∧ (State.sequenceRails s failing).wall = s.wall ∧ (State.sequenceRails s failing).board = s.board ∧ (State.sequenceRails s failing).tap = s.tap ∧ (State.sequenceRails s failing).straps = s.straps ∧ (State.sequenceRails s failing).fuses = s.fuses ∧ (State.sequenceRails s failing).alertPending = s.alertPending ∧ (State.sequenceRails s failing).bus = s.bus ∧ (State.sequenceRails s failing).freeTick = s.freeTick := by
  unfold State.sequenceRails
  try dsimp only
  (repeat' split) <;> simp

@[simp] theorem State.moduleResetState_leaves (s : State) :
    (State.moduleResetState s).pending = s.pending ∧ (State.moduleResetState s).wall = s.wall ∧ (State.moduleResetState s).board = s.board ∧ (State.moduleResetState s).tap = s.tap ∧ (State.moduleResetState s).straps = s.straps ∧ (State.moduleResetState s).fuses = s.fuses ∧ (State.moduleResetState s).alertPending = s.alertPending ∧ (State.moduleResetState s).bus = s.bus ∧ (State.moduleResetState s).freeTick = s.freeTick := by
  unfold State.moduleResetState
  try dsimp only
  (repeat' split) <;> simp

@[simp] theorem State.extendMr_leaves (s : State) (mr source : Nat) (info : Nat) (v : Bytes) :
    (State.extendMr s mr source info v).pending = s.pending ∧ (State.extendMr s mr source info v).wall = s.wall ∧ (State.extendMr s mr source info v).time = s.time ∧ (State.extendMr s mr source info v).board = s.board ∧ (State.extendMr s mr source info v).tap = s.tap ∧ (State.extendMr s mr source info v).power = s.power ∧ (State.extendMr s mr source info v).clocks = s.clocks ∧ (State.extendMr s mr source info v).thermal = s.thermal ∧ (State.extendMr s mr source info v).straps = s.straps ∧ (State.extendMr s mr source info v).boot = s.boot ∧ (State.extendMr s mr source info v).flash = s.flash ∧ (State.extendMr s mr source info v).fuses = s.fuses ∧ (State.extendMr s mr source info v).models = s.models ∧ (State.extendMr s mr source info v).dies = s.dies ∧ (State.extendMr s mr source info v).faultyEdges = s.faultyEdges ∧ (State.extendMr s mr source info v).cores = s.cores ∧ (State.extendMr s mr source info v).feeders = s.feeders ∧ (State.extendMr s mr source info v).memory = s.memory ∧ (State.extendMr s mr source info v).lanes = s.lanes ∧ (State.extendMr s mr source info v).guards = s.guards ∧ (State.extendMr s mr source info v).mbx = s.mbx ∧ (State.extendMr s mr source info v).ports = s.ports ∧ (State.extendMr s mr source info v).smbOffset = s.smbOffset ∧ (State.extendMr s mr source info v).alertPending = s.alertPending ∧ (State.extendMr s mr source info v).owner = s.owner ∧ (State.extendMr s mr source info v).pcie = s.pcie ∧ (State.extendMr s mr source info v).cxl = s.cxl ∧ (State.extendMr s mr source info v).cascade = s.cascade ∧ (State.extendMr s mr source info v).sessions = s.sessions ∧ (State.extendMr s mr source info v).grants = s.grants ∧ (State.extendMr s mr source info v).fabricSeq = s.fabricSeq ∧ (State.extendMr s mr source info v).mbxTurn = s.mbxTurn ∧ (State.extendMr s mr source info v).turns = s.turns ∧ (State.extendMr s mr source info v).accepted = s.accepted ∧ (State.extendMr s mr source info v).bus = s.bus ∧ (State.extendMr s mr source info v).freeTick = s.freeTick := by
  unfold State.extendMr
  try dsimp only
  (repeat' split) <;> simp

@[simp] theorem State.measureRom_leaves (s : State) :
    (State.measureRom s).pending = s.pending ∧ (State.measureRom s).wall = s.wall ∧ (State.measureRom s).time = s.time ∧ (State.measureRom s).board = s.board ∧ (State.measureRom s).tap = s.tap ∧ (State.measureRom s).power = s.power ∧ (State.measureRom s).clocks = s.clocks ∧ (State.measureRom s).thermal = s.thermal ∧ (State.measureRom s).straps = s.straps ∧ (State.measureRom s).boot = s.boot ∧ (State.measureRom s).flash = s.flash ∧ (State.measureRom s).fuses = s.fuses ∧ (State.measureRom s).models = s.models ∧ (State.measureRom s).dies = s.dies ∧ (State.measureRom s).faultyEdges = s.faultyEdges ∧ (State.measureRom s).cores = s.cores ∧ (State.measureRom s).feeders = s.feeders ∧ (State.measureRom s).memory = s.memory ∧ (State.measureRom s).lanes = s.lanes ∧ (State.measureRom s).guards = s.guards ∧ (State.measureRom s).mbx = s.mbx ∧ (State.measureRom s).ports = s.ports ∧ (State.measureRom s).smbOffset = s.smbOffset ∧ (State.measureRom s).alertPending = s.alertPending ∧ (State.measureRom s).owner = s.owner ∧ (State.measureRom s).pcie = s.pcie ∧ (State.measureRom s).cxl = s.cxl ∧ (State.measureRom s).cascade = s.cascade ∧ (State.measureRom s).sessions = s.sessions ∧ (State.measureRom s).grants = s.grants ∧ (State.measureRom s).fabricSeq = s.fabricSeq ∧ (State.measureRom s).mbxTurn = s.mbxTurn ∧ (State.measureRom s).turns = s.turns ∧ (State.measureRom s).accepted = s.accepted ∧ (State.measureRom s).bus = s.bus ∧ (State.measureRom s).freeTick = s.freeTick := by
  unfold State.measureRom
  try dsimp only
  (repeat' split) <;> simp

@[simp] theorem State.romStart_leaves (s : State) :
    (State.romStart s).pending = s.pending ∧ (State.romStart s).wall = s.wall ∧ (State.romStart s).time = s.time ∧ (State.romStart s).board = s.board ∧ (State.romStart s).tap = s.tap ∧ (State.romStart s).power = s.power ∧ (State.romStart s).clocks = s.clocks ∧ (State.romStart s).thermal = s.thermal ∧ (State.romStart s).straps = s.straps ∧ (State.romStart s).fuses = s.fuses ∧ (State.romStart s).models = s.models ∧ (State.romStart s).dies = s.dies ∧ (State.romStart s).faultyEdges = s.faultyEdges ∧ (State.romStart s).cores = s.cores ∧ (State.romStart s).feeders = s.feeders ∧ (State.romStart s).memory = s.memory ∧ (State.romStart s).lanes = s.lanes ∧ (State.romStart s).guards = s.guards ∧ (State.romStart s).mbx = s.mbx ∧ (State.romStart s).ports = s.ports ∧ (State.romStart s).smbOffset = s.smbOffset ∧ (State.romStart s).alertPending = s.alertPending ∧ (State.romStart s).owner = s.owner ∧ (State.romStart s).pcie = s.pcie ∧ (State.romStart s).cxl = s.cxl ∧ (State.romStart s).cascade = s.cascade ∧ (State.romStart s).sessions = s.sessions ∧ (State.romStart s).grants = s.grants ∧ (State.romStart s).fabricSeq = s.fabricSeq ∧ (State.romStart s).mbxTurn = s.mbxTurn ∧ (State.romStart s).turns = s.turns ∧ (State.romStart s).accepted = s.accepted ∧ (State.romStart s).bus = s.bus ∧ (State.romStart s).freeTick = s.freeTick := by
  unfold State.romStart
  try dsimp only
  (repeat' split) <;> simp

@[simp] theorem State.pllDead_leaves (s : State) (d : Nat) :
    (State.pllDead s d).pending = s.pending ∧ (State.pllDead s d).wall = s.wall ∧ (State.pllDead s d).time = s.time ∧ (State.pllDead s d).board = s.board ∧ (State.pllDead s d).tap = s.tap ∧ (State.pllDead s d).power = s.power ∧ (State.pllDead s d).thermal = s.thermal ∧ (State.pllDead s d).straps = s.straps ∧ (State.pllDead s d).boot = s.boot ∧ (State.pllDead s d).flash = s.flash ∧ (State.pllDead s d).fuses = s.fuses ∧ (State.pllDead s d).security = s.security ∧ (State.pllDead s d).models = s.models ∧ (State.pllDead s d).faultyEdges = s.faultyEdges ∧ (State.pllDead s d).cores = s.cores ∧ (State.pllDead s d).feeders = s.feeders ∧ (State.pllDead s d).memory = s.memory ∧ (State.pllDead s d).lanes = s.lanes ∧ (State.pllDead s d).guards = s.guards ∧ (State.pllDead s d).mbx = s.mbx ∧ (State.pllDead s d).ports = s.ports ∧ (State.pllDead s d).smbOffset = s.smbOffset ∧ (State.pllDead s d).alertPending = s.alertPending ∧ (State.pllDead s d).owner = s.owner ∧ (State.pllDead s d).pcie = s.pcie ∧ (State.pllDead s d).cxl = s.cxl ∧ (State.pllDead s d).cascade = s.cascade ∧ (State.pllDead s d).sessions = s.sessions ∧ (State.pllDead s d).grants = s.grants ∧ (State.pllDead s d).fabricSeq = s.fabricSeq ∧ (State.pllDead s d).mbxTurn = s.mbxTurn ∧ (State.pllDead s d).turns = s.turns ∧ (State.pllDead s d).accepted = s.accepted ∧ (State.pllDead s d).bus = s.bus ∧ (State.pllDead s d).freeTick = s.freeTick := by
  unfold State.pllDead
  try dsimp only
  (repeat' split) <;> simp

@[simp] theorem State.pllLossEffect_leaves (s : State) (d : Nat) :
    (State.pllLossEffect s d).pending = s.pending ∧ (State.pllLossEffect s d).wall = s.wall ∧ (State.pllLossEffect s d).board = s.board ∧ (State.pllLossEffect s d).tap = s.tap ∧ (State.pllLossEffect s d).straps = s.straps ∧ (State.pllLossEffect s d).fuses = s.fuses ∧ (State.pllLossEffect s d).bus = s.bus := by
  unfold State.pllLossEffect
  try dsimp only
  (repeat' split) <;> simp

@[simp] theorem State.pllFailEffect_leaves (s : State) (d : Nat) :
    (State.pllFailEffect s d).pending = s.pending ∧ (State.pllFailEffect s d).wall = s.wall ∧ (State.pllFailEffect s d).board = s.board ∧ (State.pllFailEffect s d).tap = s.tap ∧ (State.pllFailEffect s d).straps = s.straps ∧ (State.pllFailEffect s d).fuses = s.fuses ∧ (State.pllFailEffect s d).bus = s.bus := by
  unfold State.pllFailEffect
  try dsimp only
  (repeat' split) <;> simp

@[simp] theorem State.tapLoad_leaves (s : State) (i : TapInstr) (dr : List Bool) :
    (State.tapLoad s i dr).pending = s.pending ∧ (State.tapLoad s i dr).wall = s.wall ∧ (State.tapLoad s i dr).time = s.time ∧ (State.tapLoad s i dr).power = s.power ∧ (State.tapLoad s i dr).clocks = s.clocks ∧ (State.tapLoad s i dr).thermal = s.thermal ∧ (State.tapLoad s i dr).straps = s.straps ∧ (State.tapLoad s i dr).boot = s.boot ∧ (State.tapLoad s i dr).flash = s.flash ∧ (State.tapLoad s i dr).fuses = s.fuses ∧ (State.tapLoad s i dr).security = s.security ∧ (State.tapLoad s i dr).models = s.models ∧ (State.tapLoad s i dr).dies = s.dies ∧ (State.tapLoad s i dr).faultyEdges = s.faultyEdges ∧ (State.tapLoad s i dr).cores = s.cores ∧ (State.tapLoad s i dr).feeders = s.feeders ∧ (State.tapLoad s i dr).memory = s.memory ∧ (State.tapLoad s i dr).lanes = s.lanes ∧ (State.tapLoad s i dr).guards = s.guards ∧ (State.tapLoad s i dr).mbx = s.mbx ∧ (State.tapLoad s i dr).ports = s.ports ∧ (State.tapLoad s i dr).smbOffset = s.smbOffset ∧ (State.tapLoad s i dr).alertPending = s.alertPending ∧ (State.tapLoad s i dr).owner = s.owner ∧ (State.tapLoad s i dr).log = s.log ∧ (State.tapLoad s i dr).pcie = s.pcie ∧ (State.tapLoad s i dr).cxl = s.cxl ∧ (State.tapLoad s i dr).cascade = s.cascade ∧ (State.tapLoad s i dr).sessions = s.sessions ∧ (State.tapLoad s i dr).grants = s.grants ∧ (State.tapLoad s i dr).fabricSeq = s.fabricSeq ∧ (State.tapLoad s i dr).mbxTurn = s.mbxTurn ∧ (State.tapLoad s i dr).turns = s.turns ∧ (State.tapLoad s i dr).accepted = s.accepted ∧ (State.tapLoad s i dr).bus = s.bus ∧ (State.tapLoad s i dr).freeTick = s.freeTick := by
  unfold State.tapLoad
  try dsimp only
  (repeat' split) <;> simp

@[simp] theorem State.countRetries_leaves (s : State) (d n : Nat) :
    (State.countRetries s d n).pending = s.pending ∧ (State.countRetries s d n).wall = s.wall ∧ (State.countRetries s d n).time = s.time ∧ (State.countRetries s d n).board = s.board ∧ (State.countRetries s d n).tap = s.tap ∧ (State.countRetries s d n).power = s.power ∧ (State.countRetries s d n).clocks = s.clocks ∧ (State.countRetries s d n).straps = s.straps ∧ (State.countRetries s d n).boot = s.boot ∧ (State.countRetries s d n).flash = s.flash ∧ (State.countRetries s d n).fuses = s.fuses ∧ (State.countRetries s d n).security = s.security ∧ (State.countRetries s d n).models = s.models ∧ (State.countRetries s d n).faultyEdges = s.faultyEdges ∧ (State.countRetries s d n).feeders = s.feeders ∧ (State.countRetries s d n).ports = s.ports ∧ (State.countRetries s d n).smbOffset = s.smbOffset ∧ (State.countRetries s d n).owner = s.owner ∧ (State.countRetries s d n).cxl = s.cxl ∧ (State.countRetries s d n).fabricSeq = s.fabricSeq ∧ (State.countRetries s d n).mbxTurn = s.mbxTurn ∧ (State.countRetries s d n).turns = s.turns ∧ (State.countRetries s d n).accepted = s.accepted ∧ (State.countRetries s d n).bus = s.bus := by
  unfold State.countRetries
  try dsimp only
  (repeat' split) <;> simp

@[simp] theorem State.updateDemands_leaves (s : State) :
    (State.updateDemands s).pending = s.pending ∧ (State.updateDemands s).wall = s.wall ∧ (State.updateDemands s).time = s.time ∧ (State.updateDemands s).board = s.board ∧ (State.updateDemands s).tap = s.tap ∧ (State.updateDemands s).power = s.power ∧ (State.updateDemands s).clocks = s.clocks ∧ (State.updateDemands s).straps = s.straps ∧ (State.updateDemands s).boot = s.boot ∧ (State.updateDemands s).flash = s.flash ∧ (State.updateDemands s).fuses = s.fuses ∧ (State.updateDemands s).security = s.security ∧ (State.updateDemands s).models = s.models ∧ (State.updateDemands s).faultyEdges = s.faultyEdges ∧ (State.updateDemands s).cores = s.cores ∧ (State.updateDemands s).feeders = s.feeders ∧ (State.updateDemands s).memory = s.memory ∧ (State.updateDemands s).lanes = s.lanes ∧ (State.updateDemands s).guards = s.guards ∧ (State.updateDemands s).mbx = s.mbx ∧ (State.updateDemands s).ports = s.ports ∧ (State.updateDemands s).smbOffset = s.smbOffset ∧ (State.updateDemands s).alertPending = s.alertPending ∧ (State.updateDemands s).owner = s.owner ∧ (State.updateDemands s).log = s.log ∧ (State.updateDemands s).pcie = s.pcie ∧ (State.updateDemands s).cxl = s.cxl ∧ (State.updateDemands s).cascade = s.cascade ∧ (State.updateDemands s).sessions = s.sessions ∧ (State.updateDemands s).grants = s.grants ∧ (State.updateDemands s).fabricSeq = s.fabricSeq ∧ (State.updateDemands s).mbxTurn = s.mbxTurn ∧ (State.updateDemands s).turns = s.turns ∧ (State.updateDemands s).accepted = s.accepted ∧ (State.updateDemands s).bus = s.bus ∧ (State.updateDemands s).freeTick = s.freeTick := by
  unfold State.updateDemands
  try dsimp only
  (repeat' split) <;> simp

@[simp] theorem State.dieOff_leaves (s : State) (d : Nat) :
    (State.dieOff s d).pending = s.pending ∧ (State.dieOff s d).wall = s.wall ∧ (State.dieOff s d).time = s.time ∧ (State.dieOff s d).board = s.board ∧ (State.dieOff s d).tap = s.tap ∧ (State.dieOff s d).power = s.power ∧ (State.dieOff s d).straps = s.straps ∧ (State.dieOff s d).boot = s.boot ∧ (State.dieOff s d).flash = s.flash ∧ (State.dieOff s d).fuses = s.fuses ∧ (State.dieOff s d).security = s.security ∧ (State.dieOff s d).models = s.models ∧ (State.dieOff s d).faultyEdges = s.faultyEdges ∧ (State.dieOff s d).feeders = s.feeders ∧ (State.dieOff s d).memory = s.memory ∧ (State.dieOff s d).guards = s.guards ∧ (State.dieOff s d).mbx = s.mbx ∧ (State.dieOff s d).ports = s.ports ∧ (State.dieOff s d).smbOffset = s.smbOffset ∧ (State.dieOff s d).alertPending = s.alertPending ∧ (State.dieOff s d).owner = s.owner ∧ (State.dieOff s d).log = s.log ∧ (State.dieOff s d).pcie = s.pcie ∧ (State.dieOff s d).cxl = s.cxl ∧ (State.dieOff s d).cascade = s.cascade ∧ (State.dieOff s d).sessions = s.sessions ∧ (State.dieOff s d).grants = s.grants ∧ (State.dieOff s d).fabricSeq = s.fabricSeq ∧ (State.dieOff s d).mbxTurn = s.mbxTurn ∧ (State.dieOff s d).turns = s.turns ∧ (State.dieOff s d).accepted = s.accepted ∧ (State.dieOff s d).bus = s.bus ∧ (State.dieOff s d).freeTick = s.freeTick := by
  unfold State.dieOff
  split
  · simp
  · dsimp only
    split <;> exact ⟨State.foldl_pending _ (by intro t x; rfl) _ _, State.foldl_wall _ (by intro t x; rfl) _ _, State.foldl_time _ (by intro t x; rfl) _ _, State.foldl_board _ (by intro t x; rfl) _ _, State.foldl_tap _ (by intro t x; rfl) _ _, State.foldl_power _ (by intro t x; rfl) _ _, State.foldl_straps _ (by intro t x; rfl) _ _, State.foldl_boot _ (by intro t x; rfl) _ _, State.foldl_flash _ (by intro t x; rfl) _ _, State.foldl_fuses _ (by intro t x; rfl) _ _, State.foldl_security _ (by intro t x; rfl) _ _, State.foldl_models _ (by intro t x; rfl) _ _, State.foldl_faultyEdges _ (by intro t x; rfl) _ _, State.foldl_feeders _ (by intro t x; rfl) _ _, State.foldl_memory _ (by intro t x; rfl) _ _, State.foldl_guards _ (by intro t x; rfl) _ _, State.foldl_mbx _ (by intro t x; rfl) _ _, State.foldl_ports _ (by intro t x; rfl) _ _, State.foldl_smbOffset _ (by intro t x; rfl) _ _, State.foldl_alertPending _ (by intro t x; rfl) _ _, State.foldl_owner _ (by intro t x; rfl) _ _, State.foldl_log _ (by intro t x; rfl) _ _, State.foldl_pcie _ (by intro t x; rfl) _ _, State.foldl_cxl _ (by intro t x; rfl) _ _, State.foldl_cascade _ (by intro t x; rfl) _ _, State.foldl_sessions _ (by intro t x; rfl) _ _, State.foldl_grants _ (by intro t x; rfl) _ _, State.foldl_fabricSeq _ (by intro t x; rfl) _ _, State.foldl_mbxTurn _ (by intro t x; rfl) _ _, State.foldl_turns _ (by intro t x; rfl) _ _, State.foldl_accepted _ (by intro t x; rfl) _ _, State.foldl_bus _ (by intro t x; rfl) _ _, State.foldl_freeTick _ (by intro t x; rfl) _ _⟩

@[simp] theorem State.diePowerEvent_leaves (s : State) :
    (State.diePowerEvent s).pending = s.pending ∧ (State.diePowerEvent s).wall = s.wall ∧ (State.diePowerEvent s).time = s.time ∧ (State.diePowerEvent s).board = s.board ∧ (State.diePowerEvent s).tap = s.tap ∧ (State.diePowerEvent s).power = s.power ∧ (State.diePowerEvent s).clocks = s.clocks ∧ (State.diePowerEvent s).thermal = s.thermal ∧ (State.diePowerEvent s).straps = s.straps ∧ (State.diePowerEvent s).boot = s.boot ∧ (State.diePowerEvent s).flash = s.flash ∧ (State.diePowerEvent s).fuses = s.fuses ∧ (State.diePowerEvent s).security = s.security ∧ (State.diePowerEvent s).models = s.models ∧ (State.diePowerEvent s).faultyEdges = s.faultyEdges ∧ (State.diePowerEvent s).cores = s.cores ∧ (State.diePowerEvent s).feeders = s.feeders ∧ (State.diePowerEvent s).memory = s.memory ∧ (State.diePowerEvent s).lanes = s.lanes ∧ (State.diePowerEvent s).guards = s.guards ∧ (State.diePowerEvent s).mbx = s.mbx ∧ (State.diePowerEvent s).ports = s.ports ∧ (State.diePowerEvent s).smbOffset = s.smbOffset ∧ (State.diePowerEvent s).alertPending = s.alertPending ∧ (State.diePowerEvent s).owner = s.owner ∧ (State.diePowerEvent s).pcie = s.pcie ∧ (State.diePowerEvent s).cxl = s.cxl ∧ (State.diePowerEvent s).cascade = s.cascade ∧ (State.diePowerEvent s).sessions = s.sessions ∧ (State.diePowerEvent s).grants = s.grants ∧ (State.diePowerEvent s).fabricSeq = s.fabricSeq ∧ (State.diePowerEvent s).mbxTurn = s.mbxTurn ∧ (State.diePowerEvent s).turns = s.turns ∧ (State.diePowerEvent s).accepted = s.accepted ∧ (State.diePowerEvent s).bus = s.bus ∧ (State.diePowerEvent s).freeTick = s.freeTick := by
  unfold State.diePowerEvent
  try dsimp only
  (repeat' split) <;> simp

@[simp] theorem State.wakeUp_leaves (s : State) :
    (State.wakeUp s).pending = s.pending ∧ (State.wakeUp s).wall = s.wall ∧ (State.wakeUp s).time = s.time ∧ (State.wakeUp s).board = s.board ∧ (State.wakeUp s).tap = s.tap ∧ (State.wakeUp s).clocks = s.clocks ∧ (State.wakeUp s).thermal = s.thermal ∧ (State.wakeUp s).straps = s.straps ∧ (State.wakeUp s).boot = s.boot ∧ (State.wakeUp s).flash = s.flash ∧ (State.wakeUp s).fuses = s.fuses ∧ (State.wakeUp s).security = s.security ∧ (State.wakeUp s).models = s.models ∧ (State.wakeUp s).dies = s.dies ∧ (State.wakeUp s).faultyEdges = s.faultyEdges ∧ (State.wakeUp s).cores = s.cores ∧ (State.wakeUp s).feeders = s.feeders ∧ (State.wakeUp s).memory = s.memory ∧ (State.wakeUp s).lanes = s.lanes ∧ (State.wakeUp s).guards = s.guards ∧ (State.wakeUp s).mbx = s.mbx ∧ (State.wakeUp s).ports = s.ports ∧ (State.wakeUp s).smbOffset = s.smbOffset ∧ (State.wakeUp s).alertPending = s.alertPending ∧ (State.wakeUp s).owner = s.owner ∧ (State.wakeUp s).log = s.log ∧ (State.wakeUp s).pcie = s.pcie ∧ (State.wakeUp s).cxl = s.cxl ∧ (State.wakeUp s).cascade = s.cascade ∧ (State.wakeUp s).sessions = s.sessions ∧ (State.wakeUp s).grants = s.grants ∧ (State.wakeUp s).fabricSeq = s.fabricSeq ∧ (State.wakeUp s).mbxTurn = s.mbxTurn ∧ (State.wakeUp s).turns = s.turns ∧ (State.wakeUp s).accepted = s.accepted ∧ (State.wakeUp s).bus = s.bus ∧ (State.wakeUp s).freeTick = s.freeTick := by
  unfold State.wakeUp
  try dsimp only
  (repeat' split) <;> simp

/-! ### Thermal -/

@[simp] theorem State.setThrottle_leaves (s : State) (k : Nat) :
    (State.setThrottle s k).pending = s.pending ∧ (State.setThrottle s k).wall = s.wall ∧ (State.setThrottle s k).time = s.time ∧ (State.setThrottle s k).board = s.board ∧ (State.setThrottle s k).tap = s.tap ∧ (State.setThrottle s k).power = s.power ∧ (State.setThrottle s k).clocks = s.clocks ∧ (State.setThrottle s k).straps = s.straps ∧ (State.setThrottle s k).boot = s.boot ∧ (State.setThrottle s k).flash = s.flash ∧ (State.setThrottle s k).fuses = s.fuses ∧ (State.setThrottle s k).security = s.security ∧ (State.setThrottle s k).models = s.models ∧ (State.setThrottle s k).faultyEdges = s.faultyEdges ∧ (State.setThrottle s k).cores = s.cores ∧ (State.setThrottle s k).feeders = s.feeders ∧ (State.setThrottle s k).memory = s.memory ∧ (State.setThrottle s k).lanes = s.lanes ∧ (State.setThrottle s k).guards = s.guards ∧ (State.setThrottle s k).mbx = s.mbx ∧ (State.setThrottle s k).ports = s.ports ∧ (State.setThrottle s k).smbOffset = s.smbOffset ∧ (State.setThrottle s k).alertPending = s.alertPending ∧ (State.setThrottle s k).owner = s.owner ∧ (State.setThrottle s k).pcie = s.pcie ∧ (State.setThrottle s k).cxl = s.cxl ∧ (State.setThrottle s k).cascade = s.cascade ∧ (State.setThrottle s k).sessions = s.sessions ∧ (State.setThrottle s k).grants = s.grants ∧ (State.setThrottle s k).fabricSeq = s.fabricSeq ∧ (State.setThrottle s k).mbxTurn = s.mbxTurn ∧ (State.setThrottle s k).turns = s.turns ∧ (State.setThrottle s k).accepted = s.accepted ∧ (State.setThrottle s k).bus = s.bus ∧ (State.setThrottle s k).freeTick = s.freeTick := by
  unfold State.setThrottle
  try dsimp only
  (repeat' split) <;> simp

@[simp] theorem State.moduleTrip_leaves (s : State) (reason cause : Nat) :
    (State.moduleTrip s reason cause).pending = s.pending ∧ (State.moduleTrip s reason cause).wall = s.wall ∧ (State.moduleTrip s reason cause).board = s.board ∧ (State.moduleTrip s reason cause).tap = s.tap ∧ (State.moduleTrip s reason cause).straps = s.straps ∧ (State.moduleTrip s reason cause).fuses = s.fuses ∧ (State.moduleTrip s reason cause).bus = s.bus ∧ (State.moduleTrip s reason cause).freeTick = s.freeTick := by
  unfold State.moduleTrip
  try dsimp only
  (repeat' split) <;> simp

@[simp] theorem State.dieTrip_leaves (s : State) (d : Nat) (temp : Int) :
    (State.dieTrip s d temp).pending = s.pending ∧ (State.dieTrip s d temp).wall = s.wall ∧ (State.dieTrip s d temp).time = s.time ∧ (State.dieTrip s d temp).board = s.board ∧ (State.dieTrip s d temp).tap = s.tap ∧ (State.dieTrip s d temp).power = s.power ∧ (State.dieTrip s d temp).clocks = s.clocks ∧ (State.dieTrip s d temp).straps = s.straps ∧ (State.dieTrip s d temp).boot = s.boot ∧ (State.dieTrip s d temp).flash = s.flash ∧ (State.dieTrip s d temp).fuses = s.fuses ∧ (State.dieTrip s d temp).security = s.security ∧ (State.dieTrip s d temp).models = s.models ∧ (State.dieTrip s d temp).faultyEdges = s.faultyEdges ∧ (State.dieTrip s d temp).feeders = s.feeders ∧ (State.dieTrip s d temp).ports = s.ports ∧ (State.dieTrip s d temp).smbOffset = s.smbOffset ∧ (State.dieTrip s d temp).owner = s.owner ∧ (State.dieTrip s d temp).cxl = s.cxl ∧ (State.dieTrip s d temp).fabricSeq = s.fabricSeq ∧ (State.dieTrip s d temp).mbxTurn = s.mbxTurn ∧ (State.dieTrip s d temp).turns = s.turns ∧ (State.dieTrip s d temp).accepted = s.accepted ∧ (State.dieTrip s d temp).bus = s.bus := by
  unfold State.dieTrip
  try dsimp only
  (repeat' split) <;> simp

@[simp] theorem State.clearTrip_leaves (s : State) :
    (State.clearTrip s).pending = s.pending ∧ (State.clearTrip s).wall = s.wall ∧ (State.clearTrip s).time = s.time ∧ (State.clearTrip s).board = s.board ∧ (State.clearTrip s).tap = s.tap ∧ (State.clearTrip s).power = s.power ∧ (State.clearTrip s).clocks = s.clocks ∧ (State.clearTrip s).straps = s.straps ∧ (State.clearTrip s).boot = s.boot ∧ (State.clearTrip s).flash = s.flash ∧ (State.clearTrip s).fuses = s.fuses ∧ (State.clearTrip s).security = s.security ∧ (State.clearTrip s).models = s.models ∧ (State.clearTrip s).dies = s.dies ∧ (State.clearTrip s).faultyEdges = s.faultyEdges ∧ (State.clearTrip s).cores = s.cores ∧ (State.clearTrip s).feeders = s.feeders ∧ (State.clearTrip s).memory = s.memory ∧ (State.clearTrip s).lanes = s.lanes ∧ (State.clearTrip s).guards = s.guards ∧ (State.clearTrip s).mbx = s.mbx ∧ (State.clearTrip s).ports = s.ports ∧ (State.clearTrip s).smbOffset = s.smbOffset ∧ (State.clearTrip s).alertPending = s.alertPending ∧ (State.clearTrip s).owner = s.owner ∧ (State.clearTrip s).log = s.log ∧ (State.clearTrip s).pcie = s.pcie ∧ (State.clearTrip s).cxl = s.cxl ∧ (State.clearTrip s).cascade = s.cascade ∧ (State.clearTrip s).sessions = s.sessions ∧ (State.clearTrip s).grants = s.grants ∧ (State.clearTrip s).fabricSeq = s.fabricSeq ∧ (State.clearTrip s).mbxTurn = s.mbxTurn ∧ (State.clearTrip s).turns = s.turns ∧ (State.clearTrip s).accepted = s.accepted ∧ (State.clearTrip s).bus = s.bus ∧ (State.clearTrip s).freeTick = s.freeTick := by
  unfold State.clearTrip
  try dsimp only
  (repeat' split) <;> simp

/-! ### Spaces -/

@[simp] theorem State.writeScratch_leaves (s : State) (a : Nat) (bs : Bytes) :
    (State.writeScratch s a bs).pending = s.pending ∧ (State.writeScratch s a bs).wall = s.wall ∧ (State.writeScratch s a bs).time = s.time ∧ (State.writeScratch s a bs).board = s.board ∧ (State.writeScratch s a bs).tap = s.tap ∧ (State.writeScratch s a bs).power = s.power ∧ (State.writeScratch s a bs).clocks = s.clocks ∧ (State.writeScratch s a bs).thermal = s.thermal ∧ (State.writeScratch s a bs).straps = s.straps ∧ (State.writeScratch s a bs).boot = s.boot ∧ (State.writeScratch s a bs).flash = s.flash ∧ (State.writeScratch s a bs).fuses = s.fuses ∧ (State.writeScratch s a bs).security = s.security ∧ (State.writeScratch s a bs).models = s.models ∧ (State.writeScratch s a bs).dies = s.dies ∧ (State.writeScratch s a bs).faultyEdges = s.faultyEdges ∧ (State.writeScratch s a bs).feeders = s.feeders ∧ (State.writeScratch s a bs).memory = s.memory ∧ (State.writeScratch s a bs).lanes = s.lanes ∧ (State.writeScratch s a bs).guards = s.guards ∧ (State.writeScratch s a bs).mbx = s.mbx ∧ (State.writeScratch s a bs).ports = s.ports ∧ (State.writeScratch s a bs).smbOffset = s.smbOffset ∧ (State.writeScratch s a bs).alertPending = s.alertPending ∧ (State.writeScratch s a bs).owner = s.owner ∧ (State.writeScratch s a bs).log = s.log ∧ (State.writeScratch s a bs).pcie = s.pcie ∧ (State.writeScratch s a bs).cxl = s.cxl ∧ (State.writeScratch s a bs).cascade = s.cascade ∧ (State.writeScratch s a bs).sessions = s.sessions ∧ (State.writeScratch s a bs).grants = s.grants ∧ (State.writeScratch s a bs).fabricSeq = s.fabricSeq ∧ (State.writeScratch s a bs).mbxTurn = s.mbxTurn ∧ (State.writeScratch s a bs).turns = s.turns ∧ (State.writeScratch s a bs).accepted = s.accepted ∧ (State.writeScratch s a bs).bus = s.bus ∧ (State.writeScratch s a bs).freeTick = s.freeTick := by
  unfold State.writeScratch
  try dsimp only
  (repeat' split) <;> simp

@[simp] theorem State.writeSpace_leaves (s : State) (space a : Nat) (bs : Bytes) :
    (State.writeSpace s space a bs).pending = s.pending ∧ (State.writeSpace s space a bs).wall = s.wall ∧ (State.writeSpace s space a bs).time = s.time ∧ (State.writeSpace s space a bs).board = s.board ∧ (State.writeSpace s space a bs).tap = s.tap ∧ (State.writeSpace s space a bs).power = s.power ∧ (State.writeSpace s space a bs).clocks = s.clocks ∧ (State.writeSpace s space a bs).thermal = s.thermal ∧ (State.writeSpace s space a bs).straps = s.straps ∧ (State.writeSpace s space a bs).boot = s.boot ∧ (State.writeSpace s space a bs).flash = s.flash ∧ (State.writeSpace s space a bs).fuses = s.fuses ∧ (State.writeSpace s space a bs).security = s.security ∧ (State.writeSpace s space a bs).models = s.models ∧ (State.writeSpace s space a bs).dies = s.dies ∧ (State.writeSpace s space a bs).faultyEdges = s.faultyEdges ∧ (State.writeSpace s space a bs).feeders = s.feeders ∧ (State.writeSpace s space a bs).lanes = s.lanes ∧ (State.writeSpace s space a bs).guards = s.guards ∧ (State.writeSpace s space a bs).mbx = s.mbx ∧ (State.writeSpace s space a bs).ports = s.ports ∧ (State.writeSpace s space a bs).smbOffset = s.smbOffset ∧ (State.writeSpace s space a bs).alertPending = s.alertPending ∧ (State.writeSpace s space a bs).owner = s.owner ∧ (State.writeSpace s space a bs).log = s.log ∧ (State.writeSpace s space a bs).pcie = s.pcie ∧ (State.writeSpace s space a bs).cxl = s.cxl ∧ (State.writeSpace s space a bs).cascade = s.cascade ∧ (State.writeSpace s space a bs).sessions = s.sessions ∧ (State.writeSpace s space a bs).grants = s.grants ∧ (State.writeSpace s space a bs).fabricSeq = s.fabricSeq ∧ (State.writeSpace s space a bs).mbxTurn = s.mbxTurn ∧ (State.writeSpace s space a bs).turns = s.turns ∧ (State.writeSpace s space a bs).accepted = s.accepted ∧ (State.writeSpace s space a bs).bus = s.bus ∧ (State.writeSpace s space a bs).freeTick = s.freeTick := by
  unfold State.writeSpace
  try dsimp only
  (repeat' split) <;> simp

@[simp] theorem State.storeForm_leaves (s : State) (form : Nat) (bs : Bytes) :
    (State.storeForm s form bs).pending = s.pending ∧ (State.storeForm s form bs).wall = s.wall ∧ (State.storeForm s form bs).time = s.time ∧ (State.storeForm s form bs).board = s.board ∧ (State.storeForm s form bs).tap = s.tap ∧ (State.storeForm s form bs).power = s.power ∧ (State.storeForm s form bs).clocks = s.clocks ∧ (State.storeForm s form bs).thermal = s.thermal ∧ (State.storeForm s form bs).straps = s.straps ∧ (State.storeForm s form bs).boot = s.boot ∧ (State.storeForm s form bs).flash = s.flash ∧ (State.storeForm s form bs).fuses = s.fuses ∧ (State.storeForm s form bs).security = s.security ∧ (State.storeForm s form bs).models = s.models ∧ (State.storeForm s form bs).dies = s.dies ∧ (State.storeForm s form bs).faultyEdges = s.faultyEdges ∧ (State.storeForm s form bs).feeders = s.feeders ∧ (State.storeForm s form bs).lanes = s.lanes ∧ (State.storeForm s form bs).guards = s.guards ∧ (State.storeForm s form bs).mbx = s.mbx ∧ (State.storeForm s form bs).ports = s.ports ∧ (State.storeForm s form bs).smbOffset = s.smbOffset ∧ (State.storeForm s form bs).alertPending = s.alertPending ∧ (State.storeForm s form bs).owner = s.owner ∧ (State.storeForm s form bs).log = s.log ∧ (State.storeForm s form bs).pcie = s.pcie ∧ (State.storeForm s form bs).cxl = s.cxl ∧ (State.storeForm s form bs).cascade = s.cascade ∧ (State.storeForm s form bs).sessions = s.sessions ∧ (State.storeForm s form bs).grants = s.grants ∧ (State.storeForm s form bs).fabricSeq = s.fabricSeq ∧ (State.storeForm s form bs).mbxTurn = s.mbxTurn ∧ (State.storeForm s form bs).turns = s.turns ∧ (State.storeForm s form bs).accepted = s.accepted ∧ (State.storeForm s form bs).bus = s.bus ∧ (State.storeForm s form bs).freeTick = s.freeTick := by
  unfold State.storeForm
  try dsimp only
  (repeat' split) <;> simp

/-! ### Security -/

@[simp] theorem State.updFwSlot_leaves (s : State) (i : Nat) (f : FwSlot → FwSlot) :
    (State.updFwSlot s i f).pending = s.pending ∧ (State.updFwSlot s i f).wall = s.wall ∧ (State.updFwSlot s i f).time = s.time ∧ (State.updFwSlot s i f).board = s.board ∧ (State.updFwSlot s i f).tap = s.tap ∧ (State.updFwSlot s i f).power = s.power ∧ (State.updFwSlot s i f).clocks = s.clocks ∧ (State.updFwSlot s i f).thermal = s.thermal ∧ (State.updFwSlot s i f).straps = s.straps ∧ (State.updFwSlot s i f).boot = s.boot ∧ (State.updFwSlot s i f).fuses = s.fuses ∧ (State.updFwSlot s i f).security = s.security ∧ (State.updFwSlot s i f).models = s.models ∧ (State.updFwSlot s i f).dies = s.dies ∧ (State.updFwSlot s i f).faultyEdges = s.faultyEdges ∧ (State.updFwSlot s i f).cores = s.cores ∧ (State.updFwSlot s i f).feeders = s.feeders ∧ (State.updFwSlot s i f).memory = s.memory ∧ (State.updFwSlot s i f).lanes = s.lanes ∧ (State.updFwSlot s i f).guards = s.guards ∧ (State.updFwSlot s i f).mbx = s.mbx ∧ (State.updFwSlot s i f).ports = s.ports ∧ (State.updFwSlot s i f).smbOffset = s.smbOffset ∧ (State.updFwSlot s i f).alertPending = s.alertPending ∧ (State.updFwSlot s i f).owner = s.owner ∧ (State.updFwSlot s i f).log = s.log ∧ (State.updFwSlot s i f).pcie = s.pcie ∧ (State.updFwSlot s i f).cxl = s.cxl ∧ (State.updFwSlot s i f).cascade = s.cascade ∧ (State.updFwSlot s i f).sessions = s.sessions ∧ (State.updFwSlot s i f).grants = s.grants ∧ (State.updFwSlot s i f).fabricSeq = s.fabricSeq ∧ (State.updFwSlot s i f).mbxTurn = s.mbxTurn ∧ (State.updFwSlot s i f).turns = s.turns ∧ (State.updFwSlot s i f).accepted = s.accepted ∧ (State.updFwSlot s i f).bus = s.bus ∧ (State.updFwSlot s i f).freeTick = s.freeTick := by
  unfold State.updFwSlot
  try dsimp only
  (repeat' split) <;> simp

@[simp] theorem State.startFirmware_leaves (s : State) (slot : Nat) (img : Bytes) :
    (State.startFirmware s slot img).pending = s.pending ∧ (State.startFirmware s slot img).wall = s.wall ∧ (State.startFirmware s slot img).time = s.time ∧ (State.startFirmware s slot img).board = s.board ∧ (State.startFirmware s slot img).tap = s.tap ∧ (State.startFirmware s slot img).power = s.power ∧ (State.startFirmware s slot img).clocks = s.clocks ∧ (State.startFirmware s slot img).thermal = s.thermal ∧ (State.startFirmware s slot img).straps = s.straps ∧ (State.startFirmware s slot img).flash = s.flash ∧ (State.startFirmware s slot img).fuses = s.fuses ∧ (State.startFirmware s slot img).models = s.models ∧ (State.startFirmware s slot img).dies = s.dies ∧ (State.startFirmware s slot img).faultyEdges = s.faultyEdges ∧ (State.startFirmware s slot img).cores = s.cores ∧ (State.startFirmware s slot img).feeders = s.feeders ∧ (State.startFirmware s slot img).memory = s.memory ∧ (State.startFirmware s slot img).lanes = s.lanes ∧ (State.startFirmware s slot img).guards = s.guards ∧ (State.startFirmware s slot img).mbx = s.mbx ∧ (State.startFirmware s slot img).ports = s.ports ∧ (State.startFirmware s slot img).smbOffset = s.smbOffset ∧ (State.startFirmware s slot img).alertPending = s.alertPending ∧ (State.startFirmware s slot img).owner = s.owner ∧ (State.startFirmware s slot img).pcie = s.pcie ∧ (State.startFirmware s slot img).cxl = s.cxl ∧ (State.startFirmware s slot img).cascade = s.cascade ∧ (State.startFirmware s slot img).sessions = s.sessions ∧ (State.startFirmware s slot img).grants = s.grants ∧ (State.startFirmware s slot img).fabricSeq = s.fabricSeq ∧ (State.startFirmware s slot img).mbxTurn = s.mbxTurn ∧ (State.startFirmware s slot img).turns = s.turns ∧ (State.startFirmware s slot img).accepted = s.accepted ∧ (State.startFirmware s slot img).bus = s.bus ∧ (State.startFirmware s slot img).freeTick = s.freeTick := by
  unfold State.startFirmware
  try dsimp only
  (repeat' split) <;> simp

@[simp] theorem State.enterRecovery_leaves (s : State) :
    (State.enterRecovery s).pending = s.pending ∧ (State.enterRecovery s).wall = s.wall ∧ (State.enterRecovery s).time = s.time ∧ (State.enterRecovery s).board = s.board ∧ (State.enterRecovery s).tap = s.tap ∧ (State.enterRecovery s).power = s.power ∧ (State.enterRecovery s).clocks = s.clocks ∧ (State.enterRecovery s).thermal = s.thermal ∧ (State.enterRecovery s).straps = s.straps ∧ (State.enterRecovery s).flash = s.flash ∧ (State.enterRecovery s).fuses = s.fuses ∧ (State.enterRecovery s).security = s.security ∧ (State.enterRecovery s).models = s.models ∧ (State.enterRecovery s).dies = s.dies ∧ (State.enterRecovery s).faultyEdges = s.faultyEdges ∧ (State.enterRecovery s).cores = s.cores ∧ (State.enterRecovery s).feeders = s.feeders ∧ (State.enterRecovery s).memory = s.memory ∧ (State.enterRecovery s).lanes = s.lanes ∧ (State.enterRecovery s).guards = s.guards ∧ (State.enterRecovery s).mbx = s.mbx ∧ (State.enterRecovery s).ports = s.ports ∧ (State.enterRecovery s).smbOffset = s.smbOffset ∧ (State.enterRecovery s).owner = s.owner ∧ (State.enterRecovery s).log = s.log ∧ (State.enterRecovery s).pcie = s.pcie ∧ (State.enterRecovery s).cxl = s.cxl ∧ (State.enterRecovery s).cascade = s.cascade ∧ (State.enterRecovery s).sessions = s.sessions ∧ (State.enterRecovery s).grants = s.grants ∧ (State.enterRecovery s).fabricSeq = s.fabricSeq ∧ (State.enterRecovery s).mbxTurn = s.mbxTurn ∧ (State.enterRecovery s).turns = s.turns ∧ (State.enterRecovery s).accepted = s.accepted ∧ (State.enterRecovery s).bus = s.bus ∧ (State.enterRecovery s).freeTick = s.freeTick := by
  unfold State.enterRecovery
  try dsimp only
  (repeat' split) <;> simp

@[simp] theorem State.fallBack_leaves (s : State) (slot : Nat) :
    (State.fallBack s slot).pending = s.pending ∧ (State.fallBack s slot).wall = s.wall ∧ (State.fallBack s slot).time = s.time ∧ (State.fallBack s slot).board = s.board ∧ (State.fallBack s slot).tap = s.tap ∧ (State.fallBack s slot).power = s.power ∧ (State.fallBack s slot).clocks = s.clocks ∧ (State.fallBack s slot).thermal = s.thermal ∧ (State.fallBack s slot).straps = s.straps ∧ (State.fallBack s slot).fuses = s.fuses ∧ (State.fallBack s slot).security = s.security ∧ (State.fallBack s slot).models = s.models ∧ (State.fallBack s slot).faultyEdges = s.faultyEdges ∧ (State.fallBack s slot).cores = s.cores ∧ (State.fallBack s slot).feeders = s.feeders ∧ (State.fallBack s slot).memory = s.memory ∧ (State.fallBack s slot).lanes = s.lanes ∧ (State.fallBack s slot).guards = s.guards ∧ (State.fallBack s slot).mbx = s.mbx ∧ (State.fallBack s slot).ports = s.ports ∧ (State.fallBack s slot).smbOffset = s.smbOffset ∧ (State.fallBack s slot).owner = s.owner ∧ (State.fallBack s slot).pcie = s.pcie ∧ (State.fallBack s slot).cxl = s.cxl ∧ (State.fallBack s slot).cascade = s.cascade ∧ (State.fallBack s slot).sessions = s.sessions ∧ (State.fallBack s slot).grants = s.grants ∧ (State.fallBack s slot).fabricSeq = s.fabricSeq ∧ (State.fallBack s slot).mbxTurn = s.mbxTurn ∧ (State.fallBack s slot).turns = s.turns ∧ (State.fallBack s slot).accepted = s.accepted ∧ (State.fallBack s slot).bus = s.bus ∧ (State.fallBack s slot).freeTick = s.freeTick := by
  unfold State.fallBack
  try dsimp only
  (repeat' split) <;> simp

@[simp] theorem State.measureUpdate_leaves (s : State) (op kind slot : Nat) (value : Bytes) :
    (State.measureUpdate s op kind slot value).pending = s.pending ∧ (State.measureUpdate s op kind slot value).wall = s.wall ∧ (State.measureUpdate s op kind slot value).time = s.time ∧ (State.measureUpdate s op kind slot value).board = s.board ∧ (State.measureUpdate s op kind slot value).tap = s.tap ∧ (State.measureUpdate s op kind slot value).power = s.power ∧ (State.measureUpdate s op kind slot value).clocks = s.clocks ∧ (State.measureUpdate s op kind slot value).thermal = s.thermal ∧ (State.measureUpdate s op kind slot value).straps = s.straps ∧ (State.measureUpdate s op kind slot value).boot = s.boot ∧ (State.measureUpdate s op kind slot value).flash = s.flash ∧ (State.measureUpdate s op kind slot value).fuses = s.fuses ∧ (State.measureUpdate s op kind slot value).models = s.models ∧ (State.measureUpdate s op kind slot value).dies = s.dies ∧ (State.measureUpdate s op kind slot value).faultyEdges = s.faultyEdges ∧ (State.measureUpdate s op kind slot value).cores = s.cores ∧ (State.measureUpdate s op kind slot value).feeders = s.feeders ∧ (State.measureUpdate s op kind slot value).memory = s.memory ∧ (State.measureUpdate s op kind slot value).lanes = s.lanes ∧ (State.measureUpdate s op kind slot value).guards = s.guards ∧ (State.measureUpdate s op kind slot value).mbx = s.mbx ∧ (State.measureUpdate s op kind slot value).ports = s.ports ∧ (State.measureUpdate s op kind slot value).smbOffset = s.smbOffset ∧ (State.measureUpdate s op kind slot value).alertPending = s.alertPending ∧ (State.measureUpdate s op kind slot value).owner = s.owner ∧ (State.measureUpdate s op kind slot value).pcie = s.pcie ∧ (State.measureUpdate s op kind slot value).cxl = s.cxl ∧ (State.measureUpdate s op kind slot value).cascade = s.cascade ∧ (State.measureUpdate s op kind slot value).sessions = s.sessions ∧ (State.measureUpdate s op kind slot value).grants = s.grants ∧ (State.measureUpdate s op kind slot value).fabricSeq = s.fabricSeq ∧ (State.measureUpdate s op kind slot value).mbxTurn = s.mbxTurn ∧ (State.measureUpdate s op kind slot value).turns = s.turns ∧ (State.measureUpdate s op kind slot value).accepted = s.accepted ∧ (State.measureUpdate s op kind slot value).bus = s.bus ∧ (State.measureUpdate s op kind slot value).freeTick = s.freeTick := by
  unfold State.measureUpdate
  try dsimp only
  (repeat' split) <;> simp

@[simp] theorem State.fuseWritten_leaves (s : State) (op kind slot : Nat) :
    (State.fuseWritten s op kind slot).pending = s.pending ∧ (State.fuseWritten s op kind slot).wall = s.wall ∧ (State.fuseWritten s op kind slot).time = s.time ∧ (State.fuseWritten s op kind slot).board = s.board ∧ (State.fuseWritten s op kind slot).tap = s.tap ∧ (State.fuseWritten s op kind slot).power = s.power ∧ (State.fuseWritten s op kind slot).clocks = s.clocks ∧ (State.fuseWritten s op kind slot).thermal = s.thermal ∧ (State.fuseWritten s op kind slot).straps = s.straps ∧ (State.fuseWritten s op kind slot).boot = s.boot ∧ (State.fuseWritten s op kind slot).flash = s.flash ∧ (State.fuseWritten s op kind slot).fuses = s.fuses ∧ (State.fuseWritten s op kind slot).security = s.security ∧ (State.fuseWritten s op kind slot).models = s.models ∧ (State.fuseWritten s op kind slot).faultyEdges = s.faultyEdges ∧ (State.fuseWritten s op kind slot).cores = s.cores ∧ (State.fuseWritten s op kind slot).feeders = s.feeders ∧ (State.fuseWritten s op kind slot).memory = s.memory ∧ (State.fuseWritten s op kind slot).lanes = s.lanes ∧ (State.fuseWritten s op kind slot).guards = s.guards ∧ (State.fuseWritten s op kind slot).mbx = s.mbx ∧ (State.fuseWritten s op kind slot).ports = s.ports ∧ (State.fuseWritten s op kind slot).smbOffset = s.smbOffset ∧ (State.fuseWritten s op kind slot).alertPending = s.alertPending ∧ (State.fuseWritten s op kind slot).owner = s.owner ∧ (State.fuseWritten s op kind slot).pcie = s.pcie ∧ (State.fuseWritten s op kind slot).cxl = s.cxl ∧ (State.fuseWritten s op kind slot).cascade = s.cascade ∧ (State.fuseWritten s op kind slot).sessions = s.sessions ∧ (State.fuseWritten s op kind slot).grants = s.grants ∧ (State.fuseWritten s op kind slot).fabricSeq = s.fabricSeq ∧ (State.fuseWritten s op kind slot).mbxTurn = s.mbxTurn ∧ (State.fuseWritten s op kind slot).turns = s.turns ∧ (State.fuseWritten s op kind slot).accepted = s.accepted ∧ (State.fuseWritten s op kind slot).bus = s.bus ∧ (State.fuseWritten s op kind slot).freeTick = s.freeTick := by
  unfold State.fuseWritten
  try dsimp only
  (repeat' split) <;> simp

@[simp] theorem State.answerChunk_leaves (s : State) (p k : Nat) (req bs : Bytes) :
    (State.answerChunk s p k req bs).pending = s.pending ∧ (State.answerChunk s p k req bs).wall = s.wall ∧ (State.answerChunk s p k req bs).time = s.time ∧ (State.answerChunk s p k req bs).board = s.board ∧ (State.answerChunk s p k req bs).tap = s.tap ∧ (State.answerChunk s p k req bs).power = s.power ∧ (State.answerChunk s p k req bs).clocks = s.clocks ∧ (State.answerChunk s p k req bs).thermal = s.thermal ∧ (State.answerChunk s p k req bs).straps = s.straps ∧ (State.answerChunk s p k req bs).boot = s.boot ∧ (State.answerChunk s p k req bs).flash = s.flash ∧ (State.answerChunk s p k req bs).fuses = s.fuses ∧ (State.answerChunk s p k req bs).security = s.security ∧ (State.answerChunk s p k req bs).models = s.models ∧ (State.answerChunk s p k req bs).dies = s.dies ∧ (State.answerChunk s p k req bs).faultyEdges = s.faultyEdges ∧ (State.answerChunk s p k req bs).cores = s.cores ∧ (State.answerChunk s p k req bs).feeders = s.feeders ∧ (State.answerChunk s p k req bs).memory = s.memory ∧ (State.answerChunk s p k req bs).lanes = s.lanes ∧ (State.answerChunk s p k req bs).guards = s.guards ∧ (State.answerChunk s p k req bs).ports = s.ports ∧ (State.answerChunk s p k req bs).smbOffset = s.smbOffset ∧ (State.answerChunk s p k req bs).owner = s.owner ∧ (State.answerChunk s p k req bs).log = s.log ∧ (State.answerChunk s p k req bs).cxl = s.cxl ∧ (State.answerChunk s p k req bs).sessions = s.sessions ∧ (State.answerChunk s p k req bs).grants = s.grants ∧ (State.answerChunk s p k req bs).fabricSeq = s.fabricSeq ∧ (State.answerChunk s p k req bs).mbxTurn = s.mbxTurn ∧ (State.answerChunk s p k req bs).turns = s.turns ∧ (State.answerChunk s p k req bs).accepted = s.accepted ∧ (State.answerChunk s p k req bs).bus = s.bus ∧ (State.answerChunk s p k req bs).freeTick = s.freeTick := by
  unfold State.answerChunk
  try dsimp only
  (repeat' split) <;> simp

/-! ### Gddr -/

@[simp] theorem State.trainChannels_leaves (s : State) (seedFail trainFail : List (Nat × Nat)) :
    (State.trainChannels s seedFail trainFail).pending = s.pending ∧ (State.trainChannels s seedFail trainFail).wall = s.wall ∧ (State.trainChannels s seedFail trainFail).time = s.time ∧ (State.trainChannels s seedFail trainFail).board = s.board ∧ (State.trainChannels s seedFail trainFail).tap = s.tap ∧ (State.trainChannels s seedFail trainFail).power = s.power ∧ (State.trainChannels s seedFail trainFail).clocks = s.clocks ∧ (State.trainChannels s seedFail trainFail).thermal = s.thermal ∧ (State.trainChannels s seedFail trainFail).straps = s.straps ∧ (State.trainChannels s seedFail trainFail).boot = s.boot ∧ (State.trainChannels s seedFail trainFail).flash = s.flash ∧ (State.trainChannels s seedFail trainFail).fuses = s.fuses ∧ (State.trainChannels s seedFail trainFail).security = s.security ∧ (State.trainChannels s seedFail trainFail).models = s.models ∧ (State.trainChannels s seedFail trainFail).dies = s.dies ∧ (State.trainChannels s seedFail trainFail).faultyEdges = s.faultyEdges ∧ (State.trainChannels s seedFail trainFail).cores = s.cores ∧ (State.trainChannels s seedFail trainFail).feeders = s.feeders ∧ (State.trainChannels s seedFail trainFail).lanes = s.lanes ∧ (State.trainChannels s seedFail trainFail).guards = s.guards ∧ (State.trainChannels s seedFail trainFail).mbx = s.mbx ∧ (State.trainChannels s seedFail trainFail).ports = s.ports ∧ (State.trainChannels s seedFail trainFail).smbOffset = s.smbOffset ∧ (State.trainChannels s seedFail trainFail).alertPending = s.alertPending ∧ (State.trainChannels s seedFail trainFail).owner = s.owner ∧ (State.trainChannels s seedFail trainFail).log = s.log ∧ (State.trainChannels s seedFail trainFail).pcie = s.pcie ∧ (State.trainChannels s seedFail trainFail).cxl = s.cxl ∧ (State.trainChannels s seedFail trainFail).cascade = s.cascade ∧ (State.trainChannels s seedFail trainFail).sessions = s.sessions ∧ (State.trainChannels s seedFail trainFail).grants = s.grants ∧ (State.trainChannels s seedFail trainFail).fabricSeq = s.fabricSeq ∧ (State.trainChannels s seedFail trainFail).mbxTurn = s.mbxTurn ∧ (State.trainChannels s seedFail trainFail).turns = s.turns ∧ (State.trainChannels s seedFail trainFail).accepted = s.accepted ∧ (State.trainChannels s seedFail trainFail).bus = s.bus ∧ (State.trainChannels s seedFail trainFail).freeTick = s.freeTick := by
  unfold State.trainChannels
  refine ⟨?_, ?_, ?_, ?_, ?_, ?_, ?_, ?_, ?_, ?_, ?_, ?_, ?_, ?_, ?_, ?_, ?_, ?_, ?_, ?_, ?_, ?_, ?_, ?_, ?_, ?_, ?_, ?_, ?_, ?_, ?_, ?_, ?_, ?_, ?_, ?_, ?_⟩ <;> exact State.foldl_same _ _ (fun t x => by simp) _ _

@[simp] theorem State.correctedEvent_leaves (s : State) (md ch : Nat) :
    (State.correctedEvent s md ch).pending = s.pending ∧ (State.correctedEvent s md ch).wall = s.wall ∧ (State.correctedEvent s md ch).time = s.time ∧ (State.correctedEvent s md ch).board = s.board ∧ (State.correctedEvent s md ch).tap = s.tap ∧ (State.correctedEvent s md ch).power = s.power ∧ (State.correctedEvent s md ch).clocks = s.clocks ∧ (State.correctedEvent s md ch).thermal = s.thermal ∧ (State.correctedEvent s md ch).straps = s.straps ∧ (State.correctedEvent s md ch).boot = s.boot ∧ (State.correctedEvent s md ch).flash = s.flash ∧ (State.correctedEvent s md ch).fuses = s.fuses ∧ (State.correctedEvent s md ch).security = s.security ∧ (State.correctedEvent s md ch).models = s.models ∧ (State.correctedEvent s md ch).dies = s.dies ∧ (State.correctedEvent s md ch).faultyEdges = s.faultyEdges ∧ (State.correctedEvent s md ch).cores = s.cores ∧ (State.correctedEvent s md ch).feeders = s.feeders ∧ (State.correctedEvent s md ch).lanes = s.lanes ∧ (State.correctedEvent s md ch).guards = s.guards ∧ (State.correctedEvent s md ch).mbx = s.mbx ∧ (State.correctedEvent s md ch).ports = s.ports ∧ (State.correctedEvent s md ch).smbOffset = s.smbOffset ∧ (State.correctedEvent s md ch).alertPending = s.alertPending ∧ (State.correctedEvent s md ch).owner = s.owner ∧ (State.correctedEvent s md ch).log = s.log ∧ (State.correctedEvent s md ch).pcie = s.pcie ∧ (State.correctedEvent s md ch).cxl = s.cxl ∧ (State.correctedEvent s md ch).cascade = s.cascade ∧ (State.correctedEvent s md ch).sessions = s.sessions ∧ (State.correctedEvent s md ch).grants = s.grants ∧ (State.correctedEvent s md ch).fabricSeq = s.fabricSeq ∧ (State.correctedEvent s md ch).mbxTurn = s.mbxTurn ∧ (State.correctedEvent s md ch).turns = s.turns ∧ (State.correctedEvent s md ch).accepted = s.accepted ∧ (State.correctedEvent s md ch).bus = s.bus ∧ (State.correctedEvent s md ch).freeTick = s.freeTick := by
  unfold State.correctedEvent
  try dsimp only
  (repeat' split) <;> simp

@[simp] theorem State.poisonWord_leaves (s : State) (md w : Nat) :
    (State.poisonWord s md w).pending = s.pending ∧ (State.poisonWord s md w).wall = s.wall ∧ (State.poisonWord s md w).time = s.time ∧ (State.poisonWord s md w).board = s.board ∧ (State.poisonWord s md w).tap = s.tap ∧ (State.poisonWord s md w).power = s.power ∧ (State.poisonWord s md w).clocks = s.clocks ∧ (State.poisonWord s md w).thermal = s.thermal ∧ (State.poisonWord s md w).straps = s.straps ∧ (State.poisonWord s md w).boot = s.boot ∧ (State.poisonWord s md w).flash = s.flash ∧ (State.poisonWord s md w).fuses = s.fuses ∧ (State.poisonWord s md w).security = s.security ∧ (State.poisonWord s md w).models = s.models ∧ (State.poisonWord s md w).dies = s.dies ∧ (State.poisonWord s md w).faultyEdges = s.faultyEdges ∧ (State.poisonWord s md w).cores = s.cores ∧ (State.poisonWord s md w).feeders = s.feeders ∧ (State.poisonWord s md w).lanes = s.lanes ∧ (State.poisonWord s md w).guards = s.guards ∧ (State.poisonWord s md w).mbx = s.mbx ∧ (State.poisonWord s md w).ports = s.ports ∧ (State.poisonWord s md w).smbOffset = s.smbOffset ∧ (State.poisonWord s md w).alertPending = s.alertPending ∧ (State.poisonWord s md w).owner = s.owner ∧ (State.poisonWord s md w).log = s.log ∧ (State.poisonWord s md w).pcie = s.pcie ∧ (State.poisonWord s md w).cxl = s.cxl ∧ (State.poisonWord s md w).cascade = s.cascade ∧ (State.poisonWord s md w).sessions = s.sessions ∧ (State.poisonWord s md w).grants = s.grants ∧ (State.poisonWord s md w).fabricSeq = s.fabricSeq ∧ (State.poisonWord s md w).mbxTurn = s.mbxTurn ∧ (State.poisonWord s md w).turns = s.turns ∧ (State.poisonWord s md w).accepted = s.accepted ∧ (State.poisonWord s md w).bus = s.bus ∧ (State.poisonWord s md w).freeTick = s.freeTick := by
  unfold State.poisonWord
  try dsimp only
  (repeat' split) <;> simp

@[simp] theorem State.cxlPoisoned_leaves (s : State) (x : Nat) :
    (State.cxlPoisoned s x).pending = s.pending ∧ (State.cxlPoisoned s x).wall = s.wall ∧ (State.cxlPoisoned s x).time = s.time ∧ (State.cxlPoisoned s x).board = s.board ∧ (State.cxlPoisoned s x).tap = s.tap ∧ (State.cxlPoisoned s x).power = s.power ∧ (State.cxlPoisoned s x).clocks = s.clocks ∧ (State.cxlPoisoned s x).thermal = s.thermal ∧ (State.cxlPoisoned s x).straps = s.straps ∧ (State.cxlPoisoned s x).boot = s.boot ∧ (State.cxlPoisoned s x).flash = s.flash ∧ (State.cxlPoisoned s x).fuses = s.fuses ∧ (State.cxlPoisoned s x).security = s.security ∧ (State.cxlPoisoned s x).models = s.models ∧ (State.cxlPoisoned s x).dies = s.dies ∧ (State.cxlPoisoned s x).faultyEdges = s.faultyEdges ∧ (State.cxlPoisoned s x).cores = s.cores ∧ (State.cxlPoisoned s x).feeders = s.feeders ∧ (State.cxlPoisoned s x).memory = s.memory ∧ (State.cxlPoisoned s x).lanes = s.lanes ∧ (State.cxlPoisoned s x).guards = s.guards ∧ (State.cxlPoisoned s x).mbx = s.mbx ∧ (State.cxlPoisoned s x).ports = s.ports ∧ (State.cxlPoisoned s x).smbOffset = s.smbOffset ∧ (State.cxlPoisoned s x).alertPending = s.alertPending ∧ (State.cxlPoisoned s x).owner = s.owner ∧ (State.cxlPoisoned s x).log = s.log ∧ (State.cxlPoisoned s x).pcie = s.pcie ∧ (State.cxlPoisoned s x).cascade = s.cascade ∧ (State.cxlPoisoned s x).sessions = s.sessions ∧ (State.cxlPoisoned s x).grants = s.grants ∧ (State.cxlPoisoned s x).fabricSeq = s.fabricSeq ∧ (State.cxlPoisoned s x).mbxTurn = s.mbxTurn ∧ (State.cxlPoisoned s x).turns = s.turns ∧ (State.cxlPoisoned s x).accepted = s.accepted ∧ (State.cxlPoisoned s x).bus = s.bus ∧ (State.cxlPoisoned s x).freeTick = s.freeTick := by
  unfold State.cxlPoisoned
  try dsimp only
  (repeat' split) <;> simp

/-! ### Cascade -/

@[simp] theorem State.sendOn_leaves (s : State) (q t : Nat) (f : Flit) :
    (State.sendOn s q t f).pending = s.pending ∧ (State.sendOn s q t f).wall = s.wall ∧ (State.sendOn s q t f).time = s.time ∧ (State.sendOn s q t f).board = s.board ∧ (State.sendOn s q t f).tap = s.tap ∧ (State.sendOn s q t f).power = s.power ∧ (State.sendOn s q t f).clocks = s.clocks ∧ (State.sendOn s q t f).thermal = s.thermal ∧ (State.sendOn s q t f).straps = s.straps ∧ (State.sendOn s q t f).boot = s.boot ∧ (State.sendOn s q t f).flash = s.flash ∧ (State.sendOn s q t f).fuses = s.fuses ∧ (State.sendOn s q t f).security = s.security ∧ (State.sendOn s q t f).models = s.models ∧ (State.sendOn s q t f).dies = s.dies ∧ (State.sendOn s q t f).faultyEdges = s.faultyEdges ∧ (State.sendOn s q t f).cores = s.cores ∧ (State.sendOn s q t f).feeders = s.feeders ∧ (State.sendOn s q t f).memory = s.memory ∧ (State.sendOn s q t f).lanes = s.lanes ∧ (State.sendOn s q t f).guards = s.guards ∧ (State.sendOn s q t f).mbx = s.mbx ∧ (State.sendOn s q t f).ports = s.ports ∧ (State.sendOn s q t f).smbOffset = s.smbOffset ∧ (State.sendOn s q t f).alertPending = s.alertPending ∧ (State.sendOn s q t f).owner = s.owner ∧ (State.sendOn s q t f).log = s.log ∧ (State.sendOn s q t f).pcie = s.pcie ∧ (State.sendOn s q t f).cxl = s.cxl ∧ (State.sendOn s q t f).sessions = s.sessions ∧ (State.sendOn s q t f).grants = s.grants ∧ (State.sendOn s q t f).fabricSeq = s.fabricSeq ∧ (State.sendOn s q t f).mbxTurn = s.mbxTurn ∧ (State.sendOn s q t f).turns = s.turns ∧ (State.sendOn s q t f).accepted = s.accepted ∧ (State.sendOn s q t f).bus = s.bus ∧ (State.sendOn s q t f).freeTick = s.freeTick := by
  unfold State.sendOn
  try dsimp only
  (repeat' split) <;> simp

@[simp] theorem State.sendTo_leaves (s : State) (r t : Nat) (f : Flit) :
    (State.sendTo s r t f).pending = s.pending ∧ (State.sendTo s r t f).wall = s.wall ∧ (State.sendTo s r t f).time = s.time ∧ (State.sendTo s r t f).board = s.board ∧ (State.sendTo s r t f).tap = s.tap ∧ (State.sendTo s r t f).power = s.power ∧ (State.sendTo s r t f).clocks = s.clocks ∧ (State.sendTo s r t f).thermal = s.thermal ∧ (State.sendTo s r t f).straps = s.straps ∧ (State.sendTo s r t f).boot = s.boot ∧ (State.sendTo s r t f).flash = s.flash ∧ (State.sendTo s r t f).fuses = s.fuses ∧ (State.sendTo s r t f).security = s.security ∧ (State.sendTo s r t f).models = s.models ∧ (State.sendTo s r t f).dies = s.dies ∧ (State.sendTo s r t f).faultyEdges = s.faultyEdges ∧ (State.sendTo s r t f).cores = s.cores ∧ (State.sendTo s r t f).feeders = s.feeders ∧ (State.sendTo s r t f).memory = s.memory ∧ (State.sendTo s r t f).lanes = s.lanes ∧ (State.sendTo s r t f).guards = s.guards ∧ (State.sendTo s r t f).mbx = s.mbx ∧ (State.sendTo s r t f).ports = s.ports ∧ (State.sendTo s r t f).smbOffset = s.smbOffset ∧ (State.sendTo s r t f).alertPending = s.alertPending ∧ (State.sendTo s r t f).owner = s.owner ∧ (State.sendTo s r t f).log = s.log ∧ (State.sendTo s r t f).pcie = s.pcie ∧ (State.sendTo s r t f).cxl = s.cxl ∧ (State.sendTo s r t f).sessions = s.sessions ∧ (State.sendTo s r t f).grants = s.grants ∧ (State.sendTo s r t f).fabricSeq = s.fabricSeq ∧ (State.sendTo s r t f).mbxTurn = s.mbxTurn ∧ (State.sendTo s r t f).turns = s.turns ∧ (State.sendTo s r t f).accepted = s.accepted ∧ (State.sendTo s r t f).bus = s.bus ∧ (State.sendTo s r t f).freeTick = s.freeTick := by
  unfold State.sendTo
  try dsimp only
  (repeat' split) <;> simp

@[simp] theorem State.forward_leaves (s : State) (t : Nat) (f : Flit) :
    (State.forward s t f).pending = s.pending ∧ (State.forward s t f).wall = s.wall ∧ (State.forward s t f).time = s.time ∧ (State.forward s t f).board = s.board ∧ (State.forward s t f).tap = s.tap ∧ (State.forward s t f).power = s.power ∧ (State.forward s t f).clocks = s.clocks ∧ (State.forward s t f).thermal = s.thermal ∧ (State.forward s t f).straps = s.straps ∧ (State.forward s t f).boot = s.boot ∧ (State.forward s t f).flash = s.flash ∧ (State.forward s t f).fuses = s.fuses ∧ (State.forward s t f).security = s.security ∧ (State.forward s t f).models = s.models ∧ (State.forward s t f).dies = s.dies ∧ (State.forward s t f).faultyEdges = s.faultyEdges ∧ (State.forward s t f).cores = s.cores ∧ (State.forward s t f).feeders = s.feeders ∧ (State.forward s t f).memory = s.memory ∧ (State.forward s t f).lanes = s.lanes ∧ (State.forward s t f).guards = s.guards ∧ (State.forward s t f).mbx = s.mbx ∧ (State.forward s t f).ports = s.ports ∧ (State.forward s t f).smbOffset = s.smbOffset ∧ (State.forward s t f).alertPending = s.alertPending ∧ (State.forward s t f).owner = s.owner ∧ (State.forward s t f).log = s.log ∧ (State.forward s t f).pcie = s.pcie ∧ (State.forward s t f).cxl = s.cxl ∧ (State.forward s t f).sessions = s.sessions ∧ (State.forward s t f).grants = s.grants ∧ (State.forward s t f).fabricSeq = s.fabricSeq ∧ (State.forward s t f).mbxTurn = s.mbxTurn ∧ (State.forward s t f).turns = s.turns ∧ (State.forward s t f).accepted = s.accepted ∧ (State.forward s t f).bus = s.bus ∧ (State.forward s t f).freeTick = s.freeTick := by
  unfold State.forward
  try dsimp only
  (repeat' split) <;> simp

@[simp] theorem State.decoded_leaves (s : State) (q : Nat) (f : Flit) :
    (State.decoded s q f).pending = s.pending ∧ (State.decoded s q f).wall = s.wall ∧ (State.decoded s q f).time = s.time ∧ (State.decoded s q f).board = s.board ∧ (State.decoded s q f).tap = s.tap ∧ (State.decoded s q f).power = s.power ∧ (State.decoded s q f).clocks = s.clocks ∧ (State.decoded s q f).thermal = s.thermal ∧ (State.decoded s q f).straps = s.straps ∧ (State.decoded s q f).boot = s.boot ∧ (State.decoded s q f).flash = s.flash ∧ (State.decoded s q f).fuses = s.fuses ∧ (State.decoded s q f).security = s.security ∧ (State.decoded s q f).models = s.models ∧ (State.decoded s q f).dies = s.dies ∧ (State.decoded s q f).faultyEdges = s.faultyEdges ∧ (State.decoded s q f).cores = s.cores ∧ (State.decoded s q f).feeders = s.feeders ∧ (State.decoded s q f).memory = s.memory ∧ (State.decoded s q f).lanes = s.lanes ∧ (State.decoded s q f).guards = s.guards ∧ (State.decoded s q f).mbx = s.mbx ∧ (State.decoded s q f).ports = s.ports ∧ (State.decoded s q f).smbOffset = s.smbOffset ∧ (State.decoded s q f).alertPending = s.alertPending ∧ (State.decoded s q f).owner = s.owner ∧ (State.decoded s q f).log = s.log ∧ (State.decoded s q f).pcie = s.pcie ∧ (State.decoded s q f).cxl = s.cxl ∧ (State.decoded s q f).sessions = s.sessions ∧ (State.decoded s q f).grants = s.grants ∧ (State.decoded s q f).fabricSeq = s.fabricSeq ∧ (State.decoded s q f).mbxTurn = s.mbxTurn ∧ (State.decoded s q f).turns = s.turns ∧ (State.decoded s q f).accepted = s.accepted ∧ (State.decoded s q f).bus = s.bus ∧ (State.decoded s q f).freeTick = s.freeTick := by
  unfold State.decoded
  try dsimp only
  (repeat' split) <;> simp

@[simp] theorem State.sendRetry_leaves (s : State) (q : Nat) :
    (State.sendRetry s q).pending = s.pending ∧ (State.sendRetry s q).wall = s.wall ∧ (State.sendRetry s q).time = s.time ∧ (State.sendRetry s q).board = s.board ∧ (State.sendRetry s q).tap = s.tap ∧ (State.sendRetry s q).power = s.power ∧ (State.sendRetry s q).clocks = s.clocks ∧ (State.sendRetry s q).thermal = s.thermal ∧ (State.sendRetry s q).straps = s.straps ∧ (State.sendRetry s q).boot = s.boot ∧ (State.sendRetry s q).flash = s.flash ∧ (State.sendRetry s q).fuses = s.fuses ∧ (State.sendRetry s q).security = s.security ∧ (State.sendRetry s q).models = s.models ∧ (State.sendRetry s q).dies = s.dies ∧ (State.sendRetry s q).faultyEdges = s.faultyEdges ∧ (State.sendRetry s q).cores = s.cores ∧ (State.sendRetry s q).feeders = s.feeders ∧ (State.sendRetry s q).memory = s.memory ∧ (State.sendRetry s q).lanes = s.lanes ∧ (State.sendRetry s q).guards = s.guards ∧ (State.sendRetry s q).mbx = s.mbx ∧ (State.sendRetry s q).ports = s.ports ∧ (State.sendRetry s q).smbOffset = s.smbOffset ∧ (State.sendRetry s q).alertPending = s.alertPending ∧ (State.sendRetry s q).owner = s.owner ∧ (State.sendRetry s q).log = s.log ∧ (State.sendRetry s q).pcie = s.pcie ∧ (State.sendRetry s q).cxl = s.cxl ∧ (State.sendRetry s q).sessions = s.sessions ∧ (State.sendRetry s q).grants = s.grants ∧ (State.sendRetry s q).fabricSeq = s.fabricSeq ∧ (State.sendRetry s q).mbxTurn = s.mbxTurn ∧ (State.sendRetry s q).turns = s.turns ∧ (State.sendRetry s q).accepted = s.accepted ∧ (State.sendRetry s q).bus = s.bus ∧ (State.sendRetry s q).freeTick = s.freeTick := by
  unfold State.sendRetry
  try dsimp only
  (repeat' split) <;> simp

@[simp] theorem State.acceptFlit_leaves (s : State) (q : Nat) (f : Flit) :
    (State.acceptFlit s q f).pending = s.pending ∧ (State.acceptFlit s q f).wall = s.wall ∧ (State.acceptFlit s q f).time = s.time ∧ (State.acceptFlit s q f).board = s.board ∧ (State.acceptFlit s q f).tap = s.tap ∧ (State.acceptFlit s q f).power = s.power ∧ (State.acceptFlit s q f).clocks = s.clocks ∧ (State.acceptFlit s q f).thermal = s.thermal ∧ (State.acceptFlit s q f).straps = s.straps ∧ (State.acceptFlit s q f).boot = s.boot ∧ (State.acceptFlit s q f).flash = s.flash ∧ (State.acceptFlit s q f).fuses = s.fuses ∧ (State.acceptFlit s q f).security = s.security ∧ (State.acceptFlit s q f).models = s.models ∧ (State.acceptFlit s q f).dies = s.dies ∧ (State.acceptFlit s q f).faultyEdges = s.faultyEdges ∧ (State.acceptFlit s q f).cores = s.cores ∧ (State.acceptFlit s q f).feeders = s.feeders ∧ (State.acceptFlit s q f).memory = s.memory ∧ (State.acceptFlit s q f).lanes = s.lanes ∧ (State.acceptFlit s q f).guards = s.guards ∧ (State.acceptFlit s q f).mbx = s.mbx ∧ (State.acceptFlit s q f).ports = s.ports ∧ (State.acceptFlit s q f).smbOffset = s.smbOffset ∧ (State.acceptFlit s q f).alertPending = s.alertPending ∧ (State.acceptFlit s q f).owner = s.owner ∧ (State.acceptFlit s q f).log = s.log ∧ (State.acceptFlit s q f).pcie = s.pcie ∧ (State.acceptFlit s q f).cxl = s.cxl ∧ (State.acceptFlit s q f).sessions = s.sessions ∧ (State.acceptFlit s q f).grants = s.grants ∧ (State.acceptFlit s q f).fabricSeq = s.fabricSeq ∧ (State.acceptFlit s q f).mbxTurn = s.mbxTurn ∧ (State.acceptFlit s q f).turns = s.turns ∧ (State.acceptFlit s q f).accepted = s.accepted ∧ (State.acceptFlit s q f).bus = s.bus ∧ (State.acceptFlit s q f).freeTick = s.freeTick := by
  unfold State.acceptFlit
  try dsimp only
  (repeat' split) <;> simp

@[simp] theorem State.unlockTime_leaves (s : State) :
    (State.unlockTime s).pending = s.pending ∧ (State.unlockTime s).wall = s.wall ∧ (State.unlockTime s).time = s.time ∧ (State.unlockTime s).board = s.board ∧ (State.unlockTime s).tap = s.tap ∧ (State.unlockTime s).power = s.power ∧ (State.unlockTime s).clocks = s.clocks ∧ (State.unlockTime s).thermal = s.thermal ∧ (State.unlockTime s).straps = s.straps ∧ (State.unlockTime s).boot = s.boot ∧ (State.unlockTime s).flash = s.flash ∧ (State.unlockTime s).fuses = s.fuses ∧ (State.unlockTime s).security = s.security ∧ (State.unlockTime s).models = s.models ∧ (State.unlockTime s).faultyEdges = s.faultyEdges ∧ (State.unlockTime s).cores = s.cores ∧ (State.unlockTime s).feeders = s.feeders ∧ (State.unlockTime s).memory = s.memory ∧ (State.unlockTime s).lanes = s.lanes ∧ (State.unlockTime s).guards = s.guards ∧ (State.unlockTime s).mbx = s.mbx ∧ (State.unlockTime s).ports = s.ports ∧ (State.unlockTime s).smbOffset = s.smbOffset ∧ (State.unlockTime s).alertPending = s.alertPending ∧ (State.unlockTime s).owner = s.owner ∧ (State.unlockTime s).pcie = s.pcie ∧ (State.unlockTime s).cxl = s.cxl ∧ (State.unlockTime s).sessions = s.sessions ∧ (State.unlockTime s).grants = s.grants ∧ (State.unlockTime s).fabricSeq = s.fabricSeq ∧ (State.unlockTime s).mbxTurn = s.mbxTurn ∧ (State.unlockTime s).turns = s.turns ∧ (State.unlockTime s).accepted = s.accepted ∧ (State.unlockTime s).bus = s.bus ∧ (State.unlockTime s).freeTick = s.freeTick := by
  unfold State.unlockTime
  try dsimp only
  (repeat' split) <;> simp

@[simp] theorem State.stepTime_leaves (s : State) (theta : Int) :
    (State.stepTime s theta).pending = s.pending ∧ (State.stepTime s theta).wall = s.wall ∧ (State.stepTime s theta).board = s.board ∧ (State.stepTime s theta).tap = s.tap ∧ (State.stepTime s theta).power = s.power ∧ (State.stepTime s theta).clocks = s.clocks ∧ (State.stepTime s theta).thermal = s.thermal ∧ (State.stepTime s theta).straps = s.straps ∧ (State.stepTime s theta).boot = s.boot ∧ (State.stepTime s theta).flash = s.flash ∧ (State.stepTime s theta).fuses = s.fuses ∧ (State.stepTime s theta).security = s.security ∧ (State.stepTime s theta).models = s.models ∧ (State.stepTime s theta).faultyEdges = s.faultyEdges ∧ (State.stepTime s theta).cores = s.cores ∧ (State.stepTime s theta).feeders = s.feeders ∧ (State.stepTime s theta).memory = s.memory ∧ (State.stepTime s theta).lanes = s.lanes ∧ (State.stepTime s theta).guards = s.guards ∧ (State.stepTime s theta).mbx = s.mbx ∧ (State.stepTime s theta).ports = s.ports ∧ (State.stepTime s theta).smbOffset = s.smbOffset ∧ (State.stepTime s theta).alertPending = s.alertPending ∧ (State.stepTime s theta).owner = s.owner ∧ (State.stepTime s theta).pcie = s.pcie ∧ (State.stepTime s theta).cxl = s.cxl ∧ (State.stepTime s theta).sessions = s.sessions ∧ (State.stepTime s theta).grants = s.grants ∧ (State.stepTime s theta).fabricSeq = s.fabricSeq ∧ (State.stepTime s theta).mbxTurn = s.mbxTurn ∧ (State.stepTime s theta).turns = s.turns ∧ (State.stepTime s theta).accepted = s.accepted ∧ (State.stepTime s theta).bus = s.bus ∧ (State.stepTime s theta).freeTick = s.freeTick := by
  unfold State.stepTime
  try dsimp only
  (repeat' split) <;> simp

@[simp] theorem State.takeOffset_leaves (s : State) (theta : Int) :
    (State.takeOffset s theta).pending = s.pending ∧ (State.takeOffset s theta).wall = s.wall ∧ (State.takeOffset s theta).board = s.board ∧ (State.takeOffset s theta).tap = s.tap ∧ (State.takeOffset s theta).power = s.power ∧ (State.takeOffset s theta).clocks = s.clocks ∧ (State.takeOffset s theta).thermal = s.thermal ∧ (State.takeOffset s theta).straps = s.straps ∧ (State.takeOffset s theta).boot = s.boot ∧ (State.takeOffset s theta).flash = s.flash ∧ (State.takeOffset s theta).fuses = s.fuses ∧ (State.takeOffset s theta).security = s.security ∧ (State.takeOffset s theta).models = s.models ∧ (State.takeOffset s theta).faultyEdges = s.faultyEdges ∧ (State.takeOffset s theta).cores = s.cores ∧ (State.takeOffset s theta).feeders = s.feeders ∧ (State.takeOffset s theta).memory = s.memory ∧ (State.takeOffset s theta).lanes = s.lanes ∧ (State.takeOffset s theta).guards = s.guards ∧ (State.takeOffset s theta).mbx = s.mbx ∧ (State.takeOffset s theta).ports = s.ports ∧ (State.takeOffset s theta).smbOffset = s.smbOffset ∧ (State.takeOffset s theta).alertPending = s.alertPending ∧ (State.takeOffset s theta).owner = s.owner ∧ (State.takeOffset s theta).pcie = s.pcie ∧ (State.takeOffset s theta).cxl = s.cxl ∧ (State.takeOffset s theta).sessions = s.sessions ∧ (State.takeOffset s theta).grants = s.grants ∧ (State.takeOffset s theta).fabricSeq = s.fabricSeq ∧ (State.takeOffset s theta).mbxTurn = s.mbxTurn ∧ (State.takeOffset s theta).turns = s.turns ∧ (State.takeOffset s theta).accepted = s.accepted ∧ (State.takeOffset s theta).bus = s.bus ∧ (State.takeOffset s theta).freeTick = s.freeTick := by
  unfold State.takeOffset
  try dsimp only
  (repeat' split) <;> simp

@[simp] theorem State.takeTime_leaves (s : State) (q : Nat) (f : Flit) :
    (State.takeTime s q f).pending = s.pending ∧ (State.takeTime s q f).wall = s.wall ∧ (State.takeTime s q f).board = s.board ∧ (State.takeTime s q f).tap = s.tap ∧ (State.takeTime s q f).power = s.power ∧ (State.takeTime s q f).clocks = s.clocks ∧ (State.takeTime s q f).thermal = s.thermal ∧ (State.takeTime s q f).straps = s.straps ∧ (State.takeTime s q f).boot = s.boot ∧ (State.takeTime s q f).flash = s.flash ∧ (State.takeTime s q f).fuses = s.fuses ∧ (State.takeTime s q f).security = s.security ∧ (State.takeTime s q f).models = s.models ∧ (State.takeTime s q f).faultyEdges = s.faultyEdges ∧ (State.takeTime s q f).cores = s.cores ∧ (State.takeTime s q f).feeders = s.feeders ∧ (State.takeTime s q f).memory = s.memory ∧ (State.takeTime s q f).lanes = s.lanes ∧ (State.takeTime s q f).guards = s.guards ∧ (State.takeTime s q f).mbx = s.mbx ∧ (State.takeTime s q f).ports = s.ports ∧ (State.takeTime s q f).smbOffset = s.smbOffset ∧ (State.takeTime s q f).alertPending = s.alertPending ∧ (State.takeTime s q f).owner = s.owner ∧ (State.takeTime s q f).pcie = s.pcie ∧ (State.takeTime s q f).cxl = s.cxl ∧ (State.takeTime s q f).sessions = s.sessions ∧ (State.takeTime s q f).grants = s.grants ∧ (State.takeTime s q f).fabricSeq = s.fabricSeq ∧ (State.takeTime s q f).mbxTurn = s.mbxTurn ∧ (State.takeTime s q f).turns = s.turns ∧ (State.takeTime s q f).accepted = s.accepted ∧ (State.takeTime s q f).bus = s.bus ∧ (State.takeTime s q f).freeTick = s.freeTick := by
  unfold State.takeTime
  try dsimp only
  (repeat' split) <;> simp

@[simp] theorem State.slewTime_leaves (s : State) :
    (State.slewTime s).pending = s.pending ∧ (State.slewTime s).wall = s.wall ∧ (State.slewTime s).board = s.board ∧ (State.slewTime s).tap = s.tap ∧ (State.slewTime s).power = s.power ∧ (State.slewTime s).clocks = s.clocks ∧ (State.slewTime s).thermal = s.thermal ∧ (State.slewTime s).straps = s.straps ∧ (State.slewTime s).boot = s.boot ∧ (State.slewTime s).flash = s.flash ∧ (State.slewTime s).fuses = s.fuses ∧ (State.slewTime s).security = s.security ∧ (State.slewTime s).models = s.models ∧ (State.slewTime s).dies = s.dies ∧ (State.slewTime s).faultyEdges = s.faultyEdges ∧ (State.slewTime s).cores = s.cores ∧ (State.slewTime s).feeders = s.feeders ∧ (State.slewTime s).memory = s.memory ∧ (State.slewTime s).lanes = s.lanes ∧ (State.slewTime s).guards = s.guards ∧ (State.slewTime s).mbx = s.mbx ∧ (State.slewTime s).ports = s.ports ∧ (State.slewTime s).smbOffset = s.smbOffset ∧ (State.slewTime s).alertPending = s.alertPending ∧ (State.slewTime s).owner = s.owner ∧ (State.slewTime s).log = s.log ∧ (State.slewTime s).pcie = s.pcie ∧ (State.slewTime s).cxl = s.cxl ∧ (State.slewTime s).sessions = s.sessions ∧ (State.slewTime s).grants = s.grants ∧ (State.slewTime s).fabricSeq = s.fabricSeq ∧ (State.slewTime s).mbxTurn = s.mbxTurn ∧ (State.slewTime s).turns = s.turns ∧ (State.slewTime s).accepted = s.accepted ∧ (State.slewTime s).bus = s.bus ∧ (State.slewTime s).freeTick = s.freeTick := by
  unfold State.slewTime
  try dsimp only
  (repeat' split) <;> simp

@[simp] theorem State.ctrlTo_leaves (s : State) (r op off : Nat) (data : Bytes) :
    (State.ctrlTo s r op off data).pending = s.pending ∧ (State.ctrlTo s r op off data).wall = s.wall ∧ (State.ctrlTo s r op off data).time = s.time ∧ (State.ctrlTo s r op off data).board = s.board ∧ (State.ctrlTo s r op off data).tap = s.tap ∧ (State.ctrlTo s r op off data).power = s.power ∧ (State.ctrlTo s r op off data).clocks = s.clocks ∧ (State.ctrlTo s r op off data).thermal = s.thermal ∧ (State.ctrlTo s r op off data).straps = s.straps ∧ (State.ctrlTo s r op off data).boot = s.boot ∧ (State.ctrlTo s r op off data).flash = s.flash ∧ (State.ctrlTo s r op off data).fuses = s.fuses ∧ (State.ctrlTo s r op off data).security = s.security ∧ (State.ctrlTo s r op off data).models = s.models ∧ (State.ctrlTo s r op off data).dies = s.dies ∧ (State.ctrlTo s r op off data).faultyEdges = s.faultyEdges ∧ (State.ctrlTo s r op off data).cores = s.cores ∧ (State.ctrlTo s r op off data).feeders = s.feeders ∧ (State.ctrlTo s r op off data).memory = s.memory ∧ (State.ctrlTo s r op off data).lanes = s.lanes ∧ (State.ctrlTo s r op off data).guards = s.guards ∧ (State.ctrlTo s r op off data).mbx = s.mbx ∧ (State.ctrlTo s r op off data).ports = s.ports ∧ (State.ctrlTo s r op off data).smbOffset = s.smbOffset ∧ (State.ctrlTo s r op off data).alertPending = s.alertPending ∧ (State.ctrlTo s r op off data).owner = s.owner ∧ (State.ctrlTo s r op off data).log = s.log ∧ (State.ctrlTo s r op off data).pcie = s.pcie ∧ (State.ctrlTo s r op off data).cxl = s.cxl ∧ (State.ctrlTo s r op off data).sessions = s.sessions ∧ (State.ctrlTo s r op off data).grants = s.grants ∧ (State.ctrlTo s r op off data).fabricSeq = s.fabricSeq ∧ (State.ctrlTo s r op off data).mbxTurn = s.mbxTurn ∧ (State.ctrlTo s r op off data).turns = s.turns ∧ (State.ctrlTo s r op off data).accepted = s.accepted ∧ (State.ctrlTo s r op off data).bus = s.bus ∧ (State.ctrlTo s r op off data).freeTick = s.freeTick := by
  unfold State.ctrlTo
  try dsimp only
  (repeat' split) <;> simp

@[simp] theorem State.sendCtrl_leaves (s : State) (op off : Nat) (data : Bytes) :
    (State.sendCtrl s op off data).pending = s.pending ∧ (State.sendCtrl s op off data).wall = s.wall ∧ (State.sendCtrl s op off data).time = s.time ∧ (State.sendCtrl s op off data).board = s.board ∧ (State.sendCtrl s op off data).tap = s.tap ∧ (State.sendCtrl s op off data).power = s.power ∧ (State.sendCtrl s op off data).clocks = s.clocks ∧ (State.sendCtrl s op off data).thermal = s.thermal ∧ (State.sendCtrl s op off data).straps = s.straps ∧ (State.sendCtrl s op off data).boot = s.boot ∧ (State.sendCtrl s op off data).flash = s.flash ∧ (State.sendCtrl s op off data).fuses = s.fuses ∧ (State.sendCtrl s op off data).security = s.security ∧ (State.sendCtrl s op off data).models = s.models ∧ (State.sendCtrl s op off data).dies = s.dies ∧ (State.sendCtrl s op off data).faultyEdges = s.faultyEdges ∧ (State.sendCtrl s op off data).cores = s.cores ∧ (State.sendCtrl s op off data).feeders = s.feeders ∧ (State.sendCtrl s op off data).memory = s.memory ∧ (State.sendCtrl s op off data).lanes = s.lanes ∧ (State.sendCtrl s op off data).guards = s.guards ∧ (State.sendCtrl s op off data).mbx = s.mbx ∧ (State.sendCtrl s op off data).ports = s.ports ∧ (State.sendCtrl s op off data).smbOffset = s.smbOffset ∧ (State.sendCtrl s op off data).alertPending = s.alertPending ∧ (State.sendCtrl s op off data).owner = s.owner ∧ (State.sendCtrl s op off data).log = s.log ∧ (State.sendCtrl s op off data).pcie = s.pcie ∧ (State.sendCtrl s op off data).cxl = s.cxl ∧ (State.sendCtrl s op off data).sessions = s.sessions ∧ (State.sendCtrl s op off data).grants = s.grants ∧ (State.sendCtrl s op off data).fabricSeq = s.fabricSeq ∧ (State.sendCtrl s op off data).mbxTurn = s.mbxTurn ∧ (State.sendCtrl s op off data).turns = s.turns ∧ (State.sendCtrl s op off data).accepted = s.accepted ∧ (State.sendCtrl s op off data).bus = s.bus ∧ (State.sendCtrl s op off data).freeTick = s.freeTick := by
  unfold State.sendCtrl
  try dsimp only
  (repeat' split) <;> simp

@[simp] theorem State.mbxWrite_leaves (s : State) (r off : Nat) (bs : Bytes) :
    (State.mbxWrite s r off bs).pending = s.pending ∧ (State.mbxWrite s r off bs).wall = s.wall ∧ (State.mbxWrite s r off bs).time = s.time ∧ (State.mbxWrite s r off bs).board = s.board ∧ (State.mbxWrite s r off bs).tap = s.tap ∧ (State.mbxWrite s r off bs).power = s.power ∧ (State.mbxWrite s r off bs).clocks = s.clocks ∧ (State.mbxWrite s r off bs).thermal = s.thermal ∧ (State.mbxWrite s r off bs).straps = s.straps ∧ (State.mbxWrite s r off bs).boot = s.boot ∧ (State.mbxWrite s r off bs).flash = s.flash ∧ (State.mbxWrite s r off bs).fuses = s.fuses ∧ (State.mbxWrite s r off bs).security = s.security ∧ (State.mbxWrite s r off bs).models = s.models ∧ (State.mbxWrite s r off bs).dies = s.dies ∧ (State.mbxWrite s r off bs).faultyEdges = s.faultyEdges ∧ (State.mbxWrite s r off bs).cores = s.cores ∧ (State.mbxWrite s r off bs).feeders = s.feeders ∧ (State.mbxWrite s r off bs).memory = s.memory ∧ (State.mbxWrite s r off bs).lanes = s.lanes ∧ (State.mbxWrite s r off bs).guards = s.guards ∧ (State.mbxWrite s r off bs).mbx = s.mbx ∧ (State.mbxWrite s r off bs).ports = s.ports ∧ (State.mbxWrite s r off bs).smbOffset = s.smbOffset ∧ (State.mbxWrite s r off bs).alertPending = s.alertPending ∧ (State.mbxWrite s r off bs).owner = s.owner ∧ (State.mbxWrite s r off bs).log = s.log ∧ (State.mbxWrite s r off bs).pcie = s.pcie ∧ (State.mbxWrite s r off bs).cxl = s.cxl ∧ (State.mbxWrite s r off bs).sessions = s.sessions ∧ (State.mbxWrite s r off bs).grants = s.grants ∧ (State.mbxWrite s r off bs).fabricSeq = s.fabricSeq ∧ (State.mbxWrite s r off bs).mbxTurn = s.mbxTurn ∧ (State.mbxWrite s r off bs).turns = s.turns ∧ (State.mbxWrite s r off bs).accepted = s.accepted ∧ (State.mbxWrite s r off bs).bus = s.bus ∧ (State.mbxWrite s r off bs).freeTick = s.freeTick := by
  unfold State.mbxWrite
  try dsimp only
  (repeat' split) <;> simp

@[simp] theorem State.sealAt_leaves (s : State) (r op : Nat) (req : Bytes) :
    (State.sealAt s r op req).pending = s.pending ∧ (State.sealAt s r op req).wall = s.wall ∧ (State.sealAt s r op req).time = s.time ∧ (State.sealAt s r op req).board = s.board ∧ (State.sealAt s r op req).tap = s.tap ∧ (State.sealAt s r op req).power = s.power ∧ (State.sealAt s r op req).clocks = s.clocks ∧ (State.sealAt s r op req).thermal = s.thermal ∧ (State.sealAt s r op req).straps = s.straps ∧ (State.sealAt s r op req).boot = s.boot ∧ (State.sealAt s r op req).flash = s.flash ∧ (State.sealAt s r op req).fuses = s.fuses ∧ (State.sealAt s r op req).security = s.security ∧ (State.sealAt s r op req).models = s.models ∧ (State.sealAt s r op req).dies = s.dies ∧ (State.sealAt s r op req).faultyEdges = s.faultyEdges ∧ (State.sealAt s r op req).cores = s.cores ∧ (State.sealAt s r op req).feeders = s.feeders ∧ (State.sealAt s r op req).memory = s.memory ∧ (State.sealAt s r op req).lanes = s.lanes ∧ (State.sealAt s r op req).guards = s.guards ∧ (State.sealAt s r op req).mbx = s.mbx ∧ (State.sealAt s r op req).ports = s.ports ∧ (State.sealAt s r op req).smbOffset = s.smbOffset ∧ (State.sealAt s r op req).alertPending = s.alertPending ∧ (State.sealAt s r op req).owner = s.owner ∧ (State.sealAt s r op req).log = s.log ∧ (State.sealAt s r op req).pcie = s.pcie ∧ (State.sealAt s r op req).cxl = s.cxl ∧ (State.sealAt s r op req).sessions = s.sessions ∧ (State.sealAt s r op req).grants = s.grants ∧ (State.sealAt s r op req).fabricSeq = s.fabricSeq ∧ (State.sealAt s r op req).mbxTurn = s.mbxTurn ∧ (State.sealAt s r op req).turns = s.turns ∧ (State.sealAt s r op req).accepted = s.accepted ∧ (State.sealAt s r op req).bus = s.bus ∧ (State.sealAt s r op req).freeTick = s.freeTick := by
  unfold State.sealAt
  try dsimp only
  (repeat' split) <;> simp

@[simp] theorem State.declare_leaves (s : State) :
    (State.declare s).pending = s.pending ∧ (State.declare s).wall = s.wall ∧ (State.declare s).time = s.time ∧ (State.declare s).board = s.board ∧ (State.declare s).tap = s.tap ∧ (State.declare s).power = s.power ∧ (State.declare s).clocks = s.clocks ∧ (State.declare s).thermal = s.thermal ∧ (State.declare s).straps = s.straps ∧ (State.declare s).boot = s.boot ∧ (State.declare s).flash = s.flash ∧ (State.declare s).fuses = s.fuses ∧ (State.declare s).security = s.security ∧ (State.declare s).models = s.models ∧ (State.declare s).dies = s.dies ∧ (State.declare s).faultyEdges = s.faultyEdges ∧ (State.declare s).cores = s.cores ∧ (State.declare s).feeders = s.feeders ∧ (State.declare s).memory = s.memory ∧ (State.declare s).lanes = s.lanes ∧ (State.declare s).guards = s.guards ∧ (State.declare s).mbx = s.mbx ∧ (State.declare s).smbOffset = s.smbOffset ∧ (State.declare s).alertPending = s.alertPending ∧ (State.declare s).owner = s.owner ∧ (State.declare s).log = s.log ∧ (State.declare s).pcie = s.pcie ∧ (State.declare s).cxl = s.cxl ∧ (State.declare s).sessions = s.sessions ∧ (State.declare s).grants = s.grants ∧ (State.declare s).fabricSeq = s.fabricSeq ∧ (State.declare s).mbxTurn = s.mbxTurn ∧ (State.declare s).turns = s.turns ∧ (State.declare s).accepted = s.accepted ∧ (State.declare s).bus = s.bus ∧ (State.declare s).freeTick = s.freeTick := by
  unfold State.declare
  try dsimp only
  (repeat' split) <;> simp

@[simp] theorem State.claimMember_leaves (s : State) (r : Nat) :
    (State.claimMember s r).pending = s.pending ∧ (State.claimMember s r).wall = s.wall ∧ (State.claimMember s r).time = s.time ∧ (State.claimMember s r).board = s.board ∧ (State.claimMember s r).tap = s.tap ∧ (State.claimMember s r).power = s.power ∧ (State.claimMember s r).clocks = s.clocks ∧ (State.claimMember s r).thermal = s.thermal ∧ (State.claimMember s r).straps = s.straps ∧ (State.claimMember s r).boot = s.boot ∧ (State.claimMember s r).flash = s.flash ∧ (State.claimMember s r).fuses = s.fuses ∧ (State.claimMember s r).security = s.security ∧ (State.claimMember s r).models = s.models ∧ (State.claimMember s r).dies = s.dies ∧ (State.claimMember s r).faultyEdges = s.faultyEdges ∧ (State.claimMember s r).cores = s.cores ∧ (State.claimMember s r).feeders = s.feeders ∧ (State.claimMember s r).memory = s.memory ∧ (State.claimMember s r).lanes = s.lanes ∧ (State.claimMember s r).guards = s.guards ∧ (State.claimMember s r).mbx = s.mbx ∧ (State.claimMember s r).ports = s.ports ∧ (State.claimMember s r).smbOffset = s.smbOffset ∧ (State.claimMember s r).alertPending = s.alertPending ∧ (State.claimMember s r).owner = s.owner ∧ (State.claimMember s r).log = s.log ∧ (State.claimMember s r).pcie = s.pcie ∧ (State.claimMember s r).cxl = s.cxl ∧ (State.claimMember s r).sessions = s.sessions ∧ (State.claimMember s r).grants = s.grants ∧ (State.claimMember s r).fabricSeq = s.fabricSeq ∧ (State.claimMember s r).mbxTurn = s.mbxTurn ∧ (State.claimMember s r).turns = s.turns ∧ (State.claimMember s r).accepted = s.accepted ∧ (State.claimMember s r).bus = s.bus := by
  unfold State.claimMember
  try dsimp only
  (repeat' split) <;> simp

@[simp] theorem State.applyToMembers_leaves (s : State) (pl : CutPlan) (op : Nat) (req : Bytes) :
    (State.applyToMembers s pl op req).pending = s.pending ∧ (State.applyToMembers s pl op req).wall = s.wall ∧ (State.applyToMembers s pl op req).time = s.time ∧ (State.applyToMembers s pl op req).board = s.board ∧ (State.applyToMembers s pl op req).tap = s.tap ∧ (State.applyToMembers s pl op req).power = s.power ∧ (State.applyToMembers s pl op req).clocks = s.clocks ∧ (State.applyToMembers s pl op req).thermal = s.thermal ∧ (State.applyToMembers s pl op req).straps = s.straps ∧ (State.applyToMembers s pl op req).boot = s.boot ∧ (State.applyToMembers s pl op req).flash = s.flash ∧ (State.applyToMembers s pl op req).fuses = s.fuses ∧ (State.applyToMembers s pl op req).security = s.security ∧ (State.applyToMembers s pl op req).models = s.models ∧ (State.applyToMembers s pl op req).dies = s.dies ∧ (State.applyToMembers s pl op req).faultyEdges = s.faultyEdges ∧ (State.applyToMembers s pl op req).cores = s.cores ∧ (State.applyToMembers s pl op req).feeders = s.feeders ∧ (State.applyToMembers s pl op req).memory = s.memory ∧ (State.applyToMembers s pl op req).lanes = s.lanes ∧ (State.applyToMembers s pl op req).guards = s.guards ∧ (State.applyToMembers s pl op req).mbx = s.mbx ∧ (State.applyToMembers s pl op req).ports = s.ports ∧ (State.applyToMembers s pl op req).smbOffset = s.smbOffset ∧ (State.applyToMembers s pl op req).alertPending = s.alertPending ∧ (State.applyToMembers s pl op req).owner = s.owner ∧ (State.applyToMembers s pl op req).log = s.log ∧ (State.applyToMembers s pl op req).pcie = s.pcie ∧ (State.applyToMembers s pl op req).cxl = s.cxl ∧ (State.applyToMembers s pl op req).sessions = s.sessions ∧ (State.applyToMembers s pl op req).grants = s.grants ∧ (State.applyToMembers s pl op req).fabricSeq = s.fabricSeq ∧ (State.applyToMembers s pl op req).mbxTurn = s.mbxTurn ∧ (State.applyToMembers s pl op req).turns = s.turns ∧ (State.applyToMembers s pl op req).accepted = s.accepted ∧ (State.applyToMembers s pl op req).bus = s.bus ∧ (State.applyToMembers s pl op req).freeTick = s.freeTick := by
  unfold State.applyToMembers
  try dsimp only
  (repeat' split) <;> simp

/-! ### Cores -/

@[simp] theorem State.orderRows_leaves (s : State) (d c : Nat) (down : Bool) :
    (State.orderRows s d c down).pending = s.pending ∧ (State.orderRows s d c down).wall = s.wall ∧ (State.orderRows s d c down).time = s.time ∧ (State.orderRows s d c down).board = s.board ∧ (State.orderRows s d c down).tap = s.tap ∧ (State.orderRows s d c down).power = s.power ∧ (State.orderRows s d c down).clocks = s.clocks ∧ (State.orderRows s d c down).thermal = s.thermal ∧ (State.orderRows s d c down).straps = s.straps ∧ (State.orderRows s d c down).boot = s.boot ∧ (State.orderRows s d c down).flash = s.flash ∧ (State.orderRows s d c down).fuses = s.fuses ∧ (State.orderRows s d c down).security = s.security ∧ (State.orderRows s d c down).models = s.models ∧ (State.orderRows s d c down).dies = s.dies ∧ (State.orderRows s d c down).faultyEdges = s.faultyEdges ∧ (State.orderRows s d c down).feeders = s.feeders ∧ (State.orderRows s d c down).memory = s.memory ∧ (State.orderRows s d c down).lanes = s.lanes ∧ (State.orderRows s d c down).guards = s.guards ∧ (State.orderRows s d c down).mbx = s.mbx ∧ (State.orderRows s d c down).ports = s.ports ∧ (State.orderRows s d c down).smbOffset = s.smbOffset ∧ (State.orderRows s d c down).alertPending = s.alertPending ∧ (State.orderRows s d c down).owner = s.owner ∧ (State.orderRows s d c down).log = s.log ∧ (State.orderRows s d c down).pcie = s.pcie ∧ (State.orderRows s d c down).cxl = s.cxl ∧ (State.orderRows s d c down).cascade = s.cascade ∧ (State.orderRows s d c down).sessions = s.sessions ∧ (State.orderRows s d c down).grants = s.grants ∧ (State.orderRows s d c down).mbxTurn = s.mbxTurn ∧ (State.orderRows s d c down).turns = s.turns ∧ (State.orderRows s d c down).accepted = s.accepted ∧ (State.orderRows s d c down).bus = s.bus ∧ (State.orderRows s d c down).freeTick = s.freeTick := by
  unfold State.orderRows
  try dsimp only
  (repeat' split) <;> simp

@[simp] theorem State.sendUnits_leaves (s : State) (rank d c : Nat) (down : Bool) (us : List (Bytes × Bool)) :
    (State.sendUnits s rank d c down us).pending = s.pending ∧ (State.sendUnits s rank d c down us).wall = s.wall ∧ (State.sendUnits s rank d c down us).time = s.time ∧ (State.sendUnits s rank d c down us).board = s.board ∧ (State.sendUnits s rank d c down us).tap = s.tap ∧ (State.sendUnits s rank d c down us).power = s.power ∧ (State.sendUnits s rank d c down us).clocks = s.clocks ∧ (State.sendUnits s rank d c down us).thermal = s.thermal ∧ (State.sendUnits s rank d c down us).straps = s.straps ∧ (State.sendUnits s rank d c down us).boot = s.boot ∧ (State.sendUnits s rank d c down us).flash = s.flash ∧ (State.sendUnits s rank d c down us).fuses = s.fuses ∧ (State.sendUnits s rank d c down us).security = s.security ∧ (State.sendUnits s rank d c down us).models = s.models ∧ (State.sendUnits s rank d c down us).dies = s.dies ∧ (State.sendUnits s rank d c down us).faultyEdges = s.faultyEdges ∧ (State.sendUnits s rank d c down us).cores = s.cores ∧ (State.sendUnits s rank d c down us).feeders = s.feeders ∧ (State.sendUnits s rank d c down us).memory = s.memory ∧ (State.sendUnits s rank d c down us).lanes = s.lanes ∧ (State.sendUnits s rank d c down us).guards = s.guards ∧ (State.sendUnits s rank d c down us).mbx = s.mbx ∧ (State.sendUnits s rank d c down us).ports = s.ports ∧ (State.sendUnits s rank d c down us).smbOffset = s.smbOffset ∧ (State.sendUnits s rank d c down us).alertPending = s.alertPending ∧ (State.sendUnits s rank d c down us).owner = s.owner ∧ (State.sendUnits s rank d c down us).log = s.log ∧ (State.sendUnits s rank d c down us).pcie = s.pcie ∧ (State.sendUnits s rank d c down us).cxl = s.cxl ∧ (State.sendUnits s rank d c down us).sessions = s.sessions ∧ (State.sendUnits s rank d c down us).grants = s.grants ∧ (State.sendUnits s rank d c down us).fabricSeq = s.fabricSeq ∧ (State.sendUnits s rank d c down us).mbxTurn = s.mbxTurn ∧ (State.sendUnits s rank d c down us).turns = s.turns ∧ (State.sendUnits s rank d c down us).accepted = s.accepted ∧ (State.sendUnits s rank d c down us).bus = s.bus ∧ (State.sendUnits s rank d c down us).freeTick = s.freeTick := by
  unfold State.sendUnits
  try dsimp only
  (repeat' split) <;> simp

@[simp] theorem State.sendSeam_leaves (s : State) (d c : Nat) (down : Bool) :
    (State.sendSeam s d c down).pending = s.pending ∧ (State.sendSeam s d c down).wall = s.wall ∧ (State.sendSeam s d c down).time = s.time ∧ (State.sendSeam s d c down).board = s.board ∧ (State.sendSeam s d c down).tap = s.tap ∧ (State.sendSeam s d c down).power = s.power ∧ (State.sendSeam s d c down).clocks = s.clocks ∧ (State.sendSeam s d c down).thermal = s.thermal ∧ (State.sendSeam s d c down).straps = s.straps ∧ (State.sendSeam s d c down).boot = s.boot ∧ (State.sendSeam s d c down).flash = s.flash ∧ (State.sendSeam s d c down).fuses = s.fuses ∧ (State.sendSeam s d c down).security = s.security ∧ (State.sendSeam s d c down).models = s.models ∧ (State.sendSeam s d c down).dies = s.dies ∧ (State.sendSeam s d c down).faultyEdges = s.faultyEdges ∧ (State.sendSeam s d c down).feeders = s.feeders ∧ (State.sendSeam s d c down).memory = s.memory ∧ (State.sendSeam s d c down).lanes = s.lanes ∧ (State.sendSeam s d c down).guards = s.guards ∧ (State.sendSeam s d c down).mbx = s.mbx ∧ (State.sendSeam s d c down).ports = s.ports ∧ (State.sendSeam s d c down).smbOffset = s.smbOffset ∧ (State.sendSeam s d c down).alertPending = s.alertPending ∧ (State.sendSeam s d c down).owner = s.owner ∧ (State.sendSeam s d c down).log = s.log ∧ (State.sendSeam s d c down).pcie = s.pcie ∧ (State.sendSeam s d c down).cxl = s.cxl ∧ (State.sendSeam s d c down).sessions = s.sessions ∧ (State.sendSeam s d c down).grants = s.grants ∧ (State.sendSeam s d c down).mbxTurn = s.mbxTurn ∧ (State.sendSeam s d c down).turns = s.turns ∧ (State.sendSeam s d c down).accepted = s.accepted ∧ (State.sendSeam s d c down).bus = s.bus ∧ (State.sendSeam s d c down).freeTick = s.freeTick := by
  unfold State.sendSeam
  try dsimp only
  (repeat' split) <;> simp

@[simp] theorem State.tee_leaves (s : State) (d c : Nat) (down : Bool) (rows : List Bytes) :
    (State.tee s d c down rows).pending = s.pending ∧ (State.tee s d c down rows).wall = s.wall ∧ (State.tee s d c down rows).time = s.time ∧ (State.tee s d c down rows).board = s.board ∧ (State.tee s d c down rows).tap = s.tap ∧ (State.tee s d c down rows).power = s.power ∧ (State.tee s d c down rows).clocks = s.clocks ∧ (State.tee s d c down rows).thermal = s.thermal ∧ (State.tee s d c down rows).straps = s.straps ∧ (State.tee s d c down rows).boot = s.boot ∧ (State.tee s d c down rows).flash = s.flash ∧ (State.tee s d c down rows).fuses = s.fuses ∧ (State.tee s d c down rows).security = s.security ∧ (State.tee s d c down rows).models = s.models ∧ (State.tee s d c down rows).dies = s.dies ∧ (State.tee s d c down rows).faultyEdges = s.faultyEdges ∧ (State.tee s d c down rows).feeders = s.feeders ∧ (State.tee s d c down rows).memory = s.memory ∧ (State.tee s d c down rows).lanes = s.lanes ∧ (State.tee s d c down rows).guards = s.guards ∧ (State.tee s d c down rows).mbx = s.mbx ∧ (State.tee s d c down rows).ports = s.ports ∧ (State.tee s d c down rows).smbOffset = s.smbOffset ∧ (State.tee s d c down rows).alertPending = s.alertPending ∧ (State.tee s d c down rows).owner = s.owner ∧ (State.tee s d c down rows).log = s.log ∧ (State.tee s d c down rows).pcie = s.pcie ∧ (State.tee s d c down rows).cxl = s.cxl ∧ (State.tee s d c down rows).sessions = s.sessions ∧ (State.tee s d c down rows).grants = s.grants ∧ (State.tee s d c down rows).mbxTurn = s.mbxTurn ∧ (State.tee s d c down rows).turns = s.turns ∧ (State.tee s d c down rows).accepted = s.accepted ∧ (State.tee s d c down rows).bus = s.bus ∧ (State.tee s d c down rows).freeTick = s.freeTick := by
  unfold State.tee
  try dsimp only
  (repeat' split) <;> simp

@[simp] theorem State.issue_leaves (s : State) (d c : Nat) (run : Desc → Core → Done) :
    (State.issue s d c run).pending = s.pending ∧ (State.issue s d c run).wall = s.wall ∧ (State.issue s d c run).time = s.time ∧ (State.issue s d c run).board = s.board ∧ (State.issue s d c run).tap = s.tap ∧ (State.issue s d c run).power = s.power ∧ (State.issue s d c run).clocks = s.clocks ∧ (State.issue s d c run).thermal = s.thermal ∧ (State.issue s d c run).straps = s.straps ∧ (State.issue s d c run).boot = s.boot ∧ (State.issue s d c run).flash = s.flash ∧ (State.issue s d c run).fuses = s.fuses ∧ (State.issue s d c run).security = s.security ∧ (State.issue s d c run).models = s.models ∧ (State.issue s d c run).dies = s.dies ∧ (State.issue s d c run).faultyEdges = s.faultyEdges ∧ (State.issue s d c run).feeders = s.feeders ∧ (State.issue s d c run).memory = s.memory ∧ (State.issue s d c run).lanes = s.lanes ∧ (State.issue s d c run).guards = s.guards ∧ (State.issue s d c run).mbx = s.mbx ∧ (State.issue s d c run).ports = s.ports ∧ (State.issue s d c run).smbOffset = s.smbOffset ∧ (State.issue s d c run).alertPending = s.alertPending ∧ (State.issue s d c run).owner = s.owner ∧ (State.issue s d c run).log = s.log ∧ (State.issue s d c run).pcie = s.pcie ∧ (State.issue s d c run).cxl = s.cxl ∧ (State.issue s d c run).sessions = s.sessions ∧ (State.issue s d c run).grants = s.grants ∧ (State.issue s d c run).mbxTurn = s.mbxTurn ∧ (State.issue s d c run).turns = s.turns ∧ (State.issue s d c run).accepted = s.accepted ∧ (State.issue s d c run).bus = s.bus := by
  unfold State.issue
  try dsimp only
  (repeat' split) <;> simp

/-! ### Seams -/

@[simp] theorem State.creditBack_leaves (s : State) (d c : Nat) (down : Bool) (credits rows : Nat) :
    (State.creditBack s d c down credits rows).pending = s.pending ∧ (State.creditBack s d c down credits rows).wall = s.wall ∧ (State.creditBack s d c down credits rows).time = s.time ∧ (State.creditBack s d c down credits rows).board = s.board ∧ (State.creditBack s d c down credits rows).tap = s.tap ∧ (State.creditBack s d c down credits rows).power = s.power ∧ (State.creditBack s d c down credits rows).clocks = s.clocks ∧ (State.creditBack s d c down credits rows).thermal = s.thermal ∧ (State.creditBack s d c down credits rows).straps = s.straps ∧ (State.creditBack s d c down credits rows).boot = s.boot ∧ (State.creditBack s d c down credits rows).flash = s.flash ∧ (State.creditBack s d c down credits rows).fuses = s.fuses ∧ (State.creditBack s d c down credits rows).security = s.security ∧ (State.creditBack s d c down credits rows).models = s.models ∧ (State.creditBack s d c down credits rows).dies = s.dies ∧ (State.creditBack s d c down credits rows).faultyEdges = s.faultyEdges ∧ (State.creditBack s d c down credits rows).cores = s.cores ∧ (State.creditBack s d c down credits rows).feeders = s.feeders ∧ (State.creditBack s d c down credits rows).memory = s.memory ∧ (State.creditBack s d c down credits rows).lanes = s.lanes ∧ (State.creditBack s d c down credits rows).guards = s.guards ∧ (State.creditBack s d c down credits rows).mbx = s.mbx ∧ (State.creditBack s d c down credits rows).ports = s.ports ∧ (State.creditBack s d c down credits rows).smbOffset = s.smbOffset ∧ (State.creditBack s d c down credits rows).alertPending = s.alertPending ∧ (State.creditBack s d c down credits rows).owner = s.owner ∧ (State.creditBack s d c down credits rows).log = s.log ∧ (State.creditBack s d c down credits rows).pcie = s.pcie ∧ (State.creditBack s d c down credits rows).cxl = s.cxl ∧ (State.creditBack s d c down credits rows).sessions = s.sessions ∧ (State.creditBack s d c down credits rows).grants = s.grants ∧ (State.creditBack s d c down credits rows).fabricSeq = s.fabricSeq ∧ (State.creditBack s d c down credits rows).mbxTurn = s.mbxTurn ∧ (State.creditBack s d c down credits rows).turns = s.turns ∧ (State.creditBack s d c down credits rows).accepted = s.accepted ∧ (State.creditBack s d c down credits rows).bus = s.bus ∧ (State.creditBack s d c down credits rows).freeTick = s.freeTick := by
  unfold State.creditBack
  try dsimp only
  (repeat' split) <;> simp

@[simp] theorem State.peerSends_leaves (s : State) (d c : Nat) (down : Bool) :
    (State.peerSends s d c down).pending = s.pending ∧ (State.peerSends s d c down).wall = s.wall ∧ (State.peerSends s d c down).time = s.time ∧ (State.peerSends s d c down).board = s.board ∧ (State.peerSends s d c down).tap = s.tap ∧ (State.peerSends s d c down).power = s.power ∧ (State.peerSends s d c down).clocks = s.clocks ∧ (State.peerSends s d c down).thermal = s.thermal ∧ (State.peerSends s d c down).straps = s.straps ∧ (State.peerSends s d c down).boot = s.boot ∧ (State.peerSends s d c down).flash = s.flash ∧ (State.peerSends s d c down).fuses = s.fuses ∧ (State.peerSends s d c down).security = s.security ∧ (State.peerSends s d c down).models = s.models ∧ (State.peerSends s d c down).dies = s.dies ∧ (State.peerSends s d c down).faultyEdges = s.faultyEdges ∧ (State.peerSends s d c down).feeders = s.feeders ∧ (State.peerSends s d c down).memory = s.memory ∧ (State.peerSends s d c down).lanes = s.lanes ∧ (State.peerSends s d c down).guards = s.guards ∧ (State.peerSends s d c down).mbx = s.mbx ∧ (State.peerSends s d c down).ports = s.ports ∧ (State.peerSends s d c down).smbOffset = s.smbOffset ∧ (State.peerSends s d c down).alertPending = s.alertPending ∧ (State.peerSends s d c down).owner = s.owner ∧ (State.peerSends s d c down).log = s.log ∧ (State.peerSends s d c down).pcie = s.pcie ∧ (State.peerSends s d c down).cxl = s.cxl ∧ (State.peerSends s d c down).sessions = s.sessions ∧ (State.peerSends s d c down).grants = s.grants ∧ (State.peerSends s d c down).mbxTurn = s.mbxTurn ∧ (State.peerSends s d c down).turns = s.turns ∧ (State.peerSends s d c down).accepted = s.accepted ∧ (State.peerSends s d c down).bus = s.bus ∧ (State.peerSends s d c down).freeTick = s.freeTick := by
  unfold State.peerSends
  try dsimp only
  (repeat' split) <;> simp

@[simp] theorem State.sendShard_leaves (s : State) (d a b : Nat) :
    (State.sendShard s d a b).pending = s.pending ∧ (State.sendShard s d a b).wall = s.wall ∧ (State.sendShard s d a b).time = s.time ∧ (State.sendShard s d a b).board = s.board ∧ (State.sendShard s d a b).tap = s.tap ∧ (State.sendShard s d a b).power = s.power ∧ (State.sendShard s d a b).clocks = s.clocks ∧ (State.sendShard s d a b).thermal = s.thermal ∧ (State.sendShard s d a b).straps = s.straps ∧ (State.sendShard s d a b).boot = s.boot ∧ (State.sendShard s d a b).flash = s.flash ∧ (State.sendShard s d a b).fuses = s.fuses ∧ (State.sendShard s d a b).security = s.security ∧ (State.sendShard s d a b).models = s.models ∧ (State.sendShard s d a b).dies = s.dies ∧ (State.sendShard s d a b).faultyEdges = s.faultyEdges ∧ (State.sendShard s d a b).feeders = s.feeders ∧ (State.sendShard s d a b).memory = s.memory ∧ (State.sendShard s d a b).lanes = s.lanes ∧ (State.sendShard s d a b).guards = s.guards ∧ (State.sendShard s d a b).mbx = s.mbx ∧ (State.sendShard s d a b).ports = s.ports ∧ (State.sendShard s d a b).smbOffset = s.smbOffset ∧ (State.sendShard s d a b).alertPending = s.alertPending ∧ (State.sendShard s d a b).owner = s.owner ∧ (State.sendShard s d a b).log = s.log ∧ (State.sendShard s d a b).pcie = s.pcie ∧ (State.sendShard s d a b).cxl = s.cxl ∧ (State.sendShard s d a b).cascade = s.cascade ∧ (State.sendShard s d a b).sessions = s.sessions ∧ (State.sendShard s d a b).grants = s.grants ∧ (State.sendShard s d a b).fabricSeq = s.fabricSeq ∧ (State.sendShard s d a b).mbxTurn = s.mbxTurn ∧ (State.sendShard s d a b).turns = s.turns ∧ (State.sendShard s d a b).accepted = s.accepted ∧ (State.sendShard s d a b).bus = s.bus ∧ (State.sendShard s d a b).freeTick = s.freeTick := by
  unfold State.sendShard
  try dsimp only
  (repeat' split) <;> simp

@[simp] theorem State.releaseCut_leaves (s : State) (i : Nat) (flip : Bool) :
    (State.releaseCut s i flip).pending = s.pending ∧ (State.releaseCut s i flip).wall = s.wall ∧ (State.releaseCut s i flip).time = s.time ∧ (State.releaseCut s i flip).board = s.board ∧ (State.releaseCut s i flip).tap = s.tap ∧ (State.releaseCut s i flip).power = s.power ∧ (State.releaseCut s i flip).clocks = s.clocks ∧ (State.releaseCut s i flip).thermal = s.thermal ∧ (State.releaseCut s i flip).straps = s.straps ∧ (State.releaseCut s i flip).boot = s.boot ∧ (State.releaseCut s i flip).flash = s.flash ∧ (State.releaseCut s i flip).fuses = s.fuses ∧ (State.releaseCut s i flip).security = s.security ∧ (State.releaseCut s i flip).models = s.models ∧ (State.releaseCut s i flip).dies = s.dies ∧ (State.releaseCut s i flip).faultyEdges = s.faultyEdges ∧ (State.releaseCut s i flip).feeders = s.feeders ∧ (State.releaseCut s i flip).memory = s.memory ∧ (State.releaseCut s i flip).lanes = s.lanes ∧ (State.releaseCut s i flip).guards = s.guards ∧ (State.releaseCut s i flip).mbx = s.mbx ∧ (State.releaseCut s i flip).ports = s.ports ∧ (State.releaseCut s i flip).smbOffset = s.smbOffset ∧ (State.releaseCut s i flip).alertPending = s.alertPending ∧ (State.releaseCut s i flip).owner = s.owner ∧ (State.releaseCut s i flip).log = s.log ∧ (State.releaseCut s i flip).pcie = s.pcie ∧ (State.releaseCut s i flip).cxl = s.cxl ∧ (State.releaseCut s i flip).cascade = s.cascade ∧ (State.releaseCut s i flip).grants = s.grants ∧ (State.releaseCut s i flip).fabricSeq = s.fabricSeq ∧ (State.releaseCut s i flip).mbxTurn = s.mbxTurn ∧ (State.releaseCut s i flip).turns = s.turns ∧ (State.releaseCut s i flip).accepted = s.accepted ∧ (State.releaseCut s i flip).bus = s.bus ∧ (State.releaseCut s i flip).freeTick = s.freeTick := by
  unfold State.releaseCut
  dsimp only
  exact ⟨(State.updSession_pending _ _ _).trans (State.foldl_pending _ (by intro t x; rfl) _ _), (State.updSession_wall _ _ _).trans (State.foldl_wall _ (by intro t x; rfl) _ _), (State.updSession_time _ _ _).trans (State.foldl_time _ (by intro t x; rfl) _ _), (State.updSession_board _ _ _).trans (State.foldl_board _ (by intro t x; rfl) _ _), (State.updSession_tap _ _ _).trans (State.foldl_tap _ (by intro t x; rfl) _ _), (State.updSession_power _ _ _).trans (State.foldl_power _ (by intro t x; rfl) _ _), (State.updSession_clocks _ _ _).trans (State.foldl_clocks _ (by intro t x; rfl) _ _), (State.updSession_thermal _ _ _).trans (State.foldl_thermal _ (by intro t x; rfl) _ _), (State.updSession_straps _ _ _).trans (State.foldl_straps _ (by intro t x; rfl) _ _), (State.updSession_boot _ _ _).trans (State.foldl_boot _ (by intro t x; rfl) _ _), (State.updSession_flash _ _ _).trans (State.foldl_flash _ (by intro t x; rfl) _ _), (State.updSession_fuses _ _ _).trans (State.foldl_fuses _ (by intro t x; rfl) _ _), (State.updSession_security _ _ _).trans (State.foldl_security _ (by intro t x; rfl) _ _), (State.updSession_models _ _ _).trans (State.foldl_models _ (by intro t x; rfl) _ _), (State.updSession_dies _ _ _).trans (State.foldl_dies _ (by intro t x; rfl) _ _), (State.updSession_faultyEdges _ _ _).trans (State.foldl_faultyEdges _ (by intro t x; rfl) _ _), (State.updSession_feeders _ _ _).trans (State.foldl_feeders _ (by intro t x; rfl) _ _), (State.updSession_memory _ _ _).trans (State.foldl_memory _ (by intro t x; rfl) _ _), (State.updSession_lanes _ _ _).trans (State.foldl_lanes _ (by intro t x; rfl) _ _), (State.updSession_guards _ _ _).trans (State.foldl_guards _ (by intro t x; rfl) _ _), (State.updSession_mbx _ _ _).trans (State.foldl_mbx _ (by intro t x; rfl) _ _), (State.updSession_ports _ _ _).trans (State.foldl_ports _ (by intro t x; rfl) _ _), (State.updSession_smbOffset _ _ _).trans (State.foldl_smbOffset _ (by intro t x; rfl) _ _), (State.updSession_alertPending _ _ _).trans (State.foldl_alertPending _ (by intro t x; rfl) _ _), (State.updSession_owner _ _ _).trans (State.foldl_owner _ (by intro t x; rfl) _ _), (State.updSession_log _ _ _).trans (State.foldl_log _ (by intro t x; rfl) _ _), (State.updSession_pcie _ _ _).trans (State.foldl_pcie _ (by intro t x; rfl) _ _), (State.updSession_cxl _ _ _).trans (State.foldl_cxl _ (by intro t x; rfl) _ _), (State.updSession_cascade _ _ _).trans (State.foldl_cascade _ (by intro t x; rfl) _ _), (State.updSession_grants _ _ _).trans (State.foldl_grants _ (by intro t x; rfl) _ _), (State.updSession_fabricSeq _ _ _).trans (State.foldl_fabricSeq _ (by intro t x; rfl) _ _), (State.updSession_mbxTurn _ _ _).trans (State.foldl_mbxTurn _ (by intro t x; rfl) _ _), (State.updSession_turns _ _ _).trans (State.foldl_turns _ (by intro t x; rfl) _ _), (State.updSession_accepted _ _ _).trans (State.foldl_accepted _ (by intro t x; rfl) _ _), (State.updSession_bus _ _ _).trans (State.foldl_bus _ (by intro t x; rfl) _ _), (State.updSession_freeTick _ _ _).trans (State.foldl_freeTick _ (by intro t x; rfl) _ _)⟩

/-! ### Deliver -/

@[simp] theorem State.deliverUnit_leaves (s : State) (d c : Nat) (down last : Bool) (bytes : Bytes) :
    (State.deliverUnit s d c down last bytes).pending = s.pending ∧ (State.deliverUnit s d c down last bytes).wall = s.wall ∧ (State.deliverUnit s d c down last bytes).time = s.time ∧ (State.deliverUnit s d c down last bytes).board = s.board ∧ (State.deliverUnit s d c down last bytes).tap = s.tap ∧ (State.deliverUnit s d c down last bytes).power = s.power ∧ (State.deliverUnit s d c down last bytes).clocks = s.clocks ∧ (State.deliverUnit s d c down last bytes).thermal = s.thermal ∧ (State.deliverUnit s d c down last bytes).straps = s.straps ∧ (State.deliverUnit s d c down last bytes).boot = s.boot ∧ (State.deliverUnit s d c down last bytes).flash = s.flash ∧ (State.deliverUnit s d c down last bytes).fuses = s.fuses ∧ (State.deliverUnit s d c down last bytes).security = s.security ∧ (State.deliverUnit s d c down last bytes).models = s.models ∧ (State.deliverUnit s d c down last bytes).dies = s.dies ∧ (State.deliverUnit s d c down last bytes).faultyEdges = s.faultyEdges ∧ (State.deliverUnit s d c down last bytes).feeders = s.feeders ∧ (State.deliverUnit s d c down last bytes).memory = s.memory ∧ (State.deliverUnit s d c down last bytes).lanes = s.lanes ∧ (State.deliverUnit s d c down last bytes).guards = s.guards ∧ (State.deliverUnit s d c down last bytes).mbx = s.mbx ∧ (State.deliverUnit s d c down last bytes).ports = s.ports ∧ (State.deliverUnit s d c down last bytes).smbOffset = s.smbOffset ∧ (State.deliverUnit s d c down last bytes).alertPending = s.alertPending ∧ (State.deliverUnit s d c down last bytes).owner = s.owner ∧ (State.deliverUnit s d c down last bytes).log = s.log ∧ (State.deliverUnit s d c down last bytes).pcie = s.pcie ∧ (State.deliverUnit s d c down last bytes).cxl = s.cxl ∧ (State.deliverUnit s d c down last bytes).sessions = s.sessions ∧ (State.deliverUnit s d c down last bytes).grants = s.grants ∧ (State.deliverUnit s d c down last bytes).fabricSeq = s.fabricSeq ∧ (State.deliverUnit s d c down last bytes).mbxTurn = s.mbxTurn ∧ (State.deliverUnit s d c down last bytes).turns = s.turns ∧ (State.deliverUnit s d c down last bytes).accepted = s.accepted ∧ (State.deliverUnit s d c down last bytes).bus = s.bus ∧ (State.deliverUnit s d c down last bytes).freeTick = s.freeTick := by
  unfold State.deliverUnit
  try dsimp only
  (repeat' split) <;> simp

@[simp] theorem State.deliverCredits_leaves (s : State) (d c : Nat) (down : Bool) (credits rows : Nat) :
    (State.deliverCredits s d c down credits rows).pending = s.pending ∧ (State.deliverCredits s d c down credits rows).wall = s.wall ∧ (State.deliverCredits s d c down credits rows).time = s.time ∧ (State.deliverCredits s d c down credits rows).board = s.board ∧ (State.deliverCredits s d c down credits rows).tap = s.tap ∧ (State.deliverCredits s d c down credits rows).power = s.power ∧ (State.deliverCredits s d c down credits rows).clocks = s.clocks ∧ (State.deliverCredits s d c down credits rows).thermal = s.thermal ∧ (State.deliverCredits s d c down credits rows).straps = s.straps ∧ (State.deliverCredits s d c down credits rows).boot = s.boot ∧ (State.deliverCredits s d c down credits rows).flash = s.flash ∧ (State.deliverCredits s d c down credits rows).fuses = s.fuses ∧ (State.deliverCredits s d c down credits rows).security = s.security ∧ (State.deliverCredits s d c down credits rows).models = s.models ∧ (State.deliverCredits s d c down credits rows).dies = s.dies ∧ (State.deliverCredits s d c down credits rows).faultyEdges = s.faultyEdges ∧ (State.deliverCredits s d c down credits rows).feeders = s.feeders ∧ (State.deliverCredits s d c down credits rows).memory = s.memory ∧ (State.deliverCredits s d c down credits rows).lanes = s.lanes ∧ (State.deliverCredits s d c down credits rows).guards = s.guards ∧ (State.deliverCredits s d c down credits rows).mbx = s.mbx ∧ (State.deliverCredits s d c down credits rows).ports = s.ports ∧ (State.deliverCredits s d c down credits rows).smbOffset = s.smbOffset ∧ (State.deliverCredits s d c down credits rows).alertPending = s.alertPending ∧ (State.deliverCredits s d c down credits rows).owner = s.owner ∧ (State.deliverCredits s d c down credits rows).log = s.log ∧ (State.deliverCredits s d c down credits rows).pcie = s.pcie ∧ (State.deliverCredits s d c down credits rows).cxl = s.cxl ∧ (State.deliverCredits s d c down credits rows).sessions = s.sessions ∧ (State.deliverCredits s d c down credits rows).grants = s.grants ∧ (State.deliverCredits s d c down credits rows).mbxTurn = s.mbxTurn ∧ (State.deliverCredits s d c down credits rows).turns = s.turns ∧ (State.deliverCredits s d c down credits rows).accepted = s.accepted ∧ (State.deliverCredits s d c down credits rows).bus = s.bus ∧ (State.deliverCredits s d c down credits rows).freeTick = s.freeTick := by
  unfold State.deliverCredits
  try dsimp only
  (repeat' split) <;> simp

@[simp] theorem State.deliverCinch_leaves (s : State) (src : Nat) (payload : Bytes) :
    (State.deliverCinch s src payload).pending = s.pending ∧ (State.deliverCinch s src payload).wall = s.wall ∧ (State.deliverCinch s src payload).time = s.time ∧ (State.deliverCinch s src payload).board = s.board ∧ (State.deliverCinch s src payload).tap = s.tap ∧ (State.deliverCinch s src payload).power = s.power ∧ (State.deliverCinch s src payload).clocks = s.clocks ∧ (State.deliverCinch s src payload).thermal = s.thermal ∧ (State.deliverCinch s src payload).straps = s.straps ∧ (State.deliverCinch s src payload).boot = s.boot ∧ (State.deliverCinch s src payload).flash = s.flash ∧ (State.deliverCinch s src payload).fuses = s.fuses ∧ (State.deliverCinch s src payload).security = s.security ∧ (State.deliverCinch s src payload).models = s.models ∧ (State.deliverCinch s src payload).dies = s.dies ∧ (State.deliverCinch s src payload).faultyEdges = s.faultyEdges ∧ (State.deliverCinch s src payload).feeders = s.feeders ∧ (State.deliverCinch s src payload).memory = s.memory ∧ (State.deliverCinch s src payload).lanes = s.lanes ∧ (State.deliverCinch s src payload).guards = s.guards ∧ (State.deliverCinch s src payload).mbx = s.mbx ∧ (State.deliverCinch s src payload).ports = s.ports ∧ (State.deliverCinch s src payload).smbOffset = s.smbOffset ∧ (State.deliverCinch s src payload).alertPending = s.alertPending ∧ (State.deliverCinch s src payload).owner = s.owner ∧ (State.deliverCinch s src payload).log = s.log ∧ (State.deliverCinch s src payload).pcie = s.pcie ∧ (State.deliverCinch s src payload).cxl = s.cxl ∧ (State.deliverCinch s src payload).cascade = s.cascade ∧ (State.deliverCinch s src payload).grants = s.grants ∧ (State.deliverCinch s src payload).fabricSeq = s.fabricSeq ∧ (State.deliverCinch s src payload).mbxTurn = s.mbxTurn ∧ (State.deliverCinch s src payload).turns = s.turns ∧ (State.deliverCinch s src payload).accepted = s.accepted ∧ (State.deliverCinch s src payload).bus = s.bus ∧ (State.deliverCinch s src payload).freeTick = s.freeTick := by
  unfold State.deliverCinch
  try dsimp only
  (repeat' split) <;> simp

@[simp] theorem State.deliverData_leaves (s : State) (f : Flit) :
    (State.deliverData s f).pending = s.pending ∧ (State.deliverData s f).wall = s.wall ∧ (State.deliverData s f).time = s.time ∧ (State.deliverData s f).board = s.board ∧ (State.deliverData s f).tap = s.tap ∧ (State.deliverData s f).power = s.power ∧ (State.deliverData s f).clocks = s.clocks ∧ (State.deliverData s f).thermal = s.thermal ∧ (State.deliverData s f).straps = s.straps ∧ (State.deliverData s f).boot = s.boot ∧ (State.deliverData s f).flash = s.flash ∧ (State.deliverData s f).fuses = s.fuses ∧ (State.deliverData s f).security = s.security ∧ (State.deliverData s f).models = s.models ∧ (State.deliverData s f).dies = s.dies ∧ (State.deliverData s f).faultyEdges = s.faultyEdges ∧ (State.deliverData s f).feeders = s.feeders ∧ (State.deliverData s f).lanes = s.lanes ∧ (State.deliverData s f).guards = s.guards ∧ (State.deliverData s f).mbx = s.mbx ∧ (State.deliverData s f).ports = s.ports ∧ (State.deliverData s f).smbOffset = s.smbOffset ∧ (State.deliverData s f).alertPending = s.alertPending ∧ (State.deliverData s f).owner = s.owner ∧ (State.deliverData s f).log = s.log ∧ (State.deliverData s f).pcie = s.pcie ∧ (State.deliverData s f).cxl = s.cxl ∧ (State.deliverData s f).grants = s.grants ∧ (State.deliverData s f).mbxTurn = s.mbxTurn ∧ (State.deliverData s f).turns = s.turns ∧ (State.deliverData s f).accepted = s.accepted ∧ (State.deliverData s f).bus = s.bus ∧ (State.deliverData s f).freeTick = s.freeTick := by
  unfold State.deliverData
  try dsimp only
  (repeat' split) <;> simp

/-! ### Models -/

@[simp] theorem State.installModel_leaves (s : State) (slot source : Nat) (pkg : Bytes) :
    (State.installModel s slot source pkg).pending = s.pending ∧ (State.installModel s slot source pkg).wall = s.wall ∧ (State.installModel s slot source pkg).time = s.time ∧ (State.installModel s slot source pkg).board = s.board ∧ (State.installModel s slot source pkg).tap = s.tap ∧ (State.installModel s slot source pkg).power = s.power ∧ (State.installModel s slot source pkg).clocks = s.clocks ∧ (State.installModel s slot source pkg).thermal = s.thermal ∧ (State.installModel s slot source pkg).straps = s.straps ∧ (State.installModel s slot source pkg).boot = s.boot ∧ (State.installModel s slot source pkg).flash = s.flash ∧ (State.installModel s slot source pkg).fuses = s.fuses ∧ (State.installModel s slot source pkg).faultyEdges = s.faultyEdges ∧ (State.installModel s slot source pkg).cores = s.cores ∧ (State.installModel s slot source pkg).feeders = s.feeders ∧ (State.installModel s slot source pkg).memory = s.memory ∧ (State.installModel s slot source pkg).lanes = s.lanes ∧ (State.installModel s slot source pkg).guards = s.guards ∧ (State.installModel s slot source pkg).mbx = s.mbx ∧ (State.installModel s slot source pkg).ports = s.ports ∧ (State.installModel s slot source pkg).smbOffset = s.smbOffset ∧ (State.installModel s slot source pkg).alertPending = s.alertPending ∧ (State.installModel s slot source pkg).owner = s.owner ∧ (State.installModel s slot source pkg).pcie = s.pcie ∧ (State.installModel s slot source pkg).cxl = s.cxl ∧ (State.installModel s slot source pkg).cascade = s.cascade ∧ (State.installModel s slot source pkg).sessions = s.sessions ∧ (State.installModel s slot source pkg).grants = s.grants ∧ (State.installModel s slot source pkg).fabricSeq = s.fabricSeq ∧ (State.installModel s slot source pkg).mbxTurn = s.mbxTurn ∧ (State.installModel s slot source pkg).turns = s.turns ∧ (State.installModel s slot source pkg).accepted = s.accepted ∧ (State.installModel s slot source pkg).bus = s.bus ∧ (State.installModel s slot source pkg).freeTick = s.freeTick := by
  unfold State.installModel
  try dsimp only
  (repeat' split) <;> simp

@[simp] theorem State.modelRefused_leaves (s : State) (a : Answer) (slot : Nat) :
    (State.modelRefused s a slot).pending = s.pending ∧ (State.modelRefused s a slot).wall = s.wall ∧ (State.modelRefused s a slot).time = s.time ∧ (State.modelRefused s a slot).board = s.board ∧ (State.modelRefused s a slot).tap = s.tap ∧ (State.modelRefused s a slot).power = s.power ∧ (State.modelRefused s a slot).clocks = s.clocks ∧ (State.modelRefused s a slot).thermal = s.thermal ∧ (State.modelRefused s a slot).straps = s.straps ∧ (State.modelRefused s a slot).boot = s.boot ∧ (State.modelRefused s a slot).flash = s.flash ∧ (State.modelRefused s a slot).fuses = s.fuses ∧ (State.modelRefused s a slot).security = s.security ∧ (State.modelRefused s a slot).models = s.models ∧ (State.modelRefused s a slot).faultyEdges = s.faultyEdges ∧ (State.modelRefused s a slot).cores = s.cores ∧ (State.modelRefused s a slot).feeders = s.feeders ∧ (State.modelRefused s a slot).memory = s.memory ∧ (State.modelRefused s a slot).lanes = s.lanes ∧ (State.modelRefused s a slot).guards = s.guards ∧ (State.modelRefused s a slot).mbx = s.mbx ∧ (State.modelRefused s a slot).ports = s.ports ∧ (State.modelRefused s a slot).smbOffset = s.smbOffset ∧ (State.modelRefused s a slot).alertPending = s.alertPending ∧ (State.modelRefused s a slot).owner = s.owner ∧ (State.modelRefused s a slot).pcie = s.pcie ∧ (State.modelRefused s a slot).cxl = s.cxl ∧ (State.modelRefused s a slot).cascade = s.cascade ∧ (State.modelRefused s a slot).sessions = s.sessions ∧ (State.modelRefused s a slot).grants = s.grants ∧ (State.modelRefused s a slot).fabricSeq = s.fabricSeq ∧ (State.modelRefused s a slot).mbxTurn = s.mbxTurn ∧ (State.modelRefused s a slot).turns = s.turns ∧ (State.modelRefused s a slot).accepted = s.accepted ∧ (State.modelRefused s a slot).bus = s.bus ∧ (State.modelRefused s a slot).freeTick = s.freeTick := by
  unfold State.modelRefused
  try dsimp only
  (repeat' split) <;> simp

@[simp] theorem State.loadModel_leaves (s : State) (p k slot : Nat) (persist : Bool) (pkg : Bytes) :
    (State.loadModel s p k slot persist pkg).pending = s.pending ∧ (State.loadModel s p k slot persist pkg).wall = s.wall ∧ (State.loadModel s p k slot persist pkg).time = s.time ∧ (State.loadModel s p k slot persist pkg).board = s.board ∧ (State.loadModel s p k slot persist pkg).tap = s.tap ∧ (State.loadModel s p k slot persist pkg).power = s.power ∧ (State.loadModel s p k slot persist pkg).clocks = s.clocks ∧ (State.loadModel s p k slot persist pkg).thermal = s.thermal ∧ (State.loadModel s p k slot persist pkg).straps = s.straps ∧ (State.loadModel s p k slot persist pkg).boot = s.boot ∧ (State.loadModel s p k slot persist pkg).fuses = s.fuses ∧ (State.loadModel s p k slot persist pkg).faultyEdges = s.faultyEdges ∧ (State.loadModel s p k slot persist pkg).cores = s.cores ∧ (State.loadModel s p k slot persist pkg).feeders = s.feeders ∧ (State.loadModel s p k slot persist pkg).memory = s.memory ∧ (State.loadModel s p k slot persist pkg).lanes = s.lanes ∧ (State.loadModel s p k slot persist pkg).guards = s.guards ∧ (State.loadModel s p k slot persist pkg).ports = s.ports ∧ (State.loadModel s p k slot persist pkg).smbOffset = s.smbOffset ∧ (State.loadModel s p k slot persist pkg).owner = s.owner ∧ (State.loadModel s p k slot persist pkg).cxl = s.cxl ∧ (State.loadModel s p k slot persist pkg).sessions = s.sessions ∧ (State.loadModel s p k slot persist pkg).grants = s.grants ∧ (State.loadModel s p k slot persist pkg).fabricSeq = s.fabricSeq ∧ (State.loadModel s p k slot persist pkg).mbxTurn = s.mbxTurn ∧ (State.loadModel s p k slot persist pkg).turns = s.turns ∧ (State.loadModel s p k slot persist pkg).accepted = s.accepted ∧ (State.loadModel s p k slot persist pkg).bus = s.bus ∧ (State.loadModel s p k slot persist pkg).freeTick = s.freeTick := by
  unfold State.loadModel
  try dsimp only
  (repeat' split) <;> simp

/-! ### Sessions -/

@[simp] theorem State.answerFor_leaves (s : State) (p k i : Nat) (a : Answer) :
    (State.answerFor s p k i a).pending = s.pending ∧ (State.answerFor s p k i a).wall = s.wall ∧ (State.answerFor s p k i a).time = s.time ∧ (State.answerFor s p k i a).board = s.board ∧ (State.answerFor s p k i a).tap = s.tap ∧ (State.answerFor s p k i a).power = s.power ∧ (State.answerFor s p k i a).clocks = s.clocks ∧ (State.answerFor s p k i a).thermal = s.thermal ∧ (State.answerFor s p k i a).straps = s.straps ∧ (State.answerFor s p k i a).boot = s.boot ∧ (State.answerFor s p k i a).flash = s.flash ∧ (State.answerFor s p k i a).fuses = s.fuses ∧ (State.answerFor s p k i a).security = s.security ∧ (State.answerFor s p k i a).models = s.models ∧ (State.answerFor s p k i a).dies = s.dies ∧ (State.answerFor s p k i a).faultyEdges = s.faultyEdges ∧ (State.answerFor s p k i a).cores = s.cores ∧ (State.answerFor s p k i a).feeders = s.feeders ∧ (State.answerFor s p k i a).memory = s.memory ∧ (State.answerFor s p k i a).lanes = s.lanes ∧ (State.answerFor s p k i a).guards = s.guards ∧ (State.answerFor s p k i a).ports = s.ports ∧ (State.answerFor s p k i a).smbOffset = s.smbOffset ∧ (State.answerFor s p k i a).owner = s.owner ∧ (State.answerFor s p k i a).log = s.log ∧ (State.answerFor s p k i a).cxl = s.cxl ∧ (State.answerFor s p k i a).sessions = s.sessions ∧ (State.answerFor s p k i a).grants = s.grants ∧ (State.answerFor s p k i a).fabricSeq = s.fabricSeq ∧ (State.answerFor s p k i a).mbxTurn = s.mbxTurn ∧ (State.answerFor s p k i a).turns = s.turns ∧ (State.answerFor s p k i a).accepted = s.accepted ∧ (State.answerFor s p k i a).bus = s.bus ∧ (State.answerFor s p k i a).freeTick = s.freeTick := by
  unfold State.answerFor
  try dsimp only
  (repeat' split) <;> simp

@[simp] theorem State.bindPlan_leaves (s : State) (i : Nat) (pl : CutPlan) (place : Placement) :
    (State.bindPlan s i pl place).pending = s.pending ∧ (State.bindPlan s i pl place).wall = s.wall ∧ (State.bindPlan s i pl place).time = s.time ∧ (State.bindPlan s i pl place).board = s.board ∧ (State.bindPlan s i pl place).tap = s.tap ∧ (State.bindPlan s i pl place).power = s.power ∧ (State.bindPlan s i pl place).clocks = s.clocks ∧ (State.bindPlan s i pl place).thermal = s.thermal ∧ (State.bindPlan s i pl place).straps = s.straps ∧ (State.bindPlan s i pl place).boot = s.boot ∧ (State.bindPlan s i pl place).flash = s.flash ∧ (State.bindPlan s i pl place).fuses = s.fuses ∧ (State.bindPlan s i pl place).security = s.security ∧ (State.bindPlan s i pl place).models = s.models ∧ (State.bindPlan s i pl place).faultyEdges = s.faultyEdges ∧ (State.bindPlan s i pl place).feeders = s.feeders ∧ (State.bindPlan s i pl place).mbx = s.mbx ∧ (State.bindPlan s i pl place).ports = s.ports ∧ (State.bindPlan s i pl place).smbOffset = s.smbOffset ∧ (State.bindPlan s i pl place).alertPending = s.alertPending ∧ (State.bindPlan s i pl place).owner = s.owner ∧ (State.bindPlan s i pl place).pcie = s.pcie ∧ (State.bindPlan s i pl place).cxl = s.cxl ∧ (State.bindPlan s i pl place).cascade = s.cascade ∧ (State.bindPlan s i pl place).grants = s.grants ∧ (State.bindPlan s i pl place).fabricSeq = s.fabricSeq ∧ (State.bindPlan s i pl place).mbxTurn = s.mbxTurn ∧ (State.bindPlan s i pl place).turns = s.turns ∧ (State.bindPlan s i pl place).accepted = s.accepted ∧ (State.bindPlan s i pl place).bus = s.bus := by
  unfold State.bindPlan
  try dsimp only
  (repeat' split) <;> simp

@[simp] theorem State.endFault_leaves (s : State) (i : Nat) :
    (State.endFault s i).pending = s.pending ∧ (State.endFault s i).wall = s.wall ∧ (State.endFault s i).time = s.time ∧ (State.endFault s i).board = s.board ∧ (State.endFault s i).tap = s.tap ∧ (State.endFault s i).power = s.power ∧ (State.endFault s i).clocks = s.clocks ∧ (State.endFault s i).thermal = s.thermal ∧ (State.endFault s i).straps = s.straps ∧ (State.endFault s i).boot = s.boot ∧ (State.endFault s i).flash = s.flash ∧ (State.endFault s i).fuses = s.fuses ∧ (State.endFault s i).security = s.security ∧ (State.endFault s i).models = s.models ∧ (State.endFault s i).faultyEdges = s.faultyEdges ∧ (State.endFault s i).cores = s.cores ∧ (State.endFault s i).feeders = s.feeders ∧ (State.endFault s i).lanes = s.lanes ∧ (State.endFault s i).guards = s.guards ∧ (State.endFault s i).mbx = s.mbx ∧ (State.endFault s i).ports = s.ports ∧ (State.endFault s i).smbOffset = s.smbOffset ∧ (State.endFault s i).owner = s.owner ∧ (State.endFault s i).cxl = s.cxl ∧ (State.endFault s i).grants = s.grants ∧ (State.endFault s i).fabricSeq = s.fabricSeq ∧ (State.endFault s i).mbxTurn = s.mbxTurn ∧ (State.endFault s i).turns = s.turns ∧ (State.endFault s i).accepted = s.accepted ∧ (State.endFault s i).bus = s.bus ∧ (State.endFault s i).freeTick = s.freeTick := by
  unfold State.endFault
  try dsimp only
  (repeat' split) <;> simp

@[simp] theorem State.retireAll_leaves (s : State) (l : List (CoreDie × CoreIx)) :
    (State.retireAll s l).pending = s.pending ∧ (State.retireAll s l).wall = s.wall ∧ (State.retireAll s l).time = s.time ∧ (State.retireAll s l).board = s.board ∧ (State.retireAll s l).tap = s.tap ∧ (State.retireAll s l).power = s.power ∧ (State.retireAll s l).clocks = s.clocks ∧ (State.retireAll s l).thermal = s.thermal ∧ (State.retireAll s l).straps = s.straps ∧ (State.retireAll s l).boot = s.boot ∧ (State.retireAll s l).flash = s.flash ∧ (State.retireAll s l).fuses = s.fuses ∧ (State.retireAll s l).security = s.security ∧ (State.retireAll s l).models = s.models ∧ (State.retireAll s l).faultyEdges = s.faultyEdges ∧ (State.retireAll s l).feeders = s.feeders ∧ (State.retireAll s l).ports = s.ports ∧ (State.retireAll s l).smbOffset = s.smbOffset ∧ (State.retireAll s l).owner = s.owner ∧ (State.retireAll s l).cxl = s.cxl ∧ (State.retireAll s l).fabricSeq = s.fabricSeq ∧ (State.retireAll s l).mbxTurn = s.mbxTurn ∧ (State.retireAll s l).turns = s.turns ∧ (State.retireAll s l).accepted = s.accepted ∧ (State.retireAll s l).bus = s.bus := by
  unfold State.retireAll
  try dsimp only
  (repeat' split) <;> simp

@[simp] theorem State.remap_leaves (s : State) (p k i : Nat) (pl : CutPlan) (place : Placement) (mismatch : List (CoreDie × CoreIx)) :
    (State.remap s p k i pl place mismatch).pending = s.pending ∧ (State.remap s p k i pl place mismatch).wall = s.wall ∧ (State.remap s p k i pl place mismatch).time = s.time ∧ (State.remap s p k i pl place mismatch).board = s.board ∧ (State.remap s p k i pl place mismatch).tap = s.tap ∧ (State.remap s p k i pl place mismatch).power = s.power ∧ (State.remap s p k i pl place mismatch).clocks = s.clocks ∧ (State.remap s p k i pl place mismatch).thermal = s.thermal ∧ (State.remap s p k i pl place mismatch).straps = s.straps ∧ (State.remap s p k i pl place mismatch).boot = s.boot ∧ (State.remap s p k i pl place mismatch).flash = s.flash ∧ (State.remap s p k i pl place mismatch).fuses = s.fuses ∧ (State.remap s p k i pl place mismatch).security = s.security ∧ (State.remap s p k i pl place mismatch).models = s.models ∧ (State.remap s p k i pl place mismatch).faultyEdges = s.faultyEdges ∧ (State.remap s p k i pl place mismatch).feeders = s.feeders ∧ (State.remap s p k i pl place mismatch).ports = s.ports ∧ (State.remap s p k i pl place mismatch).smbOffset = s.smbOffset ∧ (State.remap s p k i pl place mismatch).owner = s.owner ∧ (State.remap s p k i pl place mismatch).cxl = s.cxl ∧ (State.remap s p k i pl place mismatch).fabricSeq = s.fabricSeq ∧ (State.remap s p k i pl place mismatch).mbxTurn = s.mbxTurn ∧ (State.remap s p k i pl place mismatch).turns = s.turns ∧ (State.remap s p k i pl place mismatch).accepted = s.accepted ∧ (State.remap s p k i pl place mismatch).bus = s.bus := by
  unfold State.remap
  try dsimp only
  (repeat' split) <;> simp

@[simp] theorem State.recut_leaves (s : State) (p k i : Nat) (pl : CutPlan) (place : Placement) (mismatch : List (CoreDie × CoreIx)) :
    (State.recut s p k i pl place mismatch).pending = s.pending ∧ (State.recut s p k i pl place mismatch).wall = s.wall ∧ (State.recut s p k i pl place mismatch).time = s.time ∧ (State.recut s p k i pl place mismatch).board = s.board ∧ (State.recut s p k i pl place mismatch).tap = s.tap ∧ (State.recut s p k i pl place mismatch).power = s.power ∧ (State.recut s p k i pl place mismatch).clocks = s.clocks ∧ (State.recut s p k i pl place mismatch).thermal = s.thermal ∧ (State.recut s p k i pl place mismatch).straps = s.straps ∧ (State.recut s p k i pl place mismatch).boot = s.boot ∧ (State.recut s p k i pl place mismatch).flash = s.flash ∧ (State.recut s p k i pl place mismatch).fuses = s.fuses ∧ (State.recut s p k i pl place mismatch).security = s.security ∧ (State.recut s p k i pl place mismatch).models = s.models ∧ (State.recut s p k i pl place mismatch).faultyEdges = s.faultyEdges ∧ (State.recut s p k i pl place mismatch).feeders = s.feeders ∧ (State.recut s p k i pl place mismatch).ports = s.ports ∧ (State.recut s p k i pl place mismatch).smbOffset = s.smbOffset ∧ (State.recut s p k i pl place mismatch).owner = s.owner ∧ (State.recut s p k i pl place mismatch).cxl = s.cxl ∧ (State.recut s p k i pl place mismatch).fabricSeq = s.fabricSeq ∧ (State.recut s p k i pl place mismatch).mbxTurn = s.mbxTurn ∧ (State.recut s p k i pl place mismatch).turns = s.turns ∧ (State.recut s p k i pl place mismatch).accepted = s.accepted ∧ (State.recut s p k i pl place mismatch).bus = s.bus := by
  unfold State.recut
  try dsimp only
  (repeat' split) <;> simp

@[simp] theorem State.abandonAll_leaves (s : State) (i : Nat) :
    (State.abandonAll s i).pending = s.pending ∧ (State.abandonAll s i).wall = s.wall ∧ (State.abandonAll s i).time = s.time ∧ (State.abandonAll s i).board = s.board ∧ (State.abandonAll s i).tap = s.tap ∧ (State.abandonAll s i).power = s.power ∧ (State.abandonAll s i).clocks = s.clocks ∧ (State.abandonAll s i).thermal = s.thermal ∧ (State.abandonAll s i).straps = s.straps ∧ (State.abandonAll s i).boot = s.boot ∧ (State.abandonAll s i).flash = s.flash ∧ (State.abandonAll s i).fuses = s.fuses ∧ (State.abandonAll s i).security = s.security ∧ (State.abandonAll s i).models = s.models ∧ (State.abandonAll s i).faultyEdges = s.faultyEdges ∧ (State.abandonAll s i).feeders = s.feeders ∧ (State.abandonAll s i).lanes = s.lanes ∧ (State.abandonAll s i).guards = s.guards ∧ (State.abandonAll s i).mbx = s.mbx ∧ (State.abandonAll s i).ports = s.ports ∧ (State.abandonAll s i).smbOffset = s.smbOffset ∧ (State.abandonAll s i).owner = s.owner ∧ (State.abandonAll s i).cxl = s.cxl ∧ (State.abandonAll s i).fabricSeq = s.fabricSeq ∧ (State.abandonAll s i).mbxTurn = s.mbxTurn ∧ (State.abandonAll s i).turns = s.turns ∧ (State.abandonAll s i).accepted = s.accepted ∧ (State.abandonAll s i).bus = s.bus := by
  unfold State.abandonAll
  try dsimp only
  (repeat' split) <;> simp

@[simp] theorem State.unbind_leaves (s : State) (i : Nat) :
    (State.unbind s i).pending = s.pending ∧ (State.unbind s i).wall = s.wall ∧ (State.unbind s i).time = s.time ∧ (State.unbind s i).board = s.board ∧ (State.unbind s i).tap = s.tap ∧ (State.unbind s i).power = s.power ∧ (State.unbind s i).clocks = s.clocks ∧ (State.unbind s i).thermal = s.thermal ∧ (State.unbind s i).straps = s.straps ∧ (State.unbind s i).boot = s.boot ∧ (State.unbind s i).flash = s.flash ∧ (State.unbind s i).fuses = s.fuses ∧ (State.unbind s i).security = s.security ∧ (State.unbind s i).models = s.models ∧ (State.unbind s i).faultyEdges = s.faultyEdges ∧ (State.unbind s i).feeders = s.feeders ∧ (State.unbind s i).memory = s.memory ∧ (State.unbind s i).mbx = s.mbx ∧ (State.unbind s i).ports = s.ports ∧ (State.unbind s i).smbOffset = s.smbOffset ∧ (State.unbind s i).alertPending = s.alertPending ∧ (State.unbind s i).owner = s.owner ∧ (State.unbind s i).pcie = s.pcie ∧ (State.unbind s i).cxl = s.cxl ∧ (State.unbind s i).cascade = s.cascade ∧ (State.unbind s i).fabricSeq = s.fabricSeq ∧ (State.unbind s i).mbxTurn = s.mbxTurn ∧ (State.unbind s i).turns = s.turns ∧ (State.unbind s i).accepted = s.accepted ∧ (State.unbind s i).bus = s.bus := by
  unfold State.unbind
  simp

@[simp] theorem State.fenceParked_leaves (s : State) (i : Nat) :
    (State.fenceParked s i).pending = s.pending ∧ (State.fenceParked s i).wall = s.wall ∧ (State.fenceParked s i).time = s.time ∧ (State.fenceParked s i).board = s.board ∧ (State.fenceParked s i).tap = s.tap ∧ (State.fenceParked s i).power = s.power ∧ (State.fenceParked s i).clocks = s.clocks ∧ (State.fenceParked s i).thermal = s.thermal ∧ (State.fenceParked s i).straps = s.straps ∧ (State.fenceParked s i).boot = s.boot ∧ (State.fenceParked s i).flash = s.flash ∧ (State.fenceParked s i).fuses = s.fuses ∧ (State.fenceParked s i).security = s.security ∧ (State.fenceParked s i).models = s.models ∧ (State.fenceParked s i).dies = s.dies ∧ (State.fenceParked s i).faultyEdges = s.faultyEdges ∧ (State.fenceParked s i).cores = s.cores ∧ (State.fenceParked s i).feeders = s.feeders ∧ (State.fenceParked s i).memory = s.memory ∧ (State.fenceParked s i).lanes = s.lanes ∧ (State.fenceParked s i).guards = s.guards ∧ (State.fenceParked s i).ports = s.ports ∧ (State.fenceParked s i).smbOffset = s.smbOffset ∧ (State.fenceParked s i).owner = s.owner ∧ (State.fenceParked s i).log = s.log ∧ (State.fenceParked s i).cxl = s.cxl ∧ (State.fenceParked s i).grants = s.grants ∧ (State.fenceParked s i).fabricSeq = s.fabricSeq ∧ (State.fenceParked s i).mbxTurn = s.mbxTurn ∧ (State.fenceParked s i).turns = s.turns ∧ (State.fenceParked s i).accepted = s.accepted ∧ (State.fenceParked s i).bus = s.bus ∧ (State.fenceParked s i).freeTick = s.freeTick := by
  unfold State.fenceParked
  try dsimp only
  (repeat' split) <;> simp

@[simp] theorem State.grantPic_leaves (s : State) (i order need : Nat) :
    (State.grantPic s i order need).pending = s.pending ∧ (State.grantPic s i order need).wall = s.wall ∧ (State.grantPic s i order need).time = s.time ∧ (State.grantPic s i order need).board = s.board ∧ (State.grantPic s i order need).tap = s.tap ∧ (State.grantPic s i order need).power = s.power ∧ (State.grantPic s i order need).clocks = s.clocks ∧ (State.grantPic s i order need).thermal = s.thermal ∧ (State.grantPic s i order need).straps = s.straps ∧ (State.grantPic s i order need).boot = s.boot ∧ (State.grantPic s i order need).flash = s.flash ∧ (State.grantPic s i order need).fuses = s.fuses ∧ (State.grantPic s i order need).security = s.security ∧ (State.grantPic s i order need).models = s.models ∧ (State.grantPic s i order need).dies = s.dies ∧ (State.grantPic s i order need).faultyEdges = s.faultyEdges ∧ (State.grantPic s i order need).cores = s.cores ∧ (State.grantPic s i order need).feeders = s.feeders ∧ (State.grantPic s i order need).memory = s.memory ∧ (State.grantPic s i order need).lanes = s.lanes ∧ (State.grantPic s i order need).guards = s.guards ∧ (State.grantPic s i order need).mbx = s.mbx ∧ (State.grantPic s i order need).ports = s.ports ∧ (State.grantPic s i order need).smbOffset = s.smbOffset ∧ (State.grantPic s i order need).alertPending = s.alertPending ∧ (State.grantPic s i order need).owner = s.owner ∧ (State.grantPic s i order need).log = s.log ∧ (State.grantPic s i order need).pcie = s.pcie ∧ (State.grantPic s i order need).cxl = s.cxl ∧ (State.grantPic s i order need).cascade = s.cascade ∧ (State.grantPic s i order need).grants = s.grants ∧ (State.grantPic s i order need).fabricSeq = s.fabricSeq ∧ (State.grantPic s i order need).mbxTurn = s.mbxTurn ∧ (State.grantPic s i order need).turns = s.turns ∧ (State.grantPic s i order need).accepted = s.accepted ∧ (State.grantPic s i order need).bus = s.bus ∧ (State.grantPic s i order need).freeTick = s.freeTick := by
  unfold State.grantPic
  try dsimp only
  (repeat' split) <;> simp

@[simp] theorem State.requestNeed_leaves (s : State) (i order need : Nat) :
    (State.requestNeed s i order need).pending = s.pending ∧ (State.requestNeed s i order need).wall = s.wall ∧ (State.requestNeed s i order need).time = s.time ∧ (State.requestNeed s i order need).board = s.board ∧ (State.requestNeed s i order need).tap = s.tap ∧ (State.requestNeed s i order need).power = s.power ∧ (State.requestNeed s i order need).clocks = s.clocks ∧ (State.requestNeed s i order need).thermal = s.thermal ∧ (State.requestNeed s i order need).straps = s.straps ∧ (State.requestNeed s i order need).boot = s.boot ∧ (State.requestNeed s i order need).flash = s.flash ∧ (State.requestNeed s i order need).fuses = s.fuses ∧ (State.requestNeed s i order need).security = s.security ∧ (State.requestNeed s i order need).models = s.models ∧ (State.requestNeed s i order need).dies = s.dies ∧ (State.requestNeed s i order need).faultyEdges = s.faultyEdges ∧ (State.requestNeed s i order need).cores = s.cores ∧ (State.requestNeed s i order need).feeders = s.feeders ∧ (State.requestNeed s i order need).memory = s.memory ∧ (State.requestNeed s i order need).lanes = s.lanes ∧ (State.requestNeed s i order need).guards = s.guards ∧ (State.requestNeed s i order need).mbx = s.mbx ∧ (State.requestNeed s i order need).ports = s.ports ∧ (State.requestNeed s i order need).smbOffset = s.smbOffset ∧ (State.requestNeed s i order need).alertPending = s.alertPending ∧ (State.requestNeed s i order need).owner = s.owner ∧ (State.requestNeed s i order need).log = s.log ∧ (State.requestNeed s i order need).pcie = s.pcie ∧ (State.requestNeed s i order need).cxl = s.cxl ∧ (State.requestNeed s i order need).cascade = s.cascade ∧ (State.requestNeed s i order need).fabricSeq = s.fabricSeq ∧ (State.requestNeed s i order need).mbxTurn = s.mbxTurn ∧ (State.requestNeed s i order need).turns = s.turns ∧ (State.requestNeed s i order need).accepted = s.accepted ∧ (State.requestNeed s i order need).bus = s.bus ∧ (State.requestNeed s i order need).freeTick = s.freeTick := by
  unfold State.requestNeed
  try dsimp only
  (repeat' split) <;> simp

/-! ### Motion -/

@[simp] theorem State.tookTurn_leaves (s : State) (key i : Nat) :
    (State.tookTurn s key i).pending = s.pending ∧ (State.tookTurn s key i).wall = s.wall ∧ (State.tookTurn s key i).time = s.time ∧ (State.tookTurn s key i).board = s.board ∧ (State.tookTurn s key i).tap = s.tap ∧ (State.tookTurn s key i).power = s.power ∧ (State.tookTurn s key i).clocks = s.clocks ∧ (State.tookTurn s key i).thermal = s.thermal ∧ (State.tookTurn s key i).straps = s.straps ∧ (State.tookTurn s key i).boot = s.boot ∧ (State.tookTurn s key i).flash = s.flash ∧ (State.tookTurn s key i).fuses = s.fuses ∧ (State.tookTurn s key i).security = s.security ∧ (State.tookTurn s key i).models = s.models ∧ (State.tookTurn s key i).dies = s.dies ∧ (State.tookTurn s key i).faultyEdges = s.faultyEdges ∧ (State.tookTurn s key i).cores = s.cores ∧ (State.tookTurn s key i).feeders = s.feeders ∧ (State.tookTurn s key i).memory = s.memory ∧ (State.tookTurn s key i).lanes = s.lanes ∧ (State.tookTurn s key i).guards = s.guards ∧ (State.tookTurn s key i).mbx = s.mbx ∧ (State.tookTurn s key i).ports = s.ports ∧ (State.tookTurn s key i).smbOffset = s.smbOffset ∧ (State.tookTurn s key i).alertPending = s.alertPending ∧ (State.tookTurn s key i).owner = s.owner ∧ (State.tookTurn s key i).log = s.log ∧ (State.tookTurn s key i).pcie = s.pcie ∧ (State.tookTurn s key i).cxl = s.cxl ∧ (State.tookTurn s key i).cascade = s.cascade ∧ (State.tookTurn s key i).sessions = s.sessions ∧ (State.tookTurn s key i).grants = s.grants ∧ (State.tookTurn s key i).fabricSeq = s.fabricSeq ∧ (State.tookTurn s key i).mbxTurn = s.mbxTurn ∧ (State.tookTurn s key i).accepted = s.accepted ∧ (State.tookTurn s key i).bus = s.bus ∧ (State.tookTurn s key i).freeTick = s.freeTick := by
  unfold State.tookTurn
  try dsimp only
  (repeat' split) <;> simp

@[simp] theorem State.reportMissingLib_leaves (s : State) (i : Nat) (p : Picture) (index : Nat) :
    (State.reportMissingLib s i p index).pending = s.pending ∧ (State.reportMissingLib s i p index).wall = s.wall ∧ (State.reportMissingLib s i p index).time = s.time ∧ (State.reportMissingLib s i p index).board = s.board ∧ (State.reportMissingLib s i p index).tap = s.tap ∧ (State.reportMissingLib s i p index).power = s.power ∧ (State.reportMissingLib s i p index).clocks = s.clocks ∧ (State.reportMissingLib s i p index).thermal = s.thermal ∧ (State.reportMissingLib s i p index).straps = s.straps ∧ (State.reportMissingLib s i p index).boot = s.boot ∧ (State.reportMissingLib s i p index).flash = s.flash ∧ (State.reportMissingLib s i p index).fuses = s.fuses ∧ (State.reportMissingLib s i p index).security = s.security ∧ (State.reportMissingLib s i p index).models = s.models ∧ (State.reportMissingLib s i p index).faultyEdges = s.faultyEdges ∧ (State.reportMissingLib s i p index).cores = s.cores ∧ (State.reportMissingLib s i p index).feeders = s.feeders ∧ (State.reportMissingLib s i p index).lanes = s.lanes ∧ (State.reportMissingLib s i p index).guards = s.guards ∧ (State.reportMissingLib s i p index).mbx = s.mbx ∧ (State.reportMissingLib s i p index).ports = s.ports ∧ (State.reportMissingLib s i p index).smbOffset = s.smbOffset ∧ (State.reportMissingLib s i p index).owner = s.owner ∧ (State.reportMissingLib s i p index).cxl = s.cxl ∧ (State.reportMissingLib s i p index).grants = s.grants ∧ (State.reportMissingLib s i p index).fabricSeq = s.fabricSeq ∧ (State.reportMissingLib s i p index).mbxTurn = s.mbxTurn ∧ (State.reportMissingLib s i p index).turns = s.turns ∧ (State.reportMissingLib s i p index).accepted = s.accepted ∧ (State.reportMissingLib s i p index).bus = s.bus ∧ (State.reportMissingLib s i p index).freeTick = s.freeTick := by
  unfold State.reportMissingLib
  try dsimp only
  (repeat' split) <;> simp

/-! ### Rans -/

@[simp] theorem State.laneDone_leaves (s : State) (sd l i : Nat) (encode endErr overrun : Bool) :
    (State.laneDone s sd l i encode endErr overrun).pending = s.pending ∧ (State.laneDone s sd l i encode endErr overrun).wall = s.wall ∧ (State.laneDone s sd l i encode endErr overrun).time = s.time ∧ (State.laneDone s sd l i encode endErr overrun).board = s.board ∧ (State.laneDone s sd l i encode endErr overrun).tap = s.tap ∧ (State.laneDone s sd l i encode endErr overrun).power = s.power ∧ (State.laneDone s sd l i encode endErr overrun).clocks = s.clocks ∧ (State.laneDone s sd l i encode endErr overrun).thermal = s.thermal ∧ (State.laneDone s sd l i encode endErr overrun).straps = s.straps ∧ (State.laneDone s sd l i encode endErr overrun).boot = s.boot ∧ (State.laneDone s sd l i encode endErr overrun).flash = s.flash ∧ (State.laneDone s sd l i encode endErr overrun).fuses = s.fuses ∧ (State.laneDone s sd l i encode endErr overrun).security = s.security ∧ (State.laneDone s sd l i encode endErr overrun).models = s.models ∧ (State.laneDone s sd l i encode endErr overrun).dies = s.dies ∧ (State.laneDone s sd l i encode endErr overrun).faultyEdges = s.faultyEdges ∧ (State.laneDone s sd l i encode endErr overrun).cores = s.cores ∧ (State.laneDone s sd l i encode endErr overrun).feeders = s.feeders ∧ (State.laneDone s sd l i encode endErr overrun).memory = s.memory ∧ (State.laneDone s sd l i encode endErr overrun).guards = s.guards ∧ (State.laneDone s sd l i encode endErr overrun).mbx = s.mbx ∧ (State.laneDone s sd l i encode endErr overrun).ports = s.ports ∧ (State.laneDone s sd l i encode endErr overrun).smbOffset = s.smbOffset ∧ (State.laneDone s sd l i encode endErr overrun).alertPending = s.alertPending ∧ (State.laneDone s sd l i encode endErr overrun).owner = s.owner ∧ (State.laneDone s sd l i encode endErr overrun).log = s.log ∧ (State.laneDone s sd l i encode endErr overrun).pcie = s.pcie ∧ (State.laneDone s sd l i encode endErr overrun).cxl = s.cxl ∧ (State.laneDone s sd l i encode endErr overrun).cascade = s.cascade ∧ (State.laneDone s sd l i encode endErr overrun).sessions = s.sessions ∧ (State.laneDone s sd l i encode endErr overrun).grants = s.grants ∧ (State.laneDone s sd l i encode endErr overrun).fabricSeq = s.fabricSeq ∧ (State.laneDone s sd l i encode endErr overrun).mbxTurn = s.mbxTurn ∧ (State.laneDone s sd l i encode endErr overrun).accepted = s.accepted ∧ (State.laneDone s sd l i encode endErr overrun).bus = s.bus ∧ (State.laneDone s sd l i encode endErr overrun).freeTick = s.freeTick := by
  unfold State.laneDone
  try dsimp only
  (repeat' split) <;> simp

/-! ### Feeder -/

@[simp] theorem State.writePieces_leaves (s : State) (space : Nat) (ps : List (Nat × Bytes)) :
    (State.writePieces s space ps).pending = s.pending ∧ (State.writePieces s space ps).wall = s.wall ∧ (State.writePieces s space ps).time = s.time ∧ (State.writePieces s space ps).board = s.board ∧ (State.writePieces s space ps).tap = s.tap ∧ (State.writePieces s space ps).power = s.power ∧ (State.writePieces s space ps).clocks = s.clocks ∧ (State.writePieces s space ps).thermal = s.thermal ∧ (State.writePieces s space ps).straps = s.straps ∧ (State.writePieces s space ps).boot = s.boot ∧ (State.writePieces s space ps).flash = s.flash ∧ (State.writePieces s space ps).fuses = s.fuses ∧ (State.writePieces s space ps).security = s.security ∧ (State.writePieces s space ps).models = s.models ∧ (State.writePieces s space ps).dies = s.dies ∧ (State.writePieces s space ps).faultyEdges = s.faultyEdges ∧ (State.writePieces s space ps).feeders = s.feeders ∧ (State.writePieces s space ps).lanes = s.lanes ∧ (State.writePieces s space ps).guards = s.guards ∧ (State.writePieces s space ps).mbx = s.mbx ∧ (State.writePieces s space ps).ports = s.ports ∧ (State.writePieces s space ps).smbOffset = s.smbOffset ∧ (State.writePieces s space ps).alertPending = s.alertPending ∧ (State.writePieces s space ps).owner = s.owner ∧ (State.writePieces s space ps).log = s.log ∧ (State.writePieces s space ps).pcie = s.pcie ∧ (State.writePieces s space ps).cxl = s.cxl ∧ (State.writePieces s space ps).cascade = s.cascade ∧ (State.writePieces s space ps).sessions = s.sessions ∧ (State.writePieces s space ps).grants = s.grants ∧ (State.writePieces s space ps).fabricSeq = s.fabricSeq ∧ (State.writePieces s space ps).mbxTurn = s.mbxTurn ∧ (State.writePieces s space ps).turns = s.turns ∧ (State.writePieces s space ps).accepted = s.accepted ∧ (State.writePieces s space ps).bus = s.bus ∧ (State.writePieces s space ps).freeTick = s.freeTick := by
  unfold State.writePieces
  try dsimp only
  (repeat' split) <;> simp

@[simp] theorem State.completeEntry_leaves (s : State) (md q : Nat) (e : Bytes) :
    (State.completeEntry s md q e).pending = s.pending ∧ (State.completeEntry s md q e).wall = s.wall ∧ (State.completeEntry s md q e).time = s.time ∧ (State.completeEntry s md q e).board = s.board ∧ (State.completeEntry s md q e).tap = s.tap ∧ (State.completeEntry s md q e).power = s.power ∧ (State.completeEntry s md q e).clocks = s.clocks ∧ (State.completeEntry s md q e).thermal = s.thermal ∧ (State.completeEntry s md q e).straps = s.straps ∧ (State.completeEntry s md q e).boot = s.boot ∧ (State.completeEntry s md q e).flash = s.flash ∧ (State.completeEntry s md q e).fuses = s.fuses ∧ (State.completeEntry s md q e).security = s.security ∧ (State.completeEntry s md q e).models = s.models ∧ (State.completeEntry s md q e).dies = s.dies ∧ (State.completeEntry s md q e).faultyEdges = s.faultyEdges ∧ (State.completeEntry s md q e).cores = s.cores ∧ (State.completeEntry s md q e).lanes = s.lanes ∧ (State.completeEntry s md q e).guards = s.guards ∧ (State.completeEntry s md q e).mbx = s.mbx ∧ (State.completeEntry s md q e).ports = s.ports ∧ (State.completeEntry s md q e).smbOffset = s.smbOffset ∧ (State.completeEntry s md q e).alertPending = s.alertPending ∧ (State.completeEntry s md q e).owner = s.owner ∧ (State.completeEntry s md q e).log = s.log ∧ (State.completeEntry s md q e).pcie = s.pcie ∧ (State.completeEntry s md q e).cxl = s.cxl ∧ (State.completeEntry s md q e).cascade = s.cascade ∧ (State.completeEntry s md q e).sessions = s.sessions ∧ (State.completeEntry s md q e).grants = s.grants ∧ (State.completeEntry s md q e).fabricSeq = s.fabricSeq ∧ (State.completeEntry s md q e).mbxTurn = s.mbxTurn ∧ (State.completeEntry s md q e).turns = s.turns ∧ (State.completeEntry s md q e).accepted = s.accepted ∧ (State.completeEntry s md q e).bus = s.bus ∧ (State.completeEntry s md q e).freeTick = s.freeTick := by
  unfold State.completeEntry
  try dsimp only
  (repeat' split) <;> simp

@[simp] theorem State.countEcc_leaves (s : State) (d : TransferDesc) :
    (State.countEcc s d).pending = s.pending ∧ (State.countEcc s d).wall = s.wall ∧ (State.countEcc s d).time = s.time ∧ (State.countEcc s d).board = s.board ∧ (State.countEcc s d).tap = s.tap ∧ (State.countEcc s d).power = s.power ∧ (State.countEcc s d).clocks = s.clocks ∧ (State.countEcc s d).straps = s.straps ∧ (State.countEcc s d).boot = s.boot ∧ (State.countEcc s d).flash = s.flash ∧ (State.countEcc s d).fuses = s.fuses ∧ (State.countEcc s d).security = s.security ∧ (State.countEcc s d).models = s.models ∧ (State.countEcc s d).faultyEdges = s.faultyEdges ∧ (State.countEcc s d).feeders = s.feeders ∧ (State.countEcc s d).ports = s.ports ∧ (State.countEcc s d).smbOffset = s.smbOffset ∧ (State.countEcc s d).owner = s.owner ∧ (State.countEcc s d).fabricSeq = s.fabricSeq ∧ (State.countEcc s d).mbxTurn = s.mbxTurn ∧ (State.countEcc s d).turns = s.turns ∧ (State.countEcc s d).accepted = s.accepted ∧ (State.countEcc s d).bus = s.bus := by
  unfold State.countEcc
  try dsimp only
  (repeat' split) <;> simp

@[simp] theorem State.landShort_leaves (s : State) (t : Transfer) (status landed : Nat) :
    (State.landShort s t status landed).1.pending = s.pending ∧ (State.landShort s t status landed).1.wall = s.wall ∧ (State.landShort s t status landed).1.time = s.time ∧ (State.landShort s t status landed).1.board = s.board ∧ (State.landShort s t status landed).1.tap = s.tap ∧ (State.landShort s t status landed).1.power = s.power ∧ (State.landShort s t status landed).1.clocks = s.clocks ∧ (State.landShort s t status landed).1.thermal = s.thermal ∧ (State.landShort s t status landed).1.straps = s.straps ∧ (State.landShort s t status landed).1.boot = s.boot ∧ (State.landShort s t status landed).1.flash = s.flash ∧ (State.landShort s t status landed).1.fuses = s.fuses ∧ (State.landShort s t status landed).1.security = s.security ∧ (State.landShort s t status landed).1.models = s.models ∧ (State.landShort s t status landed).1.dies = s.dies ∧ (State.landShort s t status landed).1.faultyEdges = s.faultyEdges ∧ (State.landShort s t status landed).1.feeders = s.feeders ∧ (State.landShort s t status landed).1.lanes = s.lanes ∧ (State.landShort s t status landed).1.guards = s.guards ∧ (State.landShort s t status landed).1.mbx = s.mbx ∧ (State.landShort s t status landed).1.ports = s.ports ∧ (State.landShort s t status landed).1.smbOffset = s.smbOffset ∧ (State.landShort s t status landed).1.alertPending = s.alertPending ∧ (State.landShort s t status landed).1.owner = s.owner ∧ (State.landShort s t status landed).1.log = s.log ∧ (State.landShort s t status landed).1.pcie = s.pcie ∧ (State.landShort s t status landed).1.cxl = s.cxl ∧ (State.landShort s t status landed).1.cascade = s.cascade ∧ (State.landShort s t status landed).1.sessions = s.sessions ∧ (State.landShort s t status landed).1.grants = s.grants ∧ (State.landShort s t status landed).1.fabricSeq = s.fabricSeq ∧ (State.landShort s t status landed).1.mbxTurn = s.mbxTurn ∧ (State.landShort s t status landed).1.turns = s.turns ∧ (State.landShort s t status landed).1.accepted = s.accepted ∧ (State.landShort s t status landed).1.bus = s.bus ∧ (State.landShort s t status landed).1.freeTick = s.freeTick := by
  unfold State.landShort
  try dsimp only
  (repeat' split) <;> simp

@[simp] theorem State.landTransfer_leaves (s : State) (t : Transfer) (badRead : Bool) (landed : Nat) :
    (State.landTransfer s t badRead landed).1.pending = s.pending ∧ (State.landTransfer s t badRead landed).1.wall = s.wall ∧ (State.landTransfer s t badRead landed).1.time = s.time ∧ (State.landTransfer s t badRead landed).1.board = s.board ∧ (State.landTransfer s t badRead landed).1.tap = s.tap ∧ (State.landTransfer s t badRead landed).1.power = s.power ∧ (State.landTransfer s t badRead landed).1.clocks = s.clocks ∧ (State.landTransfer s t badRead landed).1.thermal = s.thermal ∧ (State.landTransfer s t badRead landed).1.straps = s.straps ∧ (State.landTransfer s t badRead landed).1.boot = s.boot ∧ (State.landTransfer s t badRead landed).1.flash = s.flash ∧ (State.landTransfer s t badRead landed).1.fuses = s.fuses ∧ (State.landTransfer s t badRead landed).1.security = s.security ∧ (State.landTransfer s t badRead landed).1.models = s.models ∧ (State.landTransfer s t badRead landed).1.dies = s.dies ∧ (State.landTransfer s t badRead landed).1.faultyEdges = s.faultyEdges ∧ (State.landTransfer s t badRead landed).1.feeders = s.feeders ∧ (State.landTransfer s t badRead landed).1.lanes = s.lanes ∧ (State.landTransfer s t badRead landed).1.guards = s.guards ∧ (State.landTransfer s t badRead landed).1.mbx = s.mbx ∧ (State.landTransfer s t badRead landed).1.ports = s.ports ∧ (State.landTransfer s t badRead landed).1.smbOffset = s.smbOffset ∧ (State.landTransfer s t badRead landed).1.alertPending = s.alertPending ∧ (State.landTransfer s t badRead landed).1.owner = s.owner ∧ (State.landTransfer s t badRead landed).1.log = s.log ∧ (State.landTransfer s t badRead landed).1.pcie = s.pcie ∧ (State.landTransfer s t badRead landed).1.cxl = s.cxl ∧ (State.landTransfer s t badRead landed).1.cascade = s.cascade ∧ (State.landTransfer s t badRead landed).1.sessions = s.sessions ∧ (State.landTransfer s t badRead landed).1.grants = s.grants ∧ (State.landTransfer s t badRead landed).1.fabricSeq = s.fabricSeq ∧ (State.landTransfer s t badRead landed).1.mbxTurn = s.mbxTurn ∧ (State.landTransfer s t badRead landed).1.turns = s.turns ∧ (State.landTransfer s t badRead landed).1.accepted = s.accepted ∧ (State.landTransfer s t badRead landed).1.bus = s.bus ∧ (State.landTransfer s t badRead landed).1.freeTick = s.freeTick := by
  unfold State.landTransfer
  try dsimp only
  (repeat' split) <;> simp

@[simp] theorem State.finishTransfer_leaves (s : State) (md q : Nat) (t : Transfer) (badRead : Bool) (landed : Nat) :
    (State.finishTransfer s md q t badRead landed).pending = s.pending ∧ (State.finishTransfer s md q t badRead landed).wall = s.wall ∧ (State.finishTransfer s md q t badRead landed).time = s.time ∧ (State.finishTransfer s md q t badRead landed).board = s.board ∧ (State.finishTransfer s md q t badRead landed).tap = s.tap ∧ (State.finishTransfer s md q t badRead landed).power = s.power ∧ (State.finishTransfer s md q t badRead landed).clocks = s.clocks ∧ (State.finishTransfer s md q t badRead landed).straps = s.straps ∧ (State.finishTransfer s md q t badRead landed).boot = s.boot ∧ (State.finishTransfer s md q t badRead landed).flash = s.flash ∧ (State.finishTransfer s md q t badRead landed).fuses = s.fuses ∧ (State.finishTransfer s md q t badRead landed).security = s.security ∧ (State.finishTransfer s md q t badRead landed).models = s.models ∧ (State.finishTransfer s md q t badRead landed).faultyEdges = s.faultyEdges ∧ (State.finishTransfer s md q t badRead landed).ports = s.ports ∧ (State.finishTransfer s md q t badRead landed).smbOffset = s.smbOffset ∧ (State.finishTransfer s md q t badRead landed).owner = s.owner ∧ (State.finishTransfer s md q t badRead landed).fabricSeq = s.fabricSeq ∧ (State.finishTransfer s md q t badRead landed).mbxTurn = s.mbxTurn ∧ (State.finishTransfer s md q t badRead landed).turns = s.turns ∧ (State.finishTransfer s md q t badRead landed).accepted = s.accepted ∧ (State.finishTransfer s md q t badRead landed).bus = s.bus := by
  unfold State.finishTransfer
  try dsimp only
  (repeat' split) <;> simp

@[simp] theorem State.landStitch_leaves (s : State) (md q : Nat) (badRead : Bool) (landed : Nat) :
    (State.landStitch s md q badRead landed).pending = s.pending ∧ (State.landStitch s md q badRead landed).wall = s.wall ∧ (State.landStitch s md q badRead landed).time = s.time ∧ (State.landStitch s md q badRead landed).board = s.board ∧ (State.landStitch s md q badRead landed).tap = s.tap ∧ (State.landStitch s md q badRead landed).power = s.power ∧ (State.landStitch s md q badRead landed).clocks = s.clocks ∧ (State.landStitch s md q badRead landed).straps = s.straps ∧ (State.landStitch s md q badRead landed).boot = s.boot ∧ (State.landStitch s md q badRead landed).flash = s.flash ∧ (State.landStitch s md q badRead landed).fuses = s.fuses ∧ (State.landStitch s md q badRead landed).security = s.security ∧ (State.landStitch s md q badRead landed).models = s.models ∧ (State.landStitch s md q badRead landed).faultyEdges = s.faultyEdges ∧ (State.landStitch s md q badRead landed).ports = s.ports ∧ (State.landStitch s md q badRead landed).smbOffset = s.smbOffset ∧ (State.landStitch s md q badRead landed).owner = s.owner ∧ (State.landStitch s md q badRead landed).fabricSeq = s.fabricSeq ∧ (State.landStitch s md q badRead landed).mbxTurn = s.mbxTurn ∧ (State.landStitch s md q badRead landed).turns = s.turns ∧ (State.landStitch s md q badRead landed).accepted = s.accepted ∧ (State.landStitch s md q badRead landed).bus = s.bus := by
  unfold State.landStitch
  try dsimp only
  (repeat' split) <;> simp

@[simp] theorem State.dropHead_leaves (s : State) (md q : Nat) :
    (State.dropHead s md q).pending = s.pending ∧ (State.dropHead s md q).wall = s.wall ∧ (State.dropHead s md q).time = s.time ∧ (State.dropHead s md q).board = s.board ∧ (State.dropHead s md q).tap = s.tap ∧ (State.dropHead s md q).power = s.power ∧ (State.dropHead s md q).clocks = s.clocks ∧ (State.dropHead s md q).thermal = s.thermal ∧ (State.dropHead s md q).straps = s.straps ∧ (State.dropHead s md q).boot = s.boot ∧ (State.dropHead s md q).flash = s.flash ∧ (State.dropHead s md q).fuses = s.fuses ∧ (State.dropHead s md q).security = s.security ∧ (State.dropHead s md q).models = s.models ∧ (State.dropHead s md q).dies = s.dies ∧ (State.dropHead s md q).faultyEdges = s.faultyEdges ∧ (State.dropHead s md q).cores = s.cores ∧ (State.dropHead s md q).memory = s.memory ∧ (State.dropHead s md q).lanes = s.lanes ∧ (State.dropHead s md q).guards = s.guards ∧ (State.dropHead s md q).mbx = s.mbx ∧ (State.dropHead s md q).ports = s.ports ∧ (State.dropHead s md q).smbOffset = s.smbOffset ∧ (State.dropHead s md q).alertPending = s.alertPending ∧ (State.dropHead s md q).owner = s.owner ∧ (State.dropHead s md q).log = s.log ∧ (State.dropHead s md q).pcie = s.pcie ∧ (State.dropHead s md q).cxl = s.cxl ∧ (State.dropHead s md q).cascade = s.cascade ∧ (State.dropHead s md q).sessions = s.sessions ∧ (State.dropHead s md q).grants = s.grants ∧ (State.dropHead s md q).fabricSeq = s.fabricSeq ∧ (State.dropHead s md q).mbxTurn = s.mbxTurn ∧ (State.dropHead s md q).turns = s.turns ∧ (State.dropHead s md q).accepted = s.accepted ∧ (State.dropHead s md q).bus = s.bus ∧ (State.dropHead s md q).freeTick = s.freeTick := by
  unfold State.dropHead
  try dsimp only
  (repeat' split) <;> simp

@[simp] theorem State.cancelTransfer_leaves (s : State) (md q : Nat) (t : Transfer) (landed : Nat) :
    (State.cancelTransfer s md q t landed).pending = s.pending ∧ (State.cancelTransfer s md q t landed).wall = s.wall ∧ (State.cancelTransfer s md q t landed).time = s.time ∧ (State.cancelTransfer s md q t landed).board = s.board ∧ (State.cancelTransfer s md q t landed).tap = s.tap ∧ (State.cancelTransfer s md q t landed).power = s.power ∧ (State.cancelTransfer s md q t landed).clocks = s.clocks ∧ (State.cancelTransfer s md q t landed).thermal = s.thermal ∧ (State.cancelTransfer s md q t landed).straps = s.straps ∧ (State.cancelTransfer s md q t landed).boot = s.boot ∧ (State.cancelTransfer s md q t landed).flash = s.flash ∧ (State.cancelTransfer s md q t landed).fuses = s.fuses ∧ (State.cancelTransfer s md q t landed).security = s.security ∧ (State.cancelTransfer s md q t landed).models = s.models ∧ (State.cancelTransfer s md q t landed).dies = s.dies ∧ (State.cancelTransfer s md q t landed).faultyEdges = s.faultyEdges ∧ (State.cancelTransfer s md q t landed).lanes = s.lanes ∧ (State.cancelTransfer s md q t landed).guards = s.guards ∧ (State.cancelTransfer s md q t landed).mbx = s.mbx ∧ (State.cancelTransfer s md q t landed).ports = s.ports ∧ (State.cancelTransfer s md q t landed).smbOffset = s.smbOffset ∧ (State.cancelTransfer s md q t landed).alertPending = s.alertPending ∧ (State.cancelTransfer s md q t landed).owner = s.owner ∧ (State.cancelTransfer s md q t landed).log = s.log ∧ (State.cancelTransfer s md q t landed).pcie = s.pcie ∧ (State.cancelTransfer s md q t landed).cxl = s.cxl ∧ (State.cancelTransfer s md q t landed).cascade = s.cascade ∧ (State.cancelTransfer s md q t landed).sessions = s.sessions ∧ (State.cancelTransfer s md q t landed).grants = s.grants ∧ (State.cancelTransfer s md q t landed).fabricSeq = s.fabricSeq ∧ (State.cancelTransfer s md q t landed).mbxTurn = s.mbxTurn ∧ (State.cancelTransfer s md q t landed).turns = s.turns ∧ (State.cancelTransfer s md q t landed).accepted = s.accepted ∧ (State.cancelTransfer s md q t landed).bus = s.bus ∧ (State.cancelTransfer s md q t landed).freeTick = s.freeTick := by
  unfold State.cancelTransfer
  try dsimp only
  (repeat' split) <;> simp

/-! ### Video -/

@[simp] theorem State.addPicture_leaves (s : State) (i : Nat) (p : Picture) :
    (State.addPicture s i p).pending = s.pending ∧ (State.addPicture s i p).wall = s.wall ∧ (State.addPicture s i p).time = s.time ∧ (State.addPicture s i p).board = s.board ∧ (State.addPicture s i p).tap = s.tap ∧ (State.addPicture s i p).power = s.power ∧ (State.addPicture s i p).clocks = s.clocks ∧ (State.addPicture s i p).thermal = s.thermal ∧ (State.addPicture s i p).straps = s.straps ∧ (State.addPicture s i p).boot = s.boot ∧ (State.addPicture s i p).flash = s.flash ∧ (State.addPicture s i p).fuses = s.fuses ∧ (State.addPicture s i p).security = s.security ∧ (State.addPicture s i p).models = s.models ∧ (State.addPicture s i p).dies = s.dies ∧ (State.addPicture s i p).faultyEdges = s.faultyEdges ∧ (State.addPicture s i p).cores = s.cores ∧ (State.addPicture s i p).feeders = s.feeders ∧ (State.addPicture s i p).memory = s.memory ∧ (State.addPicture s i p).lanes = s.lanes ∧ (State.addPicture s i p).guards = s.guards ∧ (State.addPicture s i p).mbx = s.mbx ∧ (State.addPicture s i p).ports = s.ports ∧ (State.addPicture s i p).smbOffset = s.smbOffset ∧ (State.addPicture s i p).alertPending = s.alertPending ∧ (State.addPicture s i p).owner = s.owner ∧ (State.addPicture s i p).log = s.log ∧ (State.addPicture s i p).pcie = s.pcie ∧ (State.addPicture s i p).cxl = s.cxl ∧ (State.addPicture s i p).cascade = s.cascade ∧ (State.addPicture s i p).grants = s.grants ∧ (State.addPicture s i p).fabricSeq = s.fabricSeq ∧ (State.addPicture s i p).mbxTurn = s.mbxTurn ∧ (State.addPicture s i p).turns = s.turns ∧ (State.addPicture s i p).bus = s.bus ∧ (State.addPicture s i p).freeTick = s.freeTick := by
  unfold State.addPicture
  try dsimp only
  (repeat' split) <;> simp

@[simp] theorem State.startPhase1_leaves (s : State) (i : Nat) (poc : W32) (loads : List CoreLoad) :
    (State.startPhase1 s i poc loads).pending = s.pending ∧ (State.startPhase1 s i poc loads).wall = s.wall ∧ (State.startPhase1 s i poc loads).time = s.time ∧ (State.startPhase1 s i poc loads).board = s.board ∧ (State.startPhase1 s i poc loads).tap = s.tap ∧ (State.startPhase1 s i poc loads).power = s.power ∧ (State.startPhase1 s i poc loads).clocks = s.clocks ∧ (State.startPhase1 s i poc loads).thermal = s.thermal ∧ (State.startPhase1 s i poc loads).straps = s.straps ∧ (State.startPhase1 s i poc loads).boot = s.boot ∧ (State.startPhase1 s i poc loads).flash = s.flash ∧ (State.startPhase1 s i poc loads).fuses = s.fuses ∧ (State.startPhase1 s i poc loads).security = s.security ∧ (State.startPhase1 s i poc loads).models = s.models ∧ (State.startPhase1 s i poc loads).dies = s.dies ∧ (State.startPhase1 s i poc loads).faultyEdges = s.faultyEdges ∧ (State.startPhase1 s i poc loads).feeders = s.feeders ∧ (State.startPhase1 s i poc loads).memory = s.memory ∧ (State.startPhase1 s i poc loads).lanes = s.lanes ∧ (State.startPhase1 s i poc loads).guards = s.guards ∧ (State.startPhase1 s i poc loads).mbx = s.mbx ∧ (State.startPhase1 s i poc loads).ports = s.ports ∧ (State.startPhase1 s i poc loads).smbOffset = s.smbOffset ∧ (State.startPhase1 s i poc loads).alertPending = s.alertPending ∧ (State.startPhase1 s i poc loads).owner = s.owner ∧ (State.startPhase1 s i poc loads).log = s.log ∧ (State.startPhase1 s i poc loads).pcie = s.pcie ∧ (State.startPhase1 s i poc loads).cxl = s.cxl ∧ (State.startPhase1 s i poc loads).cascade = s.cascade ∧ (State.startPhase1 s i poc loads).grants = s.grants ∧ (State.startPhase1 s i poc loads).fabricSeq = s.fabricSeq ∧ (State.startPhase1 s i poc loads).mbxTurn = s.mbxTurn ∧ (State.startPhase1 s i poc loads).turns = s.turns ∧ (State.startPhase1 s i poc loads).accepted = s.accepted ∧ (State.startPhase1 s i poc loads).bus = s.bus ∧ (State.startPhase1 s i poc loads).freeTick = s.freeTick := by
  unfold State.startPhase1
  try dsimp only
  (repeat' split) <;> simp

@[simp] theorem State.appendStream_leaves (s : State) (i : Nat) (bs : Bytes) :
    (State.appendStream s i bs).pending = s.pending ∧ (State.appendStream s i bs).wall = s.wall ∧ (State.appendStream s i bs).time = s.time ∧ (State.appendStream s i bs).board = s.board ∧ (State.appendStream s i bs).tap = s.tap ∧ (State.appendStream s i bs).power = s.power ∧ (State.appendStream s i bs).clocks = s.clocks ∧ (State.appendStream s i bs).thermal = s.thermal ∧ (State.appendStream s i bs).straps = s.straps ∧ (State.appendStream s i bs).boot = s.boot ∧ (State.appendStream s i bs).flash = s.flash ∧ (State.appendStream s i bs).fuses = s.fuses ∧ (State.appendStream s i bs).security = s.security ∧ (State.appendStream s i bs).models = s.models ∧ (State.appendStream s i bs).dies = s.dies ∧ (State.appendStream s i bs).faultyEdges = s.faultyEdges ∧ (State.appendStream s i bs).cores = s.cores ∧ (State.appendStream s i bs).feeders = s.feeders ∧ (State.appendStream s i bs).lanes = s.lanes ∧ (State.appendStream s i bs).guards = s.guards ∧ (State.appendStream s i bs).mbx = s.mbx ∧ (State.appendStream s i bs).ports = s.ports ∧ (State.appendStream s i bs).smbOffset = s.smbOffset ∧ (State.appendStream s i bs).owner = s.owner ∧ (State.appendStream s i bs).log = s.log ∧ (State.appendStream s i bs).cxl = s.cxl ∧ (State.appendStream s i bs).grants = s.grants ∧ (State.appendStream s i bs).fabricSeq = s.fabricSeq ∧ (State.appendStream s i bs).mbxTurn = s.mbxTurn ∧ (State.appendStream s i bs).turns = s.turns ∧ (State.appendStream s i bs).accepted = s.accepted ∧ (State.appendStream s i bs).bus = s.bus ∧ (State.appendStream s i bs).freeTick = s.freeTick := by
  unfold State.appendStream
  try dsimp only
  (repeat' split) <;> simp

@[simp] theorem State.commitUnit_leaves (s : State) (i : Nat) (poc : W32) (n : Nat) (bs : Bytes) :
    (State.commitUnit s i poc n bs).pending = s.pending ∧ (State.commitUnit s i poc n bs).wall = s.wall ∧ (State.commitUnit s i poc n bs).time = s.time ∧ (State.commitUnit s i poc n bs).board = s.board ∧ (State.commitUnit s i poc n bs).tap = s.tap ∧ (State.commitUnit s i poc n bs).power = s.power ∧ (State.commitUnit s i poc n bs).clocks = s.clocks ∧ (State.commitUnit s i poc n bs).thermal = s.thermal ∧ (State.commitUnit s i poc n bs).straps = s.straps ∧ (State.commitUnit s i poc n bs).boot = s.boot ∧ (State.commitUnit s i poc n bs).flash = s.flash ∧ (State.commitUnit s i poc n bs).fuses = s.fuses ∧ (State.commitUnit s i poc n bs).security = s.security ∧ (State.commitUnit s i poc n bs).models = s.models ∧ (State.commitUnit s i poc n bs).dies = s.dies ∧ (State.commitUnit s i poc n bs).faultyEdges = s.faultyEdges ∧ (State.commitUnit s i poc n bs).cores = s.cores ∧ (State.commitUnit s i poc n bs).feeders = s.feeders ∧ (State.commitUnit s i poc n bs).lanes = s.lanes ∧ (State.commitUnit s i poc n bs).guards = s.guards ∧ (State.commitUnit s i poc n bs).mbx = s.mbx ∧ (State.commitUnit s i poc n bs).ports = s.ports ∧ (State.commitUnit s i poc n bs).smbOffset = s.smbOffset ∧ (State.commitUnit s i poc n bs).owner = s.owner ∧ (State.commitUnit s i poc n bs).log = s.log ∧ (State.commitUnit s i poc n bs).cxl = s.cxl ∧ (State.commitUnit s i poc n bs).grants = s.grants ∧ (State.commitUnit s i poc n bs).fabricSeq = s.fabricSeq ∧ (State.commitUnit s i poc n bs).mbxTurn = s.mbxTurn ∧ (State.commitUnit s i poc n bs).turns = s.turns ∧ (State.commitUnit s i poc n bs).accepted = s.accepted ∧ (State.commitUnit s i poc n bs).bus = s.bus ∧ (State.commitUnit s i poc n bs).freeTick = s.freeTick := by
  unfold State.commitUnit
  try dsimp only
  (repeat' split) <;> simp

@[simp] theorem State.beginPicture_leaves (s : State) (i : Nat) (p : Picture) :
    (State.beginPicture s i p).pending = s.pending ∧ (State.beginPicture s i p).wall = s.wall ∧ (State.beginPicture s i p).time = s.time ∧ (State.beginPicture s i p).board = s.board ∧ (State.beginPicture s i p).tap = s.tap ∧ (State.beginPicture s i p).power = s.power ∧ (State.beginPicture s i p).clocks = s.clocks ∧ (State.beginPicture s i p).thermal = s.thermal ∧ (State.beginPicture s i p).straps = s.straps ∧ (State.beginPicture s i p).boot = s.boot ∧ (State.beginPicture s i p).flash = s.flash ∧ (State.beginPicture s i p).fuses = s.fuses ∧ (State.beginPicture s i p).security = s.security ∧ (State.beginPicture s i p).models = s.models ∧ (State.beginPicture s i p).dies = s.dies ∧ (State.beginPicture s i p).faultyEdges = s.faultyEdges ∧ (State.beginPicture s i p).cores = s.cores ∧ (State.beginPicture s i p).feeders = s.feeders ∧ (State.beginPicture s i p).memory = s.memory ∧ (State.beginPicture s i p).lanes = s.lanes ∧ (State.beginPicture s i p).guards = s.guards ∧ (State.beginPicture s i p).mbx = s.mbx ∧ (State.beginPicture s i p).ports = s.ports ∧ (State.beginPicture s i p).smbOffset = s.smbOffset ∧ (State.beginPicture s i p).alertPending = s.alertPending ∧ (State.beginPicture s i p).owner = s.owner ∧ (State.beginPicture s i p).log = s.log ∧ (State.beginPicture s i p).pcie = s.pcie ∧ (State.beginPicture s i p).cxl = s.cxl ∧ (State.beginPicture s i p).cascade = s.cascade ∧ (State.beginPicture s i p).grants = s.grants ∧ (State.beginPicture s i p).fabricSeq = s.fabricSeq ∧ (State.beginPicture s i p).mbxTurn = s.mbxTurn ∧ (State.beginPicture s i p).turns = s.turns ∧ (State.beginPicture s i p).accepted = s.accepted ∧ (State.beginPicture s i p).bus = s.bus ∧ (State.beginPicture s i p).freeTick = s.freeTick := by
  unfold State.beginPicture
  try dsimp only
  (repeat' split) <;> simp

@[simp] theorem State.writeSlotPlanes_leaves (s : State) (f : SeqFmt) (planes : List Plane) (slot : W32 × List W64 × Nat × Nat) :
    (State.writeSlotPlanes s f planes slot).pending = s.pending ∧ (State.writeSlotPlanes s f planes slot).wall = s.wall ∧ (State.writeSlotPlanes s f planes slot).time = s.time ∧ (State.writeSlotPlanes s f planes slot).board = s.board ∧ (State.writeSlotPlanes s f planes slot).tap = s.tap ∧ (State.writeSlotPlanes s f planes slot).power = s.power ∧ (State.writeSlotPlanes s f planes slot).clocks = s.clocks ∧ (State.writeSlotPlanes s f planes slot).thermal = s.thermal ∧ (State.writeSlotPlanes s f planes slot).straps = s.straps ∧ (State.writeSlotPlanes s f planes slot).boot = s.boot ∧ (State.writeSlotPlanes s f planes slot).flash = s.flash ∧ (State.writeSlotPlanes s f planes slot).fuses = s.fuses ∧ (State.writeSlotPlanes s f planes slot).security = s.security ∧ (State.writeSlotPlanes s f planes slot).models = s.models ∧ (State.writeSlotPlanes s f planes slot).dies = s.dies ∧ (State.writeSlotPlanes s f planes slot).faultyEdges = s.faultyEdges ∧ (State.writeSlotPlanes s f planes slot).feeders = s.feeders ∧ (State.writeSlotPlanes s f planes slot).lanes = s.lanes ∧ (State.writeSlotPlanes s f planes slot).guards = s.guards ∧ (State.writeSlotPlanes s f planes slot).mbx = s.mbx ∧ (State.writeSlotPlanes s f planes slot).ports = s.ports ∧ (State.writeSlotPlanes s f planes slot).smbOffset = s.smbOffset ∧ (State.writeSlotPlanes s f planes slot).alertPending = s.alertPending ∧ (State.writeSlotPlanes s f planes slot).owner = s.owner ∧ (State.writeSlotPlanes s f planes slot).log = s.log ∧ (State.writeSlotPlanes s f planes slot).pcie = s.pcie ∧ (State.writeSlotPlanes s f planes slot).cxl = s.cxl ∧ (State.writeSlotPlanes s f planes slot).cascade = s.cascade ∧ (State.writeSlotPlanes s f planes slot).sessions = s.sessions ∧ (State.writeSlotPlanes s f planes slot).grants = s.grants ∧ (State.writeSlotPlanes s f planes slot).fabricSeq = s.fabricSeq ∧ (State.writeSlotPlanes s f planes slot).mbxTurn = s.mbxTurn ∧ (State.writeSlotPlanes s f planes slot).turns = s.turns ∧ (State.writeSlotPlanes s f planes slot).accepted = s.accepted ∧ (State.writeSlotPlanes s f planes slot).bus = s.bus ∧ (State.writeSlotPlanes s f planes slot).freeTick = s.freeTick := by
  unfold State.writeSlotPlanes
  try dsimp only
  (repeat' split) <;> simp

@[simp] theorem State.outputPicture_leaves (s : State) (i : Nat) (planes : List Plane) :
    (State.outputPicture s i planes).pending = s.pending ∧ (State.outputPicture s i planes).wall = s.wall ∧ (State.outputPicture s i planes).time = s.time ∧ (State.outputPicture s i planes).board = s.board ∧ (State.outputPicture s i planes).tap = s.tap ∧ (State.outputPicture s i planes).power = s.power ∧ (State.outputPicture s i planes).clocks = s.clocks ∧ (State.outputPicture s i planes).thermal = s.thermal ∧ (State.outputPicture s i planes).straps = s.straps ∧ (State.outputPicture s i planes).boot = s.boot ∧ (State.outputPicture s i planes).flash = s.flash ∧ (State.outputPicture s i planes).fuses = s.fuses ∧ (State.outputPicture s i planes).security = s.security ∧ (State.outputPicture s i planes).models = s.models ∧ (State.outputPicture s i planes).dies = s.dies ∧ (State.outputPicture s i planes).faultyEdges = s.faultyEdges ∧ (State.outputPicture s i planes).feeders = s.feeders ∧ (State.outputPicture s i planes).lanes = s.lanes ∧ (State.outputPicture s i planes).guards = s.guards ∧ (State.outputPicture s i planes).mbx = s.mbx ∧ (State.outputPicture s i planes).ports = s.ports ∧ (State.outputPicture s i planes).smbOffset = s.smbOffset ∧ (State.outputPicture s i planes).alertPending = s.alertPending ∧ (State.outputPicture s i planes).owner = s.owner ∧ (State.outputPicture s i planes).log = s.log ∧ (State.outputPicture s i planes).pcie = s.pcie ∧ (State.outputPicture s i planes).cxl = s.cxl ∧ (State.outputPicture s i planes).cascade = s.cascade ∧ (State.outputPicture s i planes).grants = s.grants ∧ (State.outputPicture s i planes).fabricSeq = s.fabricSeq ∧ (State.outputPicture s i planes).mbxTurn = s.mbxTurn ∧ (State.outputPicture s i planes).turns = s.turns ∧ (State.outputPicture s i planes).accepted = s.accepted ∧ (State.outputPicture s i planes).bus = s.bus ∧ (State.outputPicture s i planes).freeTick = s.freeTick := by
  unfold State.outputPicture
  try dsimp only
  (repeat' split) <;> simp

@[simp] theorem State.reportMarks_leaves (s : State) (i : Nat) (p : Picture) (missing : List Mark) :
    (State.reportMarks s i p missing).pending = s.pending ∧ (State.reportMarks s i p missing).wall = s.wall ∧ (State.reportMarks s i p missing).time = s.time ∧ (State.reportMarks s i p missing).board = s.board ∧ (State.reportMarks s i p missing).tap = s.tap ∧ (State.reportMarks s i p missing).power = s.power ∧ (State.reportMarks s i p missing).clocks = s.clocks ∧ (State.reportMarks s i p missing).thermal = s.thermal ∧ (State.reportMarks s i p missing).straps = s.straps ∧ (State.reportMarks s i p missing).boot = s.boot ∧ (State.reportMarks s i p missing).flash = s.flash ∧ (State.reportMarks s i p missing).fuses = s.fuses ∧ (State.reportMarks s i p missing).security = s.security ∧ (State.reportMarks s i p missing).models = s.models ∧ (State.reportMarks s i p missing).faultyEdges = s.faultyEdges ∧ (State.reportMarks s i p missing).cores = s.cores ∧ (State.reportMarks s i p missing).feeders = s.feeders ∧ (State.reportMarks s i p missing).lanes = s.lanes ∧ (State.reportMarks s i p missing).guards = s.guards ∧ (State.reportMarks s i p missing).mbx = s.mbx ∧ (State.reportMarks s i p missing).ports = s.ports ∧ (State.reportMarks s i p missing).smbOffset = s.smbOffset ∧ (State.reportMarks s i p missing).owner = s.owner ∧ (State.reportMarks s i p missing).cxl = s.cxl ∧ (State.reportMarks s i p missing).grants = s.grants ∧ (State.reportMarks s i p missing).fabricSeq = s.fabricSeq ∧ (State.reportMarks s i p missing).mbxTurn = s.mbxTurn ∧ (State.reportMarks s i p missing).turns = s.turns ∧ (State.reportMarks s i p missing).accepted = s.accepted ∧ (State.reportMarks s i p missing).bus = s.bus ∧ (State.reportMarks s i p missing).freeTick = s.freeTick := by
  unfold State.reportMarks
  try dsimp only
  (repeat' split) <;> simp

@[simp] theorem State.afterPicture_leaves (s : State) (i : Nat) (p : Picture) (recon : List Plane) (libIndex : Option Nat) :
    (State.afterPicture s i p recon libIndex).pending = s.pending ∧ (State.afterPicture s i p recon libIndex).wall = s.wall ∧ (State.afterPicture s i p recon libIndex).time = s.time ∧ (State.afterPicture s i p recon libIndex).board = s.board ∧ (State.afterPicture s i p recon libIndex).tap = s.tap ∧ (State.afterPicture s i p recon libIndex).power = s.power ∧ (State.afterPicture s i p recon libIndex).clocks = s.clocks ∧ (State.afterPicture s i p recon libIndex).thermal = s.thermal ∧ (State.afterPicture s i p recon libIndex).straps = s.straps ∧ (State.afterPicture s i p recon libIndex).boot = s.boot ∧ (State.afterPicture s i p recon libIndex).flash = s.flash ∧ (State.afterPicture s i p recon libIndex).fuses = s.fuses ∧ (State.afterPicture s i p recon libIndex).security = s.security ∧ (State.afterPicture s i p recon libIndex).models = s.models ∧ (State.afterPicture s i p recon libIndex).dies = s.dies ∧ (State.afterPicture s i p recon libIndex).faultyEdges = s.faultyEdges ∧ (State.afterPicture s i p recon libIndex).cores = s.cores ∧ (State.afterPicture s i p recon libIndex).feeders = s.feeders ∧ (State.afterPicture s i p recon libIndex).lanes = s.lanes ∧ (State.afterPicture s i p recon libIndex).guards = s.guards ∧ (State.afterPicture s i p recon libIndex).mbx = s.mbx ∧ (State.afterPicture s i p recon libIndex).ports = s.ports ∧ (State.afterPicture s i p recon libIndex).smbOffset = s.smbOffset ∧ (State.afterPicture s i p recon libIndex).owner = s.owner ∧ (State.afterPicture s i p recon libIndex).log = s.log ∧ (State.afterPicture s i p recon libIndex).cxl = s.cxl ∧ (State.afterPicture s i p recon libIndex).grants = s.grants ∧ (State.afterPicture s i p recon libIndex).fabricSeq = s.fabricSeq ∧ (State.afterPicture s i p recon libIndex).mbxTurn = s.mbxTurn ∧ (State.afterPicture s i p recon libIndex).turns = s.turns ∧ (State.afterPicture s i p recon libIndex).accepted = s.accepted ∧ (State.afterPicture s i p recon libIndex).bus = s.bus ∧ (State.afterPicture s i p recon libIndex).freeTick = s.freeTick := by
  unfold State.afterPicture
  try dsimp only
  (repeat' split) <;> simp

@[simp] theorem State.finishPicture_leaves (s : State) (i : Nat) (p : Picture) (recon : List Plane) (carry : List (List (List W16))) (trouble : Bool) :
    (State.finishPicture s i p recon carry trouble).pending = s.pending ∧ (State.finishPicture s i p recon carry trouble).wall = s.wall ∧ (State.finishPicture s i p recon carry trouble).time = s.time ∧ (State.finishPicture s i p recon carry trouble).board = s.board ∧ (State.finishPicture s i p recon carry trouble).tap = s.tap ∧ (State.finishPicture s i p recon carry trouble).power = s.power ∧ (State.finishPicture s i p recon carry trouble).clocks = s.clocks ∧ (State.finishPicture s i p recon carry trouble).thermal = s.thermal ∧ (State.finishPicture s i p recon carry trouble).straps = s.straps ∧ (State.finishPicture s i p recon carry trouble).boot = s.boot ∧ (State.finishPicture s i p recon carry trouble).flash = s.flash ∧ (State.finishPicture s i p recon carry trouble).fuses = s.fuses ∧ (State.finishPicture s i p recon carry trouble).security = s.security ∧ (State.finishPicture s i p recon carry trouble).models = s.models ∧ (State.finishPicture s i p recon carry trouble).faultyEdges = s.faultyEdges ∧ (State.finishPicture s i p recon carry trouble).feeders = s.feeders ∧ (State.finishPicture s i p recon carry trouble).lanes = s.lanes ∧ (State.finishPicture s i p recon carry trouble).guards = s.guards ∧ (State.finishPicture s i p recon carry trouble).mbx = s.mbx ∧ (State.finishPicture s i p recon carry trouble).ports = s.ports ∧ (State.finishPicture s i p recon carry trouble).smbOffset = s.smbOffset ∧ (State.finishPicture s i p recon carry trouble).owner = s.owner ∧ (State.finishPicture s i p recon carry trouble).cxl = s.cxl ∧ (State.finishPicture s i p recon carry trouble).grants = s.grants ∧ (State.finishPicture s i p recon carry trouble).fabricSeq = s.fabricSeq ∧ (State.finishPicture s i p recon carry trouble).mbxTurn = s.mbxTurn ∧ (State.finishPicture s i p recon carry trouble).turns = s.turns ∧ (State.finishPicture s i p recon carry trouble).accepted = s.accepted ∧ (State.finishPicture s i p recon carry trouble).bus = s.bus ∧ (State.finishPicture s i p recon carry trouble).freeTick = s.freeTick := by
  unfold State.finishPicture
  try dsimp only
  (repeat' split) <;> simp

@[simp] theorem State.collectCores_leaves (s : State) (i : Nat) :
    (State.collectCores s i).pending = s.pending ∧ (State.collectCores s i).wall = s.wall ∧ (State.collectCores s i).time = s.time ∧ (State.collectCores s i).board = s.board ∧ (State.collectCores s i).tap = s.tap ∧ (State.collectCores s i).power = s.power ∧ (State.collectCores s i).clocks = s.clocks ∧ (State.collectCores s i).thermal = s.thermal ∧ (State.collectCores s i).straps = s.straps ∧ (State.collectCores s i).boot = s.boot ∧ (State.collectCores s i).flash = s.flash ∧ (State.collectCores s i).fuses = s.fuses ∧ (State.collectCores s i).security = s.security ∧ (State.collectCores s i).models = s.models ∧ (State.collectCores s i).faultyEdges = s.faultyEdges ∧ (State.collectCores s i).feeders = s.feeders ∧ (State.collectCores s i).memory = s.memory ∧ (State.collectCores s i).lanes = s.lanes ∧ (State.collectCores s i).guards = s.guards ∧ (State.collectCores s i).mbx = s.mbx ∧ (State.collectCores s i).ports = s.ports ∧ (State.collectCores s i).smbOffset = s.smbOffset ∧ (State.collectCores s i).alertPending = s.alertPending ∧ (State.collectCores s i).owner = s.owner ∧ (State.collectCores s i).pcie = s.pcie ∧ (State.collectCores s i).cxl = s.cxl ∧ (State.collectCores s i).cascade = s.cascade ∧ (State.collectCores s i).grants = s.grants ∧ (State.collectCores s i).fabricSeq = s.fabricSeq ∧ (State.collectCores s i).mbxTurn = s.mbxTurn ∧ (State.collectCores s i).turns = s.turns ∧ (State.collectCores s i).accepted = s.accepted ∧ (State.collectCores s i).bus = s.bus ∧ (State.collectCores s i).freeTick = s.freeTick := by
  unfold State.collectCores
  try dsimp only
  (repeat' split) <;> simp

@[simp] theorem State.reportWriteFail_leaves (s : State) (i index : Nat) :
    (State.reportWriteFail s i index).pending = s.pending ∧ (State.reportWriteFail s i index).wall = s.wall ∧ (State.reportWriteFail s i index).time = s.time ∧ (State.reportWriteFail s i index).board = s.board ∧ (State.reportWriteFail s i index).tap = s.tap ∧ (State.reportWriteFail s i index).power = s.power ∧ (State.reportWriteFail s i index).clocks = s.clocks ∧ (State.reportWriteFail s i index).thermal = s.thermal ∧ (State.reportWriteFail s i index).straps = s.straps ∧ (State.reportWriteFail s i index).boot = s.boot ∧ (State.reportWriteFail s i index).flash = s.flash ∧ (State.reportWriteFail s i index).fuses = s.fuses ∧ (State.reportWriteFail s i index).security = s.security ∧ (State.reportWriteFail s i index).models = s.models ∧ (State.reportWriteFail s i index).faultyEdges = s.faultyEdges ∧ (State.reportWriteFail s i index).cores = s.cores ∧ (State.reportWriteFail s i index).feeders = s.feeders ∧ (State.reportWriteFail s i index).lanes = s.lanes ∧ (State.reportWriteFail s i index).guards = s.guards ∧ (State.reportWriteFail s i index).mbx = s.mbx ∧ (State.reportWriteFail s i index).ports = s.ports ∧ (State.reportWriteFail s i index).smbOffset = s.smbOffset ∧ (State.reportWriteFail s i index).owner = s.owner ∧ (State.reportWriteFail s i index).cxl = s.cxl ∧ (State.reportWriteFail s i index).grants = s.grants ∧ (State.reportWriteFail s i index).fabricSeq = s.fabricSeq ∧ (State.reportWriteFail s i index).mbxTurn = s.mbxTurn ∧ (State.reportWriteFail s i index).turns = s.turns ∧ (State.reportWriteFail s i index).accepted = s.accepted ∧ (State.reportWriteFail s i index).bus = s.bus ∧ (State.reportWriteFail s i index).freeTick = s.freeTick := by
  unfold State.reportWriteFail
  try dsimp only
  (repeat' split) <;> simp

/-! ### Tutik -/

@[simp] theorem State.updDec_leaves (s : State) (i : Nat) (f : Decoder → Decoder) :
    (State.updDec s i f).pending = s.pending ∧ (State.updDec s i f).wall = s.wall ∧ (State.updDec s i f).time = s.time ∧ (State.updDec s i f).board = s.board ∧ (State.updDec s i f).tap = s.tap ∧ (State.updDec s i f).power = s.power ∧ (State.updDec s i f).clocks = s.clocks ∧ (State.updDec s i f).thermal = s.thermal ∧ (State.updDec s i f).straps = s.straps ∧ (State.updDec s i f).boot = s.boot ∧ (State.updDec s i f).flash = s.flash ∧ (State.updDec s i f).fuses = s.fuses ∧ (State.updDec s i f).security = s.security ∧ (State.updDec s i f).models = s.models ∧ (State.updDec s i f).dies = s.dies ∧ (State.updDec s i f).faultyEdges = s.faultyEdges ∧ (State.updDec s i f).cores = s.cores ∧ (State.updDec s i f).feeders = s.feeders ∧ (State.updDec s i f).memory = s.memory ∧ (State.updDec s i f).lanes = s.lanes ∧ (State.updDec s i f).guards = s.guards ∧ (State.updDec s i f).mbx = s.mbx ∧ (State.updDec s i f).ports = s.ports ∧ (State.updDec s i f).smbOffset = s.smbOffset ∧ (State.updDec s i f).alertPending = s.alertPending ∧ (State.updDec s i f).owner = s.owner ∧ (State.updDec s i f).log = s.log ∧ (State.updDec s i f).pcie = s.pcie ∧ (State.updDec s i f).cxl = s.cxl ∧ (State.updDec s i f).cascade = s.cascade ∧ (State.updDec s i f).grants = s.grants ∧ (State.updDec s i f).fabricSeq = s.fabricSeq ∧ (State.updDec s i f).mbxTurn = s.mbxTurn ∧ (State.updDec s i f).turns = s.turns ∧ (State.updDec s i f).accepted = s.accepted ∧ (State.updDec s i f).bus = s.bus ∧ (State.updDec s i f).freeTick = s.freeTick := by
  unfold State.updDec
  try dsimp only
  (repeat' split) <;> simp

@[simp] theorem State.dropPicture_leaves (s : State) (i : Nat) (poc : W32) (r : Report) :
    (State.dropPicture s i poc r).pending = s.pending ∧ (State.dropPicture s i poc r).wall = s.wall ∧ (State.dropPicture s i poc r).time = s.time ∧ (State.dropPicture s i poc r).board = s.board ∧ (State.dropPicture s i poc r).tap = s.tap ∧ (State.dropPicture s i poc r).power = s.power ∧ (State.dropPicture s i poc r).clocks = s.clocks ∧ (State.dropPicture s i poc r).thermal = s.thermal ∧ (State.dropPicture s i poc r).straps = s.straps ∧ (State.dropPicture s i poc r).boot = s.boot ∧ (State.dropPicture s i poc r).flash = s.flash ∧ (State.dropPicture s i poc r).fuses = s.fuses ∧ (State.dropPicture s i poc r).security = s.security ∧ (State.dropPicture s i poc r).models = s.models ∧ (State.dropPicture s i poc r).faultyEdges = s.faultyEdges ∧ (State.dropPicture s i poc r).cores = s.cores ∧ (State.dropPicture s i poc r).feeders = s.feeders ∧ (State.dropPicture s i poc r).lanes = s.lanes ∧ (State.dropPicture s i poc r).guards = s.guards ∧ (State.dropPicture s i poc r).mbx = s.mbx ∧ (State.dropPicture s i poc r).ports = s.ports ∧ (State.dropPicture s i poc r).smbOffset = s.smbOffset ∧ (State.dropPicture s i poc r).owner = s.owner ∧ (State.dropPicture s i poc r).cxl = s.cxl ∧ (State.dropPicture s i poc r).fabricSeq = s.fabricSeq ∧ (State.dropPicture s i poc r).mbxTurn = s.mbxTurn ∧ (State.dropPicture s i poc r).turns = s.turns ∧ (State.dropPicture s i poc r).accepted = s.accepted ∧ (State.dropPicture s i poc r).bus = s.bus ∧ (State.dropPicture s i poc r).freeTick = s.freeTick := by
  unfold State.dropPicture
  try dsimp only
  (repeat' split) <;> simp

@[simp] theorem State.concealRows_leaves (s : State) (i : Nat) (poc : W32) (row n : Nat) :
    (State.concealRows s i poc row n).pending = s.pending ∧ (State.concealRows s i poc row n).wall = s.wall ∧ (State.concealRows s i poc row n).time = s.time ∧ (State.concealRows s i poc row n).board = s.board ∧ (State.concealRows s i poc row n).tap = s.tap ∧ (State.concealRows s i poc row n).power = s.power ∧ (State.concealRows s i poc row n).clocks = s.clocks ∧ (State.concealRows s i poc row n).thermal = s.thermal ∧ (State.concealRows s i poc row n).straps = s.straps ∧ (State.concealRows s i poc row n).boot = s.boot ∧ (State.concealRows s i poc row n).flash = s.flash ∧ (State.concealRows s i poc row n).fuses = s.fuses ∧ (State.concealRows s i poc row n).security = s.security ∧ (State.concealRows s i poc row n).models = s.models ∧ (State.concealRows s i poc row n).dies = s.dies ∧ (State.concealRows s i poc row n).faultyEdges = s.faultyEdges ∧ (State.concealRows s i poc row n).cores = s.cores ∧ (State.concealRows s i poc row n).feeders = s.feeders ∧ (State.concealRows s i poc row n).memory = s.memory ∧ (State.concealRows s i poc row n).lanes = s.lanes ∧ (State.concealRows s i poc row n).guards = s.guards ∧ (State.concealRows s i poc row n).mbx = s.mbx ∧ (State.concealRows s i poc row n).ports = s.ports ∧ (State.concealRows s i poc row n).smbOffset = s.smbOffset ∧ (State.concealRows s i poc row n).alertPending = s.alertPending ∧ (State.concealRows s i poc row n).owner = s.owner ∧ (State.concealRows s i poc row n).log = s.log ∧ (State.concealRows s i poc row n).pcie = s.pcie ∧ (State.concealRows s i poc row n).cxl = s.cxl ∧ (State.concealRows s i poc row n).grants = s.grants ∧ (State.concealRows s i poc row n).fabricSeq = s.fabricSeq ∧ (State.concealRows s i poc row n).mbxTurn = s.mbxTurn ∧ (State.concealRows s i poc row n).turns = s.turns ∧ (State.concealRows s i poc row n).accepted = s.accepted ∧ (State.concealRows s i poc row n).bus = s.bus ∧ (State.concealRows s i poc row n).freeTick = s.freeTick := by
  unfold State.concealRows
  try dsimp only
  (repeat' split) <;> simp

@[simp] theorem State.truncateGroup_leaves (s : State) (i : Nat) (tag : W32) (offset : Nat) :
    (State.truncateGroup s i tag offset).pending = s.pending ∧ (State.truncateGroup s i tag offset).wall = s.wall ∧ (State.truncateGroup s i tag offset).time = s.time ∧ (State.truncateGroup s i tag offset).board = s.board ∧ (State.truncateGroup s i tag offset).tap = s.tap ∧ (State.truncateGroup s i tag offset).power = s.power ∧ (State.truncateGroup s i tag offset).clocks = s.clocks ∧ (State.truncateGroup s i tag offset).thermal = s.thermal ∧ (State.truncateGroup s i tag offset).straps = s.straps ∧ (State.truncateGroup s i tag offset).boot = s.boot ∧ (State.truncateGroup s i tag offset).flash = s.flash ∧ (State.truncateGroup s i tag offset).fuses = s.fuses ∧ (State.truncateGroup s i tag offset).security = s.security ∧ (State.truncateGroup s i tag offset).models = s.models ∧ (State.truncateGroup s i tag offset).faultyEdges = s.faultyEdges ∧ (State.truncateGroup s i tag offset).cores = s.cores ∧ (State.truncateGroup s i tag offset).feeders = s.feeders ∧ (State.truncateGroup s i tag offset).lanes = s.lanes ∧ (State.truncateGroup s i tag offset).guards = s.guards ∧ (State.truncateGroup s i tag offset).mbx = s.mbx ∧ (State.truncateGroup s i tag offset).ports = s.ports ∧ (State.truncateGroup s i tag offset).smbOffset = s.smbOffset ∧ (State.truncateGroup s i tag offset).owner = s.owner ∧ (State.truncateGroup s i tag offset).cxl = s.cxl ∧ (State.truncateGroup s i tag offset).fabricSeq = s.fabricSeq ∧ (State.truncateGroup s i tag offset).mbxTurn = s.mbxTurn ∧ (State.truncateGroup s i tag offset).turns = s.turns ∧ (State.truncateGroup s i tag offset).accepted = s.accepted ∧ (State.truncateGroup s i tag offset).bus = s.bus ∧ (State.truncateGroup s i tag offset).freeTick = s.freeTick := by
  unfold State.truncateGroup
  try dsimp only
  (repeat' split) <;> simp

@[simp] theorem State.concealWhole_leaves (s : State) (i : Nat) (p : Picture) :
    (State.concealWhole s i p).pending = s.pending ∧ (State.concealWhole s i p).wall = s.wall ∧ (State.concealWhole s i p).time = s.time ∧ (State.concealWhole s i p).board = s.board ∧ (State.concealWhole s i p).tap = s.tap ∧ (State.concealWhole s i p).power = s.power ∧ (State.concealWhole s i p).clocks = s.clocks ∧ (State.concealWhole s i p).thermal = s.thermal ∧ (State.concealWhole s i p).straps = s.straps ∧ (State.concealWhole s i p).boot = s.boot ∧ (State.concealWhole s i p).flash = s.flash ∧ (State.concealWhole s i p).fuses = s.fuses ∧ (State.concealWhole s i p).security = s.security ∧ (State.concealWhole s i p).models = s.models ∧ (State.concealWhole s i p).faultyEdges = s.faultyEdges ∧ (State.concealWhole s i p).feeders = s.feeders ∧ (State.concealWhole s i p).lanes = s.lanes ∧ (State.concealWhole s i p).guards = s.guards ∧ (State.concealWhole s i p).mbx = s.mbx ∧ (State.concealWhole s i p).ports = s.ports ∧ (State.concealWhole s i p).smbOffset = s.smbOffset ∧ (State.concealWhole s i p).owner = s.owner ∧ (State.concealWhole s i p).cxl = s.cxl ∧ (State.concealWhole s i p).grants = s.grants ∧ (State.concealWhole s i p).fabricSeq = s.fabricSeq ∧ (State.concealWhole s i p).mbxTurn = s.mbxTurn ∧ (State.concealWhole s i p).turns = s.turns ∧ (State.concealWhole s i p).accepted = s.accepted ∧ (State.concealWhole s i p).bus = s.bus ∧ (State.concealWhole s i p).freeTick = s.freeTick := by
  unfold State.concealWhole
  try dsimp only
  (repeat' split) <;> simp

@[simp] theorem State.settleLost_leaves (s : State) (i : Nat) :
    (State.settleLost s i).pending = s.pending ∧ (State.settleLost s i).wall = s.wall ∧ (State.settleLost s i).time = s.time ∧ (State.settleLost s i).board = s.board ∧ (State.settleLost s i).tap = s.tap ∧ (State.settleLost s i).power = s.power ∧ (State.settleLost s i).clocks = s.clocks ∧ (State.settleLost s i).thermal = s.thermal ∧ (State.settleLost s i).straps = s.straps ∧ (State.settleLost s i).boot = s.boot ∧ (State.settleLost s i).flash = s.flash ∧ (State.settleLost s i).fuses = s.fuses ∧ (State.settleLost s i).security = s.security ∧ (State.settleLost s i).models = s.models ∧ (State.settleLost s i).faultyEdges = s.faultyEdges ∧ (State.settleLost s i).feeders = s.feeders ∧ (State.settleLost s i).lanes = s.lanes ∧ (State.settleLost s i).guards = s.guards ∧ (State.settleLost s i).mbx = s.mbx ∧ (State.settleLost s i).ports = s.ports ∧ (State.settleLost s i).smbOffset = s.smbOffset ∧ (State.settleLost s i).owner = s.owner ∧ (State.settleLost s i).cxl = s.cxl ∧ (State.settleLost s i).grants = s.grants ∧ (State.settleLost s i).fabricSeq = s.fabricSeq ∧ (State.settleLost s i).mbxTurn = s.mbxTurn ∧ (State.settleLost s i).turns = s.turns ∧ (State.settleLost s i).accepted = s.accepted ∧ (State.settleLost s i).bus = s.bus ∧ (State.settleLost s i).freeTick = s.freeTick := by
  unfold State.settleLost
  try dsimp only
  (repeat' split) <;> simp

@[simp] theorem State.settleEnd_leaves (s : State) (i : Nat) :
    (State.settleEnd s i).pending = s.pending ∧ (State.settleEnd s i).wall = s.wall ∧ (State.settleEnd s i).time = s.time ∧ (State.settleEnd s i).board = s.board ∧ (State.settleEnd s i).tap = s.tap ∧ (State.settleEnd s i).power = s.power ∧ (State.settleEnd s i).clocks = s.clocks ∧ (State.settleEnd s i).thermal = s.thermal ∧ (State.settleEnd s i).straps = s.straps ∧ (State.settleEnd s i).boot = s.boot ∧ (State.settleEnd s i).flash = s.flash ∧ (State.settleEnd s i).fuses = s.fuses ∧ (State.settleEnd s i).security = s.security ∧ (State.settleEnd s i).models = s.models ∧ (State.settleEnd s i).faultyEdges = s.faultyEdges ∧ (State.settleEnd s i).cores = s.cores ∧ (State.settleEnd s i).feeders = s.feeders ∧ (State.settleEnd s i).lanes = s.lanes ∧ (State.settleEnd s i).guards = s.guards ∧ (State.settleEnd s i).mbx = s.mbx ∧ (State.settleEnd s i).ports = s.ports ∧ (State.settleEnd s i).smbOffset = s.smbOffset ∧ (State.settleEnd s i).owner = s.owner ∧ (State.settleEnd s i).cxl = s.cxl ∧ (State.settleEnd s i).fabricSeq = s.fabricSeq ∧ (State.settleEnd s i).mbxTurn = s.mbxTurn ∧ (State.settleEnd s i).turns = s.turns ∧ (State.settleEnd s i).accepted = s.accepted ∧ (State.settleEnd s i).bus = s.bus ∧ (State.settleEnd s i).freeTick = s.freeTick := by
  unfold State.settleEnd
  try dsimp only
  (repeat' split) <;> simp

@[simp] theorem State.settleNeed_leaves (s : State) (i : Nat) :
    (State.settleNeed s i).pending = s.pending ∧ (State.settleNeed s i).wall = s.wall ∧ (State.settleNeed s i).time = s.time ∧ (State.settleNeed s i).board = s.board ∧ (State.settleNeed s i).tap = s.tap ∧ (State.settleNeed s i).power = s.power ∧ (State.settleNeed s i).clocks = s.clocks ∧ (State.settleNeed s i).thermal = s.thermal ∧ (State.settleNeed s i).straps = s.straps ∧ (State.settleNeed s i).boot = s.boot ∧ (State.settleNeed s i).flash = s.flash ∧ (State.settleNeed s i).fuses = s.fuses ∧ (State.settleNeed s i).security = s.security ∧ (State.settleNeed s i).models = s.models ∧ (State.settleNeed s i).dies = s.dies ∧ (State.settleNeed s i).faultyEdges = s.faultyEdges ∧ (State.settleNeed s i).cores = s.cores ∧ (State.settleNeed s i).feeders = s.feeders ∧ (State.settleNeed s i).memory = s.memory ∧ (State.settleNeed s i).lanes = s.lanes ∧ (State.settleNeed s i).guards = s.guards ∧ (State.settleNeed s i).mbx = s.mbx ∧ (State.settleNeed s i).ports = s.ports ∧ (State.settleNeed s i).smbOffset = s.smbOffset ∧ (State.settleNeed s i).alertPending = s.alertPending ∧ (State.settleNeed s i).owner = s.owner ∧ (State.settleNeed s i).log = s.log ∧ (State.settleNeed s i).pcie = s.pcie ∧ (State.settleNeed s i).cxl = s.cxl ∧ (State.settleNeed s i).cascade = s.cascade ∧ (State.settleNeed s i).fabricSeq = s.fabricSeq ∧ (State.settleNeed s i).mbxTurn = s.mbxTurn ∧ (State.settleNeed s i).turns = s.turns ∧ (State.settleNeed s i).accepted = s.accepted ∧ (State.settleNeed s i).bus = s.bus ∧ (State.settleNeed s i).freeTick = s.freeTick := by
  unfold State.settleNeed
  try dsimp only
  (repeat' split) <;> simp

@[simp] theorem State.settleDecode_leaves (s : State) (i : Nat) :
    (State.settleDecode s i).pending = s.pending ∧ (State.settleDecode s i).wall = s.wall ∧ (State.settleDecode s i).time = s.time ∧ (State.settleDecode s i).board = s.board ∧ (State.settleDecode s i).tap = s.tap ∧ (State.settleDecode s i).power = s.power ∧ (State.settleDecode s i).clocks = s.clocks ∧ (State.settleDecode s i).thermal = s.thermal ∧ (State.settleDecode s i).straps = s.straps ∧ (State.settleDecode s i).boot = s.boot ∧ (State.settleDecode s i).flash = s.flash ∧ (State.settleDecode s i).fuses = s.fuses ∧ (State.settleDecode s i).security = s.security ∧ (State.settleDecode s i).models = s.models ∧ (State.settleDecode s i).faultyEdges = s.faultyEdges ∧ (State.settleDecode s i).feeders = s.feeders ∧ (State.settleDecode s i).lanes = s.lanes ∧ (State.settleDecode s i).guards = s.guards ∧ (State.settleDecode s i).mbx = s.mbx ∧ (State.settleDecode s i).ports = s.ports ∧ (State.settleDecode s i).smbOffset = s.smbOffset ∧ (State.settleDecode s i).owner = s.owner ∧ (State.settleDecode s i).cxl = s.cxl ∧ (State.settleDecode s i).fabricSeq = s.fabricSeq ∧ (State.settleDecode s i).mbxTurn = s.mbxTurn ∧ (State.settleDecode s i).turns = s.turns ∧ (State.settleDecode s i).accepted = s.accepted ∧ (State.settleDecode s i).bus = s.bus ∧ (State.settleDecode s i).freeTick = s.freeTick := by
  unfold State.settleDecode
  try dsimp only
  (repeat' split) <;> simp

@[simp] theorem State.takeUnit_leaves (s : State) (i : Nat) (u : NextUnit) :
    (State.takeUnit s i u).pending = s.pending ∧ (State.takeUnit s i u).wall = s.wall ∧ (State.takeUnit s i u).time = s.time ∧ (State.takeUnit s i u).board = s.board ∧ (State.takeUnit s i u).tap = s.tap ∧ (State.takeUnit s i u).power = s.power ∧ (State.takeUnit s i u).clocks = s.clocks ∧ (State.takeUnit s i u).thermal = s.thermal ∧ (State.takeUnit s i u).straps = s.straps ∧ (State.takeUnit s i u).boot = s.boot ∧ (State.takeUnit s i u).flash = s.flash ∧ (State.takeUnit s i u).fuses = s.fuses ∧ (State.takeUnit s i u).security = s.security ∧ (State.takeUnit s i u).models = s.models ∧ (State.takeUnit s i u).dies = s.dies ∧ (State.takeUnit s i u).faultyEdges = s.faultyEdges ∧ (State.takeUnit s i u).cores = s.cores ∧ (State.takeUnit s i u).feeders = s.feeders ∧ (State.takeUnit s i u).memory = s.memory ∧ (State.takeUnit s i u).lanes = s.lanes ∧ (State.takeUnit s i u).guards = s.guards ∧ (State.takeUnit s i u).mbx = s.mbx ∧ (State.takeUnit s i u).ports = s.ports ∧ (State.takeUnit s i u).smbOffset = s.smbOffset ∧ (State.takeUnit s i u).alertPending = s.alertPending ∧ (State.takeUnit s i u).owner = s.owner ∧ (State.takeUnit s i u).log = s.log ∧ (State.takeUnit s i u).pcie = s.pcie ∧ (State.takeUnit s i u).cxl = s.cxl ∧ (State.takeUnit s i u).cascade = s.cascade ∧ (State.takeUnit s i u).grants = s.grants ∧ (State.takeUnit s i u).fabricSeq = s.fabricSeq ∧ (State.takeUnit s i u).mbxTurn = s.mbxTurn ∧ (State.takeUnit s i u).turns = s.turns ∧ (State.takeUnit s i u).accepted = s.accepted ∧ (State.takeUnit s i u).bus = s.bus ∧ (State.takeUnit s i u).freeTick = s.freeTick := by
  unfold State.takeUnit
  try dsimp only
  (repeat' split) <;> simp

@[simp] theorem State.skipUnit_leaves (s : State) (i : Nat) (u : NextUnit) (r : Report) :
    (State.skipUnit s i u r).pending = s.pending ∧ (State.skipUnit s i u r).wall = s.wall ∧ (State.skipUnit s i u r).time = s.time ∧ (State.skipUnit s i u r).board = s.board ∧ (State.skipUnit s i u r).tap = s.tap ∧ (State.skipUnit s i u r).power = s.power ∧ (State.skipUnit s i u r).clocks = s.clocks ∧ (State.skipUnit s i u r).thermal = s.thermal ∧ (State.skipUnit s i u r).straps = s.straps ∧ (State.skipUnit s i u r).boot = s.boot ∧ (State.skipUnit s i u r).flash = s.flash ∧ (State.skipUnit s i u r).fuses = s.fuses ∧ (State.skipUnit s i u r).security = s.security ∧ (State.skipUnit s i u r).models = s.models ∧ (State.skipUnit s i u r).faultyEdges = s.faultyEdges ∧ (State.skipUnit s i u r).cores = s.cores ∧ (State.skipUnit s i u r).feeders = s.feeders ∧ (State.skipUnit s i u r).lanes = s.lanes ∧ (State.skipUnit s i u r).guards = s.guards ∧ (State.skipUnit s i u r).mbx = s.mbx ∧ (State.skipUnit s i u r).ports = s.ports ∧ (State.skipUnit s i u r).smbOffset = s.smbOffset ∧ (State.skipUnit s i u r).owner = s.owner ∧ (State.skipUnit s i u r).cxl = s.cxl ∧ (State.skipUnit s i u r).grants = s.grants ∧ (State.skipUnit s i u r).fabricSeq = s.fabricSeq ∧ (State.skipUnit s i u r).mbxTurn = s.mbxTurn ∧ (State.skipUnit s i u r).turns = s.turns ∧ (State.skipUnit s i u r).accepted = s.accepted ∧ (State.skipUnit s i u r).bus = s.bus ∧ (State.skipUnit s i u r).freeTick = s.freeTick := by
  unfold State.skipUnit
  try dsimp only
  (repeat' split) <;> simp

@[simp] theorem State.passUnit_leaves (s : State) (i : Nat) (u : NextUnit) :
    (State.passUnit s i u).pending = s.pending ∧ (State.passUnit s i u).wall = s.wall ∧ (State.passUnit s i u).time = s.time ∧ (State.passUnit s i u).board = s.board ∧ (State.passUnit s i u).tap = s.tap ∧ (State.passUnit s i u).power = s.power ∧ (State.passUnit s i u).clocks = s.clocks ∧ (State.passUnit s i u).thermal = s.thermal ∧ (State.passUnit s i u).straps = s.straps ∧ (State.passUnit s i u).boot = s.boot ∧ (State.passUnit s i u).flash = s.flash ∧ (State.passUnit s i u).fuses = s.fuses ∧ (State.passUnit s i u).security = s.security ∧ (State.passUnit s i u).models = s.models ∧ (State.passUnit s i u).dies = s.dies ∧ (State.passUnit s i u).faultyEdges = s.faultyEdges ∧ (State.passUnit s i u).cores = s.cores ∧ (State.passUnit s i u).feeders = s.feeders ∧ (State.passUnit s i u).memory = s.memory ∧ (State.passUnit s i u).lanes = s.lanes ∧ (State.passUnit s i u).guards = s.guards ∧ (State.passUnit s i u).mbx = s.mbx ∧ (State.passUnit s i u).ports = s.ports ∧ (State.passUnit s i u).smbOffset = s.smbOffset ∧ (State.passUnit s i u).alertPending = s.alertPending ∧ (State.passUnit s i u).owner = s.owner ∧ (State.passUnit s i u).log = s.log ∧ (State.passUnit s i u).pcie = s.pcie ∧ (State.passUnit s i u).cxl = s.cxl ∧ (State.passUnit s i u).cascade = s.cascade ∧ (State.passUnit s i u).grants = s.grants ∧ (State.passUnit s i u).fabricSeq = s.fabricSeq ∧ (State.passUnit s i u).mbxTurn = s.mbxTurn ∧ (State.passUnit s i u).turns = s.turns ∧ (State.passUnit s i u).accepted = s.accepted ∧ (State.passUnit s i u).bus = s.bus ∧ (State.passUnit s i u).freeTick = s.freeTick := by
  unfold State.passUnit
  try dsimp only
  (repeat' split) <;> simp

@[simp] theorem State.misplaced_leaves (s : State) (i : Nat) (u : NextUnit) (r : Report) :
    (State.misplaced s i u r).pending = s.pending ∧ (State.misplaced s i u r).wall = s.wall ∧ (State.misplaced s i u r).time = s.time ∧ (State.misplaced s i u r).board = s.board ∧ (State.misplaced s i u r).tap = s.tap ∧ (State.misplaced s i u r).power = s.power ∧ (State.misplaced s i u r).clocks = s.clocks ∧ (State.misplaced s i u r).thermal = s.thermal ∧ (State.misplaced s i u r).straps = s.straps ∧ (State.misplaced s i u r).boot = s.boot ∧ (State.misplaced s i u r).flash = s.flash ∧ (State.misplaced s i u r).fuses = s.fuses ∧ (State.misplaced s i u r).security = s.security ∧ (State.misplaced s i u r).models = s.models ∧ (State.misplaced s i u r).faultyEdges = s.faultyEdges ∧ (State.misplaced s i u r).cores = s.cores ∧ (State.misplaced s i u r).feeders = s.feeders ∧ (State.misplaced s i u r).lanes = s.lanes ∧ (State.misplaced s i u r).guards = s.guards ∧ (State.misplaced s i u r).mbx = s.mbx ∧ (State.misplaced s i u r).ports = s.ports ∧ (State.misplaced s i u r).smbOffset = s.smbOffset ∧ (State.misplaced s i u r).owner = s.owner ∧ (State.misplaced s i u r).cxl = s.cxl ∧ (State.misplaced s i u r).grants = s.grants ∧ (State.misplaced s i u r).fabricSeq = s.fabricSeq ∧ (State.misplaced s i u r).mbxTurn = s.mbxTurn ∧ (State.misplaced s i u r).turns = s.turns ∧ (State.misplaced s i u r).accepted = s.accepted ∧ (State.misplaced s i u r).bus = s.bus ∧ (State.misplaced s i u r).freeTick = s.freeTick := by
  unfold State.misplaced
  try dsimp only
  (repeat' split) <;> simp

@[simp] theorem State.dropGroup_leaves (s : State) (i : Nat) (u : NextUnit) (r : Report) :
    (State.dropGroup s i u r).pending = s.pending ∧ (State.dropGroup s i u r).wall = s.wall ∧ (State.dropGroup s i u r).time = s.time ∧ (State.dropGroup s i u r).board = s.board ∧ (State.dropGroup s i u r).tap = s.tap ∧ (State.dropGroup s i u r).power = s.power ∧ (State.dropGroup s i u r).clocks = s.clocks ∧ (State.dropGroup s i u r).thermal = s.thermal ∧ (State.dropGroup s i u r).straps = s.straps ∧ (State.dropGroup s i u r).boot = s.boot ∧ (State.dropGroup s i u r).flash = s.flash ∧ (State.dropGroup s i u r).fuses = s.fuses ∧ (State.dropGroup s i u r).security = s.security ∧ (State.dropGroup s i u r).models = s.models ∧ (State.dropGroup s i u r).faultyEdges = s.faultyEdges ∧ (State.dropGroup s i u r).cores = s.cores ∧ (State.dropGroup s i u r).feeders = s.feeders ∧ (State.dropGroup s i u r).lanes = s.lanes ∧ (State.dropGroup s i u r).guards = s.guards ∧ (State.dropGroup s i u r).mbx = s.mbx ∧ (State.dropGroup s i u r).ports = s.ports ∧ (State.dropGroup s i u r).smbOffset = s.smbOffset ∧ (State.dropGroup s i u r).owner = s.owner ∧ (State.dropGroup s i u r).cxl = s.cxl ∧ (State.dropGroup s i u r).fabricSeq = s.fabricSeq ∧ (State.dropGroup s i u r).mbxTurn = s.mbxTurn ∧ (State.dropGroup s i u r).turns = s.turns ∧ (State.dropGroup s i u r).accepted = s.accepted ∧ (State.dropGroup s i u r).bus = s.bus ∧ (State.dropGroup s i u r).freeTick = s.freeTick := by
  unfold State.dropGroup
  try dsimp only
  (repeat' split) <;> simp

@[simp] theorem State.startHunt_leaves (s : State) (i : Nat) (h : Hunt) :
    (State.startHunt s i h).pending = s.pending ∧ (State.startHunt s i h).wall = s.wall ∧ (State.startHunt s i h).time = s.time ∧ (State.startHunt s i h).board = s.board ∧ (State.startHunt s i h).tap = s.tap ∧ (State.startHunt s i h).power = s.power ∧ (State.startHunt s i h).clocks = s.clocks ∧ (State.startHunt s i h).thermal = s.thermal ∧ (State.startHunt s i h).straps = s.straps ∧ (State.startHunt s i h).boot = s.boot ∧ (State.startHunt s i h).flash = s.flash ∧ (State.startHunt s i h).fuses = s.fuses ∧ (State.startHunt s i h).security = s.security ∧ (State.startHunt s i h).models = s.models ∧ (State.startHunt s i h).dies = s.dies ∧ (State.startHunt s i h).faultyEdges = s.faultyEdges ∧ (State.startHunt s i h).cores = s.cores ∧ (State.startHunt s i h).feeders = s.feeders ∧ (State.startHunt s i h).memory = s.memory ∧ (State.startHunt s i h).lanes = s.lanes ∧ (State.startHunt s i h).guards = s.guards ∧ (State.startHunt s i h).mbx = s.mbx ∧ (State.startHunt s i h).ports = s.ports ∧ (State.startHunt s i h).smbOffset = s.smbOffset ∧ (State.startHunt s i h).alertPending = s.alertPending ∧ (State.startHunt s i h).owner = s.owner ∧ (State.startHunt s i h).log = s.log ∧ (State.startHunt s i h).pcie = s.pcie ∧ (State.startHunt s i h).cxl = s.cxl ∧ (State.startHunt s i h).cascade = s.cascade ∧ (State.startHunt s i h).grants = s.grants ∧ (State.startHunt s i h).fabricSeq = s.fabricSeq ∧ (State.startHunt s i h).mbxTurn = s.mbxTurn ∧ (State.startHunt s i h).turns = s.turns ∧ (State.startHunt s i h).accepted = s.accepted ∧ (State.startHunt s i h).bus = s.bus ∧ (State.startHunt s i h).freeTick = s.freeTick := by
  unfold State.startHunt
  try dsimp only
  (repeat' split) <;> simp

@[simp] theorem State.huntFrom_leaves (s : State) (i : Nat) (u : NextUnit) (d : Damage) :
    (State.huntFrom s i u d).pending = s.pending ∧ (State.huntFrom s i u d).wall = s.wall ∧ (State.huntFrom s i u d).time = s.time ∧ (State.huntFrom s i u d).board = s.board ∧ (State.huntFrom s i u d).tap = s.tap ∧ (State.huntFrom s i u d).power = s.power ∧ (State.huntFrom s i u d).clocks = s.clocks ∧ (State.huntFrom s i u d).thermal = s.thermal ∧ (State.huntFrom s i u d).straps = s.straps ∧ (State.huntFrom s i u d).boot = s.boot ∧ (State.huntFrom s i u d).flash = s.flash ∧ (State.huntFrom s i u d).fuses = s.fuses ∧ (State.huntFrom s i u d).security = s.security ∧ (State.huntFrom s i u d).models = s.models ∧ (State.huntFrom s i u d).dies = s.dies ∧ (State.huntFrom s i u d).faultyEdges = s.faultyEdges ∧ (State.huntFrom s i u d).cores = s.cores ∧ (State.huntFrom s i u d).feeders = s.feeders ∧ (State.huntFrom s i u d).memory = s.memory ∧ (State.huntFrom s i u d).lanes = s.lanes ∧ (State.huntFrom s i u d).guards = s.guards ∧ (State.huntFrom s i u d).mbx = s.mbx ∧ (State.huntFrom s i u d).ports = s.ports ∧ (State.huntFrom s i u d).smbOffset = s.smbOffset ∧ (State.huntFrom s i u d).alertPending = s.alertPending ∧ (State.huntFrom s i u d).owner = s.owner ∧ (State.huntFrom s i u d).log = s.log ∧ (State.huntFrom s i u d).pcie = s.pcie ∧ (State.huntFrom s i u d).cxl = s.cxl ∧ (State.huntFrom s i u d).cascade = s.cascade ∧ (State.huntFrom s i u d).grants = s.grants ∧ (State.huntFrom s i u d).fabricSeq = s.fabricSeq ∧ (State.huntFrom s i u d).mbxTurn = s.mbxTurn ∧ (State.huntFrom s i u d).turns = s.turns ∧ (State.huntFrom s i u d).accepted = s.accepted ∧ (State.huntFrom s i u d).bus = s.bus ∧ (State.huntFrom s i u d).freeTick = s.freeTick := by
  unfold State.huntFrom
  try dsimp only
  (repeat' split) <;> simp

@[simp] theorem State.huntPast_leaves (s : State) (i : Nat) (u : NextUnit) :
    (State.huntPast s i u).pending = s.pending ∧ (State.huntPast s i u).wall = s.wall ∧ (State.huntPast s i u).time = s.time ∧ (State.huntPast s i u).board = s.board ∧ (State.huntPast s i u).tap = s.tap ∧ (State.huntPast s i u).power = s.power ∧ (State.huntPast s i u).clocks = s.clocks ∧ (State.huntPast s i u).thermal = s.thermal ∧ (State.huntPast s i u).straps = s.straps ∧ (State.huntPast s i u).boot = s.boot ∧ (State.huntPast s i u).flash = s.flash ∧ (State.huntPast s i u).fuses = s.fuses ∧ (State.huntPast s i u).security = s.security ∧ (State.huntPast s i u).models = s.models ∧ (State.huntPast s i u).dies = s.dies ∧ (State.huntPast s i u).faultyEdges = s.faultyEdges ∧ (State.huntPast s i u).cores = s.cores ∧ (State.huntPast s i u).feeders = s.feeders ∧ (State.huntPast s i u).memory = s.memory ∧ (State.huntPast s i u).lanes = s.lanes ∧ (State.huntPast s i u).guards = s.guards ∧ (State.huntPast s i u).mbx = s.mbx ∧ (State.huntPast s i u).ports = s.ports ∧ (State.huntPast s i u).smbOffset = s.smbOffset ∧ (State.huntPast s i u).alertPending = s.alertPending ∧ (State.huntPast s i u).owner = s.owner ∧ (State.huntPast s i u).log = s.log ∧ (State.huntPast s i u).pcie = s.pcie ∧ (State.huntPast s i u).cxl = s.cxl ∧ (State.huntPast s i u).cascade = s.cascade ∧ (State.huntPast s i u).grants = s.grants ∧ (State.huntPast s i u).fabricSeq = s.fabricSeq ∧ (State.huntPast s i u).mbxTurn = s.mbxTurn ∧ (State.huntPast s i u).turns = s.turns ∧ (State.huntPast s i u).accepted = s.accepted ∧ (State.huntPast s i u).bus = s.bus ∧ (State.huntPast s i u).freeTick = s.freeTick := by
  unfold State.huntPast
  try dsimp only
  (repeat' split) <;> simp

@[simp] theorem State.endHunt_leaves (s : State) (i : Nat) :
    (State.endHunt s i).pending = s.pending ∧ (State.endHunt s i).wall = s.wall ∧ (State.endHunt s i).time = s.time ∧ (State.endHunt s i).board = s.board ∧ (State.endHunt s i).tap = s.tap ∧ (State.endHunt s i).power = s.power ∧ (State.endHunt s i).clocks = s.clocks ∧ (State.endHunt s i).thermal = s.thermal ∧ (State.endHunt s i).straps = s.straps ∧ (State.endHunt s i).boot = s.boot ∧ (State.endHunt s i).flash = s.flash ∧ (State.endHunt s i).fuses = s.fuses ∧ (State.endHunt s i).security = s.security ∧ (State.endHunt s i).models = s.models ∧ (State.endHunt s i).faultyEdges = s.faultyEdges ∧ (State.endHunt s i).cores = s.cores ∧ (State.endHunt s i).feeders = s.feeders ∧ (State.endHunt s i).lanes = s.lanes ∧ (State.endHunt s i).guards = s.guards ∧ (State.endHunt s i).mbx = s.mbx ∧ (State.endHunt s i).ports = s.ports ∧ (State.endHunt s i).smbOffset = s.smbOffset ∧ (State.endHunt s i).owner = s.owner ∧ (State.endHunt s i).cxl = s.cxl ∧ (State.endHunt s i).grants = s.grants ∧ (State.endHunt s i).fabricSeq = s.fabricSeq ∧ (State.endHunt s i).mbxTurn = s.mbxTurn ∧ (State.endHunt s i).turns = s.turns ∧ (State.endHunt s i).accepted = s.accepted ∧ (State.endHunt s i).bus = s.bus ∧ (State.endHunt s i).freeTick = s.freeTick := by
  unfold State.endHunt
  try dsimp only
  (repeat' split) <;> simp

@[simp] theorem State.settleRefused_leaves (s : State) (i : Nat) :
    (State.settleRefused s i).pending = s.pending ∧ (State.settleRefused s i).wall = s.wall ∧ (State.settleRefused s i).time = s.time ∧ (State.settleRefused s i).board = s.board ∧ (State.settleRefused s i).tap = s.tap ∧ (State.settleRefused s i).power = s.power ∧ (State.settleRefused s i).clocks = s.clocks ∧ (State.settleRefused s i).thermal = s.thermal ∧ (State.settleRefused s i).straps = s.straps ∧ (State.settleRefused s i).boot = s.boot ∧ (State.settleRefused s i).flash = s.flash ∧ (State.settleRefused s i).fuses = s.fuses ∧ (State.settleRefused s i).security = s.security ∧ (State.settleRefused s i).models = s.models ∧ (State.settleRefused s i).faultyEdges = s.faultyEdges ∧ (State.settleRefused s i).cores = s.cores ∧ (State.settleRefused s i).feeders = s.feeders ∧ (State.settleRefused s i).lanes = s.lanes ∧ (State.settleRefused s i).guards = s.guards ∧ (State.settleRefused s i).mbx = s.mbx ∧ (State.settleRefused s i).ports = s.ports ∧ (State.settleRefused s i).smbOffset = s.smbOffset ∧ (State.settleRefused s i).owner = s.owner ∧ (State.settleRefused s i).cxl = s.cxl ∧ (State.settleRefused s i).grants = s.grants ∧ (State.settleRefused s i).fabricSeq = s.fabricSeq ∧ (State.settleRefused s i).mbxTurn = s.mbxTurn ∧ (State.settleRefused s i).turns = s.turns ∧ (State.settleRefused s i).accepted = s.accepted ∧ (State.settleRefused s i).bus = s.bus ∧ (State.settleRefused s i).freeTick = s.freeTick := by
  unfold State.settleRefused
  try dsimp only
  (repeat' split) <;> simp

@[simp] theorem State.reportRefs_leaves (s : State) (i : Nat) (u : NextUnit) (poc : W32) (refs : List Ref) :
    (State.reportRefs s i u poc refs).pending = s.pending ∧ (State.reportRefs s i u poc refs).wall = s.wall ∧ (State.reportRefs s i u poc refs).time = s.time ∧ (State.reportRefs s i u poc refs).board = s.board ∧ (State.reportRefs s i u poc refs).tap = s.tap ∧ (State.reportRefs s i u poc refs).power = s.power ∧ (State.reportRefs s i u poc refs).clocks = s.clocks ∧ (State.reportRefs s i u poc refs).thermal = s.thermal ∧ (State.reportRefs s i u poc refs).straps = s.straps ∧ (State.reportRefs s i u poc refs).boot = s.boot ∧ (State.reportRefs s i u poc refs).flash = s.flash ∧ (State.reportRefs s i u poc refs).fuses = s.fuses ∧ (State.reportRefs s i u poc refs).security = s.security ∧ (State.reportRefs s i u poc refs).models = s.models ∧ (State.reportRefs s i u poc refs).faultyEdges = s.faultyEdges ∧ (State.reportRefs s i u poc refs).cores = s.cores ∧ (State.reportRefs s i u poc refs).feeders = s.feeders ∧ (State.reportRefs s i u poc refs).lanes = s.lanes ∧ (State.reportRefs s i u poc refs).guards = s.guards ∧ (State.reportRefs s i u poc refs).mbx = s.mbx ∧ (State.reportRefs s i u poc refs).ports = s.ports ∧ (State.reportRefs s i u poc refs).smbOffset = s.smbOffset ∧ (State.reportRefs s i u poc refs).owner = s.owner ∧ (State.reportRefs s i u poc refs).cxl = s.cxl ∧ (State.reportRefs s i u poc refs).grants = s.grants ∧ (State.reportRefs s i u poc refs).fabricSeq = s.fabricSeq ∧ (State.reportRefs s i u poc refs).mbxTurn = s.mbxTurn ∧ (State.reportRefs s i u poc refs).turns = s.turns ∧ (State.reportRefs s i u poc refs).accepted = s.accepted ∧ (State.reportRefs s i u poc refs).bus = s.bus ∧ (State.reportRefs s i u poc refs).freeTick = s.freeTick := by
  unfold State.reportRefs
  try dsimp only
  (repeat' split) <;> simp

@[simp] theorem State.acceptPic_leaves (s : State) (i : Nat) (u : NextUnit) (p : Payload) (lost : Option Damage) :
    (State.acceptPic s i u p lost).pending = s.pending ∧ (State.acceptPic s i u p lost).wall = s.wall ∧ (State.acceptPic s i u p lost).time = s.time ∧ (State.acceptPic s i u p lost).board = s.board ∧ (State.acceptPic s i u p lost).tap = s.tap ∧ (State.acceptPic s i u p lost).power = s.power ∧ (State.acceptPic s i u p lost).clocks = s.clocks ∧ (State.acceptPic s i u p lost).thermal = s.thermal ∧ (State.acceptPic s i u p lost).straps = s.straps ∧ (State.acceptPic s i u p lost).boot = s.boot ∧ (State.acceptPic s i u p lost).flash = s.flash ∧ (State.acceptPic s i u p lost).fuses = s.fuses ∧ (State.acceptPic s i u p lost).security = s.security ∧ (State.acceptPic s i u p lost).models = s.models ∧ (State.acceptPic s i u p lost).faultyEdges = s.faultyEdges ∧ (State.acceptPic s i u p lost).cores = s.cores ∧ (State.acceptPic s i u p lost).feeders = s.feeders ∧ (State.acceptPic s i u p lost).lanes = s.lanes ∧ (State.acceptPic s i u p lost).guards = s.guards ∧ (State.acceptPic s i u p lost).mbx = s.mbx ∧ (State.acceptPic s i u p lost).ports = s.ports ∧ (State.acceptPic s i u p lost).smbOffset = s.smbOffset ∧ (State.acceptPic s i u p lost).cxl = s.cxl ∧ (State.acceptPic s i u p lost).grants = s.grants ∧ (State.acceptPic s i u p lost).fabricSeq = s.fabricSeq ∧ (State.acceptPic s i u p lost).mbxTurn = s.mbxTurn ∧ (State.acceptPic s i u p lost).turns = s.turns ∧ (State.acceptPic s i u p lost).bus = s.bus ∧ (State.acceptPic s i u p lost).freeTick = s.freeTick := by
  unfold State.acceptPic
  try dsimp only
  (repeat' split) <;> simp

@[simp] theorem State.rowTaken_leaves (s : State) (i row : Nat) :
    (State.rowTaken s i row).pending = s.pending ∧ (State.rowTaken s i row).wall = s.wall ∧ (State.rowTaken s i row).time = s.time ∧ (State.rowTaken s i row).board = s.board ∧ (State.rowTaken s i row).tap = s.tap ∧ (State.rowTaken s i row).power = s.power ∧ (State.rowTaken s i row).clocks = s.clocks ∧ (State.rowTaken s i row).thermal = s.thermal ∧ (State.rowTaken s i row).straps = s.straps ∧ (State.rowTaken s i row).boot = s.boot ∧ (State.rowTaken s i row).flash = s.flash ∧ (State.rowTaken s i row).fuses = s.fuses ∧ (State.rowTaken s i row).security = s.security ∧ (State.rowTaken s i row).models = s.models ∧ (State.rowTaken s i row).dies = s.dies ∧ (State.rowTaken s i row).faultyEdges = s.faultyEdges ∧ (State.rowTaken s i row).cores = s.cores ∧ (State.rowTaken s i row).feeders = s.feeders ∧ (State.rowTaken s i row).memory = s.memory ∧ (State.rowTaken s i row).lanes = s.lanes ∧ (State.rowTaken s i row).guards = s.guards ∧ (State.rowTaken s i row).mbx = s.mbx ∧ (State.rowTaken s i row).ports = s.ports ∧ (State.rowTaken s i row).smbOffset = s.smbOffset ∧ (State.rowTaken s i row).alertPending = s.alertPending ∧ (State.rowTaken s i row).owner = s.owner ∧ (State.rowTaken s i row).log = s.log ∧ (State.rowTaken s i row).pcie = s.pcie ∧ (State.rowTaken s i row).cxl = s.cxl ∧ (State.rowTaken s i row).cascade = s.cascade ∧ (State.rowTaken s i row).grants = s.grants ∧ (State.rowTaken s i row).fabricSeq = s.fabricSeq ∧ (State.rowTaken s i row).mbxTurn = s.mbxTurn ∧ (State.rowTaken s i row).turns = s.turns ∧ (State.rowTaken s i row).accepted = s.accepted ∧ (State.rowTaken s i row).bus = s.bus ∧ (State.rowTaken s i row).freeTick = s.freeTick := by
  unfold State.rowTaken
  try dsimp only
  (repeat' split) <;> simp

@[simp] theorem State.placeRow_leaves (s : State) (i : Nat) (poc : W32) (u : NextUnit) (p : Payload) :
    (State.placeRow s i poc u p).pending = s.pending ∧ (State.placeRow s i poc u p).wall = s.wall ∧ (State.placeRow s i poc u p).time = s.time ∧ (State.placeRow s i poc u p).board = s.board ∧ (State.placeRow s i poc u p).tap = s.tap ∧ (State.placeRow s i poc u p).power = s.power ∧ (State.placeRow s i poc u p).clocks = s.clocks ∧ (State.placeRow s i poc u p).thermal = s.thermal ∧ (State.placeRow s i poc u p).straps = s.straps ∧ (State.placeRow s i poc u p).boot = s.boot ∧ (State.placeRow s i poc u p).flash = s.flash ∧ (State.placeRow s i poc u p).fuses = s.fuses ∧ (State.placeRow s i poc u p).security = s.security ∧ (State.placeRow s i poc u p).models = s.models ∧ (State.placeRow s i poc u p).dies = s.dies ∧ (State.placeRow s i poc u p).faultyEdges = s.faultyEdges ∧ (State.placeRow s i poc u p).cores = s.cores ∧ (State.placeRow s i poc u p).feeders = s.feeders ∧ (State.placeRow s i poc u p).memory = s.memory ∧ (State.placeRow s i poc u p).lanes = s.lanes ∧ (State.placeRow s i poc u p).guards = s.guards ∧ (State.placeRow s i poc u p).mbx = s.mbx ∧ (State.placeRow s i poc u p).ports = s.ports ∧ (State.placeRow s i poc u p).smbOffset = s.smbOffset ∧ (State.placeRow s i poc u p).alertPending = s.alertPending ∧ (State.placeRow s i poc u p).log = s.log ∧ (State.placeRow s i poc u p).pcie = s.pcie ∧ (State.placeRow s i poc u p).cxl = s.cxl ∧ (State.placeRow s i poc u p).cascade = s.cascade ∧ (State.placeRow s i poc u p).grants = s.grants ∧ (State.placeRow s i poc u p).fabricSeq = s.fabricSeq ∧ (State.placeRow s i poc u p).mbxTurn = s.mbxTurn ∧ (State.placeRow s i poc u p).turns = s.turns ∧ (State.placeRow s i poc u p).accepted = s.accepted ∧ (State.placeRow s i poc u p).bus = s.bus ∧ (State.placeRow s i poc u p).freeTick = s.freeTick := by
  unfold State.placeRow
  try dsimp only
  (repeat' split) <;> simp

@[simp] theorem State.concealNext_leaves (s : State) (i : Nat) (poc : W32) (u : NextUnit) (d : Damage) :
    (State.concealNext s i poc u d).pending = s.pending ∧ (State.concealNext s i poc u d).wall = s.wall ∧ (State.concealNext s i poc u d).time = s.time ∧ (State.concealNext s i poc u d).board = s.board ∧ (State.concealNext s i poc u d).tap = s.tap ∧ (State.concealNext s i poc u d).power = s.power ∧ (State.concealNext s i poc u d).clocks = s.clocks ∧ (State.concealNext s i poc u d).thermal = s.thermal ∧ (State.concealNext s i poc u d).straps = s.straps ∧ (State.concealNext s i poc u d).boot = s.boot ∧ (State.concealNext s i poc u d).flash = s.flash ∧ (State.concealNext s i poc u d).fuses = s.fuses ∧ (State.concealNext s i poc u d).security = s.security ∧ (State.concealNext s i poc u d).models = s.models ∧ (State.concealNext s i poc u d).faultyEdges = s.faultyEdges ∧ (State.concealNext s i poc u d).cores = s.cores ∧ (State.concealNext s i poc u d).feeders = s.feeders ∧ (State.concealNext s i poc u d).lanes = s.lanes ∧ (State.concealNext s i poc u d).guards = s.guards ∧ (State.concealNext s i poc u d).mbx = s.mbx ∧ (State.concealNext s i poc u d).ports = s.ports ∧ (State.concealNext s i poc u d).smbOffset = s.smbOffset ∧ (State.concealNext s i poc u d).owner = s.owner ∧ (State.concealNext s i poc u d).cxl = s.cxl ∧ (State.concealNext s i poc u d).grants = s.grants ∧ (State.concealNext s i poc u d).fabricSeq = s.fabricSeq ∧ (State.concealNext s i poc u d).mbxTurn = s.mbxTurn ∧ (State.concealNext s i poc u d).turns = s.turns ∧ (State.concealNext s i poc u d).accepted = s.accepted ∧ (State.concealNext s i poc u d).bus = s.bus ∧ (State.concealNext s i poc u d).freeTick = s.freeTick := by
  unfold State.concealNext
  try dsimp only
  (repeat' split) <;> simp

@[simp] theorem State.skipRows_leaves (s : State) (i : Nat) (poc : W32) (u : NextUnit) (p : Payload) :
    (State.skipRows s i poc u p).pending = s.pending ∧ (State.skipRows s i poc u p).wall = s.wall ∧ (State.skipRows s i poc u p).time = s.time ∧ (State.skipRows s i poc u p).board = s.board ∧ (State.skipRows s i poc u p).tap = s.tap ∧ (State.skipRows s i poc u p).power = s.power ∧ (State.skipRows s i poc u p).clocks = s.clocks ∧ (State.skipRows s i poc u p).thermal = s.thermal ∧ (State.skipRows s i poc u p).straps = s.straps ∧ (State.skipRows s i poc u p).boot = s.boot ∧ (State.skipRows s i poc u p).flash = s.flash ∧ (State.skipRows s i poc u p).fuses = s.fuses ∧ (State.skipRows s i poc u p).security = s.security ∧ (State.skipRows s i poc u p).models = s.models ∧ (State.skipRows s i poc u p).faultyEdges = s.faultyEdges ∧ (State.skipRows s i poc u p).cores = s.cores ∧ (State.skipRows s i poc u p).feeders = s.feeders ∧ (State.skipRows s i poc u p).lanes = s.lanes ∧ (State.skipRows s i poc u p).guards = s.guards ∧ (State.skipRows s i poc u p).mbx = s.mbx ∧ (State.skipRows s i poc u p).ports = s.ports ∧ (State.skipRows s i poc u p).smbOffset = s.smbOffset ∧ (State.skipRows s i poc u p).owner = s.owner ∧ (State.skipRows s i poc u p).cxl = s.cxl ∧ (State.skipRows s i poc u p).grants = s.grants ∧ (State.skipRows s i poc u p).fabricSeq = s.fabricSeq ∧ (State.skipRows s i poc u p).mbxTurn = s.mbxTurn ∧ (State.skipRows s i poc u p).turns = s.turns ∧ (State.skipRows s i poc u p).accepted = s.accepted ∧ (State.skipRows s i poc u p).bus = s.bus ∧ (State.skipRows s i poc u p).freeTick = s.freeTick := by
  unfold State.skipRows
  try dsimp only
  (repeat' split) <;> simp

@[simp] theorem State.libOp_leaves (i : Nat) (u : NextUnit) (p : Payload) (s : State) (o : Nat × Nat × Bytes × Nat) :
    (State.libOp i u p s o).pending = s.pending ∧ (State.libOp i u p s o).wall = s.wall ∧ (State.libOp i u p s o).time = s.time ∧ (State.libOp i u p s o).board = s.board ∧ (State.libOp i u p s o).tap = s.tap ∧ (State.libOp i u p s o).power = s.power ∧ (State.libOp i u p s o).clocks = s.clocks ∧ (State.libOp i u p s o).thermal = s.thermal ∧ (State.libOp i u p s o).straps = s.straps ∧ (State.libOp i u p s o).boot = s.boot ∧ (State.libOp i u p s o).flash = s.flash ∧ (State.libOp i u p s o).fuses = s.fuses ∧ (State.libOp i u p s o).security = s.security ∧ (State.libOp i u p s o).models = s.models ∧ (State.libOp i u p s o).faultyEdges = s.faultyEdges ∧ (State.libOp i u p s o).cores = s.cores ∧ (State.libOp i u p s o).feeders = s.feeders ∧ (State.libOp i u p s o).lanes = s.lanes ∧ (State.libOp i u p s o).guards = s.guards ∧ (State.libOp i u p s o).mbx = s.mbx ∧ (State.libOp i u p s o).ports = s.ports ∧ (State.libOp i u p s o).smbOffset = s.smbOffset ∧ (State.libOp i u p s o).owner = s.owner ∧ (State.libOp i u p s o).cxl = s.cxl ∧ (State.libOp i u p s o).grants = s.grants ∧ (State.libOp i u p s o).fabricSeq = s.fabricSeq ∧ (State.libOp i u p s o).mbxTurn = s.mbxTurn ∧ (State.libOp i u p s o).turns = s.turns ∧ (State.libOp i u p s o).accepted = s.accepted ∧ (State.libOp i u p s o).bus = s.bus ∧ (State.libOp i u p s o).freeTick = s.freeTick := by
  unfold State.libOp
  try dsimp only
  (repeat' split) <;> simp

/-! ### Audio -/

@[simp] theorem State.updAudio_leaves (s : State) (i g : Nat) (f : AudioGroup → AudioGroup) :
    (State.updAudio s i g f).pending = s.pending ∧ (State.updAudio s i g f).wall = s.wall ∧ (State.updAudio s i g f).time = s.time ∧ (State.updAudio s i g f).board = s.board ∧ (State.updAudio s i g f).tap = s.tap ∧ (State.updAudio s i g f).power = s.power ∧ (State.updAudio s i g f).clocks = s.clocks ∧ (State.updAudio s i g f).thermal = s.thermal ∧ (State.updAudio s i g f).straps = s.straps ∧ (State.updAudio s i g f).boot = s.boot ∧ (State.updAudio s i g f).flash = s.flash ∧ (State.updAudio s i g f).fuses = s.fuses ∧ (State.updAudio s i g f).security = s.security ∧ (State.updAudio s i g f).models = s.models ∧ (State.updAudio s i g f).dies = s.dies ∧ (State.updAudio s i g f).faultyEdges = s.faultyEdges ∧ (State.updAudio s i g f).cores = s.cores ∧ (State.updAudio s i g f).feeders = s.feeders ∧ (State.updAudio s i g f).memory = s.memory ∧ (State.updAudio s i g f).lanes = s.lanes ∧ (State.updAudio s i g f).guards = s.guards ∧ (State.updAudio s i g f).mbx = s.mbx ∧ (State.updAudio s i g f).ports = s.ports ∧ (State.updAudio s i g f).smbOffset = s.smbOffset ∧ (State.updAudio s i g f).alertPending = s.alertPending ∧ (State.updAudio s i g f).owner = s.owner ∧ (State.updAudio s i g f).log = s.log ∧ (State.updAudio s i g f).pcie = s.pcie ∧ (State.updAudio s i g f).cxl = s.cxl ∧ (State.updAudio s i g f).cascade = s.cascade ∧ (State.updAudio s i g f).grants = s.grants ∧ (State.updAudio s i g f).fabricSeq = s.fabricSeq ∧ (State.updAudio s i g f).mbxTurn = s.mbxTurn ∧ (State.updAudio s i g f).turns = s.turns ∧ (State.updAudio s i g f).accepted = s.accepted ∧ (State.updAudio s i g f).bus = s.bus ∧ (State.updAudio s i g f).freeTick = s.freeTick := by
  unfold State.updAudio
  try dsimp only
  (repeat' split) <;> simp

@[simp] theorem State.writeSamples_leaves (s : State) (i g : Nat) (bs : Bytes) :
    (State.writeSamples s i g bs).pending = s.pending ∧ (State.writeSamples s i g bs).wall = s.wall ∧ (State.writeSamples s i g bs).time = s.time ∧ (State.writeSamples s i g bs).board = s.board ∧ (State.writeSamples s i g bs).tap = s.tap ∧ (State.writeSamples s i g bs).power = s.power ∧ (State.writeSamples s i g bs).clocks = s.clocks ∧ (State.writeSamples s i g bs).thermal = s.thermal ∧ (State.writeSamples s i g bs).straps = s.straps ∧ (State.writeSamples s i g bs).boot = s.boot ∧ (State.writeSamples s i g bs).flash = s.flash ∧ (State.writeSamples s i g bs).fuses = s.fuses ∧ (State.writeSamples s i g bs).security = s.security ∧ (State.writeSamples s i g bs).models = s.models ∧ (State.writeSamples s i g bs).dies = s.dies ∧ (State.writeSamples s i g bs).faultyEdges = s.faultyEdges ∧ (State.writeSamples s i g bs).feeders = s.feeders ∧ (State.writeSamples s i g bs).lanes = s.lanes ∧ (State.writeSamples s i g bs).guards = s.guards ∧ (State.writeSamples s i g bs).mbx = s.mbx ∧ (State.writeSamples s i g bs).ports = s.ports ∧ (State.writeSamples s i g bs).smbOffset = s.smbOffset ∧ (State.writeSamples s i g bs).alertPending = s.alertPending ∧ (State.writeSamples s i g bs).owner = s.owner ∧ (State.writeSamples s i g bs).log = s.log ∧ (State.writeSamples s i g bs).pcie = s.pcie ∧ (State.writeSamples s i g bs).cxl = s.cxl ∧ (State.writeSamples s i g bs).cascade = s.cascade ∧ (State.writeSamples s i g bs).grants = s.grants ∧ (State.writeSamples s i g bs).fabricSeq = s.fabricSeq ∧ (State.writeSamples s i g bs).mbxTurn = s.mbxTurn ∧ (State.writeSamples s i g bs).turns = s.turns ∧ (State.writeSamples s i g bs).accepted = s.accepted ∧ (State.writeSamples s i g bs).bus = s.bus ∧ (State.writeSamples s i g bs).freeTick = s.freeTick := by
  unfold State.writeSamples
  try dsimp only
  (repeat' split) <;> simp

@[simp] theorem State.addSampleCounts_leaves (s : State) (i : Nat) (cs : List ElemCount) :
    (State.addSampleCounts s i cs).pending = s.pending ∧ (State.addSampleCounts s i cs).wall = s.wall ∧ (State.addSampleCounts s i cs).time = s.time ∧ (State.addSampleCounts s i cs).board = s.board ∧ (State.addSampleCounts s i cs).tap = s.tap ∧ (State.addSampleCounts s i cs).power = s.power ∧ (State.addSampleCounts s i cs).clocks = s.clocks ∧ (State.addSampleCounts s i cs).thermal = s.thermal ∧ (State.addSampleCounts s i cs).straps = s.straps ∧ (State.addSampleCounts s i cs).boot = s.boot ∧ (State.addSampleCounts s i cs).flash = s.flash ∧ (State.addSampleCounts s i cs).fuses = s.fuses ∧ (State.addSampleCounts s i cs).security = s.security ∧ (State.addSampleCounts s i cs).models = s.models ∧ (State.addSampleCounts s i cs).dies = s.dies ∧ (State.addSampleCounts s i cs).faultyEdges = s.faultyEdges ∧ (State.addSampleCounts s i cs).cores = s.cores ∧ (State.addSampleCounts s i cs).feeders = s.feeders ∧ (State.addSampleCounts s i cs).memory = s.memory ∧ (State.addSampleCounts s i cs).lanes = s.lanes ∧ (State.addSampleCounts s i cs).guards = s.guards ∧ (State.addSampleCounts s i cs).mbx = s.mbx ∧ (State.addSampleCounts s i cs).ports = s.ports ∧ (State.addSampleCounts s i cs).smbOffset = s.smbOffset ∧ (State.addSampleCounts s i cs).alertPending = s.alertPending ∧ (State.addSampleCounts s i cs).owner = s.owner ∧ (State.addSampleCounts s i cs).log = s.log ∧ (State.addSampleCounts s i cs).pcie = s.pcie ∧ (State.addSampleCounts s i cs).cxl = s.cxl ∧ (State.addSampleCounts s i cs).cascade = s.cascade ∧ (State.addSampleCounts s i cs).grants = s.grants ∧ (State.addSampleCounts s i cs).fabricSeq = s.fabricSeq ∧ (State.addSampleCounts s i cs).mbxTurn = s.mbxTurn ∧ (State.addSampleCounts s i cs).turns = s.turns ∧ (State.addSampleCounts s i cs).accepted = s.accepted ∧ (State.addSampleCounts s i cs).bus = s.bus ∧ (State.addSampleCounts s i cs).freeTick = s.freeTick := by
  unfold State.addSampleCounts
  try dsimp only
  (repeat' split) <;> simp

@[simp] theorem State.codeFrame_leaves (s : State) (i g : Nat) (c : GroupCfg) (b : AudioBlock) (bs : Bytes) :
    (State.codeFrame s i g c b bs).pending = s.pending ∧ (State.codeFrame s i g c b bs).wall = s.wall ∧ (State.codeFrame s i g c b bs).time = s.time ∧ (State.codeFrame s i g c b bs).board = s.board ∧ (State.codeFrame s i g c b bs).tap = s.tap ∧ (State.codeFrame s i g c b bs).power = s.power ∧ (State.codeFrame s i g c b bs).clocks = s.clocks ∧ (State.codeFrame s i g c b bs).thermal = s.thermal ∧ (State.codeFrame s i g c b bs).straps = s.straps ∧ (State.codeFrame s i g c b bs).boot = s.boot ∧ (State.codeFrame s i g c b bs).flash = s.flash ∧ (State.codeFrame s i g c b bs).fuses = s.fuses ∧ (State.codeFrame s i g c b bs).security = s.security ∧ (State.codeFrame s i g c b bs).models = s.models ∧ (State.codeFrame s i g c b bs).dies = s.dies ∧ (State.codeFrame s i g c b bs).faultyEdges = s.faultyEdges ∧ (State.codeFrame s i g c b bs).cores = s.cores ∧ (State.codeFrame s i g c b bs).feeders = s.feeders ∧ (State.codeFrame s i g c b bs).memory = s.memory ∧ (State.codeFrame s i g c b bs).guards = s.guards ∧ (State.codeFrame s i g c b bs).mbx = s.mbx ∧ (State.codeFrame s i g c b bs).ports = s.ports ∧ (State.codeFrame s i g c b bs).smbOffset = s.smbOffset ∧ (State.codeFrame s i g c b bs).alertPending = s.alertPending ∧ (State.codeFrame s i g c b bs).owner = s.owner ∧ (State.codeFrame s i g c b bs).log = s.log ∧ (State.codeFrame s i g c b bs).pcie = s.pcie ∧ (State.codeFrame s i g c b bs).cxl = s.cxl ∧ (State.codeFrame s i g c b bs).cascade = s.cascade ∧ (State.codeFrame s i g c b bs).grants = s.grants ∧ (State.codeFrame s i g c b bs).fabricSeq = s.fabricSeq ∧ (State.codeFrame s i g c b bs).mbxTurn = s.mbxTurn ∧ (State.codeFrame s i g c b bs).accepted = s.accepted ∧ (State.codeFrame s i g c b bs).bus = s.bus ∧ (State.codeFrame s i g c b bs).freeTick = s.freeTick := by
  unfold State.codeFrame
  try dsimp only
  (repeat' split) <;> simp

@[simp] theorem State.placeAud_leaves (s : State) (v : Nat) (bs : Bytes) :
    (State.placeAud s v bs).pending = s.pending ∧ (State.placeAud s v bs).wall = s.wall ∧ (State.placeAud s v bs).time = s.time ∧ (State.placeAud s v bs).board = s.board ∧ (State.placeAud s v bs).tap = s.tap ∧ (State.placeAud s v bs).power = s.power ∧ (State.placeAud s v bs).clocks = s.clocks ∧ (State.placeAud s v bs).thermal = s.thermal ∧ (State.placeAud s v bs).straps = s.straps ∧ (State.placeAud s v bs).boot = s.boot ∧ (State.placeAud s v bs).flash = s.flash ∧ (State.placeAud s v bs).fuses = s.fuses ∧ (State.placeAud s v bs).security = s.security ∧ (State.placeAud s v bs).models = s.models ∧ (State.placeAud s v bs).dies = s.dies ∧ (State.placeAud s v bs).faultyEdges = s.faultyEdges ∧ (State.placeAud s v bs).cores = s.cores ∧ (State.placeAud s v bs).feeders = s.feeders ∧ (State.placeAud s v bs).lanes = s.lanes ∧ (State.placeAud s v bs).guards = s.guards ∧ (State.placeAud s v bs).mbx = s.mbx ∧ (State.placeAud s v bs).ports = s.ports ∧ (State.placeAud s v bs).smbOffset = s.smbOffset ∧ (State.placeAud s v bs).owner = s.owner ∧ (State.placeAud s v bs).log = s.log ∧ (State.placeAud s v bs).cxl = s.cxl ∧ (State.placeAud s v bs).grants = s.grants ∧ (State.placeAud s v bs).fabricSeq = s.fabricSeq ∧ (State.placeAud s v bs).mbxTurn = s.mbxTurn ∧ (State.placeAud s v bs).turns = s.turns ∧ (State.placeAud s v bs).accepted = s.accepted ∧ (State.placeAud s v bs).bus = s.bus ∧ (State.placeAud s v bs).freeTick = s.freeTick := by
  unfold State.placeAud
  try dsimp only
  (repeat' split) <;> simp

@[simp] theorem State.openAudio_leaves (s : State) (i : Nat) :
    (State.openAudio s i).pending = s.pending ∧ (State.openAudio s i).wall = s.wall ∧ (State.openAudio s i).time = s.time ∧ (State.openAudio s i).board = s.board ∧ (State.openAudio s i).tap = s.tap ∧ (State.openAudio s i).power = s.power ∧ (State.openAudio s i).clocks = s.clocks ∧ (State.openAudio s i).thermal = s.thermal ∧ (State.openAudio s i).straps = s.straps ∧ (State.openAudio s i).boot = s.boot ∧ (State.openAudio s i).flash = s.flash ∧ (State.openAudio s i).fuses = s.fuses ∧ (State.openAudio s i).security = s.security ∧ (State.openAudio s i).models = s.models ∧ (State.openAudio s i).dies = s.dies ∧ (State.openAudio s i).faultyEdges = s.faultyEdges ∧ (State.openAudio s i).cores = s.cores ∧ (State.openAudio s i).feeders = s.feeders ∧ (State.openAudio s i).lanes = s.lanes ∧ (State.openAudio s i).guards = s.guards ∧ (State.openAudio s i).mbx = s.mbx ∧ (State.openAudio s i).ports = s.ports ∧ (State.openAudio s i).smbOffset = s.smbOffset ∧ (State.openAudio s i).owner = s.owner ∧ (State.openAudio s i).log = s.log ∧ (State.openAudio s i).cxl = s.cxl ∧ (State.openAudio s i).grants = s.grants ∧ (State.openAudio s i).fabricSeq = s.fabricSeq ∧ (State.openAudio s i).mbxTurn = s.mbxTurn ∧ (State.openAudio s i).turns = s.turns ∧ (State.openAudio s i).accepted = s.accepted ∧ (State.openAudio s i).bus = s.bus ∧ (State.openAudio s i).freeTick = s.freeTick := by
  unfold State.openAudio
  try dsimp only
  (repeat' split) <;> simp

@[simp] theorem State.muteFrame_leaves (s : State) (i g : Nat) (c : GroupCfg) (x : FrameInfo) :
    (State.muteFrame s i g c x).pending = s.pending ∧ (State.muteFrame s i g c x).wall = s.wall ∧ (State.muteFrame s i g c x).time = s.time ∧ (State.muteFrame s i g c x).board = s.board ∧ (State.muteFrame s i g c x).tap = s.tap ∧ (State.muteFrame s i g c x).power = s.power ∧ (State.muteFrame s i g c x).clocks = s.clocks ∧ (State.muteFrame s i g c x).thermal = s.thermal ∧ (State.muteFrame s i g c x).straps = s.straps ∧ (State.muteFrame s i g c x).boot = s.boot ∧ (State.muteFrame s i g c x).flash = s.flash ∧ (State.muteFrame s i g c x).fuses = s.fuses ∧ (State.muteFrame s i g c x).security = s.security ∧ (State.muteFrame s i g c x).models = s.models ∧ (State.muteFrame s i g c x).faultyEdges = s.faultyEdges ∧ (State.muteFrame s i g c x).feeders = s.feeders ∧ (State.muteFrame s i g c x).lanes = s.lanes ∧ (State.muteFrame s i g c x).guards = s.guards ∧ (State.muteFrame s i g c x).mbx = s.mbx ∧ (State.muteFrame s i g c x).ports = s.ports ∧ (State.muteFrame s i g c x).smbOffset = s.smbOffset ∧ (State.muteFrame s i g c x).owner = s.owner ∧ (State.muteFrame s i g c x).cxl = s.cxl ∧ (State.muteFrame s i g c x).grants = s.grants ∧ (State.muteFrame s i g c x).fabricSeq = s.fabricSeq ∧ (State.muteFrame s i g c x).mbxTurn = s.mbxTurn ∧ (State.muteFrame s i g c x).turns = s.turns ∧ (State.muteFrame s i g c x).accepted = s.accepted ∧ (State.muteFrame s i g c x).bus = s.bus ∧ (State.muteFrame s i g c x).freeTick = s.freeTick := by
  unfold State.muteFrame
  try dsimp only
  (repeat' split) <;> simp

@[simp] theorem State.muteFrames_leaves (s : State) (i g : Nat) (c : GroupCfg) (tag frame : W32) (n : Nat) :
    (State.muteFrames s i g c tag frame n).pending = s.pending ∧ (State.muteFrames s i g c tag frame n).wall = s.wall ∧ (State.muteFrames s i g c tag frame n).time = s.time ∧ (State.muteFrames s i g c tag frame n).board = s.board ∧ (State.muteFrames s i g c tag frame n).tap = s.tap ∧ (State.muteFrames s i g c tag frame n).power = s.power ∧ (State.muteFrames s i g c tag frame n).clocks = s.clocks ∧ (State.muteFrames s i g c tag frame n).thermal = s.thermal ∧ (State.muteFrames s i g c tag frame n).straps = s.straps ∧ (State.muteFrames s i g c tag frame n).boot = s.boot ∧ (State.muteFrames s i g c tag frame n).flash = s.flash ∧ (State.muteFrames s i g c tag frame n).fuses = s.fuses ∧ (State.muteFrames s i g c tag frame n).security = s.security ∧ (State.muteFrames s i g c tag frame n).models = s.models ∧ (State.muteFrames s i g c tag frame n).faultyEdges = s.faultyEdges ∧ (State.muteFrames s i g c tag frame n).feeders = s.feeders ∧ (State.muteFrames s i g c tag frame n).lanes = s.lanes ∧ (State.muteFrames s i g c tag frame n).guards = s.guards ∧ (State.muteFrames s i g c tag frame n).mbx = s.mbx ∧ (State.muteFrames s i g c tag frame n).ports = s.ports ∧ (State.muteFrames s i g c tag frame n).smbOffset = s.smbOffset ∧ (State.muteFrames s i g c tag frame n).owner = s.owner ∧ (State.muteFrames s i g c tag frame n).cxl = s.cxl ∧ (State.muteFrames s i g c tag frame n).grants = s.grants ∧ (State.muteFrames s i g c tag frame n).fabricSeq = s.fabricSeq ∧ (State.muteFrames s i g c tag frame n).mbxTurn = s.mbxTurn ∧ (State.muteFrames s i g c tag frame n).turns = s.turns ∧ (State.muteFrames s i g c tag frame n).accepted = s.accepted ∧ (State.muteFrames s i g c tag frame n).bus = s.bus ∧ (State.muteFrames s i g c tag frame n).freeTick = s.freeTick := by
  unfold State.muteFrames
  try dsimp only
  (repeat' split) <;> simp

@[simp] theorem State.startFrame_leaves (s : State) (i j g : Nat) (c : GroupCfg) (u : NextUnit) (p : Payload) (missing : Nat) :
    (State.startFrame s i j g c u p missing).pending = s.pending ∧ (State.startFrame s i j g c u p missing).wall = s.wall ∧ (State.startFrame s i j g c u p missing).time = s.time ∧ (State.startFrame s i j g c u p missing).tap = s.tap ∧ (State.startFrame s i j g c u p missing).power = s.power ∧ (State.startFrame s i j g c u p missing).clocks = s.clocks ∧ (State.startFrame s i j g c u p missing).thermal = s.thermal ∧ (State.startFrame s i j g c u p missing).straps = s.straps ∧ (State.startFrame s i j g c u p missing).flash = s.flash ∧ (State.startFrame s i j g c u p missing).fuses = s.fuses ∧ (State.startFrame s i j g c u p missing).security = s.security ∧ (State.startFrame s i j g c u p missing).models = s.models ∧ (State.startFrame s i j g c u p missing).faultyEdges = s.faultyEdges ∧ (State.startFrame s i j g c u p missing).cores = s.cores ∧ (State.startFrame s i j g c u p missing).feeders = s.feeders ∧ (State.startFrame s i j g c u p missing).lanes = s.lanes ∧ (State.startFrame s i j g c u p missing).guards = s.guards ∧ (State.startFrame s i j g c u p missing).mbx = s.mbx ∧ (State.startFrame s i j g c u p missing).ports = s.ports ∧ (State.startFrame s i j g c u p missing).smbOffset = s.smbOffset ∧ (State.startFrame s i j g c u p missing).cxl = s.cxl ∧ (State.startFrame s i j g c u p missing).grants = s.grants ∧ (State.startFrame s i j g c u p missing).fabricSeq = s.fabricSeq ∧ (State.startFrame s i j g c u p missing).mbxTurn = s.mbxTurn ∧ (State.startFrame s i j g c u p missing).turns = s.turns ∧ (State.startFrame s i j g c u p missing).accepted = s.accepted ∧ (State.startFrame s i j g c u p missing).bus = s.bus ∧ (State.startFrame s i j g c u p missing).freeTick = s.freeTick := by
  unfold State.startFrame
  try dsimp only
  (repeat' split) <;> simp

@[simp] theorem State.takeFrame_leaves (s : State) (i j g : Nat) (c : GroupCfg) (u : NextUnit) (p : Payload) :
    (State.takeFrame s i j g c u p).pending = s.pending ∧ (State.takeFrame s i j g c u p).wall = s.wall ∧ (State.takeFrame s i j g c u p).time = s.time ∧ (State.takeFrame s i j g c u p).tap = s.tap ∧ (State.takeFrame s i j g c u p).power = s.power ∧ (State.takeFrame s i j g c u p).clocks = s.clocks ∧ (State.takeFrame s i j g c u p).thermal = s.thermal ∧ (State.takeFrame s i j g c u p).straps = s.straps ∧ (State.takeFrame s i j g c u p).flash = s.flash ∧ (State.takeFrame s i j g c u p).fuses = s.fuses ∧ (State.takeFrame s i j g c u p).security = s.security ∧ (State.takeFrame s i j g c u p).models = s.models ∧ (State.takeFrame s i j g c u p).faultyEdges = s.faultyEdges ∧ (State.takeFrame s i j g c u p).feeders = s.feeders ∧ (State.takeFrame s i j g c u p).lanes = s.lanes ∧ (State.takeFrame s i j g c u p).guards = s.guards ∧ (State.takeFrame s i j g c u p).mbx = s.mbx ∧ (State.takeFrame s i j g c u p).ports = s.ports ∧ (State.takeFrame s i j g c u p).smbOffset = s.smbOffset ∧ (State.takeFrame s i j g c u p).cxl = s.cxl ∧ (State.takeFrame s i j g c u p).grants = s.grants ∧ (State.takeFrame s i j g c u p).fabricSeq = s.fabricSeq ∧ (State.takeFrame s i j g c u p).mbxTurn = s.mbxTurn ∧ (State.takeFrame s i j g c u p).turns = s.turns ∧ (State.takeFrame s i j g c u p).accepted = s.accepted ∧ (State.takeFrame s i j g c u p).bus = s.bus ∧ (State.takeFrame s i j g c u p).freeTick = s.freeTick := by
  unfold State.takeFrame
  try dsimp only
  (repeat' split) <;> simp

/-! ### Lanes -/

@[simp] theorem State.acceptFlags_leaves (s : State) (i : Nat) (u : UnitJob) (poc : W32) (row : Nat) :
    (State.acceptFlags s i u poc row).pending = s.pending ∧ (State.acceptFlags s i u poc row).wall = s.wall ∧ (State.acceptFlags s i u poc row).time = s.time ∧ (State.acceptFlags s i u poc row).board = s.board ∧ (State.acceptFlags s i u poc row).tap = s.tap ∧ (State.acceptFlags s i u poc row).power = s.power ∧ (State.acceptFlags s i u poc row).clocks = s.clocks ∧ (State.acceptFlags s i u poc row).thermal = s.thermal ∧ (State.acceptFlags s i u poc row).straps = s.straps ∧ (State.acceptFlags s i u poc row).boot = s.boot ∧ (State.acceptFlags s i u poc row).flash = s.flash ∧ (State.acceptFlags s i u poc row).fuses = s.fuses ∧ (State.acceptFlags s i u poc row).security = s.security ∧ (State.acceptFlags s i u poc row).models = s.models ∧ (State.acceptFlags s i u poc row).faultyEdges = s.faultyEdges ∧ (State.acceptFlags s i u poc row).cores = s.cores ∧ (State.acceptFlags s i u poc row).feeders = s.feeders ∧ (State.acceptFlags s i u poc row).lanes = s.lanes ∧ (State.acceptFlags s i u poc row).guards = s.guards ∧ (State.acceptFlags s i u poc row).mbx = s.mbx ∧ (State.acceptFlags s i u poc row).ports = s.ports ∧ (State.acceptFlags s i u poc row).smbOffset = s.smbOffset ∧ (State.acceptFlags s i u poc row).owner = s.owner ∧ (State.acceptFlags s i u poc row).cxl = s.cxl ∧ (State.acceptFlags s i u poc row).grants = s.grants ∧ (State.acceptFlags s i u poc row).fabricSeq = s.fabricSeq ∧ (State.acceptFlags s i u poc row).mbxTurn = s.mbxTurn ∧ (State.acceptFlags s i u poc row).turns = s.turns ∧ (State.acceptFlags s i u poc row).accepted = s.accepted ∧ (State.acceptFlags s i u poc row).bus = s.bus ∧ (State.acceptFlags s i u poc row).freeTick = s.freeTick := by
  unfold State.acceptFlags
  try dsimp only
  (repeat' split) <;> simp

@[simp] theorem State.finishPic_leaves (s : State) (i : Nat) (u : UnitJob) (p : Picture) :
    (State.finishPic s i u p).pending = s.pending ∧ (State.finishPic s i u p).wall = s.wall ∧ (State.finishPic s i u p).time = s.time ∧ (State.finishPic s i u p).board = s.board ∧ (State.finishPic s i u p).tap = s.tap ∧ (State.finishPic s i u p).power = s.power ∧ (State.finishPic s i u p).clocks = s.clocks ∧ (State.finishPic s i u p).thermal = s.thermal ∧ (State.finishPic s i u p).straps = s.straps ∧ (State.finishPic s i u p).boot = s.boot ∧ (State.finishPic s i u p).flash = s.flash ∧ (State.finishPic s i u p).fuses = s.fuses ∧ (State.finishPic s i u p).security = s.security ∧ (State.finishPic s i u p).models = s.models ∧ (State.finishPic s i u p).faultyEdges = s.faultyEdges ∧ (State.finishPic s i u p).cores = s.cores ∧ (State.finishPic s i u p).feeders = s.feeders ∧ (State.finishPic s i u p).lanes = s.lanes ∧ (State.finishPic s i u p).guards = s.guards ∧ (State.finishPic s i u p).mbx = s.mbx ∧ (State.finishPic s i u p).ports = s.ports ∧ (State.finishPic s i u p).smbOffset = s.smbOffset ∧ (State.finishPic s i u p).owner = s.owner ∧ (State.finishPic s i u p).cxl = s.cxl ∧ (State.finishPic s i u p).grants = s.grants ∧ (State.finishPic s i u p).fabricSeq = s.fabricSeq ∧ (State.finishPic s i u p).mbxTurn = s.mbxTurn ∧ (State.finishPic s i u p).turns = s.turns ∧ (State.finishPic s i u p).accepted = s.accepted ∧ (State.finishPic s i u p).bus = s.bus ∧ (State.finishPic s i u p).freeTick = s.freeTick := by
  unfold State.finishPic
  try dsimp only
  (repeat' split) <;> simp

@[simp] theorem State.finishRow_leaves (s : State) (i : Nat) (u : UnitJob) (p : Picture) :
    (State.finishRow s i u p).pending = s.pending ∧ (State.finishRow s i u p).wall = s.wall ∧ (State.finishRow s i u p).time = s.time ∧ (State.finishRow s i u p).board = s.board ∧ (State.finishRow s i u p).tap = s.tap ∧ (State.finishRow s i u p).power = s.power ∧ (State.finishRow s i u p).clocks = s.clocks ∧ (State.finishRow s i u p).thermal = s.thermal ∧ (State.finishRow s i u p).straps = s.straps ∧ (State.finishRow s i u p).boot = s.boot ∧ (State.finishRow s i u p).flash = s.flash ∧ (State.finishRow s i u p).fuses = s.fuses ∧ (State.finishRow s i u p).security = s.security ∧ (State.finishRow s i u p).models = s.models ∧ (State.finishRow s i u p).faultyEdges = s.faultyEdges ∧ (State.finishRow s i u p).cores = s.cores ∧ (State.finishRow s i u p).feeders = s.feeders ∧ (State.finishRow s i u p).lanes = s.lanes ∧ (State.finishRow s i u p).guards = s.guards ∧ (State.finishRow s i u p).mbx = s.mbx ∧ (State.finishRow s i u p).ports = s.ports ∧ (State.finishRow s i u p).smbOffset = s.smbOffset ∧ (State.finishRow s i u p).owner = s.owner ∧ (State.finishRow s i u p).cxl = s.cxl ∧ (State.finishRow s i u p).fabricSeq = s.fabricSeq ∧ (State.finishRow s i u p).mbxTurn = s.mbxTurn ∧ (State.finishRow s i u p).turns = s.turns ∧ (State.finishRow s i u p).accepted = s.accepted ∧ (State.finishRow s i u p).bus = s.bus ∧ (State.finishRow s i u p).freeTick = s.freeTick := by
  unfold State.finishRow
  try dsimp only
  (repeat' split) <;> simp

@[simp] theorem State.finishAud_leaves (s : State) (i : Nat) (u : UnitJob) :
    (State.finishAud s i u).pending = s.pending ∧ (State.finishAud s i u).wall = s.wall ∧ (State.finishAud s i u).time = s.time ∧ (State.finishAud s i u).board = s.board ∧ (State.finishAud s i u).tap = s.tap ∧ (State.finishAud s i u).power = s.power ∧ (State.finishAud s i u).clocks = s.clocks ∧ (State.finishAud s i u).thermal = s.thermal ∧ (State.finishAud s i u).straps = s.straps ∧ (State.finishAud s i u).boot = s.boot ∧ (State.finishAud s i u).flash = s.flash ∧ (State.finishAud s i u).fuses = s.fuses ∧ (State.finishAud s i u).security = s.security ∧ (State.finishAud s i u).models = s.models ∧ (State.finishAud s i u).faultyEdges = s.faultyEdges ∧ (State.finishAud s i u).cores = s.cores ∧ (State.finishAud s i u).feeders = s.feeders ∧ (State.finishAud s i u).lanes = s.lanes ∧ (State.finishAud s i u).guards = s.guards ∧ (State.finishAud s i u).mbx = s.mbx ∧ (State.finishAud s i u).ports = s.ports ∧ (State.finishAud s i u).smbOffset = s.smbOffset ∧ (State.finishAud s i u).owner = s.owner ∧ (State.finishAud s i u).cxl = s.cxl ∧ (State.finishAud s i u).grants = s.grants ∧ (State.finishAud s i u).fabricSeq = s.fabricSeq ∧ (State.finishAud s i u).mbxTurn = s.mbxTurn ∧ (State.finishAud s i u).turns = s.turns ∧ (State.finishAud s i u).accepted = s.accepted ∧ (State.finishAud s i u).bus = s.bus ∧ (State.finishAud s i u).freeTick = s.freeTick := by
  unfold State.finishAud
  try dsimp only
  (repeat' split) <;> simp

@[simp] theorem State.finishAgain_leaves (s : State) (i : Nat) (u : UnitJob) :
    (State.finishAgain s i u).pending = s.pending ∧ (State.finishAgain s i u).wall = s.wall ∧ (State.finishAgain s i u).time = s.time ∧ (State.finishAgain s i u).board = s.board ∧ (State.finishAgain s i u).tap = s.tap ∧ (State.finishAgain s i u).power = s.power ∧ (State.finishAgain s i u).clocks = s.clocks ∧ (State.finishAgain s i u).thermal = s.thermal ∧ (State.finishAgain s i u).straps = s.straps ∧ (State.finishAgain s i u).boot = s.boot ∧ (State.finishAgain s i u).flash = s.flash ∧ (State.finishAgain s i u).fuses = s.fuses ∧ (State.finishAgain s i u).security = s.security ∧ (State.finishAgain s i u).models = s.models ∧ (State.finishAgain s i u).dies = s.dies ∧ (State.finishAgain s i u).faultyEdges = s.faultyEdges ∧ (State.finishAgain s i u).cores = s.cores ∧ (State.finishAgain s i u).feeders = s.feeders ∧ (State.finishAgain s i u).memory = s.memory ∧ (State.finishAgain s i u).lanes = s.lanes ∧ (State.finishAgain s i u).guards = s.guards ∧ (State.finishAgain s i u).mbx = s.mbx ∧ (State.finishAgain s i u).ports = s.ports ∧ (State.finishAgain s i u).smbOffset = s.smbOffset ∧ (State.finishAgain s i u).alertPending = s.alertPending ∧ (State.finishAgain s i u).owner = s.owner ∧ (State.finishAgain s i u).log = s.log ∧ (State.finishAgain s i u).pcie = s.pcie ∧ (State.finishAgain s i u).cxl = s.cxl ∧ (State.finishAgain s i u).cascade = s.cascade ∧ (State.finishAgain s i u).grants = s.grants ∧ (State.finishAgain s i u).fabricSeq = s.fabricSeq ∧ (State.finishAgain s i u).mbxTurn = s.mbxTurn ∧ (State.finishAgain s i u).turns = s.turns ∧ (State.finishAgain s i u).accepted = s.accepted ∧ (State.finishAgain s i u).bus = s.bus ∧ (State.finishAgain s i u).freeTick = s.freeTick := by
  unfold State.finishAgain
  try dsimp only
  (repeat' split) <;> simp

@[simp] theorem State.finishUnit_leaves (s : State) (i : Nat) (u : UnitJob) :
    (State.finishUnit s i u).pending = s.pending ∧ (State.finishUnit s i u).wall = s.wall ∧ (State.finishUnit s i u).time = s.time ∧ (State.finishUnit s i u).board = s.board ∧ (State.finishUnit s i u).tap = s.tap ∧ (State.finishUnit s i u).power = s.power ∧ (State.finishUnit s i u).clocks = s.clocks ∧ (State.finishUnit s i u).thermal = s.thermal ∧ (State.finishUnit s i u).straps = s.straps ∧ (State.finishUnit s i u).boot = s.boot ∧ (State.finishUnit s i u).flash = s.flash ∧ (State.finishUnit s i u).fuses = s.fuses ∧ (State.finishUnit s i u).security = s.security ∧ (State.finishUnit s i u).models = s.models ∧ (State.finishUnit s i u).faultyEdges = s.faultyEdges ∧ (State.finishUnit s i u).cores = s.cores ∧ (State.finishUnit s i u).feeders = s.feeders ∧ (State.finishUnit s i u).lanes = s.lanes ∧ (State.finishUnit s i u).guards = s.guards ∧ (State.finishUnit s i u).mbx = s.mbx ∧ (State.finishUnit s i u).ports = s.ports ∧ (State.finishUnit s i u).smbOffset = s.smbOffset ∧ (State.finishUnit s i u).owner = s.owner ∧ (State.finishUnit s i u).cxl = s.cxl ∧ (State.finishUnit s i u).fabricSeq = s.fabricSeq ∧ (State.finishUnit s i u).mbxTurn = s.mbxTurn ∧ (State.finishUnit s i u).turns = s.turns ∧ (State.finishUnit s i u).accepted = s.accepted ∧ (State.finishUnit s i u).bus = s.bus ∧ (State.finishUnit s i u).freeTick = s.freeTick := by
  unfold State.finishUnit
  try dsimp only
  (repeat' split) <;> simp

/-! ### Regs -/

@[simp] theorem State.clearClk_leaves (s : State) (v : Nat) :
    (State.clearClk s v).pending = s.pending ∧ (State.clearClk s v).wall = s.wall ∧ (State.clearClk s v).time = s.time ∧ (State.clearClk s v).board = s.board ∧ (State.clearClk s v).tap = s.tap ∧ (State.clearClk s v).power = s.power ∧ (State.clearClk s v).thermal = s.thermal ∧ (State.clearClk s v).straps = s.straps ∧ (State.clearClk s v).boot = s.boot ∧ (State.clearClk s v).flash = s.flash ∧ (State.clearClk s v).fuses = s.fuses ∧ (State.clearClk s v).security = s.security ∧ (State.clearClk s v).models = s.models ∧ (State.clearClk s v).dies = s.dies ∧ (State.clearClk s v).faultyEdges = s.faultyEdges ∧ (State.clearClk s v).cores = s.cores ∧ (State.clearClk s v).feeders = s.feeders ∧ (State.clearClk s v).memory = s.memory ∧ (State.clearClk s v).lanes = s.lanes ∧ (State.clearClk s v).guards = s.guards ∧ (State.clearClk s v).mbx = s.mbx ∧ (State.clearClk s v).ports = s.ports ∧ (State.clearClk s v).smbOffset = s.smbOffset ∧ (State.clearClk s v).alertPending = s.alertPending ∧ (State.clearClk s v).owner = s.owner ∧ (State.clearClk s v).log = s.log ∧ (State.clearClk s v).pcie = s.pcie ∧ (State.clearClk s v).cxl = s.cxl ∧ (State.clearClk s v).cascade = s.cascade ∧ (State.clearClk s v).sessions = s.sessions ∧ (State.clearClk s v).grants = s.grants ∧ (State.clearClk s v).fabricSeq = s.fabricSeq ∧ (State.clearClk s v).mbxTurn = s.mbxTurn ∧ (State.clearClk s v).turns = s.turns ∧ (State.clearClk s v).accepted = s.accepted ∧ (State.clearClk s v).bus = s.bus ∧ (State.clearClk s v).freeTick = s.freeTick := by
  unfold State.clearClk
  try dsimp only
  (repeat' split) <;> simp

@[simp] theorem State.clearTherm_leaves (s : State) (v : Nat) :
    (State.clearTherm s v).pending = s.pending ∧ (State.clearTherm s v).wall = s.wall ∧ (State.clearTherm s v).time = s.time ∧ (State.clearTherm s v).board = s.board ∧ (State.clearTherm s v).tap = s.tap ∧ (State.clearTherm s v).power = s.power ∧ (State.clearTherm s v).clocks = s.clocks ∧ (State.clearTherm s v).straps = s.straps ∧ (State.clearTherm s v).boot = s.boot ∧ (State.clearTherm s v).flash = s.flash ∧ (State.clearTherm s v).fuses = s.fuses ∧ (State.clearTherm s v).security = s.security ∧ (State.clearTherm s v).models = s.models ∧ (State.clearTherm s v).dies = s.dies ∧ (State.clearTherm s v).faultyEdges = s.faultyEdges ∧ (State.clearTherm s v).cores = s.cores ∧ (State.clearTherm s v).feeders = s.feeders ∧ (State.clearTherm s v).memory = s.memory ∧ (State.clearTherm s v).lanes = s.lanes ∧ (State.clearTherm s v).guards = s.guards ∧ (State.clearTherm s v).mbx = s.mbx ∧ (State.clearTherm s v).ports = s.ports ∧ (State.clearTherm s v).smbOffset = s.smbOffset ∧ (State.clearTherm s v).alertPending = s.alertPending ∧ (State.clearTherm s v).owner = s.owner ∧ (State.clearTherm s v).log = s.log ∧ (State.clearTherm s v).pcie = s.pcie ∧ (State.clearTherm s v).cxl = s.cxl ∧ (State.clearTherm s v).cascade = s.cascade ∧ (State.clearTherm s v).sessions = s.sessions ∧ (State.clearTherm s v).grants = s.grants ∧ (State.clearTherm s v).fabricSeq = s.fabricSeq ∧ (State.clearTherm s v).mbxTurn = s.mbxTurn ∧ (State.clearTherm s v).turns = s.turns ∧ (State.clearTherm s v).accepted = s.accepted ∧ (State.clearTherm s v).bus = s.bus ∧ (State.clearTherm s v).freeTick = s.freeTick := by
  unfold State.clearTherm
  try dsimp only
  (repeat' split) <;> simp

@[simp] theorem State.clearCxl_leaves (s : State) (x v : Nat) :
    (State.clearCxl s x v).pending = s.pending ∧ (State.clearCxl s x v).wall = s.wall ∧ (State.clearCxl s x v).time = s.time ∧ (State.clearCxl s x v).board = s.board ∧ (State.clearCxl s x v).tap = s.tap ∧ (State.clearCxl s x v).power = s.power ∧ (State.clearCxl s x v).clocks = s.clocks ∧ (State.clearCxl s x v).thermal = s.thermal ∧ (State.clearCxl s x v).straps = s.straps ∧ (State.clearCxl s x v).boot = s.boot ∧ (State.clearCxl s x v).flash = s.flash ∧ (State.clearCxl s x v).fuses = s.fuses ∧ (State.clearCxl s x v).security = s.security ∧ (State.clearCxl s x v).models = s.models ∧ (State.clearCxl s x v).dies = s.dies ∧ (State.clearCxl s x v).faultyEdges = s.faultyEdges ∧ (State.clearCxl s x v).cores = s.cores ∧ (State.clearCxl s x v).feeders = s.feeders ∧ (State.clearCxl s x v).memory = s.memory ∧ (State.clearCxl s x v).lanes = s.lanes ∧ (State.clearCxl s x v).guards = s.guards ∧ (State.clearCxl s x v).mbx = s.mbx ∧ (State.clearCxl s x v).ports = s.ports ∧ (State.clearCxl s x v).smbOffset = s.smbOffset ∧ (State.clearCxl s x v).alertPending = s.alertPending ∧ (State.clearCxl s x v).owner = s.owner ∧ (State.clearCxl s x v).log = s.log ∧ (State.clearCxl s x v).pcie = s.pcie ∧ (State.clearCxl s x v).cascade = s.cascade ∧ (State.clearCxl s x v).sessions = s.sessions ∧ (State.clearCxl s x v).grants = s.grants ∧ (State.clearCxl s x v).fabricSeq = s.fabricSeq ∧ (State.clearCxl s x v).mbxTurn = s.mbxTurn ∧ (State.clearCxl s x v).turns = s.turns ∧ (State.clearCxl s x v).accepted = s.accepted ∧ (State.clearCxl s x v).bus = s.bus ∧ (State.clearCxl s x v).freeTick = s.freeTick := by
  unfold State.clearCxl
  try dsimp only
  (repeat' split) <;> simp

@[simp] theorem State.writeHub_leaves (s : State) (p o v : Nat) :
    (State.writeHub s p o v).pending = s.pending ∧ (State.writeHub s p o v).wall = s.wall ∧ (State.writeHub s p o v).time = s.time ∧ (State.writeHub s p o v).board = s.board ∧ (State.writeHub s p o v).tap = s.tap ∧ (State.writeHub s p o v).power = s.power ∧ (State.writeHub s p o v).straps = s.straps ∧ (State.writeHub s p o v).boot = s.boot ∧ (State.writeHub s p o v).flash = s.flash ∧ (State.writeHub s p o v).fuses = s.fuses ∧ (State.writeHub s p o v).security = s.security ∧ (State.writeHub s p o v).models = s.models ∧ (State.writeHub s p o v).dies = s.dies ∧ (State.writeHub s p o v).faultyEdges = s.faultyEdges ∧ (State.writeHub s p o v).cores = s.cores ∧ (State.writeHub s p o v).feeders = s.feeders ∧ (State.writeHub s p o v).memory = s.memory ∧ (State.writeHub s p o v).lanes = s.lanes ∧ (State.writeHub s p o v).guards = s.guards ∧ (State.writeHub s p o v).mbx = s.mbx ∧ (State.writeHub s p o v).smbOffset = s.smbOffset ∧ (State.writeHub s p o v).alertPending = s.alertPending ∧ (State.writeHub s p o v).owner = s.owner ∧ (State.writeHub s p o v).log = s.log ∧ (State.writeHub s p o v).cascade = s.cascade ∧ (State.writeHub s p o v).sessions = s.sessions ∧ (State.writeHub s p o v).grants = s.grants ∧ (State.writeHub s p o v).fabricSeq = s.fabricSeq ∧ (State.writeHub s p o v).mbxTurn = s.mbxTurn ∧ (State.writeHub s p o v).turns = s.turns ∧ (State.writeHub s p o v).accepted = s.accepted ∧ (State.writeHub s p o v).bus = s.bus ∧ (State.writeHub s p o v).freeTick = s.freeTick := by
  unfold State.writeHub
  try dsimp only
  (repeat' split) <;> simp

@[simp] theorem State.writeBar0_leaves (s : State) (p a : Nat) (bs : Bytes) :
    (State.writeBar0 s p a bs).pending = s.pending ∧ (State.writeBar0 s p a bs).wall = s.wall ∧ (State.writeBar0 s p a bs).time = s.time ∧ (State.writeBar0 s p a bs).board = s.board ∧ (State.writeBar0 s p a bs).tap = s.tap ∧ (State.writeBar0 s p a bs).power = s.power ∧ (State.writeBar0 s p a bs).straps = s.straps ∧ (State.writeBar0 s p a bs).boot = s.boot ∧ (State.writeBar0 s p a bs).flash = s.flash ∧ (State.writeBar0 s p a bs).fuses = s.fuses ∧ (State.writeBar0 s p a bs).security = s.security ∧ (State.writeBar0 s p a bs).models = s.models ∧ (State.writeBar0 s p a bs).dies = s.dies ∧ (State.writeBar0 s p a bs).faultyEdges = s.faultyEdges ∧ (State.writeBar0 s p a bs).cores = s.cores ∧ (State.writeBar0 s p a bs).feeders = s.feeders ∧ (State.writeBar0 s p a bs).memory = s.memory ∧ (State.writeBar0 s p a bs).lanes = s.lanes ∧ (State.writeBar0 s p a bs).guards = s.guards ∧ (State.writeBar0 s p a bs).smbOffset = s.smbOffset ∧ (State.writeBar0 s p a bs).owner = s.owner ∧ (State.writeBar0 s p a bs).log = s.log ∧ (State.writeBar0 s p a bs).sessions = s.sessions ∧ (State.writeBar0 s p a bs).grants = s.grants ∧ (State.writeBar0 s p a bs).fabricSeq = s.fabricSeq ∧ (State.writeBar0 s p a bs).mbxTurn = s.mbxTurn ∧ (State.writeBar0 s p a bs).turns = s.turns ∧ (State.writeBar0 s p a bs).accepted = s.accepted ∧ (State.writeBar0 s p a bs).bus = s.bus ∧ (State.writeBar0 s p a bs).freeTick = s.freeTick := by
  unfold State.writeBar0
  dsimp only
  split
  · refine ⟨?_, ?_, ?_, ?_, ?_, ?_, ?_, ?_, ?_, ?_, ?_, ?_, ?_, ?_, ?_, ?_, ?_, ?_, ?_, ?_, ?_, ?_, ?_, ?_, ?_, ?_, ?_, ?_, ?_, ?_⟩ <;> exact State.foldl_same _ _ (fun t x => by (repeat' split) <;> simp) _ _
  · refine ⟨?_, ?_, ?_, ?_, ?_, ?_, ?_, ?_, ?_, ?_, ?_, ?_, ?_, ?_, ?_, ?_, ?_, ?_, ?_, ?_, ?_, ?_, ?_, ?_, ?_, ?_, ?_, ?_, ?_, ?_⟩ <;> exact (State.foldl_same _ _ (fun t x => by (repeat' split) <;> simp) _ _).trans (by split <;> simp)

@[simp] theorem State.writeSmbus_leaves (s : State) (code v : Nat) :
    (State.writeSmbus s code v).pending = s.pending ∧ (State.writeSmbus s code v).wall = s.wall ∧ (State.writeSmbus s code v).time = s.time ∧ (State.writeSmbus s code v).board = s.board ∧ (State.writeSmbus s code v).tap = s.tap ∧ (State.writeSmbus s code v).straps = s.straps ∧ (State.writeSmbus s code v).boot = s.boot ∧ (State.writeSmbus s code v).flash = s.flash ∧ (State.writeSmbus s code v).fuses = s.fuses ∧ (State.writeSmbus s code v).security = s.security ∧ (State.writeSmbus s code v).models = s.models ∧ (State.writeSmbus s code v).dies = s.dies ∧ (State.writeSmbus s code v).faultyEdges = s.faultyEdges ∧ (State.writeSmbus s code v).cores = s.cores ∧ (State.writeSmbus s code v).feeders = s.feeders ∧ (State.writeSmbus s code v).memory = s.memory ∧ (State.writeSmbus s code v).lanes = s.lanes ∧ (State.writeSmbus s code v).guards = s.guards ∧ (State.writeSmbus s code v).mbx = s.mbx ∧ (State.writeSmbus s code v).ports = s.ports ∧ (State.writeSmbus s code v).smbOffset = s.smbOffset ∧ (State.writeSmbus s code v).alertPending = s.alertPending ∧ (State.writeSmbus s code v).owner = s.owner ∧ (State.writeSmbus s code v).log = s.log ∧ (State.writeSmbus s code v).pcie = s.pcie ∧ (State.writeSmbus s code v).cxl = s.cxl ∧ (State.writeSmbus s code v).cascade = s.cascade ∧ (State.writeSmbus s code v).sessions = s.sessions ∧ (State.writeSmbus s code v).grants = s.grants ∧ (State.writeSmbus s code v).fabricSeq = s.fabricSeq ∧ (State.writeSmbus s code v).mbxTurn = s.mbxTurn ∧ (State.writeSmbus s code v).turns = s.turns ∧ (State.writeSmbus s code v).accepted = s.accepted ∧ (State.writeSmbus s code v).freeTick = s.freeTick := by
  unfold State.writeSmbus
  try dsimp only
  (repeat' split) <;> simp

@[simp] theorem State.writeCoreDie_leaves (s : State) (d o v : Nat) :
    (State.writeCoreDie s d o v).pending = s.pending ∧ (State.writeCoreDie s d o v).wall = s.wall ∧ (State.writeCoreDie s d o v).time = s.time ∧ (State.writeCoreDie s d o v).board = s.board ∧ (State.writeCoreDie s d o v).tap = s.tap ∧ (State.writeCoreDie s d o v).power = s.power ∧ (State.writeCoreDie s d o v).clocks = s.clocks ∧ (State.writeCoreDie s d o v).thermal = s.thermal ∧ (State.writeCoreDie s d o v).straps = s.straps ∧ (State.writeCoreDie s d o v).boot = s.boot ∧ (State.writeCoreDie s d o v).flash = s.flash ∧ (State.writeCoreDie s d o v).fuses = s.fuses ∧ (State.writeCoreDie s d o v).security = s.security ∧ (State.writeCoreDie s d o v).models = s.models ∧ (State.writeCoreDie s d o v).dies = s.dies ∧ (State.writeCoreDie s d o v).faultyEdges = s.faultyEdges ∧ (State.writeCoreDie s d o v).feeders = s.feeders ∧ (State.writeCoreDie s d o v).memory = s.memory ∧ (State.writeCoreDie s d o v).lanes = s.lanes ∧ (State.writeCoreDie s d o v).guards = s.guards ∧ (State.writeCoreDie s d o v).mbx = s.mbx ∧ (State.writeCoreDie s d o v).ports = s.ports ∧ (State.writeCoreDie s d o v).smbOffset = s.smbOffset ∧ (State.writeCoreDie s d o v).alertPending = s.alertPending ∧ (State.writeCoreDie s d o v).owner = s.owner ∧ (State.writeCoreDie s d o v).log = s.log ∧ (State.writeCoreDie s d o v).pcie = s.pcie ∧ (State.writeCoreDie s d o v).cxl = s.cxl ∧ (State.writeCoreDie s d o v).cascade = s.cascade ∧ (State.writeCoreDie s d o v).sessions = s.sessions ∧ (State.writeCoreDie s d o v).grants = s.grants ∧ (State.writeCoreDie s d o v).fabricSeq = s.fabricSeq ∧ (State.writeCoreDie s d o v).mbxTurn = s.mbxTurn ∧ (State.writeCoreDie s d o v).turns = s.turns ∧ (State.writeCoreDie s d o v).accepted = s.accepted ∧ (State.writeCoreDie s d o v).bus = s.bus ∧ (State.writeCoreDie s d o v).freeTick = s.freeTick := by
  unfold State.writeCoreDie
  try dsimp only
  (repeat' split) <;> simp

@[simp] theorem State.writeMemDie_leaves (s : State) (m o v : Nat) :
    (State.writeMemDie s m o v).pending = s.pending ∧ (State.writeMemDie s m o v).wall = s.wall ∧ (State.writeMemDie s m o v).time = s.time ∧ (State.writeMemDie s m o v).board = s.board ∧ (State.writeMemDie s m o v).tap = s.tap ∧ (State.writeMemDie s m o v).power = s.power ∧ (State.writeMemDie s m o v).clocks = s.clocks ∧ (State.writeMemDie s m o v).thermal = s.thermal ∧ (State.writeMemDie s m o v).straps = s.straps ∧ (State.writeMemDie s m o v).boot = s.boot ∧ (State.writeMemDie s m o v).flash = s.flash ∧ (State.writeMemDie s m o v).fuses = s.fuses ∧ (State.writeMemDie s m o v).security = s.security ∧ (State.writeMemDie s m o v).models = s.models ∧ (State.writeMemDie s m o v).dies = s.dies ∧ (State.writeMemDie s m o v).faultyEdges = s.faultyEdges ∧ (State.writeMemDie s m o v).cores = s.cores ∧ (State.writeMemDie s m o v).lanes = s.lanes ∧ (State.writeMemDie s m o v).guards = s.guards ∧ (State.writeMemDie s m o v).mbx = s.mbx ∧ (State.writeMemDie s m o v).ports = s.ports ∧ (State.writeMemDie s m o v).smbOffset = s.smbOffset ∧ (State.writeMemDie s m o v).alertPending = s.alertPending ∧ (State.writeMemDie s m o v).owner = s.owner ∧ (State.writeMemDie s m o v).log = s.log ∧ (State.writeMemDie s m o v).pcie = s.pcie ∧ (State.writeMemDie s m o v).cxl = s.cxl ∧ (State.writeMemDie s m o v).cascade = s.cascade ∧ (State.writeMemDie s m o v).sessions = s.sessions ∧ (State.writeMemDie s m o v).grants = s.grants ∧ (State.writeMemDie s m o v).fabricSeq = s.fabricSeq ∧ (State.writeMemDie s m o v).mbxTurn = s.mbxTurn ∧ (State.writeMemDie s m o v).turns = s.turns ∧ (State.writeMemDie s m o v).accepted = s.accepted ∧ (State.writeMemDie s m o v).bus = s.bus ∧ (State.writeMemDie s m o v).freeTick = s.freeTick := by
  unfold State.writeMemDie
  try dsimp only
  (repeat' split) <;> simp

@[simp] theorem State.writeStreamDie_leaves (s : State) (k o v : Nat) :
    (State.writeStreamDie s k o v).pending = s.pending ∧ (State.writeStreamDie s k o v).wall = s.wall ∧ (State.writeStreamDie s k o v).time = s.time ∧ (State.writeStreamDie s k o v).board = s.board ∧ (State.writeStreamDie s k o v).tap = s.tap ∧ (State.writeStreamDie s k o v).power = s.power ∧ (State.writeStreamDie s k o v).clocks = s.clocks ∧ (State.writeStreamDie s k o v).thermal = s.thermal ∧ (State.writeStreamDie s k o v).straps = s.straps ∧ (State.writeStreamDie s k o v).boot = s.boot ∧ (State.writeStreamDie s k o v).flash = s.flash ∧ (State.writeStreamDie s k o v).fuses = s.fuses ∧ (State.writeStreamDie s k o v).security = s.security ∧ (State.writeStreamDie s k o v).models = s.models ∧ (State.writeStreamDie s k o v).dies = s.dies ∧ (State.writeStreamDie s k o v).faultyEdges = s.faultyEdges ∧ (State.writeStreamDie s k o v).cores = s.cores ∧ (State.writeStreamDie s k o v).feeders = s.feeders ∧ (State.writeStreamDie s k o v).memory = s.memory ∧ (State.writeStreamDie s k o v).guards = s.guards ∧ (State.writeStreamDie s k o v).mbx = s.mbx ∧ (State.writeStreamDie s k o v).ports = s.ports ∧ (State.writeStreamDie s k o v).smbOffset = s.smbOffset ∧ (State.writeStreamDie s k o v).alertPending = s.alertPending ∧ (State.writeStreamDie s k o v).owner = s.owner ∧ (State.writeStreamDie s k o v).log = s.log ∧ (State.writeStreamDie s k o v).pcie = s.pcie ∧ (State.writeStreamDie s k o v).cxl = s.cxl ∧ (State.writeStreamDie s k o v).cascade = s.cascade ∧ (State.writeStreamDie s k o v).sessions = s.sessions ∧ (State.writeStreamDie s k o v).grants = s.grants ∧ (State.writeStreamDie s k o v).fabricSeq = s.fabricSeq ∧ (State.writeStreamDie s k o v).mbxTurn = s.mbxTurn ∧ (State.writeStreamDie s k o v).turns = s.turns ∧ (State.writeStreamDie s k o v).accepted = s.accepted ∧ (State.writeStreamDie s k o v).bus = s.bus ∧ (State.writeStreamDie s k o v).freeTick = s.freeTick := by
  unfold State.writeStreamDie
  try dsimp only
  (repeat' split) <;> simp

@[simp] theorem State.writeLinkDie_leaves (s : State) (o v : Nat) :
    (State.writeLinkDie s o v).pending = s.pending ∧ (State.writeLinkDie s o v).wall = s.wall ∧ (State.writeLinkDie s o v).time = s.time ∧ (State.writeLinkDie s o v).board = s.board ∧ (State.writeLinkDie s o v).tap = s.tap ∧ (State.writeLinkDie s o v).power = s.power ∧ (State.writeLinkDie s o v).clocks = s.clocks ∧ (State.writeLinkDie s o v).thermal = s.thermal ∧ (State.writeLinkDie s o v).straps = s.straps ∧ (State.writeLinkDie s o v).boot = s.boot ∧ (State.writeLinkDie s o v).flash = s.flash ∧ (State.writeLinkDie s o v).fuses = s.fuses ∧ (State.writeLinkDie s o v).security = s.security ∧ (State.writeLinkDie s o v).models = s.models ∧ (State.writeLinkDie s o v).dies = s.dies ∧ (State.writeLinkDie s o v).faultyEdges = s.faultyEdges ∧ (State.writeLinkDie s o v).cores = s.cores ∧ (State.writeLinkDie s o v).feeders = s.feeders ∧ (State.writeLinkDie s o v).memory = s.memory ∧ (State.writeLinkDie s o v).lanes = s.lanes ∧ (State.writeLinkDie s o v).guards = s.guards ∧ (State.writeLinkDie s o v).mbx = s.mbx ∧ (State.writeLinkDie s o v).ports = s.ports ∧ (State.writeLinkDie s o v).smbOffset = s.smbOffset ∧ (State.writeLinkDie s o v).alertPending = s.alertPending ∧ (State.writeLinkDie s o v).owner = s.owner ∧ (State.writeLinkDie s o v).log = s.log ∧ (State.writeLinkDie s o v).pcie = s.pcie ∧ (State.writeLinkDie s o v).cxl = s.cxl ∧ (State.writeLinkDie s o v).sessions = s.sessions ∧ (State.writeLinkDie s o v).grants = s.grants ∧ (State.writeLinkDie s o v).fabricSeq = s.fabricSeq ∧ (State.writeLinkDie s o v).mbxTurn = s.mbxTurn ∧ (State.writeLinkDie s o v).turns = s.turns ∧ (State.writeLinkDie s o v).accepted = s.accepted ∧ (State.writeLinkDie s o v).bus = s.bus ∧ (State.writeLinkDie s o v).freeTick = s.freeTick := by
  unfold State.writeLinkDie
  try dsimp only
  (repeat' split) <;> simp

@[simp] theorem State.writeWindow_leaves (s : State) (addr v : Nat) :
    (State.writeWindow s addr v).pending = s.pending ∧ (State.writeWindow s addr v).wall = s.wall ∧ (State.writeWindow s addr v).time = s.time ∧ (State.writeWindow s addr v).board = s.board ∧ (State.writeWindow s addr v).tap = s.tap ∧ (State.writeWindow s addr v).power = s.power ∧ (State.writeWindow s addr v).clocks = s.clocks ∧ (State.writeWindow s addr v).thermal = s.thermal ∧ (State.writeWindow s addr v).straps = s.straps ∧ (State.writeWindow s addr v).boot = s.boot ∧ (State.writeWindow s addr v).flash = s.flash ∧ (State.writeWindow s addr v).fuses = s.fuses ∧ (State.writeWindow s addr v).security = s.security ∧ (State.writeWindow s addr v).models = s.models ∧ (State.writeWindow s addr v).dies = s.dies ∧ (State.writeWindow s addr v).faultyEdges = s.faultyEdges ∧ (State.writeWindow s addr v).guards = s.guards ∧ (State.writeWindow s addr v).mbx = s.mbx ∧ (State.writeWindow s addr v).ports = s.ports ∧ (State.writeWindow s addr v).smbOffset = s.smbOffset ∧ (State.writeWindow s addr v).alertPending = s.alertPending ∧ (State.writeWindow s addr v).owner = s.owner ∧ (State.writeWindow s addr v).log = s.log ∧ (State.writeWindow s addr v).pcie = s.pcie ∧ (State.writeWindow s addr v).cxl = s.cxl ∧ (State.writeWindow s addr v).sessions = s.sessions ∧ (State.writeWindow s addr v).grants = s.grants ∧ (State.writeWindow s addr v).fabricSeq = s.fabricSeq ∧ (State.writeWindow s addr v).mbxTurn = s.mbxTurn ∧ (State.writeWindow s addr v).turns = s.turns ∧ (State.writeWindow s addr v).accepted = s.accepted ∧ (State.writeWindow s addr v).bus = s.bus ∧ (State.writeWindow s addr v).freeTick = s.freeTick := by
  unfold State.writeWindow
  try dsimp only
  (repeat' split) <;> simp

@[simp] theorem State.writeReg_leaves (s : State) (w : Writer) (addr : Nat) (data : Bytes) :
    (State.writeReg s w addr data).pending = s.pending ∧ (State.writeReg s w addr data).wall = s.wall ∧ (State.writeReg s w addr data).time = s.time ∧ (State.writeReg s w addr data).board = s.board ∧ (State.writeReg s w addr data).tap = s.tap ∧ (State.writeReg s w addr data).straps = s.straps ∧ (State.writeReg s w addr data).boot = s.boot ∧ (State.writeReg s w addr data).flash = s.flash ∧ (State.writeReg s w addr data).fuses = s.fuses ∧ (State.writeReg s w addr data).security = s.security ∧ (State.writeReg s w addr data).models = s.models ∧ (State.writeReg s w addr data).dies = s.dies ∧ (State.writeReg s w addr data).faultyEdges = s.faultyEdges ∧ (State.writeReg s w addr data).guards = s.guards ∧ (State.writeReg s w addr data).smbOffset = s.smbOffset ∧ (State.writeReg s w addr data).owner = s.owner ∧ (State.writeReg s w addr data).log = s.log ∧ (State.writeReg s w addr data).sessions = s.sessions ∧ (State.writeReg s w addr data).grants = s.grants ∧ (State.writeReg s w addr data).fabricSeq = s.fabricSeq ∧ (State.writeReg s w addr data).mbxTurn = s.mbxTurn ∧ (State.writeReg s w addr data).turns = s.turns ∧ (State.writeReg s w addr data).accepted = s.accepted ∧ (State.writeReg s w addr data).freeTick = s.freeTick := by
  unfold State.writeReg
  try dsimp only
  (repeat' split) <;> simp

end Sys2Proof.Machine
end

