-- ==== Sys2Proof/Laws/Slots.lean ====
section
/-! SUPPORT. What a port reset does to the slots, and the ring upkeep of a state whose rings hold nothing back. -/

namespace Sys2Proof.Machine

/-- A slot as a reset of its port leaves it (R330). -/
def MbxSlot.afterReset (m : MbxSlot) : MbxSlot :=
  if m.st = 1 then { m with st := 0 } else if m.st = 2 then { m with signal := false } else m

/-- One slot of a port reset. -/
def State.resetSlot (p : Nat) (s : State) (k : Nat) : State :=
  match (s.slot p k).st with
  | 1 => s.updSlot p k (fun m => { m with st := 0 })
  | 2 => s.updSlot p k (fun m => { m with signal := false })
  | _ => s

theorem State.resetSlots_eq (s : State) (p : Nat) : s.resetSlots p = (List.range 64).foldl (State.resetSlot p) s := rfl

theorem State.slot_updSlot (s : State) (p k q j : Nat) (f : MbxSlot → MbxSlot) (hk : k < 64) (hj : j < 64) :
    (s.updSlot p k f).slot q j = if q = p ∧ j = k then f (s.slot p k) else s.slot q j := by
  unfold State.slot State.updSlot
  dsimp only
  split
  · next h => obtain ⟨rfl, rfl⟩ := h; rw [Tab.get_upd_same]
  · next h => rw [Tab.get_upd_other]; omega

theorem State.resetSlot_slot (s : State) (p k q j : Nat) (hk : k < 64) (hj : j < 64) :
    (s.resetSlot p k).slot q j = if q = p ∧ j = k then (s.slot p k).afterReset else s.slot q j := by
  unfold State.resetSlot MbxSlot.afterReset
  split
  · next h => rw [State.slot_updSlot _ _ _ _ _ _ hk hj, h]; rfl
  · next h => rw [State.slot_updSlot _ _ _ _ _ _ hk hj, h]; rfl
  · next h1 h2 =>
    rw [if_neg h1, if_neg h2]
    split
    · next h => rw [h.1, h.2]
    · rfl

theorem State.resetSlots_range (n : Nat) (hn : n ≤ 64) (s : State) (p q j : Nat) (hj : j < 64) :
    ((List.range n).foldl (State.resetSlot p) s).slot q j =
      if q = p ∧ j < n then (s.slot p j).afterReset else s.slot q j := by
  induction n with
  | zero => simp
  | succ n ih =>
    rw [List.range_succ, List.foldl_append, List.foldl_cons, List.foldl_nil, State.resetSlot_slot _ _ _ _ _ (by omega) hj, ih (by omega)]
    by_cases hq : q = p
    · subst hq
      by_cases hjn : j = n
      · subst hjn
        simp [ih (by omega)]
      · have : j < n + 1 ↔ j < n := by omega
        simp [hjn, this]
    · simp [hq]

/-- Every slot of the port as R330 leaves it; the slots of the other ports as they were. -/
theorem State.resetSlots_slot (s : State) (p q j : Nat) (hj : j < 64) :
    (s.resetSlots p).slot q j = if q = p then (s.slot p j).afterReset else s.slot q j := by
  rw [State.resetSlots_eq, State.resetSlots_range 64 (Nat.le_refl _) _ _ _ _ hj]
  simp [hj]

theorem State.resetSlot_rest (s : State) (p k : Nat) (m : Tab MbxSlot) : ({ s.resetSlot p k with mbx := m } : State) = { s with mbx := m } := by
  unfold State.resetSlot
  split <;> rfl

/-- A port reset's slots are all it touches. -/
theorem State.resetSlots_rest (s : State) (p : Nat) (m : Tab MbxSlot) : ({ s.resetSlots p with mbx := m } : State) = { s with mbx := m } := by
  rw [State.resetSlots_eq]
  have : ∀ (l : List Nat) (s : State), ({ l.foldl (State.resetSlot p) s with mbx := m } : State) = { s with mbx := m } := by
    intro l
    induction l with
    | nil => intro s; rfl
    | cons a l ih => intro s; rw [List.foldl_cons, ih, State.resetSlot_rest]
  exact this _ s

end Sys2Proof.Machine
end

