-- ==== Sys2Proof/Laws/Command.lean ====
section
/-! SUPPORT. How a mailbox command row runs: acceptance of the presented slot, the checks, and the answer. -/

namespace Sys2Proof.Machine

/-! ### One slot -/

theorem Mem.read_cells_beyond (bs : Bytes) (o : Nat) (h : bs.length ≤ o) : Mem.read (Mem.cells 0 bs) o = 0 := by
  rw [Mem.read_cells]
  simp [List.getElem?_eq_none h]

theorem Mem.readBytes_cells (bs : Bytes) : Mem.readBytes (Mem.cells 0 bs) 0 bs.length = bs := by
  have h := Mem.readBytes_writeBytes_same [] 0 bs
  simpa [Mem.writeBytes] using h

/-- A slot as an answer leaves it (R327, R328). -/
def MbxSlot.answered (m : MbxSlot) (a : Answer) (t : Nat) : MbxSlot :=
  { m with st := 3, status := a.status, detail := a.detail, stateNow := a.stateNow, genNow := a.genNow, seqEcho := m.seq,
           opEcho := m.opcode, respLen := a.resp.length, payload := Mem.cells 0 a.resp, request := [], tDone := t, signal := true }

theorem State.answer_slot (s : State) (p k : Nat) (a : Answer) (q j : Nat) (hk : k < 64) (hj : j < 64) :
    (s.answer p k a).slot q j = if q = p ∧ j = k then (s.slot p k).answered a s.time else s.slot q j := by
  have h : (s.answer p k a).mbx = (s.updSlot p k (fun m => m.answered a s.time)).mbx := by
    unfold State.answer
    dsimp only
    (repeat' split) <;> simp [MbxSlot.answered]
  have e : (s.answer p k a).slot q j = (s.updSlot p k (fun m => m.answered a s.time)).slot q j := by
    simp only [State.slot, h]
  rw [e, State.slot_updSlot _ _ _ _ _ _ hk hj]

theorem State.answer_time (s : State) (p k : Nat) (a : Answer) : (s.answer p k a).time = s.time := by simp

theorem State.settleSlot_slot (s : State) (p k q j : Nat) (hk : k < 64) (hj : j < 64) (h : ¬ (q = p ∧ j = k)) :
    (State.settleSlot p s k).slot q j = s.slot q j := by
  unfold State.settleSlot
  split
  · rw [State.answer_slot _ _ _ _ _ _ hk hj, if_neg h, State.slot_updSlot _ _ _ _ _ _ hk hj, if_neg h]
  · rfl

theorem State.settleSlots_slot (p q j : Nat) (hj : j < 64) (l : List Nat) (hl : ∀ k ∈ l, k < 64 ∧ ¬ (q = p ∧ j = k)) (s : State) :
    (l.foldl (State.settleSlot p) s).slot q j = s.slot q j := by
  induction l generalizing s with
  | nil => rfl
  | cons a l ih =>
    have ha := hl a List.mem_cons_self
    rw [List.foldl_cons, ih (fun k hk => hl k (List.mem_cons_of_mem _ hk)), State.settleSlot_slot _ _ _ _ _ ha.1 hj ha.2]

/-- Settling sequence numbers touches no slot but the port's SEALED ones. -/
theorem State.settleSeq_slot (s : State) (p q j : Nat) (hj : j < 64) (h : q ≠ p ∨ (s.slot p j).st ≠ 1) :
    (s.settleSeq p).slot q j = s.slot q j := by
  unfold State.settleSeq
  split
  · have e : ∀ u : State, (u.noteGap p).slot q j = u.slot q j := by intro u; simp [State.slot]
    rw [e]
    apply State.settleSlots_slot _ _ _ hj
    intro k hk
    simp only [State.sealedSlots, List.mem_filter, List.mem_range, decide_eq_true_eq] at hk
    refine ⟨hk.1, ?_⟩
    rintro ⟨rfl, rfl⟩
    rcases h with h | h
    · exact h rfl
    · exact h hk.2
  · rfl

/-- The accepted slot. -/
def MbxSlot.taken (m : MbxSlot) (t : Nat) : MbxSlot :=
  { m with st := 2, tAccept := t, request := if m.reqLen ≤ 4032 then Mem.readBytes m.payload 0 m.reqLen else [] }

theorem State.accept_slot (s : State) (p k : Nat) (hk : k < 64) : (s.accept p k).slot p k = (s.slot p k).taken s.time := by
  have hu : ∀ u : State, (u.updPort p MbxPort.advance).slot p k = u.slot p k := fun u => rfl
  have e : ((s.updSlot p k (fun m => m.taken s.time)).updPort p MbxPort.advance).slot p k = (s.slot p k).taken s.time := by
    rw [hu, State.slot_updSlot _ _ _ _ _ _ hk hk, if_pos ⟨rfl, rfl⟩]
  unfold State.accept
  refine (State.settleSeq_slot _ p p k hk (.inr ?_)).trans e
  have : ((s.slot p k).taken s.time).st ≠ 1 := by simp [MbxSlot.taken]
  exact fun h => this ((congrArg MbxSlot.st e).symm.trans h)

theorem State.accept_slot_other (s : State) (p k q j : Nat) (hk : k < 64) (hj : j < 64) (h : ¬ (q = p ∧ j = k))
    (hs : q ≠ p ∨ (s.slot p j).st ≠ 1) : (s.accept p k).slot q j = s.slot q j := by
  have hu : ∀ (u : State) q j, (u.updPort p MbxPort.advance).slot q j = u.slot q j := fun u q j => rfl
  have e : ((s.updSlot p k (fun m => m.taken s.time)).updPort p MbxPort.advance).slot q j = s.slot q j := by
    rw [hu, State.slot_updSlot _ _ _ _ _ _ hk hj, if_neg h]
  unfold State.accept
  refine (State.settleSeq_slot _ p q j hj ?_).trans e
  rcases hs with hs | hs
  · exact .inl hs
  · by_cases hq : q = p
    · right
      subst hq
      exact fun hh => hs ((congrArg MbxSlot.st e).symm.trans hh)
    · exact .inl hq

/-! ### Ports -/

theorem State.port_updPort (s : State) (p q : Nat) (f : MbxPort → MbxPort) :
    (s.updPort p f).port q = if q = p then f (s.port p) else s.port q := by
  unfold State.port State.updPort
  dsimp only
  split
  · next h => subst h; rw [Tab.get_upd_same]
  · next h => rw [Tab.get_upd_other _ _ _ _ _ h]

theorem State.settleSeq_port_other (s : State) (p q : Nat) (h : q ≠ p) : (s.settleSeq p).port q = s.port q := by
  unfold State.settleSeq
  split
  · have e : ∀ (l : List Nat) (u : State), (l.foldl (State.settleSlot p) u).ports = u.ports := by
      intro l u
      exact State.foldl_ports _ (fun t x => by simp) l u
    have g : ∀ u : State, (u.noteGap p).port q = u.port q := by
      intro u
      unfold State.noteGap
      dsimp only
      split <;> rw [State.port_updPort, if_neg h]
    rw [g]
    simp only [State.port, e]
  · rfl

theorem State.settleSeq_nextSeq (s : State) (p q : Nat) : ((s.settleSeq p).port q).nextSeq = (s.port q).nextSeq := by
  by_cases h : q = p
  · subst h
    unfold State.settleSeq
    split
    · have e : ∀ (l : List Nat) (u : State), (l.foldl (State.settleSlot q) u).ports = u.ports := by
        intro l u
        exact State.foldl_ports _ (fun t x => by simp) l u
      have g : ∀ u : State, ((u.noteGap q).port q).nextSeq = (u.port q).nextSeq := by
        intro u
        unfold State.noteGap
        dsimp only
        split <;> rw [State.port_updPort, if_pos rfl]
      rw [g]
      simp only [State.port, e]
    · rfl
  · rw [State.settleSeq_port_other _ _ _ h]

theorem State.port_withTurn (s : State) (n q : Nat) : ({ s with mbxTurn := n } : State).port q = s.port q := rfl

theorem State.accept_port_other (s : State) (p k q : Nat) (h : q ≠ p) : (s.accept p k).port q = s.port q := by
  unfold State.accept
  dsimp only
  rw [State.settleSeq_port_other _ _ _ h, State.port_withTurn, State.port_updPort, if_neg h]
  rfl

theorem MbxPort.advance_nextSeq (m : MbxPort) (h : m.consumed = []) : m.advance.nextSeq = m.nextSeq + 1 := by
  unfold MbxPort.advance
  simp [h, skipConsumed]

theorem State.accept_nextSeq (s : State) (p k : Nat) (h : (s.port p).consumed = []) :
    ((s.accept p k).port p).nextSeq = (s.port p).nextSeq + 1 := by
  unfold State.accept
  dsimp only
  rw [State.settleSeq_nextSeq, State.port_withTurn, State.port_updPort, if_pos rfl]
  exact MbxPort.advance_nextSeq _ h

/-! ### The row -/

theorem State.serves_elapse (s : State) (dt p : Nat) : (s.elapse dt).serves p = s.serves p := by
  have h1 : (s.elapse dt).power = s.power := by simp
  have h2 : (s.elapse dt).boot = s.boot := by simp
  unfold State.serves; rw [h1, h2]

theorem State.slot_elapse (s : State) (dt p k : Nat) : (s.elapse dt).slot p k = s.slot p k := by simp [State.slot]

theorem State.port_elapse (s : State) (dt p : Nat) : (s.elapse dt).port p = s.port p := by simp [State.port]

theorem State.eligible_elapse (s : State) (dt p k : Nat) : (s.elapse dt).eligible p k = s.eligible p k := by
  have h1 : (s.elapse dt).slot = s.slot := funext fun p => funext fun k => State.slot_elapse s dt p k
  have h2 : (s.elapse dt).port = s.port := funext fun p => State.port_elapse s dt p
  unfold State.eligible State.seqGapOf
  rw [h1, h2, State.serves_elapse]

theorem State.turnOf_elapse (s : State) (dt p : Nat) : (s.elapse dt).turnOf p = s.turnOf p := by
  have h : (s.elapse dt).eligible = s.eligible := funext fun p => funext fun k => State.eligible_elapse s dt p k
  unfold State.turnOf State.portReady
  rw [h, State.elapse_mbxTurn]

/-- A presented command is eligible. -/
theorem State.Presents.eligible {s : State} {p : Port} {k : Slot} {op : Nat} {req : Bytes} (h : s.Presents p k op req) (dt : Nat) :
    (s.elapse dt).eligible p.val k.val = true := by
  obtain ⟨h1, h2, _, h4, h5, _, _, _⟩ := h
  have h5' : ∀ j < k.val, (s.slot p.val j).st = 1 → (s.slot p.val j).seq ≠ (s.slot p.val k.val).seq := h5
  simp only [State.eligible, State.serves_elapse, State.slot_elapse, h1, h2, State.seqGapOf, State.port_elapse, h4]
  simp
  intro j hj hs
  rw [← h4]
  exact h5' j hj hs

/-- A presented command that its row takes: the row's body on the state after acceptance. -/
theorem State.mailboxRow_run {s : State} {p : Port} {k : Slot} {op : Nat} {req : Bytes} (h : s.Presents p k op req) (dt : Nat)
    (mine : Nat → Bytes → Bool) (body : State → Bytes → State) (hm : mine op req = true) (hl : opcodeListed op = true)
    (hr : s.boot.stage ≠ 7 ∨ servedInRecovery op req = true) :
    s.mailboxRow dt p k mine body = .next (body ((s.elapse dt).accept p.val k.val) req) := by
  have he := h.eligible dt
  obtain ⟨_, _, h3, _, _, h6, h7, h8⟩ := h
  have h7' : req = Mem.readBytes (s.slot p.val k.val).payload 0 (s.slot p.val k.val).reqLen := h7
  have h6' : (s.slot p.val k.val).reqLen ≤ 4032 := h6
  have hq : (((s.elapse dt).accept p.val k.val).slot p.val k.val).request = req := by
    rw [State.accept_slot _ _ _ k.isLt, State.slot_elapse]
    simp only [MbxSlot.taken, h6', if_true]
    exact h7'.symm
  unfold State.mailboxRow State.command
  rw [he, State.turnOf_elapse, h8]
  simp only [Bool.and_self, Bool.not_true, Bool.false_eq_true, if_false, State.slot_elapse, h3, hq, hl, hm, if_true]
  rw [if_neg]
  simp only [State.elapse_leaves]
  rcases hr with hr | hr
  · simp [hr]
  · simp [hr]

/-- Where no check fails, the command's own effect. -/
theorem State.checked_pass (s : State) (p k : Nat) (checks : List (Bool × Answer)) (ok : State → State)
    (h : ∀ c ∈ checks, c.1 = false) : s.checked p k checks ok = ok s := by
  have : firstFail checks = none := by
    induction checks with
    | nil => rfl
    | cons c cs ih =>
      unfold firstFail
      rw [h c List.mem_cons_self]
      exact ih (fun d hd => h d (List.mem_cons_of_mem _ hd))
  unfold State.checked
  rw [this]

/-- The first failing check answers the command. -/
theorem State.checked_fail (s : State) (p k : Nat) (pre post : List (Bool × Answer)) (a : Answer) (ok : State → State)
    (h : ∀ c ∈ pre, c.1 = false) : s.checked p k (pre ++ (true, a) :: post) ok = s.answer p k a := by
  have : firstFail (pre ++ (true, a) :: post) = some a := by
    induction pre with
    | nil => rfl
    | cons c cs ih =>
      rw [List.cons_append]
      unfold firstFail
      rw [h c List.mem_cons_self]
      exact ih (fun d hd => h d (List.mem_cons_of_mem _ hd))
  unfold State.checked
  rw [this]

/-- What acceptance and the answer leave, whatever the command did between them to anything but the slots, the ports and the time. -/
theorem State.answered_of {s : State} {p : Port} {k : Slot} {op : Nat} {req : Bytes} (h : s.Presents p k op req) (dt : Nat) (u : State)
    (hm : u.mbx = ((s.elapse dt).accept p.val k.val).mbx) (hp : u.ports = ((s.elapse dt).accept p.val k.val).ports)
    (ht : u.time = (s.elapse dt).time) (a : Answer) : Answered s (u.answer p.val k.val a) p k a := by
  obtain ⟨_, _, _, h4, _, _, _⟩ := h
  have hs : ∀ q j, u.slot q j = ((s.elapse dt).accept p.val k.val).slot q j := by intro q j; simp only [State.slot, hm]
  have self : (u.answer p.val k.val a).slot p.val k.val = ((s.slot p.val k.val).taken (s.elapse dt).time).answered a (s.elapse dt).time := by
    rw [State.answer_slot _ _ _ _ _ _ k.isLt k.isLt, if_pos ⟨rfl, rfl⟩, hs, State.accept_slot _ _ _ k.isLt, State.slot_elapse, ht]
  have other : ∀ (q : Port) (j : Slot), ¬ (q.val = p.val ∧ j.val = k.val) → (q.val ≠ p.val ∨ (s.slot p.val j.val).st ≠ 1) →
      (u.answer p.val k.val a).slot q.val j.val = s.slot q.val j.val := by
    intro q j hne hst
    rw [State.answer_slot _ _ _ _ _ _ k.isLt j.isLt, if_neg hne, hs,
      State.accept_slot_other _ _ _ _ _ k.isLt j.isLt hne (by rwa [State.slot_elapse]), State.slot_elapse]
  have hport : ∀ q, (u.answer p.val k.val a).port q = ((s.elapse dt).accept p.val k.val).port q := by
    intro q
    simp [State.port, hp]
  have htime : (u.answer p.val k.val a).time = (s.elapse dt).time := by rw [State.answer_time, ht]
  unfold Answered
  rw [self, htime]
  refine ⟨rfl, rfl, rfl, rfl, rfl, rfl, rfl, rfl, Mem.readBytes_cells _, fun o ho => Mem.read_cells_beyond _ _ ho, rfl, rfl, ?_, ?_, ?_, ?_⟩
  · intro q j hq
    have : q.val ≠ p.val := fun h => hq (Fin.ext h)
    exact other q j (fun h => this h.1) (.inl this)
  · intro j hj hst
    exact other p j (fun h => hj (Fin.ext h.2)) (.inr hst)
  · intro q hq
    have : q.val ≠ p.val := fun h => hq (Fin.ext h)
    rw [hport, State.accept_port_other _ _ _ _ this, State.port_elapse]
  · intro hc
    rw [hport, State.accept_nextSeq _ _ _ (by rw [State.port_elapse]; exact hc), State.port_elapse]
    exact congrArg (· + 1) h4.symm

end Sys2Proof.Machine
end

