-- ==== Sys2Proof/Laws/Keeps.lean ====
section
/-! SUPPORT. Every command answers a next state and leaves the rest of the queue and the fuses as they are; the exceptions . -/

namespace Sys2Proof.Machine

/-- The command answers a next state that keeps the queue and the fuses. -/
def Keeps (r : Result) (s : State) : Prop := ∃ t, r = .next t ∧ t.fixed = s.fixed

theorem Keeps.next {s t : State} (h : t.fixed = s.fixed) : Keeps (.next t) s := ⟨t, rfl, h⟩

theorem State.event_keeps {s : State} {dt : Nat} {ready : State → Bool} {effect : State → State}
    (h : ∀ t, (effect t).fixed = t.fixed) : Keeps (s.event dt ready effect) s := by
  apply Keeps.next
  split <;> simp [h]

theorem State.coreEvent_keeps {s : State} {dt d c : Nat} {ready : Core → Bool} {effect : Core → Core} :
    Keeps (s.coreEvent dt d c ready effect) s := State.event_keeps (fun t => by simp)

theorem State.mailboxRow_keeps {s : State} {dt : Nat} {p : Port} {k : Slot} {mine : Nat → Bytes → Bool}
    {body : State → Bytes → State} (h : ∀ t r, (body t r).fixed = t.fixed) : Keeps (s.mailboxRow dt p k mine body) s := by
  apply Keeps.next
  rw [State.command_fixed _ _ _ _ _ h]
  simp

theorem State.sessionRow_keeps {s : State} {dt : Nat} {p : Port} {k : Slot} {op : Nat} {late : State → Nat → Bool}
    {body : State → Bytes → State} {ask : State → Bytes → Option (Recut × Bool)} (h : ∀ t r, (body t r).fixed = t.fixed) : Keeps (s.sessionRow dt p k op late body ask) s := by
  unfold State.sessionRow
  dsimp only
  split
  · split
    · exact Keeps.next (by rw [h]; simp)
    · exact Keeps.next (by simp)
  · refine Keeps.next ?_
    rw [State.command_fixed _ _ _ _ _ (by intro t r; split <;> simp [h])]
    simp

theorem State.unitRow_keeps {s : State} {dt i : Nat} {want : Nat → Bool} {body : State → NextUnit → Nat → Option State}
    (h : ∀ t u n b, body t u n = some b → b.fixed = t.fixed) : Keeps (s.unitRow dt i want body) s := by
  refine Keeps.next ?_
  split
  · simp
  · split
    · simp
    · dsimp only
      (repeat' split) <;> simp
      next hb => rw [h _ _ _ _ hb]; simp

theorem State.descRow_keeps {s : State} {dt : Nat} {die : CoreDie} {core : CoreIx} {op : Nat} {run : Desc → Core → Done} :
    Keeps (s.descRow dt die core op run) s := State.event_keeps (fun t => by simp)

theorem State.gddrError_fixed (s : State) (md addr : Nat) (e : GddrError) : (s.gddrError md addr e).fixed = s.fixed := by
  cases e <;> simp [State.gddrError]

theorem State.microStep_keeps {s : State} {dt op : Nat} {d : CoreDie} {c : CoreIx} {st : StepOps} :
    Keeps (s.microStep dt op d c st) s := State.coreEvent_keeps


/-! ### Owner -/

theorem execPing_keeps (dt : Nat) (p : Port) (k : Slot) (s : State) : Keeps (execPing dt p k s) s := by
  unfold execPing
  refine State.mailboxRow_keeps (fun t r => ?_)
  try dsimp only
  (repeat' split) <;> simp [*]

theorem execDeviceInfo_keeps (dt : Nat) (p : Port) (k : Slot) (s : State) : Keeps (execDeviceInfo dt p k s) s := by
  unfold execDeviceInfo
  refine State.mailboxRow_keeps (fun t r => ?_)
  try dsimp only
  (repeat' split) <;> simp [*]

theorem execClaim_keeps (dt : Nat) (p : Port) (k : Slot) (s : State) : Keeps (execClaim dt p k s) s := by
  unfold execClaim
  refine State.mailboxRow_keeps (fun t r => ?_)
  try dsimp only
  (repeat' split) <;> simp [*]

theorem execHeartbeat_keeps (dt : Nat) (p : Port) (k : Slot) (s : State) : Keeps (execHeartbeat dt p k s) s := by
  unfold execHeartbeat
  refine State.mailboxRow_keeps (fun t r => ?_)
  try dsimp only
  (repeat' split) <;> simp [*]

theorem execHandover_keeps (dt : Nat) (p : Port) (k : Slot) (s : State) : Keeps (execHandover dt p k s) s := by
  unfold execHandover
  refine State.mailboxRow_keeps (fun t r => ?_)
  try dsimp only
  (repeat' split) <;> simp [*]

theorem execAccept_keeps (dt : Nat) (p : Port) (k : Slot) (s : State) : Keeps (execAccept dt p k s) s := by
  unfold execAccept
  refine State.mailboxRow_keeps (fun t r => ?_)
  try dsimp only
  (repeat' split) <;> simp [*]

theorem execRelease_keeps (dt : Nat) (p : Port) (k : Slot) (s : State) : Keeps (execRelease dt p k s) s := by
  unfold execRelease
  refine State.mailboxRow_keeps (fun t r => ?_)
  try dsimp only
  (repeat' split) <;> simp [*]

theorem execElectionWindowClose_keeps (dt : Nat) (s : State) : Keeps (execElectionWindowClose dt s) s := by
  unfold execElectionWindowClose
  refine State.event_keeps (fun t => ?_)
  try dsimp only
  (repeat' split) <;> simp [*]

theorem execLeaseExpired_keeps (dt : Nat) (s : State) : Keeps (execLeaseExpired dt s) s := by
  unfold execLeaseExpired
  refine State.event_keeps (fun t => ?_)
  try dsimp only
  (repeat' split) <;> simp [*]

theorem execHandoverLapsed_keeps (dt : Nat) (s : State) : Keeps (execHandoverLapsed dt s) s := by
  unfold execHandoverLapsed
  refine State.event_keeps (fun t => ?_)
  try dsimp only
  (repeat' split) <;> simp [*]

/-! ### Mailbox -/

theorem execMailboxSeal_keeps (dt : Nat) (p : Port) (k : Slot) (seq opcode : W16) (s : State) : Keeps (execMailboxSeal dt p k seq opcode s) s := by
  unfold execMailboxSeal
  refine State.event_keeps (fun t => ?_)
  try dsimp only
  (repeat' split) <;> simp [*]

theorem execSlotStateWrite_keeps (dt : Nat) (p : Port) (k : Slot) (value : W32) (s : State) : Keeps (execSlotStateWrite dt p k value s) s := by
  unfold execSlotStateWrite
  refine State.event_keeps (fun t => ?_)
  try dsimp only
  (repeat' split) <;> simp [*]

theorem execSeqGap_keeps (dt : Nat) (p : Port) (s : State) : Keeps (execSeqGap dt p s) s := by
  unfold execSeqGap
  refine State.event_keeps (fun t => ?_)
  try dsimp only
  (repeat' split) <;> simp [*]

theorem execMbxOffset_keeps (dt : Nat) (data : Bytes) (pecOk : Bool) (s : State) : Keeps (execMbxOffset dt data pecOk s) s := by
  unfold execMbxOffset
  refine State.event_keeps (fun t => ?_)
  try dsimp only
  (repeat' split) <;> simp [*]

theorem execMbxWrite_keeps (dt : Nat) (data : Bytes) (pecOk : Bool) (s : State) : Keeps (execMbxWrite dt data pecOk s) s := by
  unfold execMbxWrite
  refine State.event_keeps (fun t => ?_)
  try dsimp only
  (repeat' split) <;> simp [*]

theorem execMbxRead_keeps (dt : Nat) (s : State) : Keeps (execMbxRead dt s) s := by
  unfold execMbxRead
  refine State.event_keeps (fun t => ?_)
  try dsimp only
  (repeat' split) <;> simp [*]

theorem execAlertResponse_keeps (dt : Nat) (s : State) : Keeps (execAlertResponse dt s) s := by
  unfold execAlertResponse
  refine State.event_keeps (fun t => ?_)
  try dsimp only
  (repeat' split) <;> simp [*]

theorem execTimeLoRead_keeps (dt : Nat) (s : State) : Keeps (execTimeLoRead dt s) s := by
  unfold execTimeLoRead
  refine State.event_keeps (fun t => ?_)
  try dsimp only
  (repeat' split) <;> simp [*]

theorem execLogNextLoRead_keeps (dt : Nat) (s : State) : Keeps (execLogNextLoRead dt s) s := by
  unfold execLogNextLoRead
  refine State.event_keeps (fun t => ?_)
  try dsimp only
  (repeat' split) <;> simp [*]

theorem execEventCommit_keeps (dt : Nat) (s : State) : Keeps (execEventCommit dt s) s := by
  unfold execEventCommit
  refine State.event_keeps (fun t => ?_)
  try dsimp only
  (repeat' split) <;> simp [*]

theorem execDieProgressReport_keeps (dt : Nat) (d : DieIx) (s : State) : Keeps (execDieProgressReport dt d s) s := by
  unfold execDieProgressReport
  refine State.event_keeps (fun t => ?_)
  try dsimp only
  (repeat' split) <;> simp [*]

theorem execEventRead_keeps (dt : Nat) (p : Port) (k : Slot) (s : State) : Keeps (execEventRead dt p k s) s := by
  unfold execEventRead
  refine State.mailboxRow_keeps (fun t r => ?_)
  exact State.checked_fixed _ _ _ _ _ (fun u => by simp)

/-! ### Pcie -/

theorem execPerstAssert_keeps (dt : Nat) (p : PciePort) (s : State) : Keeps (execPerstAssert dt p s) s := by
  unfold execPerstAssert
  refine State.event_keeps (fun t => ?_)
  try dsimp only
  (repeat' split) <;> simp [*]

theorem execPerstRelease_keeps (dt : Nat) (p : PciePort) (s : State) : Keeps (execPerstRelease dt p s) s := by
  unfold execPerstRelease
  refine State.event_keeps (fun t => ?_)
  try dsimp only
  (repeat' split) <;> simp [*]

theorem execPcieControllersReady_keeps (dt : Nat) (s : State) : Keeps (execPcieControllersReady dt s) s := by
  unfold execPcieControllersReady
  refine State.event_keeps (fun t => ?_)
  try dsimp only
  (repeat' split) <;> simp [*]

theorem execPcieLinkUp_keeps (dt : Nat) (p : PciePort) (width : Fin 17) (rate : Fin 7) (flit : Bool) (s : State) : Keeps (execPcieLinkUp dt p width rate flit s) s := by
  unfold execPcieLinkUp
  refine State.event_keeps (fun t => ?_)
  try dsimp only
  (repeat' split) <;> simp [*]

theorem execFlr_keeps (dt : Nat) (p : PciePort) (s : State) : Keeps (execFlr dt p s) s := by
  unfold execFlr
  refine State.event_keeps (fun t => ?_)
  try dsimp only
  (repeat' split) <;> simp [*]

theorem execSurpriseLinkDown_keeps (dt : Nat) (p : PciePort) (s : State) : Keeps (execSurpriseLinkDown dt p s) s := by
  unfold execSurpriseLinkDown
  refine State.event_keeps (fun t => ?_)
  try dsimp only
  (repeat' split) <;> simp [*]

theorem execPmStateWrite_keeps (dt : Nat) (p : PciePort) (d3hot : Bool) (s : State) : Keeps (execPmStateWrite dt p d3hot s) s := by
  unfold execPmStateWrite
  refine State.event_keeps (fun t => ?_)
  try dsimp only
  (repeat' split) <;> simp [*]

theorem execConfigurationWrite_keeps (dt : Nat) (p : PciePort) (w : CfgWrite) (s : State) : Keeps (execConfigurationWrite dt p w s) s := by
  unfold execConfigurationWrite
  refine State.event_keeps (fun t => ?_)
  try dsimp only
  (repeat' split) <;> simp [*]

theorem execBar2Read_keeps (dt : Nat) (p : PciePort) (offset : Nat) (len : Fin 65) (s : State) : Keeps (execBar2Read dt p offset len s) s := by
  unfold execBar2Read
  refine State.event_keeps (fun t => ?_)
  try dsimp only
  (repeat' split) <;> simp [*]

theorem execBar2Write_keeps (dt : Nat) (p : PciePort) (offset : Nat) (data : Bytes) (s : State) : Keeps (execBar2Write dt p offset data s) s := by
  unfold execBar2Write
  refine State.event_keeps (fun t => ?_)
  try dsimp only
  (repeat' split) <;> simp [*]

/-! ### Power -/

theorem execAuxPowerOn_keeps (dt : Nat) (s : State) : Keeps (execAuxPowerOn dt s) s := by
  unfold execAuxPowerOn
  refine State.event_keeps (fun t => ?_)
  try dsimp only
  (repeat' split) <;> simp [*]

theorem execAuxPowerOff_keeps (dt : Nat) (s : State) : Keeps (execAuxPowerOff dt s) s := by
  unfold execAuxPowerOff
  refine State.event_keeps (fun t => ?_)
  try dsimp only
  (repeat' split) <;> simp [*]

theorem execSupply54vRemoved_keeps (dt mv10 : Nat) (s : State) : Keeps (execSupply54vRemoved dt mv10 s) s := by
  unfold execSupply54vRemoved
  refine State.event_keeps (fun t => ?_)
  try dsimp only
  (repeat' split) <;> simp [*]

theorem execSupply54vRestored_keeps (dt mv10 : Nat) (s : State) : Keeps (execSupply54vRestored dt mv10 s) s := by
  unfold execSupply54vRestored
  refine State.event_keeps (fun t => ?_)
  try dsimp only
  (repeat' split) <;> simp [*]

theorem execRailSequence_keeps (dt : Nat) (failing : List Rail) (s : State) : Keeps (execRailSequence dt failing s) s := by
  unfold execRailSequence
  refine State.event_keeps (fun t => ?_)
  try dsimp only
  (repeat' split) <;> simp [*]

theorem execRailSequenceRetry_keeps (dt : Nat) (failing : List Rail) (s : State) : Keeps (execRailSequenceRetry dt failing s) s := by
  unfold execRailSequenceRetry
  refine State.event_keeps (fun t => ?_)
  try dsimp only
  (repeat' split) <;> simp [*]

theorem execRailFault_keeps (dt : Nat) (rail : Rail) (s : State) : Keeps (execRailFault dt rail s) s := by
  unfold execRailFault
  refine State.event_keeps (fun t => ?_)
  try dsimp only
  (repeat' split) <;> simp [*]

theorem execSupplyWarn_keeps (dt mv10 : Nat) (s : State) : Keeps (execSupplyWarn dt mv10 s) s := by
  unfold execSupplyWarn
  refine State.event_keeps (fun t => ?_)
  try dsimp only
  (repeat' split) <;> simp [*]

theorem execSupplyFault_keeps (dt mv10 : Nat) (s : State) : Keeps (execSupplyFault dt mv10 s) s := by
  unfold execSupplyFault
  refine State.event_keeps (fun t => ?_)
  try dsimp only
  (repeat' split) <;> simp [*]

theorem execModuleReset_keeps (dt : Nat) (s : State) : Keeps (execModuleReset dt s) s := by
  unfold execModuleReset
  refine State.event_keeps (fun t => ?_)
  try dsimp only
  (repeat' split) <;> simp [*]

theorem execBoot_keeps (dt : Nat) (straps : BitVec 4) (s : State) : Keeps (execBoot dt straps s) s := by
  unfold execBoot
  refine State.event_keeps (fun t => ?_)
  try dsimp only
  (repeat' split) <;> simp [*]

theorem execPllWindow_keeps (dt : Nat) (domain : Fin 60) (count256 : Nat) (s : State) : Keeps (execPllWindow dt domain count256 s) s := by
  unfold execPllWindow
  refine State.event_keeps (fun t => ?_)
  try dsimp only
  (repeat' split) <;> simp [*]

theorem execPllStartTimeout_keeps (dt : Nat) (domain : Fin 60) (s : State) : Keeps (execPllStartTimeout dt domain s) s := by
  unfold execPllStartTimeout
  refine State.event_keeps (fun t => ?_)
  try dsimp only
  (repeat' split) <;> simp [*]

theorem execRefclkMissing_keeps (dt cycles : Nat) (s : State) : Keeps (execRefclkMissing dt cycles s) s := by
  unfold execRefclkMissing
  refine State.event_keeps (fun t => ?_)
  try dsimp only
  (repeat' split) <;> simp [*]

theorem execRefclkPresent_keeps (dt : Nat) (windows : List Nat) (s : State) : Keeps (execRefclkPresent dt windows s) s := by
  unfold execRefclkPresent
  refine State.event_keeps (fun t => ?_)
  try dsimp only
  (repeat' split) <;> simp [*]

theorem execTapReset_keeps (dt : Nat) (s : State) : Keeps (execTapReset dt s) s := by
  unfold execTapReset
  refine State.event_keeps (fun t => ?_)
  try dsimp only
  (repeat' split) <;> simp [*]

theorem execBypass_keeps (dt : Nat) (tdi : Bool) (s : State) : Keeps (execBypass dt tdi s) s := by
  unfold execBypass
  refine State.event_keeps (fun t => ?_)
  try dsimp only
  (repeat' split) <;> simp [*]

theorem execIdcode_keeps (dt : Nat) (s : State) : Keeps (execIdcode dt s) s := by
  unfold execIdcode
  refine State.event_keeps (fun t => ?_)
  try dsimp only
  (repeat' split) <;> simp [*]

theorem execSamplePreload_keeps (dt : Nat) (preload : List Bool) (s : State) : Keeps (execSamplePreload dt preload s) s := by
  unfold execSamplePreload
  refine State.event_keeps (fun t => ?_)
  try dsimp only
  (repeat' split) <;> simp [*]

theorem execExtest_keeps (dt : Nat) (s : State) : Keeps (execExtest dt s) s := by
  unfold execExtest
  refine State.event_keeps (fun t => ?_)
  try dsimp only
  (repeat' split) <;> simp [*]

theorem execFlitCrcFail_keeps (dt : Nat) (die : DieIx) (edge : Fin 4) (attempts : Fin 6) (s : State) : Keeps (execFlitCrcFail dt die edge attempts s) s := by
  unfold execFlitCrcFail
  refine State.event_keeps (fun t => ?_)
  try dsimp only
  (repeat' split) <;> simp [*]

theorem execSramUncorrectableEcc_keeps (dt : Nat) (die : DieIx) (core : Option CoreIx) (s : State) : Keeps (execSramUncorrectableEcc dt die core s) s := by
  unfold execSramUncorrectableEcc
  refine State.event_keeps (fun t => ?_)
  try dsimp only
  (repeat' split) <;> simp [*]

theorem execDieWatchdogExpiry_keeps (dt : Nat) (die : DieIx) (s : State) : Keeps (execDieWatchdogExpiry dt die s) s := by
  unfold execDieWatchdogExpiry
  refine State.event_keeps (fun t => ?_)
  try dsimp only
  (repeat' split) <;> simp [*]

theorem execHubWatchdogExpiry_keeps (dt : Nat) (s : State) : Keeps (execHubWatchdogExpiry dt s) s := by
  unfold execHubWatchdogExpiry
  refine State.event_keeps (fun t => ?_)
  try dsimp only
  (repeat' split) <;> simp [*]

theorem execSetCap_keeps (dt : Nat) (p : Port) (k : Slot) (s : State) : Keeps (execSetCap dt p k s) s := by
  unfold execSetCap
  refine State.mailboxRow_keeps (fun t r => ?_)
  try dsimp only
  (repeat' split) <;> simp [*]

theorem execDiesOff_keeps (dt : Nat) (p : Port) (k : Slot) (s : State) : Keeps (execDiesOff dt p k s) s := by
  unfold execDiesOff
  refine State.mailboxRow_keeps (fun t r => ?_)
  try dsimp only
  (repeat' split) <;> simp [*]

theorem execDiesOn_keeps (dt : Nat) (p : Port) (k : Slot) (s : State) : Keeps (execDiesOn dt p k s) s := by
  unfold execDiesOn
  refine State.mailboxRow_keeps (fun t r => ?_)
  exact State.checked_fixed _ _ _ _ _ (fun u => by simp)

theorem execDiePowerOnComplete_keeps (dt : Nat) (die : DieIx) (mismatch : List CoreIx) (s : State) : Keeps (execDiePowerOnComplete dt die mismatch s) s := by
  unfold execDiePowerOnComplete
  refine State.event_keeps (fun t => ?_)
  try dsimp only
  (repeat' split) <;> simp [*]

theorem execModuleStandby_keeps (dt : Nat) (p : Port) (k : Slot) (s : State) : Keeps (execModuleStandby dt p k s) s := by
  unfold execModuleStandby
  refine State.mailboxRow_keeps (fun t r => ?_)
  try dsimp only
  (repeat' split) <;> simp [*]

theorem execStandbyEntry_keeps (dt : Nat) (s : State) : Keeps (execStandbyEntry dt s) s := by
  unfold execStandbyEntry
  refine State.event_keeps (fun t => ?_)
  try dsimp only
  (repeat' split) <;> simp [*]

theorem execWake_keeps (dt : Nat) (s : State) : Keeps (execWake dt s) s := by
  unfold execWake
  refine State.event_keeps (fun t => ?_)
  try dsimp only
  (repeat' split) <;> simp [*]

/-! ### Thermal -/

theorem execThrottleLower_keeps (dt : Nat) (s : State) : Keeps (execThrottleLower dt s) s := by
  unfold execThrottleLower
  refine State.event_keeps (fun t => ?_)
  try dsimp only
  (repeat' split) <;> simp [*]

theorem execThrottleFastDrop_keeps (dt watts1ms : Nat) (s : State) : Keeps (execThrottleFastDrop dt watts1ms s) s := by
  unfold execThrottleFastDrop
  refine State.event_keeps (fun t => ?_)
  try dsimp only
  (repeat' split) <;> simp [*]

theorem execThrottleRaise_keeps (dt : Nat) (s : State) : Keeps (execThrottleRaise dt s) s := by
  unfold execThrottleRaise
  refine State.event_keeps (fun t => ?_)
  try dsimp only
  (repeat' split) <;> simp [*]

theorem execJunctionSensorRead_keeps (dt : Nat) (die : DieIx) (raw : List Int) (inputW inputMv10 : Nat) (s : State) : Keeps (execJunctionSensorRead dt die raw inputW inputMv10 s) s := by
  unfold execJunctionSensorRead
  refine State.event_keeps (fun t => ?_)
  try dsimp only
  (repeat' split) <;> simp [*]

theorem execGddr7TempRead_keeps (dt : Nat) (md : MemDie) (temps : List Int) (s : State) : Keeps (execGddr7TempRead dt md temps s) s := by
  unfold execGddr7TempRead
  refine State.event_keeps (fun t => ?_)
  try dsimp only
  (repeat' split) <;> simp [*]

theorem execCoolantSensorRead_keeps (dt : Nat) (inlet outlet : Option Int) (s : State) : Keeps (execCoolantSensorRead dt inlet outlet s) s := by
  unfold execCoolantSensorRead
  refine State.event_keeps (fun t => ?_)
  try dsimp only
  (repeat' split) <;> simp [*]

theorem execTripLatchedClear_keeps (dt : Nat) (w : Writer) (s : State) : Keeps (execTripLatchedClear dt w s) s := by
  unfold execTripLatchedClear
  refine State.event_keeps (fun t => ?_)
  try dsimp only
  (repeat' split) <;> simp [*]

/-! ### Security -/

theorem execImageVerified_keeps (dt : Nat) (sigOk : Bool) (s : State) : Keeps (execImageVerified dt sigOk s) s := by
  unfold execImageVerified
  refine State.event_keeps (fun t => ?_)
  try dsimp only
  (repeat' split) <;> simp [*]

theorem execMailboxServiceStart_keeps (dt : Nat) (s : State) : Keeps (execMailboxServiceStart dt s) s := by
  unfold execMailboxServiceStart
  refine State.event_keeps (fun t => ?_)
  try dsimp only
  (repeat' split) <;> simp [*]

theorem execStage_keeps (dt : Nat) (p : Port) (k : Slot) (sigOk : Bool) (s : State) : Keeps (execStage dt p k sigOk s) s := by
  unfold execStage
  refine State.mailboxRow_keeps (fun t r => ?_)
  exact State.checked_fixed _ _ _ _ _ (fun u => State.updFwSlot_fixed u u.inactiveSlot (fun f => { f with valid := false }))

theorem execStageComplete_keeps (dt : Nat) (s : State) : Keeps (execStageComplete dt s) s := by
  unfold execStageComplete
  refine State.event_keeps (fun t => ?_)
  try dsimp only
  (repeat' split) <;> simp [*]

theorem execActivate_keeps (dt : Nat) (p : Port) (k : Slot) (s : State) : Keeps (execActivate dt p k s) s := by
  unfold execActivate
  refine State.mailboxRow_keeps (fun t r => ?_)
  try dsimp only
  (repeat' split) <;> simp [*]

theorem execSignQuote_keeps (dt : Nat) (p : Port) (k : Slot) (s : State) : Keeps (execSignQuote dt p k s) s := by
  unfold execSignQuote
  refine State.mailboxRow_keeps (fun t r => ?_)
  exact State.checked_fixed _ _ _ _ _ (fun u => by simp)

theorem execQuoteSigned_keeps (dt : Nat) (signature : Bytes) (s : State) : Keeps (execQuoteSigned dt signature s) s := by
  unfold execQuoteSigned
  refine State.event_keeps (fun t => ?_)
  try dsimp only
  (repeat' split) <;> simp [*]

theorem execReadQuoteChunk_keeps (dt : Nat) (p : Port) (k : Slot) (s : State) : Keeps (execReadQuoteChunk dt p k s) s := by
  unfold execReadQuoteChunk
  refine State.mailboxRow_keeps (fun t r => ?_)
  try dsimp only
  (repeat' split) <;> simp [*]

theorem execReadLogChunk_keeps (dt : Nat) (p : Port) (k : Slot) (s : State) : Keeps (execReadLogChunk dt p k s) s := by
  unfold execReadLogChunk
  refine State.mailboxRow_keeps (fun t r => ?_)
  try dsimp only
  (repeat' split) <;> simp [*]

theorem execReadCertChunk_keeps (dt : Nat) (p : Port) (k : Slot) (s : State) : Keeps (execReadCertChunk dt p k s) s := by
  unfold execReadCertChunk
  refine State.mailboxRow_keeps (fun t r => ?_)
  try dsimp only
  (repeat' split) <;> simp [*]

theorem execCalRead_keeps (dt : Nat) (p : Port) (k : Slot) (s : State) : Keeps (execCalRead dt p k s) s := by
  unfold execCalRead
  refine State.mailboxRow_keeps (fun t r => ?_)
  try dsimp only
  (repeat' split) <;> simp [*]

theorem execCalWrite_keeps (dt : Nat) (p : Port) (k : Slot) (presetsOk : Option (Fin 48)) (s : State) : Keeps (execCalWrite dt p k presetsOk s) s := by
  unfold execCalWrite
  refine State.mailboxRow_keeps (fun t r => ?_)
  exact State.checked_fixed _ _ _ _ _ (fun u => by simp)

theorem execCalWriteComplete_keeps (dt : Nat) (s : State) : Keeps (execCalWriteComplete dt s) s := by
  unfold execCalWriteComplete
  refine State.event_keeps (fun t => ?_)
  try dsimp only
  (repeat' split) <;> simp [*]

/-! ### Gddr -/

theorem execGddr7Retrain_keeps (dt : Nat) (md : MemDie) (ch : Fin 8) (secondAttempt : Bool) (s : State) : Keeps (execGddr7Retrain dt md ch secondAttempt s) s := by
  unfold execGddr7Retrain
  refine State.event_keeps (fun t => ?_)
  try dsimp only
  (repeat' split) <;> simp [*]

theorem execGddr7AccessError_keeps (dt : Nat) (md : MemDie) (addr : Nat) (err : GddrError) (s : State) : Keeps (execGddr7AccessError dt md addr err s) s := by
  unfold execGddr7AccessError
  refine State.event_keeps (fun t => ?_)
  exact State.gddrError_fixed t _ _ _

theorem execPatrolScrub_keeps (dt : Nat) (md : MemDie) (addr : Nat) (found : Option GddrError) (s : State) : Keeps (execPatrolScrub dt md addr found s) s := by
  unfold execPatrolScrub
  refine State.event_keeps (fun t => ?_)
  split
  · rfl
  · exact State.gddrError_fixed t _ _ _

theorem execCxlPortUp_keeps (dt : Nat) (x : Fin 2) (widthLog2 : Fin 4) (mode : Fin 3) (type3 : Bool) (capacity : Nat) (s : State) : Keeps (execCxlPortUp dt x widthLog2 mode type3 capacity s) s := by
  unfold execCxlPortUp
  refine State.event_keeps (fun t => ?_)
  try dsimp only
  (repeat' split) <;> simp [*]

theorem execCxlDown_keeps (dt : Nat) (x : Fin 2) (s : State) : Keeps (execCxlDown dt x s) s := by
  unfold execCxlDown
  refine State.event_keeps (fun t => ?_)
  try dsimp only
  (repeat' split) <;> simp [*]

theorem execCxlRetrain_keeps (dt : Nat) (x : Fin 2) (s : State) : Keeps (execCxlRetrain dt x s) s := by
  unfold execCxlRetrain
  refine State.event_keeps (fun t => ?_)
  try dsimp only
  (repeat' split) <;> simp [*]

/-! ### Cascade -/

theorem execCascadeTime_keeps (dt : Nat) (q : Fin 4) (f : Flit) (s : State) : Keeps (execCascadeTime dt q f s) s := by
  unfold execCascadeTime
  refine State.event_keeps (fun t => ?_)
  try dsimp only
  (repeat' split) <;> simp [*]

theorem execTimeRequest_keeps (dt : Nat) (s : State) : Keeps (execTimeRequest dt s) s := by
  unfold execTimeRequest
  refine State.event_keeps (fun t => ?_)
  try dsimp only
  (repeat' split) <;> simp [*]

theorem execTimeUnlocked_keeps (dt : Nat) (s : State) : Keeps (execTimeUnlocked dt s) s := by
  unfold execTimeUnlocked
  refine State.event_keeps (fun t => ?_)
  try dsimp only
  (repeat' split) <;> simp [*]

theorem execLinkLost_keeps (dt : Nat) (q : Fin 4) (s : State) : Keeps (execLinkLost dt q s) s := by
  unfold execLinkLost
  refine State.event_keeps (fun t => ?_)
  try dsimp only
  (repeat' split) <;> simp [*]

theorem execLinkRetrain_keeps (dt : Nat) (q : Fin 4) (ok : Bool) (s : State) : Keeps (execLinkRetrain dt q ok s) s := by
  unfold execLinkRetrain
  refine State.event_keeps (fun t => ?_)
  try dsimp only
  (repeat' split) <;> simp [*]

theorem execCascadeRetry_keeps (dt : Nat) (q : Fin 4) (f : Flit) (s : State) : Keeps (execCascadeRetry dt q f s) s := by
  unfold execCascadeRetry
  refine State.event_keeps (fun t => ?_)
  try dsimp only
  (repeat' split) <;> simp [*]

theorem execCascadeId_keeps (dt : Nat) (q : Fin 4) (f : Flit) (rank : Fin 8) (peerPort : Fin 4) (s : State) : Keeps (execCascadeId dt q f rank peerPort s) s := by
  unfold execCascadeId
  refine State.event_keeps (fun t => ?_)
  try dsimp only
  (repeat' split) <;> simp [*]

theorem execCascadeIdle_keeps (dt : Nat) (q : Fin 4) (f : Flit) (s : State) : Keeps (execCascadeIdle dt q f s) s := by
  unfold execCascadeIdle
  refine State.event_keeps (fun t => ?_)
  try dsimp only
  (repeat' split) <;> simp [*]

theorem execCascadeCrcFail_keeps (dt : Nat) (q : Fin 4) (fecFailed : Bool) (s : State) : Keeps (execCascadeCrcFail dt q fecFailed s) s := by
  unfold execCascadeCrcFail
  refine State.event_keeps (fun t => ?_)
  try dsimp only
  (repeat' split) <;> simp [*]

theorem execCascadePortTrained_keeps (dt : Nat) (q : Fin 4) (rank : Fin 8) (peerPort : Fin 4) (s : State) : Keeps (execCascadePortTrained dt q rank peerPort s) s := by
  unfold execCascadePortTrained
  refine State.event_keeps (fun t => ?_)
  try dsimp only
  (repeat' split) <;> simp [*]

theorem execMasterLost_keeps (dt : Nat) (s : State) : Keeps (execMasterLost dt s) s := by
  unfold execMasterLost
  refine State.event_keeps (fun t => ?_)
  try dsimp only
  (repeat' split) <;> simp [*]

theorem execMasterElection_keeps (dt : Nat) (reach : List (Fin 8 × List (Fin 8))) (s : State) : Keeps (execMasterElection dt reach s) s := by
  unfold execMasterElection
  refine State.event_keeps (fun t => ?_)
  try dsimp only
  (repeat' split) <;> simp [*]

theorem execCascadeMbxWrite_keeps (dt : Nat) (offset : Nat) (data : Bytes) (s : State) : Keeps (execCascadeMbxWrite dt offset data s) s := by
  unfold execCascadeMbxWrite
  refine State.event_keeps (fun t => ?_)
  try dsimp only
  (repeat' split) <;> simp [*]

theorem execCascadeMbxRead_keeps (dt : Nat) (offset len : Nat) (s : State) : Keeps (execCascadeMbxRead dt offset len s) s := by
  unfold execCascadeMbxRead
  refine State.event_keeps (fun t => ?_)
  try dsimp only
  (repeat' split) <;> simp [*]

theorem execMbxData_keeps (dt : Nat) (s : State) : Keeps (execMbxData dt s) s := by
  unfold execMbxData
  refine State.event_keeps (fun t => ?_)
  try dsimp only
  (repeat' split) <;> simp [*]

theorem execNotice_keeps (dt : Nat) (s : State) : Keeps (execNotice dt s) s := by
  unfold execNotice
  refine State.event_keeps (fun t => ?_)
  try dsimp only
  (repeat' split) <;> simp [*]

theorem execRouteAdd_keeps (dt : Nat) (p : Port) (k : Slot) (s : State) : Keeps (execRouteAdd dt p k s) s := by
  unfold execRouteAdd
  refine State.mailboxRow_keeps (fun t r => ?_)
  try dsimp only
  (repeat' split) <;> simp [*]

theorem execRouteRemove_keeps (dt : Nat) (p : Port) (k : Slot) (s : State) : Keeps (execRouteRemove dt p k s) s := by
  unfold execRouteRemove
  refine State.mailboxRow_keeps (fun t r => ?_)
  try dsimp only
  (repeat' split) <;> simp [*]

/-! ### Scratch -/

theorem execHandoverRequest_keeps (dt : Nat) (die : CoreDie) (core : CoreIx) (bank : Bank) (req : Fin 8) (lostRace : Bool) (s : State) : Keeps (execHandoverRequest dt die core bank req lostRace s) s := by
  unfold execHandoverRequest
  exact State.coreEvent_keeps

theorem execHandoverEffect_keeps (dt : Nat) (die : CoreDie) (core : CoreIx) (bank : Bank) (s : State) : Keeps (execHandoverEffect dt die core bank s) s := by
  unfold execHandoverEffect
  refine State.event_keeps (fun t => ?_)
  try dsimp only
  (repeat' split) <;> simp [*]

theorem execBankOn_keeps (dt : Nat) (die : CoreDie) (core : CoreIx) (group : Fin 2) (s : State) : Keeps (execBankOn dt die core group s) s := by
  unfold execBankOn
  exact State.coreEvent_keeps

theorem execBankRetain_keeps (dt : Nat) (die : CoreDie) (core : CoreIx) (group : Fin 2) (s : State) : Keeps (execBankRetain dt die core group s) s := by
  unfold execBankRetain
  exact State.coreEvent_keeps

theorem execBankOff_keeps (dt : Nat) (die : CoreDie) (core : CoreIx) (group : Fin 2) (s : State) : Keeps (execBankOff dt die core group s) s := by
  unfold execBankOff
  exact State.coreEvent_keeps

theorem execBankGroupReady_keeps (dt : Nat) (die : CoreDie) (core : CoreIx) (group : Fin 2) (s : State) : Keeps (execBankGroupReady dt die core group s) s := by
  unfold execBankGroupReady
  exact State.coreEvent_keeps

theorem execScratchCorrectedError_keeps (dt : Nat) (die : CoreDie) (core : CoreIx) (bank : Bank) (word : Fin 8192) (s : State) : Keeps (execScratchCorrectedError dt die core bank word s) s := by
  unfold execScratchCorrectedError
  refine State.event_keeps (fun t => ?_)
  try dsimp only
  (repeat' split) <;> simp [*]

theorem execShadowWrite_keeps (dt : Nat) (die : CoreDie) (core : CoreIx) (word : Fin 4096) (data : W32) (s : State) : Keeps (execShadowWrite dt die core word data s) s := by
  unfold execShadowWrite
  exact State.coreEvent_keeps

theorem execShadowValidSet_keeps (dt : Nat) (die : CoreDie) (core : CoreIx) (withWrite : Bool) (s : State) : Keeps (execShadowValidSet dt die core withWrite s) s := by
  unfold execShadowValidSet
  exact State.coreEvent_keeps

theorem execSwapNow_keeps (dt : Nat) (die : CoreDie) (core : CoreIx) (s : State) : Keeps (execSwapNow dt die core s) s := by
  unfold execSwapNow
  exact State.coreEvent_keeps

theorem execExplicitSwap_keeps (dt : Nat) (die : CoreDie) (core : CoreIx) (s : State) : Keeps (execExplicitSwap dt die core s) s := by
  unfold execExplicitSwap
  exact State.coreEvent_keeps

theorem execRowCancelRead_keeps (dt : Nat) (die : CoreDie) (core : CoreIx) (s : State) : Keeps (execRowCancelRead dt die core s) s := by
  unfold execRowCancelRead
  refine State.event_keeps (fun t => ?_)
  try dsimp only
  (repeat' split) <;> simp [*]

/-! ### Sfu -/

theorem execStepAdd_keeps (dt : Nat) (die : CoreDie) (core : CoreIx) (st : StepOps) (s : State) : Keeps (execStepAdd dt die core st s) s := State.microStep_keeps

/-! ### Cores -/

theorem execConv_keeps (dt : Nat) (die : CoreDie) (core : CoreIx) (s : State) : Keeps (execConv dt die core s) s := State.descRow_keeps

theorem execMatmul_keeps (dt : Nat) (die : CoreDie) (core : CoreIx) (s : State) : Keeps (execMatmul dt die core s) s := State.descRow_keeps

theorem execPool_keeps (dt : Nat) (die : CoreDie) (core : CoreIx) (s : State) : Keeps (execPool dt die core s) s := State.descRow_keeps

theorem execElem_keeps (dt : Nat) (die : CoreDie) (core : CoreIx) (s : State) : Keeps (execElem dt die core s) s := State.descRow_keeps

theorem execAct_keeps (dt : Nat) (die : CoreDie) (core : CoreIx) (s : State) : Keeps (execAct dt die core s) s := State.descRow_keeps

theorem execSoftmax_keeps (dt : Nat) (die : CoreDie) (core : CoreIx) (s : State) : Keeps (execSoftmax dt die core s) s := State.descRow_keeps

theorem execNorm_keeps (dt : Nat) (die : CoreDie) (core : CoreIx) (s : State) : Keeps (execNorm dt die core s) s := State.descRow_keeps

theorem execSort_keeps (dt : Nat) (die : CoreDie) (core : CoreIx) (s : State) : Keeps (execSort dt die core s) s := State.descRow_keeps

theorem execQuant_keeps (dt : Nat) (die : CoreDie) (core : CoreIx) (s : State) : Keeps (execQuant dt die core s) s := State.descRow_keeps

theorem execMicro_keeps (dt : Nat) (die : CoreDie) (core : CoreIx) (s : State) : Keeps (execMicro dt die core s) s := State.descRow_keeps

theorem execCompletionRecord_keeps (dt : Nat) (die : CoreDie) (core : CoreIx) (s : State) : Keeps (execCompletionRecord dt die core s) s := by
  unfold execCompletionRecord
  refine State.event_keeps (fun t => ?_)
  try dsimp only
  (repeat' split) <;> simp [*]

theorem execCompletionRingCollect_keeps (dt : Nat) (die : CoreDie) (core : CoreIx) (s : State) : Keeps (execCompletionRingCollect dt die core s) s := by
  unfold execCompletionRingCollect
  refine State.event_keeps (fun t => ?_)
  try dsimp only
  (repeat' split) <;> simp [*]

/-! ### Seams -/

theorem execBoundaryPre_keeps (dt : Nat) (die : CoreDie) (core : CoreIx) (s : State) : Keeps (execBoundaryPre dt die core s) s := by
  unfold execBoundaryPre
  refine State.event_keeps (fun t => ?_)
  try dsimp only
  (repeat' split) <;> simp [*]

theorem execCopyIn_keeps (dt : Nat) (die : CoreDie) (core : CoreIx) (s : State) : Keeps (execCopyIn dt die core s) s := by
  unfold execCopyIn
  refine State.event_keeps (fun t => ?_)
  try dsimp only
  (repeat' split) <;> simp [*]

theorem execSeamRowArrival_keeps (dt : Nat) (die : CoreDie) (core : CoreIx) (down : Bool) (s : State) : Keeps (execSeamRowArrival dt die core down s) s := by
  unfold execSeamRowArrival
  refine State.event_keeps (fun t => ?_)
  try dsimp only
  (repeat' split) <;> simp [*]

theorem execCreditReturn_keeps (dt : Nat) (die : CoreDie) (core : CoreIx) (down : Bool) (s : State) : Keeps (execCreditReturn dt die core down s) s := by
  unfold execCreditReturn
  refine State.event_keeps (fun t => ?_)
  try dsimp only
  (repeat' split) <;> simp [*]

theorem execPourStepAdvance_keeps (dt : Nat) (die : CoreDie) (core : CoreIx) (s : State) : Keeps (execPourStepAdvance dt die core s) s := by
  unfold execPourStepAdvance
  refine State.event_keeps (fun t => ?_)
  try dsimp only
  (repeat' split) <;> simp [*]

theorem execCinchArrive_keeps (dt : Nat) (die : CoreDie) (core : CoreIx) (s : State) : Keeps (execCinchArrive dt die core s) s := by
  unfold execCinchArrive
  refine State.event_keeps (fun t => ?_)
  try dsimp only
  (repeat' split) <;> simp [*]

theorem execCinchRelease_keeps (dt : Nat) (sess : SessionIx) (s : State) : Keeps (execCinchRelease dt sess s) s := by
  unfold execCinchRelease
  refine State.event_keeps (fun t => ?_)
  try dsimp only
  (repeat' split) <;> simp [*]

theorem execCinchTimeout_keeps (dt : Nat) (sess : SessionIx) (s : State) : Keeps (execCinchTimeout dt sess s) s := by
  unfold execCinchTimeout
  refine State.event_keeps (fun t => ?_)
  try dsimp only
  (repeat' split) <;> simp [*]

/-! ### Deliver -/

theorem execCascadeData_keeps (dt : Nat) (q : Fin 4) (f : Flit) (s : State) : Keeps (execCascadeData dt q f s) s := by
  unfold execCascadeData
  refine State.event_keeps (fun t => ?_)
  try dsimp only
  (repeat' split) <;> simp [*]

/-! ### Models -/

theorem execModelLoad_keeps (dt : Nat) (p : Port) (k : Slot) (sigOk : Bool) (s : State) : Keeps (execModelLoad dt p k sigOk s) s := by
  unfold execModelLoad
  refine State.mailboxRow_keeps (fun t r => ?_)
  exact State.checked_fixed _ _ _ _ _ (fun u => by split <;> simp)

theorem execModelReload_keeps (dt : Nat) (model : Fin 32) (sigOk : Bool) (s : State) : Keeps (execModelReload dt model sigOk s) s := by
  unfold execModelReload
  refine State.event_keeps (fun t => ?_)
  try dsimp only
  (repeat' split) <;> simp [*]

theorem execModelUnload_keeps (dt : Nat) (p : Port) (k : Slot) (s : State) : Keeps (execModelUnload dt p k s) s := by
  unfold execModelUnload
  refine State.mailboxRow_keeps (fun t r => ?_)
  try dsimp only
  (repeat' split) <;> simp [*]

theorem execModelList_keeps (dt : Nat) (p : Port) (k : Slot) (s : State) : Keeps (execModelList dt p k s) s := by
  unfold execModelList
  refine State.mailboxRow_keeps (fun t r => ?_)
  try dsimp only
  (repeat' split) <;> simp [*]

/-! ### Sessions -/

theorem execConfigure_keeps (dt : Nat) (p : Port) (k : Slot) (s : State) : Keeps (execConfigure dt p k s) s := by
  unfold execConfigure
  refine State.sessionRow_keeps (fun t r => ?_)
  try dsimp only
  (repeat' split) <;> simp [*]

theorem execBind_keeps (dt : Nat) (p : Port) (k : Slot) (pl : Placement) (s : State) : Keeps (execBind dt p k pl s) s := by
  unfold execBind
  refine State.sessionRow_keeps (fun t r => ?_)
  try dsimp only
  (repeat' split) <;> simp [*]

theorem execStart_keeps (dt : Nat) (p : Port) (k : Slot) (s : State) : Keeps (execStart dt p k s) s := by
  unfold execStart
  refine State.sessionRow_keeps (fun t r => ?_)
  try dsimp only
  (repeat' split) <;> simp [*]

theorem execRecut_keeps (dt : Nat) (p : Port) (k : Slot) (pl : Placement) (mismatch : List (CoreDie × CoreIx)) (s : State) : Keeps (execRecut dt p k pl mismatch s) s := by
  unfold execRecut
  refine State.sessionRow_keeps (fun t r => ?_)
  try dsimp only
  (repeat' split) <;> simp [*]

theorem execRecutCoreRelease_keeps (dt : Nat) (sess : SessionIx) (s : State) : Keeps (execRecutCoreRelease dt sess s) s := by
  unfold execRecutCoreRelease
  refine State.event_keeps (fun t => ?_)
  try dsimp only
  (repeat' split) <;> simp [*]

theorem execAbort_keeps (dt : Nat) (p : Port) (k : Slot) (s : State) : Keeps (execAbort dt p k s) s := by
  unfold execAbort
  refine State.sessionRow_keeps (fun t r => ?_)
  try dsimp only
  (repeat' split) <;> simp [*]

theorem execUnbind_keeps (dt : Nat) (p : Port) (k : Slot) (s : State) : Keeps (execUnbind dt p k s) s := by
  unfold execUnbind
  refine State.sessionRow_keeps (fun t r => ?_)
  try dsimp only
  (repeat' split) <;> simp [*]

theorem execClose_keeps (dt : Nat) (p : Port) (k : Slot) (s : State) : Keeps (execClose dt p k s) s := by
  unfold execClose
  refine State.sessionRow_keeps (fun t r => ?_)
  try dsimp only
  (repeat' split) <;> simp [*]

theorem execSessionStatus_keeps (dt : Nat) (p : Port) (k : Slot) (s : State) : Keeps (execSessionStatus dt p k s) s := by
  unfold execSessionStatus
  refine State.mailboxRow_keeps (fun t r => ?_)
  try dsimp only
  (repeat' split) <;> simp [*]

theorem execOutputStall_keeps (dt : Nat) (sess : SessionIx) (s : State) : Keeps (execOutputStall dt sess s) s := by
  unfold execOutputStall
  refine State.event_keeps (fun t => ?_)
  try dsimp only
  (repeat' split) <;> simp [*]

theorem execRemapGraceExpiry_keeps (dt : Nat) (sess : SessionIx) (s : State) : Keeps (execRemapGraceExpiry dt sess s) s := by
  unfold execRemapGraceExpiry
  refine State.event_keeps (fun t => ?_)
  try dsimp only
  (repeat' split) <;> simp [*]

theorem execSessionVectorCoalesce_keeps (dt : Nat) (sess : SessionIx) (s : State) : Keeps (execSessionVectorCoalesce dt sess s) s := by
  unfold execSessionVectorCoalesce
  refine State.event_keeps (fun t => ?_)
  try dsimp only
  (repeat' split) <;> simp [*]

theorem execCounterWindowRefresh_keeps (dt : Nat) (sess : SessionIx) (s : State) : Keeps (execCounterWindowRefresh dt sess s) s := by
  unfold execCounterWindowRefresh
  refine State.event_keeps (fun t => ?_)
  try dsimp only
  (repeat' split) <;> simp [*]

/-! ### Motion -/

theorem execFeederRowLanded_keeps (dt : Nat) (sess : SessionIx) (poc : W32) (s : State) : Keeps (execFeederRowLanded dt sess poc s) s := by
  unfold execFeederRowLanded
  refine State.event_keeps (fun t => ?_)
  try dsimp only
  (repeat' split) <;> simp [*]

theorem execSearchRow_keeps (dt : Nat) (sess : SessionIx) (poc : W32) (s : State) : Keeps (execSearchRow dt sess poc s) s := by
  unfold execSearchRow
  refine State.event_keeps (fun t => ?_)
  try dsimp only
  (repeat' split) <;> simp [*]

theorem execPredictRow_keeps (dt : Nat) (sess : SessionIx) (poc : W32) (s : State) : Keeps (execPredictRow dt sess poc s) s := by
  unfold execPredictRow
  refine State.event_keeps (fun t => ?_)
  try dsimp only
  (repeat' split) <;> simp [*]

theorem execLibrarySearch_keeps (dt : Nat) (sess : SessionIx) (poc : W32) (s : State) : Keeps (execLibrarySearch dt sess poc s) s := by
  unfold execLibrarySearch
  refine State.event_keeps (fun t => ?_)
  try dsimp only
  (repeat' split) <;> simp [*]

theorem execLibraryStageComplete_keeps (dt : Nat) (sess : SessionIx) (index : Nat) (ecc : Bool) (s : State) : Keeps (execLibraryStageComplete dt sess index ecc s) s := by
  unfold execLibraryStageComplete
  refine State.event_keeps (fun t => ?_)
  try dsimp only
  (repeat' split) <;> simp [*]

/-! ### Rans -/

theorem execSubstreamEncode_keeps (dt : Nat) (sess : SessionIx) (lane : LaneIx) (s : State) : Keeps (execSubstreamEncode dt sess lane s) s := by
  unfold execSubstreamEncode
  refine State.event_keeps (fun t => ?_)
  try dsimp only
  (repeat' split) <;> simp [*]

/-! ### Feeder -/

theorem execQueueEnable_keeps (dt : Nat) (md : MemDie) (q : QueueIx) (s : State) : Keeps (execQueueEnable dt md q s) s := by
  unfold execQueueEnable
  refine State.event_keeps (fun t => ?_)
  try dsimp only
  (repeat' split) <;> simp [*]

theorem execFeederDescriptorFetch_keeps (dt : Nat) (md : MemDie) (q : QueueIx) (s : State) : Keeps (execFeederDescriptorFetch dt md q s) s := by
  unfold execFeederDescriptorFetch
  refine State.event_keeps (fun t => ?_)
  try dsimp only
  (repeat' split) <;> simp [*]

theorem execTransferComplete_keeps (dt : Nat) (md : MemDie) (q : QueueIx) (stitch badRead : Bool) (landed : Nat) (s : State) : Keeps (execTransferComplete dt md q stitch badRead landed s) s := by
  unfold execTransferComplete
  refine State.event_keeps (fun t => ?_)
  try dsimp only
  (repeat' split) <;> simp [*]

theorem execQueueCancel_keeps (dt : Nat) (md : MemDie) (q : QueueIx) (s : State) : Keeps (execQueueCancel dt md q s) s := by
  unfold execQueueCancel
  refine State.event_keeps (fun t => ?_)
  try dsimp only
  (repeat' split) <;> simp [*]

theorem execCancelDrained_keeps (dt : Nat) (md : MemDie) (q : QueueIx) (landed : Nat) (s : State) : Keeps (execCancelDrained dt md q landed s) s := by
  unfold execCancelDrained
  refine State.event_keeps (fun t => ?_)
  try dsimp only
  (repeat' split) <;> simp [*]

/-! ### Video -/

theorem execPicture_keeps (dt : Nat) (p : Port) (k : Slot) (s : State) : Keeps (execPicture dt p k s) s := by
  unfold execPicture
  refine State.sessionRow_keeps (fun t r => ?_)
  try dsimp only
  (repeat' split) <;> simp [*]

theorem execPhase1Start_keeps (dt : Nat) (sess : SessionIx) (poc : W32) (loads : List CoreLoad) (s : State) : Keeps (execPhase1Start dt sess poc loads s) s := by
  unfold execPhase1Start
  refine State.event_keeps (fun t => ?_)
  try dsimp only
  (repeat' split) <;> simp [*]

theorem execPicCommit_keeps (dt : Nat) (sess : SessionIx) (poc : W32) (s : State) : Keeps (execPicCommit dt sess poc s) s := by
  unfold execPicCommit
  refine State.event_keeps (fun t => ?_)
  try dsimp only
  (repeat' split) <;> simp [*]

theorem execGainAllocation_keeps (dt : Nat) (sess : SessionIx) (poc : W32) (s : State) : Keeps (execGainAllocation dt sess poc s) s := by
  unfold execGainAllocation
  refine State.event_keeps (fun t => ?_)
  try dsimp only
  (repeat' split) <;> simp [*]

theorem execPhase2Start_keeps (dt : Nat) (sess : SessionIx) (poc : W32) (loads : List CoreLoad) (s : State) : Keeps (execPhase2Start dt sess poc loads s) s := by
  unfold execPhase2Start
  refine State.event_keeps (fun t => ?_)
  try dsimp only
  (repeat' split) <;> simp [*]

theorem execRowCommit_keeps (dt : Nat) (sess : SessionIx) (poc : W32) (s : State) : Keeps (execRowCommit dt sess poc s) s := by
  unfold execRowCommit
  refine State.event_keeps (fun t => ?_)
  try dsimp only
  (repeat' split) <;> simp [*]

theorem execPhase2Rerun_keeps (dt : Nat) (sess : SessionIx) (poc : W32) (loads : List CoreLoad) (s : State) : Keeps (execPhase2Rerun dt sess poc loads s) s := by
  unfold execPhase2Rerun
  refine State.event_keeps (fun t => ?_)
  try dsimp only
  (repeat' split) <;> simp [*]

theorem execPhase2Done_keeps (dt : Nat) (sess : SessionIx) (poc : W32) (s : State) : Keeps (execPhase2Done dt sess poc s) s := by
  unfold execPhase2Done
  refine State.event_keeps (fun t => ?_)
  try dsimp only
  (repeat' split) <;> simp [*]

theorem execFrameBufferRelease_keeps (dt : Nat) (sess : SessionIx) (poc : W32) (s : State) : Keeps (execFrameBufferRelease dt sess poc s) s := by
  unfold execFrameBufferRelease
  refine State.event_keeps (fun t => ?_)
  try dsimp only
  (repeat' split) <;> simp [*]

theorem execLibraryWriteComplete_keeps (dt : Nat) (sess : SessionIx) (index : Nat) (ok : Bool) (s : State) : Keeps (execLibraryWriteComplete dt sess index ok s) s := by
  unfold execLibraryWriteComplete
  refine State.event_keeps (fun t => ?_)
  try dsimp only
  (repeat' split) <;> simp [*]

/-! ### Tutik -/

theorem execPoolGrant_keeps (dt : Nat) (md : MemDie) (s : State) : Keeps (execPoolGrant dt md s) s := by
  unfold execPoolGrant
  refine State.event_keeps (fun t => ?_)
  try dsimp only
  (repeat' split) <;> simp [*]

theorem execStreamSlot_keeps (dt : Nat) (p : Port) (k : Slot) (s : State) : Keeps (execStreamSlot dt p k s) s := by
  unfold execStreamSlot
  refine State.sessionRow_keeps (fun t r => ?_)
  try dsimp only
  (repeat' split) <;> simp [*]

theorem execOutSlot_keeps (dt : Nat) (p : Port) (k : Slot) (s : State) : Keeps (execOutSlot dt p k s) s := by
  unfold execOutSlot
  refine State.sessionRow_keeps (fun t r => ?_)
  try dsimp only
  (repeat' split) <;> simp [*]

theorem execUnitMdl_keeps (dt : Nat) (sess : SessionIx) (s : State) : Keeps (execUnitMdl dt sess s) s := by
  unfold execUnitMdl
  refine State.unitRow_keeps (fun t u n b hb => ?_)
  try dsimp only at hb
  (repeat' split at hb) <;> simp_all
  all_goals (subst hb; simp)

theorem execUnitSeq_keeps (dt : Nat) (sess : SessionIx) (s : State) : Keeps (execUnitSeq dt sess s) s := by
  unfold execUnitSeq
  refine State.unitRow_keeps (fun t u n b hb => ?_)
  try dsimp only at hb
  (repeat' split at hb) <;> simp_all
  all_goals (subst hb; simp)

theorem execUnitPic_keeps (dt : Nat) (sess : SessionIx) (s : State) : Keeps (execUnitPic dt sess s) s := by
  unfold execUnitPic
  refine State.unitRow_keeps (fun t u n b hb => ?_)
  try dsimp only at hb
  (repeat' split at hb) <;> simp_all
  all_goals (subst hb; simp)

theorem execUnitRow_keeps (dt : Nat) (sess : SessionIx) (s : State) : Keeps (execUnitRow dt sess s) s := by
  unfold execUnitRow
  refine State.unitRow_keeps (fun t u n b hb => ?_)
  try dsimp only at hb
  (repeat' split at hb) <;> simp_all
  all_goals (subst hb; simp)

theorem execUnitLib_keeps (dt : Nat) (sess : SessionIx) (s : State) : Keeps (execUnitLib dt sess s) s := by
  unfold execUnitLib
  refine State.unitRow_keeps (fun t u n b hb => ?_)
  try dsimp only at hb
  (repeat' split at hb) <;> simp_all
  all_goals (subst hb; simp)

theorem execUnitEnd_keeps (dt : Nat) (sess : SessionIx) (s : State) : Keeps (execUnitEnd dt sess s) s := by
  unfold execUnitEnd
  refine State.unitRow_keeps (fun t u n b hb => ?_)
  try dsimp only at hb
  (repeat' split at hb) <;> simp_all
  all_goals (subst hb; simp)

theorem execExtensionUnit_keeps (dt : Nat) (sess : SessionIx) (s : State) : Keeps (execExtensionUnit dt sess s) s := by
  unfold execExtensionUnit
  refine State.unitRow_keeps (fun t u n b hb => ?_)
  try dsimp only at hb
  (repeat' split at hb) <;> simp_all
  all_goals (subst hb; simp)

theorem execReservedUnitType_keeps (dt : Nat) (sess : SessionIx) (s : State) : Keeps (execReservedUnitType dt sess s) s := by
  unfold execReservedUnitType
  refine State.event_keeps (fun t => ?_)
  try dsimp only
  (repeat' split) <;> simp [*]

theorem execPictureWatchdog_keeps (dt : Nat) (sess : SessionIx) (poc : W32) (s : State) : Keeps (execPictureWatchdog dt sess poc s) s := by
  unfold execPictureWatchdog
  refine State.event_keeps (fun t => ?_)
  try dsimp only
  (repeat' split) <;> simp [*]

/-! ### Audio -/

theorem execAudioBlock_keeps (dt : Nat) (p : Port) (k : Slot) (s : State) : Keeps (execAudioBlock dt p k s) s := by
  unfold execAudioBlock
  refine State.sessionRow_keeps (fun t r => ?_)
  try dsimp only
  (repeat' split) <;> simp [*]

theorem execAudioFrameEncode_keeps (dt : Nat) (sess : SessionIx) (group : GroupIx) (s : State) : Keeps (execAudioFrameEncode dt sess group s) s := by
  unfold execAudioFrameEncode
  refine State.event_keeps (fun t => ?_)
  try dsimp only
  (repeat' split) <;> simp [*]

theorem execAudCommit_keeps (dt : Nat) (sess : SessionIx) (s : State) : Keeps (execAudCommit dt sess s) s := by
  unfold execAudCommit
  refine State.event_keeps (fun t => ?_)
  try dsimp only
  (repeat' split) <;> simp [*]

theorem execUnitAud_keeps (dt : Nat) (sess : SessionIx) (s : State) : Keeps (execUnitAud dt sess s) s := by
  unfold execUnitAud
  refine State.unitRow_keeps (fun t u n b hb => ?_)
  try dsimp only at hb
  (repeat' split at hb) <;> simp_all
  all_goals (subst hb; simp)

theorem execAudioSynthesisDone_keeps (dt : Nat) (sess : SessionIx) (group : GroupIx) (s : State) : Keeps (execAudioSynthesisDone dt sess group s) s := by
  unfold execAudioSynthesisDone
  refine State.event_keeps (fun t => ?_)
  try dsimp only
  (repeat' split) <;> simp [*]

theorem execAudioWatchdog_keeps (dt : Nat) (sess : SessionIx) (group : GroupIx) (s : State) : Keeps (execAudioWatchdog dt sess group s) s := by
  unfold execAudioWatchdog
  refine State.event_keeps (fun t => ?_)
  try dsimp only
  (repeat' split) <;> simp [*]

/-! ### Lanes -/

theorem execSubstreamDecode_keeps (dt : Nat) (sess : SessionIx) (lane : LaneIx) (s : State) : Keeps (execSubstreamDecode dt sess lane s) s := by
  unfold execSubstreamDecode
  refine State.event_keeps (fun t => ?_)
  try dsimp only
  (repeat' split) <;> simp [*]

theorem execDrain_keeps (dt : Nat) (p : Port) (k : Slot) (s : State) : Keeps (execDrain dt p k s) s := by
  unfold execDrain
  refine State.sessionRow_keeps (fun t r => ?_)
  try dsimp only
  (repeat' split) <;> simp [*]

theorem execDrainComplete_keeps (dt : Nat) (sess : SessionIx) (s : State) : Keeps (execDrainComplete dt sess s) s := by
  unfold execDrainComplete
  refine State.event_keeps (fun t => ?_)
  try dsimp only
  (repeat' split) <;> simp [*]

/-! ### Regs -/

theorem execMirrorPush_keeps (dt : Nat) (die : DieIx) (s : State) : Keeps (execMirrorPush dt die s) s := by
  unfold execMirrorPush
  refine State.event_keeps (fun t => ?_)
  try dsimp only
  (repeat' split) <;> simp [*]

theorem execRegisterWrite_keeps (dt : Nat) (w : Writer) (addr : Nat) (data : Bytes) (s : State) : Keeps (execRegisterWrite dt w addr data s) s := by
  unfold execRegisterWrite
  refine State.event_keeps (fun t => ?_)
  try dsimp only
  (repeat' split) <;> simp [*]

/-! ### The commands that write fuses -/

/-- The command answers a next state that keeps the queue and blows fuses only. -/
def Burns (r : Result) (s : State) : Prop := ∃ t, r = .next t ∧ t.pending = s.pending ∧ FusesBurn s.fuses t.fuses

/-- Setting more bits keeps those that were set. -/
theorem bits_and_or {n : Nat} (a b : BitVec n) : a &&& (a ||| b) = a := by
  ext i h
  rw [BitVec.getElem_and, BitVec.getElem_or]
  cases a[i] <;> rfl

theorem FusesBurn.refl (a : Fuses) : FusesBurn a a := ⟨Nat.le_refl _, by simp, by simp, fun _ _ => rfl, rfl, rfl, rfl, rfl⟩

theorem State.burns_of_fixed {s u t : State} (e : t.fixed = u.fixed) (hp : u.pending = s.pending) (hb : FusesBurn s.fuses u.fuses) :
    t.pending = s.pending ∧ FusesBurn s.fuses t.fuses := by
  rw [State.pending_of_fixed e, State.fuses_of_fixed e]
  exact ⟨hp, hb⟩

theorem Keeps.burns {r : Result} {s : State} (h : Keeps r s) : Burns r s := by
  obtain ⟨t, e, hf⟩ := h
  refine ⟨t, e, State.pending_of_fixed hf, ?_⟩
  rw [State.fuses_of_fixed hf]
  exact FusesBurn.refl _

/-- A row whose body blows fuses only, blows fuses only. -/
theorem State.mailboxRow_burns {s : State} {dt : Nat} {p : Port} {k : Slot} {mine : Nat → Bytes → Bool} {body : State → Bytes → State}
    (h : ∀ t r, (body t r).pending = t.pending ∧ FusesBurn t.fuses (body t r).fuses) : Burns (s.mailboxRow dt p k mine body) s := by
  refine ⟨_, rfl, ?_⟩
  have keep : ∀ t : State, t.fixed = s.fixed → t.pending = s.pending ∧ FusesBurn s.fuses t.fuses := by
    intro t e
    rw [State.pending_of_fixed e, State.fuses_of_fixed e]
    exact ⟨rfl, FusesBurn.refl _⟩
  unfold State.command
  dsimp only
  split
  · exact keep _ (by simp)
  · split
    · exact keep _ (by simp)
    · split
      · exact keep _ (by simp)
      · split
        · have e : ((s.elapse dt).accept p.val k.val).fixed = s.fixed := by simp
          have hb := h ((s.elapse dt).accept p.val k.val) ((((s.elapse dt).accept p.val k.val).slot p.val k.val).request)
          rw [State.pending_of_fixed e, State.fuses_of_fixed e] at hb
          exact hb
        · exact keep _ (by simp)

theorem State.checked_burns {s : State} {p k : Nat} {checks : List (Bool × Answer)} {ok : State → State}
    (h : (ok s).pending = s.pending ∧ FusesBurn s.fuses (ok s).fuses) :
    (s.checked p k checks ok).pending = s.pending ∧ FusesBurn s.fuses (s.checked p k checks ok).fuses := by
  unfold State.checked
  split
  · have e : ∀ a, (s.answer p k a).fixed = s.fixed := fun a => by simp
    rw [State.pending_of_fixed (e _), State.fuses_of_fixed (e _)]
    exact ⟨rfl, FusesBurn.refl _⟩
  · exact h

/-- COMMIT_SVN only raises the fused security version. -/
theorem execCommitSvn_burns (dt : Nat) (p : Port) (k : Slot) (s : State) : Burns (execCommitSvn dt p k s) s := by
  unfold execCommitSvn
  refine State.mailboxRow_burns (fun t r => State.checked_burns ?_)
  split
  · have e : ∀ a, (t.answer p.val k.val a).fixed = t.fixed := fun a => by simp
    rw [State.pending_of_fixed (e _), State.fuses_of_fixed (e _)]
    exact ⟨rfl, FusesBurn.refl _⟩
  · next hlt =>
    dsimp only
    refine State.burns_of_fixed (u := { t with fuses := { t.fuses with svnFused := t.boot.svnRunning } }) (by simp) rfl ?_
    refine ⟨by simp only; omega, by simp, by simp, fun _ _ => rfl, rfl, rfl, rfl, rfl⟩

/-- ENROL_MODEL_KEY only fills a blank key slot. -/
theorem execEnrolModelKey_burns (dt : Nat) (p : Port) (k : Slot) (s : State) : Burns (execEnrolModelKey dt p k s) s := by
  unfold execEnrolModelKey
  refine State.mailboxRow_burns (fun t r => ?_)
  dsimp only
  by_cases blank : Tab.get [] t.fuses.modelKeys (leAt r 1 1) = []
  · refine State.checked_burns ?_
    refine State.burns_of_fixed
      (u := { t with fuses := { t.fuses with modelKeys := Tab.set [] t.fuses.modelKeys (leAt r 1 1) (slice r 16 32) } }) (by simp) rfl ?_
    refine ⟨Nat.le_refl _, by simp, by simp, fun q hq => ?_, rfl, rfl, rfl, rfl⟩
    exact Tab.get_set_other _ _ _ _ _ (fun e => hq (e ▸ blank))
  · have full : (Tab.get [] t.fuses.modelKeys (leAt r 1 1)).isEmpty = false := by
      cases h : Tab.get [] t.fuses.modelKeys (leAt r 1 1) with
      | nil => exact absurd h blank
      | cons a l => rfl
    have fails : ∃ a, firstFail (t.updateChecks p.val k.val r ++
        [(decide (leAt r 1 1 < 4) || decide (7 < leAt r 1 1) || !(Tab.get [] t.fuses.modelKeys (leAt r 1 1)).isEmpty, refusal stBadArg 1)]) = some a := by
      generalize t.updateChecks p.val k.val r = l
      induction l with
      | nil => exact ⟨refusal stBadArg 1, by simp [firstFail, full]⟩
      | cons c l ih =>
        obtain ⟨a, ha⟩ := ih
        cases hc : c.1 with
        | true => exact ⟨c.2, by simp [firstFail, hc]⟩
        | false => exact ⟨a, by simpa [firstFail, hc] using ha⟩
    obtain ⟨a, ha⟩ := fails
    unfold State.checked
    rw [ha]
    have e : (t.answer p.val k.val a).fixed = t.fixed := by simp
    dsimp only
    rw [State.pending_of_fixed e, State.fuses_of_fixed e]
    exact ⟨rfl, FusesBurn.refl _⟩

/-- REVOKE_KEY only sets a revocation bit. -/
theorem execRevokeKey_burns (dt : Nat) (p : Port) (k : Slot) (s : State) : Burns (execRevokeKey dt p k s) s := by
  unfold execRevokeKey
  refine State.mailboxRow_burns (fun t r => State.checked_burns ?_)
  dsimp only
  split
  · refine State.burns_of_fixed
      (u := { t with fuses := { t.fuses with fwRevoked := t.fuses.fwRevoked ||| BitVec.ofNat 4 (2 ^ leAt r 1 1) } }) (by simp) rfl ?_
    exact ⟨Nat.le_refl _, bits_and_or _ _, by simp, fun _ _ => rfl, rfl, rfl, rfl, rfl⟩
  · refine State.burns_of_fixed
      (u := { t with fuses := { t.fuses with modelRevoked := t.fuses.modelRevoked ||| BitVec.ofNat 8 (2 ^ leAt r 1 1) } }) (by simp) rfl ?_
    exact ⟨Nat.le_refl _, by simp, bits_and_or _ _, fun _ _ => rfl, rfl, rfl, rfl, rfl⟩


end Sys2Proof.Machine
end

