-- ==== Sys2Proof/Laws/MemSafe.lean ====
section
/-! SUPPORT. No command breaks the canonical form of the memories: one lemma for each command. -/

namespace Sys2Proof.Machine

/-- Where the command answers a next state, the memories keep their form. -/
def MemSafe (r : Result) (s : State) : Prop := ∀ t, r = .next t → s.memory.wf = true → t.memory.wf = true

theorem MemSafe.next {s t : State} (h : s.memory.wf = true → t.memory.wf = true) : MemSafe (.next t) s := by
  intro u hu hs
  cases hu
  exact h hs

theorem MemSafe.fault {s : State} {f : Fault} : MemSafe (.fault f) s := by
  intro u hu
  cases hu

theorem State.event_mem {s : State} {dt : Nat} {ready : State → Bool} {effect : State → State}
    (h : ∀ t, t.memory.wf = true → (effect t).memory.wf = true) : MemSafe (s.event dt ready effect) s := by
  refine MemSafe.next (fun hs => ?_)
  split <;> simp [h, hs]

theorem State.coreEvent_mem {s : State} {dt d c : Nat} {ready : Core → Bool} {effect : Core → Core} :
    MemSafe (s.coreEvent dt d c ready effect) s := State.event_mem (fun t h => by simp [h])

theorem State.mailboxRow_mem {s : State} {dt : Nat} {p : Port} {k : Slot} {mine : Nat → Bytes → Bool}
    {body : State → Bytes → State} (h : ∀ t r, t.memory.wf = true → (body t r).memory.wf = true) : MemSafe (s.mailboxRow dt p k mine body) s :=
  MemSafe.next (fun hs => State.command_memOk _ _ _ _ _ h (by simp [hs]))

theorem State.sessionRow_mem {s : State} {dt : Nat} {p : Port} {k : Slot} {op : Nat} {late : State → Nat → Bool}
    {body : State → Bytes → State} {ask : State → Bytes → Option (Recut × Bool)} (h : ∀ t r, t.memory.wf = true → (body t r).memory.wf = true) : MemSafe (s.sessionRow dt p k op late body ask) s := by
  unfold State.sessionRow
  dsimp only
  split
  · split
    · exact MemSafe.next (fun hs => h _ _ (by simp [hs]))
    · exact MemSafe.next (fun hs => by simp [hs])
  · exact MemSafe.next (fun hs => State.command_memOk _ _ _ _ _ (by intro t r ht; split <;> simp [h, ht]) (by simp [hs]))

theorem State.unitRow_mem {s : State} {dt i : Nat} {want : Nat → Bool} {body : State → NextUnit → Nat → Option State}
    (h : ∀ t u n b, body t u n = some b → t.memory.wf = true → b.memory.wf = true) : MemSafe (s.unitRow dt i want body) s := by
  refine MemSafe.next (fun hs => ?_)
  split
  · simp [hs]
  · split
    · simp [hs]
    · dsimp only
      split
      · simp [hs]
      · split
        · simp [hs]
        · split
          · simp (maxDischargeDepth := 12) [hs]
          · split
            · simp [hs]
            · next hb => exact State.settleDecode_memOk _ _ (h _ _ _ _ hb (by simp [hs]))

theorem State.descRow_mem {s : State} {dt : Nat} {die : CoreDie} {core : CoreIx} {op : Nat} {run : Desc → Core → Done} :
    MemSafe (s.descRow dt die core op run) s := State.event_mem (fun t h => by simp [h])

theorem State.microStep_mem {s : State} {dt op : Nat} {d : CoreDie} {c : CoreIx} {st : StepOps} :
    MemSafe (s.microStep dt op d c st) s := State.coreEvent_mem

/-! ### Owner -/

theorem execPing_mem (dt : Nat) (p : Port) (k : Slot) (s : State) : MemSafe (execPing dt p k s) s := by
  unfold execPing
  refine State.mailboxRow_mem (fun t r h => ?_)
  try dsimp only
  (repeat' split) <;> simp (maxDischargeDepth := 12) [*]

theorem execDeviceInfo_mem (dt : Nat) (p : Port) (k : Slot) (s : State) : MemSafe (execDeviceInfo dt p k s) s := by
  unfold execDeviceInfo
  refine State.mailboxRow_mem (fun t r h => ?_)
  try dsimp only
  (repeat' split) <;> simp (maxDischargeDepth := 12) [*]

theorem execClaim_mem (dt : Nat) (p : Port) (k : Slot) (s : State) : MemSafe (execClaim dt p k s) s := by
  unfold execClaim
  refine State.mailboxRow_mem (fun t r h => ?_)
  try dsimp only
  (repeat' split) <;> simp (maxDischargeDepth := 12) [*]

theorem execHeartbeat_mem (dt : Nat) (p : Port) (k : Slot) (s : State) : MemSafe (execHeartbeat dt p k s) s := by
  unfold execHeartbeat
  refine State.mailboxRow_mem (fun t r h => ?_)
  try dsimp only
  (repeat' split) <;> simp (maxDischargeDepth := 12) [*]

theorem execHandover_mem (dt : Nat) (p : Port) (k : Slot) (s : State) : MemSafe (execHandover dt p k s) s := by
  unfold execHandover
  refine State.mailboxRow_mem (fun t r h => ?_)
  try dsimp only
  (repeat' split) <;> simp (maxDischargeDepth := 12) [*]

theorem execAccept_mem (dt : Nat) (p : Port) (k : Slot) (s : State) : MemSafe (execAccept dt p k s) s := by
  unfold execAccept
  refine State.mailboxRow_mem (fun t r h => ?_)
  try dsimp only
  (repeat' split) <;> simp (maxDischargeDepth := 12) [*]

theorem execRelease_mem (dt : Nat) (p : Port) (k : Slot) (s : State) : MemSafe (execRelease dt p k s) s := by
  unfold execRelease
  refine State.mailboxRow_mem (fun t r h => ?_)
  try dsimp only
  (repeat' split) <;> simp (maxDischargeDepth := 12) [*]

theorem execElectionWindowClose_mem (dt : Nat) (s : State) : MemSafe (execElectionWindowClose dt s) s := by
  unfold execElectionWindowClose
  refine State.event_mem (fun t h => ?_)
  try dsimp only
  (repeat' split) <;> simp (maxDischargeDepth := 12) [*]

theorem execLeaseExpired_mem (dt : Nat) (s : State) : MemSafe (execLeaseExpired dt s) s := by
  unfold execLeaseExpired
  refine State.event_mem (fun t h => ?_)
  try dsimp only
  (repeat' split) <;> simp (maxDischargeDepth := 12) [*]

theorem execHandoverLapsed_mem (dt : Nat) (s : State) : MemSafe (execHandoverLapsed dt s) s := by
  unfold execHandoverLapsed
  refine State.event_mem (fun t h => ?_)
  try dsimp only
  (repeat' split) <;> simp (maxDischargeDepth := 12) [*]

/-! ### Mailbox -/

theorem execMailboxSeal_mem (dt : Nat) (p : Port) (k : Slot) (seq opcode : W16) (s : State) : MemSafe (execMailboxSeal dt p k seq opcode s) s := by
  unfold execMailboxSeal
  refine State.event_mem (fun t h => ?_)
  try dsimp only
  (repeat' split) <;> simp (maxDischargeDepth := 12) [*]

theorem execSlotStateWrite_mem (dt : Nat) (p : Port) (k : Slot) (value : W32) (s : State) : MemSafe (execSlotStateWrite dt p k value s) s := by
  unfold execSlotStateWrite
  refine State.event_mem (fun t h => ?_)
  try dsimp only
  (repeat' split) <;> simp (maxDischargeDepth := 12) [*]

theorem execSeqGap_mem (dt : Nat) (p : Port) (s : State) : MemSafe (execSeqGap dt p s) s := by
  unfold execSeqGap
  refine State.event_mem (fun t h => ?_)
  try dsimp only
  (repeat' split) <;> simp (maxDischargeDepth := 12) [*]

theorem execMbxOffset_mem (dt : Nat) (data : Bytes) (pecOk : Bool) (s : State) : MemSafe (execMbxOffset dt data pecOk s) s := by
  unfold execMbxOffset
  refine State.event_mem (fun t h => ?_)
  try dsimp only
  (repeat' split) <;> simp (maxDischargeDepth := 12) [*]

theorem execMbxWrite_mem (dt : Nat) (data : Bytes) (pecOk : Bool) (s : State) : MemSafe (execMbxWrite dt data pecOk s) s := by
  unfold execMbxWrite
  refine State.event_mem (fun t h => ?_)
  try dsimp only
  (repeat' split) <;> simp (maxDischargeDepth := 12) [*]

theorem execMbxRead_mem (dt : Nat) (s : State) : MemSafe (execMbxRead dt s) s := by
  unfold execMbxRead
  refine State.event_mem (fun t h => ?_)
  try dsimp only
  (repeat' split) <;> simp (maxDischargeDepth := 12) [*]

theorem execAlertResponse_mem (dt : Nat) (s : State) : MemSafe (execAlertResponse dt s) s := by
  unfold execAlertResponse
  refine State.event_mem (fun t h => ?_)
  try dsimp only
  (repeat' split) <;> simp (maxDischargeDepth := 12) [*]

theorem execTimeLoRead_mem (dt : Nat) (s : State) : MemSafe (execTimeLoRead dt s) s := by
  unfold execTimeLoRead
  refine State.event_mem (fun t h => ?_)
  try dsimp only
  (repeat' split) <;> simp (maxDischargeDepth := 12) [*]

theorem execLogNextLoRead_mem (dt : Nat) (s : State) : MemSafe (execLogNextLoRead dt s) s := by
  unfold execLogNextLoRead
  refine State.event_mem (fun t h => ?_)
  try dsimp only
  (repeat' split) <;> simp (maxDischargeDepth := 12) [*]

theorem execEventCommit_mem (dt : Nat) (s : State) : MemSafe (execEventCommit dt s) s := by
  unfold execEventCommit
  refine State.event_mem (fun t h => ?_)
  try dsimp only
  (repeat' split) <;> simp (maxDischargeDepth := 12) [*]

theorem execDieProgressReport_mem (dt : Nat) (d : DieIx) (s : State) : MemSafe (execDieProgressReport dt d s) s := by
  unfold execDieProgressReport
  refine State.event_mem (fun t h => ?_)
  try dsimp only
  (repeat' split) <;> simp (maxDischargeDepth := 12) [*]

theorem execEventRead_mem (dt : Nat) (p : Port) (k : Slot) (s : State) : MemSafe (execEventRead dt p k s) s := by
  unfold execEventRead
  refine State.mailboxRow_mem (fun t r h => ?_)
  exact State.checked_memOk _ _ _ _ _ (fun u hu => by simp [hu]) h

/-! ### Pcie -/

theorem execPerstAssert_mem (dt : Nat) (p : PciePort) (s : State) : MemSafe (execPerstAssert dt p s) s := by
  unfold execPerstAssert
  refine State.event_mem (fun t h => ?_)
  try dsimp only
  (repeat' split) <;> simp (maxDischargeDepth := 12) [*]

theorem execPerstRelease_mem (dt : Nat) (p : PciePort) (s : State) : MemSafe (execPerstRelease dt p s) s := by
  unfold execPerstRelease
  refine State.event_mem (fun t h => ?_)
  try dsimp only
  (repeat' split) <;> simp (maxDischargeDepth := 12) [*]

theorem execPcieControllersReady_mem (dt : Nat) (s : State) : MemSafe (execPcieControllersReady dt s) s := by
  unfold execPcieControllersReady
  refine State.event_mem (fun t h => ?_)
  try dsimp only
  (repeat' split) <;> simp (maxDischargeDepth := 12) [*]

theorem execPcieLinkUp_mem (dt : Nat) (p : PciePort) (width : Fin 17) (rate : Fin 7) (flit : Bool) (s : State) : MemSafe (execPcieLinkUp dt p width rate flit s) s := by
  unfold execPcieLinkUp
  refine State.event_mem (fun t h => ?_)
  try dsimp only
  (repeat' split) <;> simp (maxDischargeDepth := 12) [*]

theorem execFlr_mem (dt : Nat) (p : PciePort) (s : State) : MemSafe (execFlr dt p s) s := by
  unfold execFlr
  refine State.event_mem (fun t h => ?_)
  try dsimp only
  (repeat' split) <;> simp (maxDischargeDepth := 12) [*]

theorem execSurpriseLinkDown_mem (dt : Nat) (p : PciePort) (s : State) : MemSafe (execSurpriseLinkDown dt p s) s := by
  unfold execSurpriseLinkDown
  refine State.event_mem (fun t h => ?_)
  try dsimp only
  (repeat' split) <;> simp (maxDischargeDepth := 12) [*]

theorem execPmStateWrite_mem (dt : Nat) (p : PciePort) (d3hot : Bool) (s : State) : MemSafe (execPmStateWrite dt p d3hot s) s := by
  unfold execPmStateWrite
  refine State.event_mem (fun t h => ?_)
  try dsimp only
  (repeat' split) <;> simp (maxDischargeDepth := 12) [*]

theorem execConfigurationWrite_mem (dt : Nat) (p : PciePort) (w : CfgWrite) (s : State) : MemSafe (execConfigurationWrite dt p w s) s := by
  unfold execConfigurationWrite
  refine State.event_mem (fun t h => ?_)
  try dsimp only
  (repeat' split) <;> simp (maxDischargeDepth := 12) [*]

theorem execBar2Read_mem (dt : Nat) (p : PciePort) (offset : Nat) (len : Fin 65) (s : State) : MemSafe (execBar2Read dt p offset len s) s := by
  unfold execBar2Read
  refine State.event_mem (fun t h => ?_)
  try dsimp only
  (repeat' split) <;> simp (maxDischargeDepth := 12) [*]

theorem execBar2Write_mem (dt : Nat) (p : PciePort) (offset : Nat) (data : Bytes) (s : State) : MemSafe (execBar2Write dt p offset data s) s := by
  unfold execBar2Write
  refine State.event_mem (fun t h => ?_)
  try dsimp only
  (repeat' split) <;> simp (maxDischargeDepth := 12) [*]

/-! ### Power -/

theorem execAuxPowerOn_mem (dt : Nat) (s : State) : MemSafe (execAuxPowerOn dt s) s := by
  unfold execAuxPowerOn
  refine State.event_mem (fun t h => ?_)
  try dsimp only
  (repeat' split) <;> simp (maxDischargeDepth := 12) [*]

theorem execAuxPowerOff_mem (dt : Nat) (s : State) : MemSafe (execAuxPowerOff dt s) s := by
  unfold execAuxPowerOff
  refine State.event_mem (fun t h => ?_)
  try dsimp only
  (repeat' split) <;> simp (maxDischargeDepth := 12) [*]

theorem execSupply54vRemoved_mem (dt mv10 : Nat) (s : State) : MemSafe (execSupply54vRemoved dt mv10 s) s := by
  unfold execSupply54vRemoved
  refine State.event_mem (fun t h => ?_)
  try dsimp only
  (repeat' split) <;> simp (maxDischargeDepth := 12) [*]

theorem execSupply54vRestored_mem (dt mv10 : Nat) (s : State) : MemSafe (execSupply54vRestored dt mv10 s) s := by
  unfold execSupply54vRestored
  refine State.event_mem (fun t h => ?_)
  try dsimp only
  (repeat' split) <;> simp (maxDischargeDepth := 12) [*]

theorem execRailSequence_mem (dt : Nat) (failing : List Rail) (s : State) : MemSafe (execRailSequence dt failing s) s := by
  unfold execRailSequence
  refine State.event_mem (fun t h => ?_)
  try dsimp only
  (repeat' split) <;> simp (maxDischargeDepth := 12) [*]

theorem execRailSequenceRetry_mem (dt : Nat) (failing : List Rail) (s : State) : MemSafe (execRailSequenceRetry dt failing s) s := by
  unfold execRailSequenceRetry
  refine State.event_mem (fun t h => ?_)
  try dsimp only
  (repeat' split) <;> simp (maxDischargeDepth := 12) [*]

theorem execRailFault_mem (dt : Nat) (rail : Rail) (s : State) : MemSafe (execRailFault dt rail s) s := by
  unfold execRailFault
  refine State.event_mem (fun t h => ?_)
  try dsimp only
  (repeat' split) <;> simp (maxDischargeDepth := 12) [*]

theorem execSupplyWarn_mem (dt mv10 : Nat) (s : State) : MemSafe (execSupplyWarn dt mv10 s) s := by
  unfold execSupplyWarn
  refine State.event_mem (fun t h => ?_)
  try dsimp only
  (repeat' split) <;> simp (maxDischargeDepth := 12) [*]

theorem execSupplyFault_mem (dt mv10 : Nat) (s : State) : MemSafe (execSupplyFault dt mv10 s) s := by
  unfold execSupplyFault
  refine State.event_mem (fun t h => ?_)
  try dsimp only
  (repeat' split) <;> simp (maxDischargeDepth := 12) [*]

theorem execModuleReset_mem (dt : Nat) (s : State) : MemSafe (execModuleReset dt s) s := by
  unfold execModuleReset
  refine State.event_mem (fun t h => ?_)
  try dsimp only
  (repeat' split) <;> simp (maxDischargeDepth := 12) [*]

theorem execBoot_mem (dt : Nat) (straps : BitVec 4) (s : State) : MemSafe (execBoot dt straps s) s := by
  unfold execBoot
  refine State.event_mem (fun t h => ?_)
  dsimp only
  split
  · exact h
  · exact State.foldl_memOk _ (fun u x hu => State.fence_memOk _ _ _ hu) _ _ (State.loseVolatile_memOk _ h)

theorem execPllWindow_mem (dt : Nat) (domain : Fin 60) (count256 : Nat) (s : State) : MemSafe (execPllWindow dt domain count256 s) s := by
  unfold execPllWindow
  refine State.event_mem (fun t h => ?_)
  try dsimp only
  (repeat' split) <;> simp (maxDischargeDepth := 12) [*]

theorem execPllStartTimeout_mem (dt : Nat) (domain : Fin 60) (s : State) : MemSafe (execPllStartTimeout dt domain s) s := by
  unfold execPllStartTimeout
  refine State.event_mem (fun t h => ?_)
  try dsimp only
  (repeat' split) <;> simp (maxDischargeDepth := 12) [*]

theorem execRefclkMissing_mem (dt cycles : Nat) (s : State) : MemSafe (execRefclkMissing dt cycles s) s := by
  unfold execRefclkMissing
  refine State.event_mem (fun t h => ?_)
  try dsimp only
  (repeat' split) <;> simp (maxDischargeDepth := 12) [*]

theorem execRefclkPresent_mem (dt : Nat) (windows : List Nat) (s : State) : MemSafe (execRefclkPresent dt windows s) s := by
  unfold execRefclkPresent
  refine State.event_mem (fun t h => ?_)
  try dsimp only
  (repeat' split) <;> simp (maxDischargeDepth := 12) [*]

theorem execTapReset_mem (dt : Nat) (s : State) : MemSafe (execTapReset dt s) s := by
  unfold execTapReset
  refine State.event_mem (fun t h => ?_)
  try dsimp only
  (repeat' split) <;> simp (maxDischargeDepth := 12) [*]

theorem execBypass_mem (dt : Nat) (tdi : Bool) (s : State) : MemSafe (execBypass dt tdi s) s := by
  unfold execBypass
  refine State.event_mem (fun t h => ?_)
  try dsimp only
  (repeat' split) <;> simp (maxDischargeDepth := 12) [*]

theorem execIdcode_mem (dt : Nat) (s : State) : MemSafe (execIdcode dt s) s := by
  unfold execIdcode
  refine State.event_mem (fun t h => ?_)
  try dsimp only
  (repeat' split) <;> simp (maxDischargeDepth := 12) [*]

theorem execSamplePreload_mem (dt : Nat) (preload : List Bool) (s : State) : MemSafe (execSamplePreload dt preload s) s := by
  unfold execSamplePreload
  refine State.event_mem (fun t h => ?_)
  try dsimp only
  (repeat' split) <;> simp (maxDischargeDepth := 12) [*]

theorem execExtest_mem (dt : Nat) (s : State) : MemSafe (execExtest dt s) s := by
  unfold execExtest
  refine State.event_mem (fun t h => ?_)
  try dsimp only
  (repeat' split) <;> simp (maxDischargeDepth := 12) [*]

theorem execFlitCrcFail_mem (dt : Nat) (die : DieIx) (edge : Fin 4) (attempts : Fin 6) (s : State) : MemSafe (execFlitCrcFail dt die edge attempts s) s := by
  unfold execFlitCrcFail
  refine State.event_mem (fun t h => ?_)
  try dsimp only
  (repeat' split) <;> simp (maxDischargeDepth := 12) [*]

theorem execSramUncorrectableEcc_mem (dt : Nat) (die : DieIx) (core : Option CoreIx) (s : State) : MemSafe (execSramUncorrectableEcc dt die core s) s := by
  unfold execSramUncorrectableEcc
  refine State.event_mem (fun t h => ?_)
  try dsimp only
  (repeat' split) <;> simp (maxDischargeDepth := 12) [*]

theorem execDieWatchdogExpiry_mem (dt : Nat) (die : DieIx) (s : State) : MemSafe (execDieWatchdogExpiry dt die s) s := by
  unfold execDieWatchdogExpiry
  refine State.event_mem (fun t h => ?_)
  try dsimp only
  (repeat' split) <;> simp (maxDischargeDepth := 12) [*]

theorem execHubWatchdogExpiry_mem (dt : Nat) (s : State) : MemSafe (execHubWatchdogExpiry dt s) s := by
  unfold execHubWatchdogExpiry
  refine State.event_mem (fun t h => ?_)
  try dsimp only
  (repeat' split) <;> simp (maxDischargeDepth := 12) [*]

theorem execSetCap_mem (dt : Nat) (p : Port) (k : Slot) (s : State) : MemSafe (execSetCap dt p k s) s := by
  unfold execSetCap
  refine State.mailboxRow_mem (fun t r h => ?_)
  try dsimp only
  (repeat' split) <;> simp (maxDischargeDepth := 12) [*]

theorem execDiesOff_mem (dt : Nat) (p : Port) (k : Slot) (s : State) : MemSafe (execDiesOff dt p k s) s := by
  unfold execDiesOff
  refine State.mailboxRow_mem (fun t r h => ?_)
  try dsimp only
  (repeat' split) <;> simp (maxDischargeDepth := 12) [*]

theorem execDiesOn_mem (dt : Nat) (p : Port) (k : Slot) (s : State) : MemSafe (execDiesOn dt p k s) s := by
  unfold execDiesOn
  refine State.mailboxRow_mem (fun t r h => ?_)
  refine State.checked_memOk _ _ _ _ _ (fun u hu => ?_) h
  dsimp only
  split
  · simp [hu]
  · refine State.foldl_memOk _ (fun v x hv => ?_) _ _ hu
    split
    · simp [hv]
    · exact State.foldl_memOk _ (fun w y hw => by simp [hw]) _ _ (by simp [hv])

theorem execDiePowerOnComplete_mem (dt : Nat) (die : DieIx) (mismatch : List CoreIx) (s : State) : MemSafe (execDiePowerOnComplete dt die mismatch s) s := by
  unfold execDiePowerOnComplete
  refine State.event_mem (fun t h => ?_)
  dsimp only
  refine State.foldl_memOk _ (fun v x hv => by split <;> simp [hv]) _ _ ?_
  rw [State.diePowerEvent_memory]
  have h1 := State.foldl_memOk (fun s m => s.updPll m (fun x => { x with stable := true, good := 4 })) (fun v x hv => by simp [hv])
    (dieDomains die.val) (t.updDie die.val (fun x => { x with off := false, poweringOn := [] })) (by simp [h])
  split
  · exact State.foldl_memOk _ (fun v x hv => State.retire_memOk _ _ _ hv) _ _ h1
  · exact h1

theorem execModuleStandby_mem (dt : Nat) (p : Port) (k : Slot) (s : State) : MemSafe (execModuleStandby dt p k s) s := by
  unfold execModuleStandby
  refine State.mailboxRow_mem (fun t r h => ?_)
  try dsimp only
  (repeat' split) <;> simp (maxDischargeDepth := 12) [*]

theorem execStandbyEntry_mem (dt : Nat) (s : State) : MemSafe (execStandbyEntry dt s) s := by
  unfold execStandbyEntry
  refine State.event_mem (fun t h => ?_)
  try dsimp only
  (repeat' split) <;> simp (maxDischargeDepth := 12) [*]

theorem execWake_mem (dt : Nat) (s : State) : MemSafe (execWake dt s) s := by
  unfold execWake
  refine State.event_mem (fun t h => ?_)
  try dsimp only
  (repeat' split) <;> simp (maxDischargeDepth := 12) [*]

/-! ### Thermal -/

theorem execThrottleLower_mem (dt : Nat) (s : State) : MemSafe (execThrottleLower dt s) s := by
  unfold execThrottleLower
  refine State.event_mem (fun t h => ?_)
  try dsimp only
  (repeat' split) <;> simp (maxDischargeDepth := 12) [*]

theorem execThrottleFastDrop_mem (dt watts1ms : Nat) (s : State) : MemSafe (execThrottleFastDrop dt watts1ms s) s := by
  unfold execThrottleFastDrop
  refine State.event_mem (fun t h => ?_)
  try dsimp only
  (repeat' split) <;> simp (maxDischargeDepth := 12) [*]

theorem execThrottleRaise_mem (dt : Nat) (s : State) : MemSafe (execThrottleRaise dt s) s := by
  unfold execThrottleRaise
  refine State.event_mem (fun t h => ?_)
  try dsimp only
  (repeat' split) <;> simp (maxDischargeDepth := 12) [*]

theorem execJunctionSensorRead_mem (dt : Nat) (die : DieIx) (raw : List Int) (inputW inputMv10 : Nat) (s : State) : MemSafe (execJunctionSensorRead dt die raw inputW inputMv10 s) s := by
  unfold execJunctionSensorRead
  refine State.event_mem (fun t h => ?_)
  try dsimp only
  (repeat' split) <;> simp (maxDischargeDepth := 12) [*]

theorem execGddr7TempRead_mem (dt : Nat) (md : MemDie) (temps : List Int) (s : State) : MemSafe (execGddr7TempRead dt md temps s) s := by
  unfold execGddr7TempRead
  refine State.event_mem (fun t h => ?_)
  try dsimp only
  (repeat' split) <;> simp (maxDischargeDepth := 12) [*]

theorem execCoolantSensorRead_mem (dt : Nat) (inlet outlet : Option Int) (s : State) : MemSafe (execCoolantSensorRead dt inlet outlet s) s := by
  unfold execCoolantSensorRead
  refine State.event_mem (fun t h => ?_)
  try dsimp only
  (repeat' split) <;> simp (maxDischargeDepth := 12) [*]

theorem execTripLatchedClear_mem (dt : Nat) (w : Writer) (s : State) : MemSafe (execTripLatchedClear dt w s) s := by
  unfold execTripLatchedClear
  refine State.event_mem (fun t h => ?_)
  try dsimp only
  (repeat' split) <;> simp (maxDischargeDepth := 12) [*]

/-! ### Security -/

theorem execImageVerified_mem (dt : Nat) (sigOk : Bool) (s : State) : MemSafe (execImageVerified dt sigOk s) s := by
  unfold execImageVerified
  refine State.event_mem (fun t h => ?_)
  try dsimp only
  (repeat' split) <;> simp (maxDischargeDepth := 12) [*]

theorem execMailboxServiceStart_mem (dt : Nat) (s : State) : MemSafe (execMailboxServiceStart dt s) s := by
  unfold execMailboxServiceStart
  refine State.event_mem (fun t h => ?_)
  try dsimp only
  (repeat' split) <;> simp (maxDischargeDepth := 12) [*]

theorem execStage_mem (dt : Nat) (p : Port) (k : Slot) (sigOk : Bool) (s : State) : MemSafe (execStage dt p k sigOk s) s := by
  unfold execStage
  refine State.mailboxRow_mem (fun t r h => ?_)
  try dsimp only
  (repeat' split) <;> simp (maxDischargeDepth := 12) [*]

theorem execStageComplete_mem (dt : Nat) (s : State) : MemSafe (execStageComplete dt s) s := by
  unfold execStageComplete
  refine State.event_mem (fun t h => ?_)
  try dsimp only
  (repeat' split) <;> simp (maxDischargeDepth := 12) [*]

theorem execActivate_mem (dt : Nat) (p : Port) (k : Slot) (s : State) : MemSafe (execActivate dt p k s) s := by
  unfold execActivate
  refine State.mailboxRow_mem (fun t r h => ?_)
  try dsimp only
  (repeat' split) <;> simp (maxDischargeDepth := 12) [*]

theorem execCommitSvn_mem (dt : Nat) (p : Port) (k : Slot) (s : State) : MemSafe (execCommitSvn dt p k s) s := by
  unfold execCommitSvn
  refine State.mailboxRow_mem (fun t r h => ?_)
  try dsimp only
  (repeat' split) <;> simp (maxDischargeDepth := 12) [*]

theorem execEnrolModelKey_mem (dt : Nat) (p : Port) (k : Slot) (s : State) : MemSafe (execEnrolModelKey dt p k s) s := by
  unfold execEnrolModelKey
  refine State.mailboxRow_mem (fun t r h => ?_)
  try dsimp only
  (repeat' split) <;> simp (maxDischargeDepth := 12) [*]

theorem execRevokeKey_mem (dt : Nat) (p : Port) (k : Slot) (s : State) : MemSafe (execRevokeKey dt p k s) s := by
  unfold execRevokeKey
  refine State.mailboxRow_mem (fun t r h => ?_)
  try dsimp only
  (repeat' split) <;> simp (maxDischargeDepth := 12) [*]

theorem execSignQuote_mem (dt : Nat) (p : Port) (k : Slot) (s : State) : MemSafe (execSignQuote dt p k s) s := by
  unfold execSignQuote
  refine State.mailboxRow_mem (fun t r h => ?_)
  try dsimp only
  (repeat' split) <;> simp (maxDischargeDepth := 12) [*]

theorem execQuoteSigned_mem (dt : Nat) (signature : Bytes) (s : State) : MemSafe (execQuoteSigned dt signature s) s := by
  unfold execQuoteSigned
  refine State.event_mem (fun t h => ?_)
  try dsimp only
  (repeat' split) <;> simp (maxDischargeDepth := 12) [*]

theorem execReadQuoteChunk_mem (dt : Nat) (p : Port) (k : Slot) (s : State) : MemSafe (execReadQuoteChunk dt p k s) s := by
  unfold execReadQuoteChunk
  refine State.mailboxRow_mem (fun t r h => ?_)
  try dsimp only
  (repeat' split) <;> simp (maxDischargeDepth := 12) [*]

theorem execReadLogChunk_mem (dt : Nat) (p : Port) (k : Slot) (s : State) : MemSafe (execReadLogChunk dt p k s) s := by
  unfold execReadLogChunk
  refine State.mailboxRow_mem (fun t r h => ?_)
  try dsimp only
  (repeat' split) <;> simp (maxDischargeDepth := 12) [*]

theorem execReadCertChunk_mem (dt : Nat) (p : Port) (k : Slot) (s : State) : MemSafe (execReadCertChunk dt p k s) s := by
  unfold execReadCertChunk
  refine State.mailboxRow_mem (fun t r h => ?_)
  try dsimp only
  (repeat' split) <;> simp (maxDischargeDepth := 12) [*]

theorem execCalRead_mem (dt : Nat) (p : Port) (k : Slot) (s : State) : MemSafe (execCalRead dt p k s) s := by
  unfold execCalRead
  refine State.mailboxRow_mem (fun t r h => ?_)
  try dsimp only
  (repeat' split) <;> simp (maxDischargeDepth := 12) [*]

theorem execCalWrite_mem (dt : Nat) (p : Port) (k : Slot) (presetsOk : Option (Fin 48)) (s : State) : MemSafe (execCalWrite dt p k presetsOk s) s := by
  unfold execCalWrite
  refine State.mailboxRow_mem (fun t r h => ?_)
  try dsimp only
  (repeat' split) <;> simp (maxDischargeDepth := 12) [*]

theorem execCalWriteComplete_mem (dt : Nat) (s : State) : MemSafe (execCalWriteComplete dt s) s := by
  unfold execCalWriteComplete
  refine State.event_mem (fun t h => ?_)
  try dsimp only
  (repeat' split) <;> simp (maxDischargeDepth := 12) [*]

/-! ### Gddr -/

theorem execGddr7Retrain_mem (dt : Nat) (md : MemDie) (ch : Fin 8) (secondAttempt : Bool) (s : State) : MemSafe (execGddr7Retrain dt md ch secondAttempt s) s := by
  unfold execGddr7Retrain
  refine State.event_mem (fun t h => ?_)
  try dsimp only
  (repeat' split) <;> simp (maxDischargeDepth := 12) [*]

theorem execGddr7AccessError_mem (dt : Nat) (md : MemDie) (addr : Nat) (err : GddrError) (s : State) : MemSafe (execGddr7AccessError dt md addr err s) s := by
  unfold execGddr7AccessError
  refine State.event_mem (fun t h => ?_)
  cases err <;> simp [State.gddrError, h]

theorem execPatrolScrub_mem (dt : Nat) (md : MemDie) (addr : Nat) (found : Option GddrError) (s : State) : MemSafe (execPatrolScrub dt md addr found s) s := by
  unfold execPatrolScrub
  refine State.event_mem (fun t h => ?_)
  split
  · exact h
  · next e => cases e <;> simp [State.gddrError, h]

theorem execCxlPortUp_mem (dt : Nat) (x : Fin 2) (widthLog2 : Fin 4) (mode : Fin 3) (type3 : Bool) (capacity : Nat) (s : State) : MemSafe (execCxlPortUp dt x widthLog2 mode type3 capacity s) s := by
  unfold execCxlPortUp
  refine State.event_mem (fun t h => ?_)
  try dsimp only
  (repeat' split) <;> simp (maxDischargeDepth := 12) [*]

theorem execCxlDown_mem (dt : Nat) (x : Fin 2) (s : State) : MemSafe (execCxlDown dt x s) s := by
  unfold execCxlDown
  refine State.event_mem (fun t h => ?_)
  try dsimp only
  (repeat' split) <;> simp (maxDischargeDepth := 12) [*]

theorem execCxlRetrain_mem (dt : Nat) (x : Fin 2) (s : State) : MemSafe (execCxlRetrain dt x s) s := by
  unfold execCxlRetrain
  refine State.event_mem (fun t h => ?_)
  try dsimp only
  (repeat' split) <;> simp (maxDischargeDepth := 12) [*]

/-! ### Cascade -/

theorem execCascadeTime_mem (dt : Nat) (q : Fin 4) (f : Flit) (s : State) : MemSafe (execCascadeTime dt q f s) s := by
  unfold execCascadeTime
  refine State.event_mem (fun t h => ?_)
  try dsimp only
  (repeat' split) <;> simp (maxDischargeDepth := 12) [*]

theorem execTimeRequest_mem (dt : Nat) (s : State) : MemSafe (execTimeRequest dt s) s := by
  unfold execTimeRequest
  refine State.event_mem (fun t h => ?_)
  try dsimp only
  (repeat' split) <;> simp (maxDischargeDepth := 12) [*]

theorem execTimeUnlocked_mem (dt : Nat) (s : State) : MemSafe (execTimeUnlocked dt s) s := by
  unfold execTimeUnlocked
  refine State.event_mem (fun t h => ?_)
  try dsimp only
  (repeat' split) <;> simp (maxDischargeDepth := 12) [*]

theorem execLinkLost_mem (dt : Nat) (q : Fin 4) (s : State) : MemSafe (execLinkLost dt q s) s := by
  unfold execLinkLost
  refine State.event_mem (fun t h => ?_)
  try dsimp only
  (repeat' split) <;> simp (maxDischargeDepth := 12) [*]

theorem execLinkRetrain_mem (dt : Nat) (q : Fin 4) (ok : Bool) (s : State) : MemSafe (execLinkRetrain dt q ok s) s := by
  unfold execLinkRetrain
  refine State.event_mem (fun t h => ?_)
  try dsimp only
  (repeat' split) <;> simp (maxDischargeDepth := 12) [*]

theorem execCascadeRetry_mem (dt : Nat) (q : Fin 4) (f : Flit) (s : State) : MemSafe (execCascadeRetry dt q f s) s := by
  unfold execCascadeRetry
  refine State.event_mem (fun t h => ?_)
  try dsimp only
  (repeat' split) <;> simp (maxDischargeDepth := 12) [*]

theorem execCascadeId_mem (dt : Nat) (q : Fin 4) (f : Flit) (rank : Fin 8) (peerPort : Fin 4) (s : State) : MemSafe (execCascadeId dt q f rank peerPort s) s := by
  unfold execCascadeId
  refine State.event_mem (fun t h => ?_)
  try dsimp only
  (repeat' split) <;> simp (maxDischargeDepth := 12) [*]

theorem execCascadeIdle_mem (dt : Nat) (q : Fin 4) (f : Flit) (s : State) : MemSafe (execCascadeIdle dt q f s) s := by
  unfold execCascadeIdle
  refine State.event_mem (fun t h => ?_)
  try dsimp only
  (repeat' split) <;> simp (maxDischargeDepth := 12) [*]

theorem execCascadeCrcFail_mem (dt : Nat) (q : Fin 4) (fecFailed : Bool) (s : State) : MemSafe (execCascadeCrcFail dt q fecFailed s) s := by
  unfold execCascadeCrcFail
  refine State.event_mem (fun t h => ?_)
  try dsimp only
  (repeat' split) <;> simp (maxDischargeDepth := 12) [*]

theorem execCascadePortTrained_mem (dt : Nat) (q : Fin 4) (rank : Fin 8) (peerPort : Fin 4) (s : State) : MemSafe (execCascadePortTrained dt q rank peerPort s) s := by
  unfold execCascadePortTrained
  refine State.event_mem (fun t h => ?_)
  try dsimp only
  (repeat' split) <;> simp (maxDischargeDepth := 12) [*]

theorem execMasterLost_mem (dt : Nat) (s : State) : MemSafe (execMasterLost dt s) s := by
  unfold execMasterLost
  refine State.event_mem (fun t h => ?_)
  try dsimp only
  (repeat' split) <;> simp (maxDischargeDepth := 12) [*]

theorem execMasterElection_mem (dt : Nat) (reach : List (Fin 8 × List (Fin 8))) (s : State) : MemSafe (execMasterElection dt reach s) s := by
  unfold execMasterElection
  refine State.event_mem (fun t h => ?_)
  try dsimp only
  (repeat' split) <;> simp (maxDischargeDepth := 12) [*]

theorem execCascadeMbxWrite_mem (dt : Nat) (offset : Nat) (data : Bytes) (s : State) : MemSafe (execCascadeMbxWrite dt offset data s) s := by
  unfold execCascadeMbxWrite
  refine State.event_mem (fun t h => ?_)
  try dsimp only
  (repeat' split) <;> simp (maxDischargeDepth := 12) [*]

theorem execCascadeMbxRead_mem (dt : Nat) (offset len : Nat) (s : State) : MemSafe (execCascadeMbxRead dt offset len s) s := by
  unfold execCascadeMbxRead
  refine State.event_mem (fun t h => ?_)
  try dsimp only
  (repeat' split) <;> simp (maxDischargeDepth := 12) [*]

theorem execMbxData_mem (dt : Nat) (s : State) : MemSafe (execMbxData dt s) s := by
  unfold execMbxData
  refine State.event_mem (fun t h => ?_)
  try dsimp only
  (repeat' split) <;> simp (maxDischargeDepth := 12) [*]

theorem execNotice_mem (dt : Nat) (s : State) : MemSafe (execNotice dt s) s := by
  unfold execNotice
  refine State.event_mem (fun t h => ?_)
  try dsimp only
  (repeat' split) <;> simp (maxDischargeDepth := 12) [*]

theorem execRouteAdd_mem (dt : Nat) (p : Port) (k : Slot) (s : State) : MemSafe (execRouteAdd dt p k s) s := by
  unfold execRouteAdd
  refine State.mailboxRow_mem (fun t r h => ?_)
  try dsimp only
  (repeat' split) <;> simp (maxDischargeDepth := 12) [*]

theorem execRouteRemove_mem (dt : Nat) (p : Port) (k : Slot) (s : State) : MemSafe (execRouteRemove dt p k s) s := by
  unfold execRouteRemove
  refine State.mailboxRow_mem (fun t r h => ?_)
  try dsimp only
  (repeat' split) <;> simp (maxDischargeDepth := 12) [*]

/-! ### Scratch -/

theorem execHandoverRequest_mem (dt : Nat) (die : CoreDie) (core : CoreIx) (bank : Bank) (req : Fin 8) (lostRace : Bool) (s : State) : MemSafe (execHandoverRequest dt die core bank req lostRace s) s := by
  unfold execHandoverRequest
  exact State.coreEvent_mem

theorem execHandoverEffect_mem (dt : Nat) (die : CoreDie) (core : CoreIx) (bank : Bank) (s : State) : MemSafe (execHandoverEffect dt die core bank s) s := by
  unfold execHandoverEffect
  refine State.event_mem (fun t h => ?_)
  try dsimp only
  (repeat' split) <;> simp (maxDischargeDepth := 12) [*]

theorem execBankOn_mem (dt : Nat) (die : CoreDie) (core : CoreIx) (group : Fin 2) (s : State) : MemSafe (execBankOn dt die core group s) s := by
  unfold execBankOn
  exact State.coreEvent_mem

theorem execBankRetain_mem (dt : Nat) (die : CoreDie) (core : CoreIx) (group : Fin 2) (s : State) : MemSafe (execBankRetain dt die core group s) s := by
  unfold execBankRetain
  exact State.coreEvent_mem

theorem execBankOff_mem (dt : Nat) (die : CoreDie) (core : CoreIx) (group : Fin 2) (s : State) : MemSafe (execBankOff dt die core group s) s := by
  unfold execBankOff
  exact State.coreEvent_mem

theorem execBankGroupReady_mem (dt : Nat) (die : CoreDie) (core : CoreIx) (group : Fin 2) (s : State) : MemSafe (execBankGroupReady dt die core group s) s := by
  unfold execBankGroupReady
  exact State.coreEvent_mem

theorem execScratchCorrectedError_mem (dt : Nat) (die : CoreDie) (core : CoreIx) (bank : Bank) (word : Fin 8192) (s : State) : MemSafe (execScratchCorrectedError dt die core bank word s) s := by
  unfold execScratchCorrectedError
  refine State.event_mem (fun t h => ?_)
  try dsimp only
  (repeat' split) <;> simp (maxDischargeDepth := 12) [*]

theorem execShadowWrite_mem (dt : Nat) (die : CoreDie) (core : CoreIx) (word : Fin 4096) (data : W32) (s : State) : MemSafe (execShadowWrite dt die core word data s) s := by
  unfold execShadowWrite
  exact State.coreEvent_mem

theorem execShadowValidSet_mem (dt : Nat) (die : CoreDie) (core : CoreIx) (withWrite : Bool) (s : State) : MemSafe (execShadowValidSet dt die core withWrite s) s := by
  unfold execShadowValidSet
  exact State.coreEvent_mem

theorem execSwapNow_mem (dt : Nat) (die : CoreDie) (core : CoreIx) (s : State) : MemSafe (execSwapNow dt die core s) s := by
  unfold execSwapNow
  exact State.coreEvent_mem

theorem execExplicitSwap_mem (dt : Nat) (die : CoreDie) (core : CoreIx) (s : State) : MemSafe (execExplicitSwap dt die core s) s := by
  unfold execExplicitSwap
  exact State.coreEvent_mem

theorem execRowCancelRead_mem (dt : Nat) (die : CoreDie) (core : CoreIx) (s : State) : MemSafe (execRowCancelRead dt die core s) s := by
  unfold execRowCancelRead
  refine State.event_mem (fun t h => ?_)
  try dsimp only
  (repeat' split) <;> simp (maxDischargeDepth := 12) [*]

/-! ### Sfu -/

theorem execStepAdd_mem (dt : Nat) (die : CoreDie) (core : CoreIx) (st : StepOps) (s : State) : MemSafe (execStepAdd dt die core st s) s := State.microStep_mem

/-! ### Cores -/

theorem execConv_mem (dt : Nat) (die : CoreDie) (core : CoreIx) (s : State) : MemSafe (execConv dt die core s) s := State.descRow_mem

theorem execMatmul_mem (dt : Nat) (die : CoreDie) (core : CoreIx) (s : State) : MemSafe (execMatmul dt die core s) s := State.descRow_mem

theorem execPool_mem (dt : Nat) (die : CoreDie) (core : CoreIx) (s : State) : MemSafe (execPool dt die core s) s := State.descRow_mem

theorem execElem_mem (dt : Nat) (die : CoreDie) (core : CoreIx) (s : State) : MemSafe (execElem dt die core s) s := State.descRow_mem

theorem execAct_mem (dt : Nat) (die : CoreDie) (core : CoreIx) (s : State) : MemSafe (execAct dt die core s) s := State.descRow_mem

theorem execSoftmax_mem (dt : Nat) (die : CoreDie) (core : CoreIx) (s : State) : MemSafe (execSoftmax dt die core s) s := State.descRow_mem

theorem execNorm_mem (dt : Nat) (die : CoreDie) (core : CoreIx) (s : State) : MemSafe (execNorm dt die core s) s := State.descRow_mem

theorem execSort_mem (dt : Nat) (die : CoreDie) (core : CoreIx) (s : State) : MemSafe (execSort dt die core s) s := State.descRow_mem

theorem execQuant_mem (dt : Nat) (die : CoreDie) (core : CoreIx) (s : State) : MemSafe (execQuant dt die core s) s := State.descRow_mem

theorem execMicro_mem (dt : Nat) (die : CoreDie) (core : CoreIx) (s : State) : MemSafe (execMicro dt die core s) s := State.descRow_mem

theorem execCompletionRecord_mem (dt : Nat) (die : CoreDie) (core : CoreIx) (s : State) : MemSafe (execCompletionRecord dt die core s) s := by
  unfold execCompletionRecord
  refine State.event_mem (fun t h => ?_)
  try dsimp only
  (repeat' split) <;> simp (maxDischargeDepth := 12) [*]

theorem execCompletionRingCollect_mem (dt : Nat) (die : CoreDie) (core : CoreIx) (s : State) : MemSafe (execCompletionRingCollect dt die core s) s := by
  unfold execCompletionRingCollect
  refine State.event_mem (fun t h => ?_)
  try dsimp only
  (repeat' split) <;> simp (maxDischargeDepth := 12) [*]

/-! ### Seams -/

theorem execBoundaryPre_mem (dt : Nat) (die : CoreDie) (core : CoreIx) (s : State) : MemSafe (execBoundaryPre dt die core s) s := by
  unfold execBoundaryPre
  refine State.event_mem (fun t h => ?_)
  try dsimp only
  (repeat' split) <;> simp (maxDischargeDepth := 12) [*]

theorem execCopyIn_mem (dt : Nat) (die : CoreDie) (core : CoreIx) (s : State) : MemSafe (execCopyIn dt die core s) s := by
  unfold execCopyIn
  refine State.event_mem (fun t h => ?_)
  try dsimp only
  (repeat' split) <;> simp (maxDischargeDepth := 12) [*]

theorem execSeamRowArrival_mem (dt : Nat) (die : CoreDie) (core : CoreIx) (down : Bool) (s : State) : MemSafe (execSeamRowArrival dt die core down s) s := by
  unfold execSeamRowArrival
  refine State.event_mem (fun t h => ?_)
  try dsimp only
  (repeat' split) <;> simp (maxDischargeDepth := 12) [*]

theorem execCreditReturn_mem (dt : Nat) (die : CoreDie) (core : CoreIx) (down : Bool) (s : State) : MemSafe (execCreditReturn dt die core down s) s := by
  unfold execCreditReturn
  refine State.event_mem (fun t h => ?_)
  try dsimp only
  (repeat' split) <;> simp (maxDischargeDepth := 12) [*]

theorem execPourStepAdvance_mem (dt : Nat) (die : CoreDie) (core : CoreIx) (s : State) : MemSafe (execPourStepAdvance dt die core s) s := by
  unfold execPourStepAdvance
  refine State.event_mem (fun t h => ?_)
  try dsimp only
  (repeat' split) <;> simp (maxDischargeDepth := 12) [*]

theorem execCinchArrive_mem (dt : Nat) (die : CoreDie) (core : CoreIx) (s : State) : MemSafe (execCinchArrive dt die core s) s := by
  unfold execCinchArrive
  refine State.event_mem (fun t h => ?_)
  try dsimp only
  (repeat' split) <;> simp (maxDischargeDepth := 12) [*]

theorem execCinchRelease_mem (dt : Nat) (sess : SessionIx) (s : State) : MemSafe (execCinchRelease dt sess s) s := by
  unfold execCinchRelease
  refine State.event_mem (fun t h => ?_)
  dsimp only
  split <;> simp only [State.moduleEvent_memory, State.releaseCut_memory] <;>
    exact State.foldl_memOk _ (fun v x hv => by simp [hv]) _ _ h

theorem execCinchTimeout_mem (dt : Nat) (sess : SessionIx) (s : State) : MemSafe (execCinchTimeout dt sess s) s := by
  unfold execCinchTimeout
  refine State.event_mem (fun t h => ?_)
  try dsimp only
  (repeat' split) <;> simp (maxDischargeDepth := 12) [*]

/-! ### Deliver -/

theorem execCascadeData_mem (dt : Nat) (q : Fin 4) (f : Flit) (s : State) : MemSafe (execCascadeData dt q f s) s := by
  unfold execCascadeData
  refine State.event_mem (fun t h => State.takeSequenced_memOk _ _ _ _ _ ?_ h)
  exact fun u hu => State.deliverData_memOk _ _ hu

/-! ### Models -/

theorem execModelLoad_mem (dt : Nat) (p : Port) (k : Slot) (sigOk : Bool) (s : State) : MemSafe (execModelLoad dt p k sigOk s) s := by
  unfold execModelLoad
  refine State.mailboxRow_mem (fun t r h => ?_)
  refine State.checked_memOk _ _ _ _ _ (fun u hu => ?_) h
  split <;> simp [hu]

theorem execModelReload_mem (dt : Nat) (model : Fin 32) (sigOk : Bool) (s : State) : MemSafe (execModelReload dt model sigOk s) s := by
  unfold execModelReload
  refine State.event_mem (fun t h => ?_)
  try dsimp only
  (repeat' split) <;> simp (maxDischargeDepth := 12) [*]

theorem execModelUnload_mem (dt : Nat) (p : Port) (k : Slot) (s : State) : MemSafe (execModelUnload dt p k s) s := by
  unfold execModelUnload
  refine State.mailboxRow_mem (fun t r h => ?_)
  try dsimp only
  (repeat' split) <;> simp (maxDischargeDepth := 12) [*]

theorem execModelList_mem (dt : Nat) (p : Port) (k : Slot) (s : State) : MemSafe (execModelList dt p k s) s := by
  unfold execModelList
  refine State.mailboxRow_mem (fun t r h => ?_)
  try dsimp only
  (repeat' split) <;> simp (maxDischargeDepth := 12) [*]

/-! ### Sessions -/

theorem execConfigure_mem (dt : Nat) (p : Port) (k : Slot) (s : State) : MemSafe (execConfigure dt p k s) s := by
  unfold execConfigure
  refine State.sessionRow_mem (fun t r h => ?_)
  try dsimp only
  (repeat' split) <;> simp (maxDischargeDepth := 12) [*]

theorem execBind_mem (dt : Nat) (p : Port) (k : Slot) (pl : Placement) (s : State) : MemSafe (execBind dt p k pl s) s := by
  unfold execBind
  refine State.sessionRow_mem (fun t r h => ?_)
  refine State.sessionChecked_memOk _ _ _ _ _ _ (fun u hu => ?_) h
  simp (maxDischargeDepth := 12) [hu]

theorem execStart_mem (dt : Nat) (p : Port) (k : Slot) (s : State) : MemSafe (execStart dt p k s) s := by
  unfold execStart
  refine State.sessionRow_mem (fun t r h => ?_)
  try dsimp only
  (repeat' split) <;> simp (maxDischargeDepth := 12) [*]

theorem execRecut_mem (dt : Nat) (p : Port) (k : Slot) (pl : Placement) (mismatch : List (CoreDie × CoreIx)) (s : State) : MemSafe (execRecut dt p k pl mismatch s) s := by
  unfold execRecut
  refine State.sessionRow_mem (fun t r h => ?_)
  refine State.sessionChecked_memOk _ _ _ _ _ _ (fun u hu => ?_) h
  simp (maxDischargeDepth := 12) [hu]

theorem execRecutCoreRelease_mem (dt : Nat) (sess : SessionIx) (s : State) : MemSafe (execRecutCoreRelease dt sess s) s := by
  unfold execRecutCoreRelease
  refine State.event_mem (fun t h => ?_)
  try dsimp only
  (repeat' split) <;> simp (maxDischargeDepth := 12) [*]

theorem execAbort_mem (dt : Nat) (p : Port) (k : Slot) (s : State) : MemSafe (execAbort dt p k s) s := by
  unfold execAbort
  refine State.sessionRow_mem (fun t r h => ?_)
  refine State.sessionChecked_memOk _ _ _ _ _ _ (fun u hu => ?_) h
  dsimp only
  (repeat' split) <;> simp (maxDischargeDepth := 12) [hu]

theorem execUnbind_mem (dt : Nat) (p : Port) (k : Slot) (s : State) : MemSafe (execUnbind dt p k s) s := by
  unfold execUnbind
  refine State.sessionRow_mem (fun t r h => ?_)
  refine State.sessionChecked_memOk _ _ _ _ _ _ (fun u hu => ?_) h
  dsimp only
  (repeat' split) <;> simp (maxDischargeDepth := 12) [hu]

theorem execClose_mem (dt : Nat) (p : Port) (k : Slot) (s : State) : MemSafe (execClose dt p k s) s := by
  unfold execClose
  refine State.sessionRow_mem (fun t r h => ?_)
  try dsimp only
  (repeat' split) <;> simp (maxDischargeDepth := 12) [*]

theorem execSessionStatus_mem (dt : Nat) (p : Port) (k : Slot) (s : State) : MemSafe (execSessionStatus dt p k s) s := by
  unfold execSessionStatus
  refine State.mailboxRow_mem (fun t r h => ?_)
  try dsimp only
  (repeat' split) <;> simp (maxDischargeDepth := 12) [*]

theorem execOutputStall_mem (dt : Nat) (sess : SessionIx) (s : State) : MemSafe (execOutputStall dt sess s) s := by
  unfold execOutputStall
  refine State.event_mem (fun t h => ?_)
  try dsimp only
  (repeat' split) <;> simp (maxDischargeDepth := 12) [*]

theorem execRemapGraceExpiry_mem (dt : Nat) (sess : SessionIx) (s : State) : MemSafe (execRemapGraceExpiry dt sess s) s := by
  unfold execRemapGraceExpiry
  refine State.event_mem (fun t h => ?_)
  try dsimp only
  (repeat' split) <;> simp (maxDischargeDepth := 12) [*]

theorem execSessionVectorCoalesce_mem (dt : Nat) (sess : SessionIx) (s : State) : MemSafe (execSessionVectorCoalesce dt sess s) s := by
  unfold execSessionVectorCoalesce
  refine State.event_mem (fun t h => ?_)
  try dsimp only
  (repeat' split) <;> simp (maxDischargeDepth := 12) [*]

theorem execCounterWindowRefresh_mem (dt : Nat) (sess : SessionIx) (s : State) : MemSafe (execCounterWindowRefresh dt sess s) s := by
  unfold execCounterWindowRefresh
  refine State.event_mem (fun t h => ?_)
  try dsimp only
  (repeat' split) <;> simp (maxDischargeDepth := 12) [*]

/-! ### Motion -/

theorem execFeederRowLanded_mem (dt : Nat) (sess : SessionIx) (poc : W32) (s : State) : MemSafe (execFeederRowLanded dt sess poc s) s := by
  unfold execFeederRowLanded
  refine State.event_mem (fun t h => ?_)
  try dsimp only
  (repeat' split) <;> simp (maxDischargeDepth := 12) [*]

theorem execSearchRow_mem (dt : Nat) (sess : SessionIx) (poc : W32) (s : State) : MemSafe (execSearchRow dt sess poc s) s := by
  unfold execSearchRow
  refine State.event_mem (fun t h => ?_)
  try dsimp only
  (repeat' split) <;> simp (maxDischargeDepth := 12) [*]

theorem execPredictRow_mem (dt : Nat) (sess : SessionIx) (poc : W32) (s : State) : MemSafe (execPredictRow dt sess poc s) s := by
  unfold execPredictRow
  refine State.event_mem (fun t h => ?_)
  try dsimp only
  (repeat' split) <;> simp (maxDischargeDepth := 12) [*]

theorem execLibrarySearch_mem (dt : Nat) (sess : SessionIx) (poc : W32) (s : State) : MemSafe (execLibrarySearch dt sess poc s) s := by
  unfold execLibrarySearch
  refine State.event_mem (fun t h => ?_)
  try dsimp only
  (repeat' split) <;> simp (maxDischargeDepth := 12) [*]

theorem execLibraryStageComplete_mem (dt : Nat) (sess : SessionIx) (index : Nat) (ecc : Bool) (s : State) : MemSafe (execLibraryStageComplete dt sess index ecc s) s := by
  unfold execLibraryStageComplete
  refine State.event_mem (fun t h => ?_)
  try dsimp only
  (repeat' split) <;> simp (maxDischargeDepth := 12) [*]

/-! ### Rans -/

theorem execSubstreamEncode_mem (dt : Nat) (sess : SessionIx) (lane : LaneIx) (s : State) : MemSafe (execSubstreamEncode dt sess lane s) s := by
  unfold execSubstreamEncode
  refine State.event_mem (fun t h => ?_)
  try dsimp only
  (repeat' split) <;> simp (maxDischargeDepth := 12) [*]

/-! ### Feeder -/

theorem execQueueEnable_mem (dt : Nat) (md : MemDie) (q : QueueIx) (s : State) : MemSafe (execQueueEnable dt md q s) s := by
  unfold execQueueEnable
  refine State.event_mem (fun t h => ?_)
  try dsimp only
  (repeat' split) <;> simp (maxDischargeDepth := 12) [*]

theorem execFeederDescriptorFetch_mem (dt : Nat) (md : MemDie) (q : QueueIx) (s : State) : MemSafe (execFeederDescriptorFetch dt md q s) s := by
  unfold execFeederDescriptorFetch
  refine State.event_mem (fun t h => ?_)
  try dsimp only
  (repeat' split) <;> simp (maxDischargeDepth := 12) [*]

theorem execTransferComplete_mem (dt : Nat) (md : MemDie) (q : QueueIx) (stitch badRead : Bool) (landed : Nat) (s : State) : MemSafe (execTransferComplete dt md q stitch badRead landed s) s := by
  unfold execTransferComplete
  refine State.event_mem (fun t h => ?_)
  try dsimp only
  (repeat' split) <;> simp (maxDischargeDepth := 12) [*]

theorem execQueueCancel_mem (dt : Nat) (md : MemDie) (q : QueueIx) (s : State) : MemSafe (execQueueCancel dt md q s) s := by
  unfold execQueueCancel
  refine State.event_mem (fun t h => ?_)
  try dsimp only
  (repeat' split) <;> simp (maxDischargeDepth := 12) [*]

theorem execCancelDrained_mem (dt : Nat) (md : MemDie) (q : QueueIx) (landed : Nat) (s : State) : MemSafe (execCancelDrained dt md q landed s) s := by
  unfold execCancelDrained
  refine State.event_mem (fun t h => ?_)
  dsimp only
  rw [State.updFeeder_memory]
  split
  · exact h
  · exact State.foldl_memOk _ (fun v x hv => by simp [hv]) _ _ (by simp [h])

/-! ### Video -/

theorem execPicture_mem (dt : Nat) (p : Port) (k : Slot) (s : State) : MemSafe (execPicture dt p k s) s := by
  unfold execPicture
  refine State.sessionRow_mem (fun t r h => ?_)
  try dsimp only
  (repeat' split) <;> simp (maxDischargeDepth := 12) [*]

theorem execPhase1Start_mem (dt : Nat) (sess : SessionIx) (poc : W32) (loads : List CoreLoad) (s : State) : MemSafe (execPhase1Start dt sess poc loads s) s := by
  unfold execPhase1Start
  refine State.event_mem (fun t h => ?_)
  try dsimp only
  (repeat' split) <;> simp (maxDischargeDepth := 12) [*]

theorem execPicCommit_mem (dt : Nat) (sess : SessionIx) (poc : W32) (s : State) : MemSafe (execPicCommit dt sess poc s) s := by
  unfold execPicCommit
  refine State.event_mem (fun t h => ?_)
  try dsimp only
  (repeat' split) <;> simp (maxDischargeDepth := 12) [*]

theorem execGainAllocation_mem (dt : Nat) (sess : SessionIx) (poc : W32) (s : State) : MemSafe (execGainAllocation dt sess poc s) s := by
  unfold execGainAllocation
  refine State.event_mem (fun t h => ?_)
  try dsimp only
  (repeat' split) <;> simp (maxDischargeDepth := 12) [*]

theorem execPhase2Start_mem (dt : Nat) (sess : SessionIx) (poc : W32) (loads : List CoreLoad) (s : State) : MemSafe (execPhase2Start dt sess poc loads s) s := by
  unfold execPhase2Start
  refine State.event_mem (fun t h => ?_)
  try dsimp only
  (repeat' split) <;> simp (maxDischargeDepth := 12) [*]

theorem execRowCommit_mem (dt : Nat) (sess : SessionIx) (poc : W32) (s : State) : MemSafe (execRowCommit dt sess poc s) s := by
  unfold execRowCommit
  refine State.event_mem (fun t h => ?_)
  try dsimp only
  (repeat' split) <;> simp (maxDischargeDepth := 12) [*]

theorem execPhase2Rerun_mem (dt : Nat) (sess : SessionIx) (poc : W32) (loads : List CoreLoad) (s : State) : MemSafe (execPhase2Rerun dt sess poc loads s) s := by
  unfold execPhase2Rerun
  refine State.event_mem (fun t h => ?_)
  try dsimp only
  (repeat' split) <;> simp (maxDischargeDepth := 12) [*]

theorem execPhase2Done_mem (dt : Nat) (sess : SessionIx) (poc : W32) (s : State) : MemSafe (execPhase2Done dt sess poc s) s := by
  unfold execPhase2Done
  refine State.event_mem (fun t h => ?_)
  try dsimp only
  (repeat' split) <;> simp (maxDischargeDepth := 12) [*]

theorem execFrameBufferRelease_mem (dt : Nat) (sess : SessionIx) (poc : W32) (s : State) : MemSafe (execFrameBufferRelease dt sess poc s) s := by
  unfold execFrameBufferRelease
  refine State.event_mem (fun t h => ?_)
  try dsimp only
  (repeat' split) <;> simp (maxDischargeDepth := 12) [*]

theorem execLibraryWriteComplete_mem (dt : Nat) (sess : SessionIx) (index : Nat) (ok : Bool) (s : State) : MemSafe (execLibraryWriteComplete dt sess index ok s) s := by
  unfold execLibraryWriteComplete
  refine State.event_mem (fun t h => ?_)
  try dsimp only
  (repeat' split) <;> simp (maxDischargeDepth := 12) [*]

/-! ### Tutik -/

theorem execPoolGrant_mem (dt : Nat) (md : MemDie) (s : State) : MemSafe (execPoolGrant dt md s) s := by
  unfold execPoolGrant
  refine State.event_mem (fun t h => ?_)
  try dsimp only
  (repeat' split) <;> simp (maxDischargeDepth := 12) [*]

theorem execStreamSlot_mem (dt : Nat) (p : Port) (k : Slot) (s : State) : MemSafe (execStreamSlot dt p k s) s := by
  unfold execStreamSlot
  refine State.sessionRow_mem (fun t r h => ?_)
  refine State.sessionChecked_memOk _ _ _ _ _ _ (fun u hu => ?_) h
  simp (maxDischargeDepth := 12) [hu]

theorem execOutSlot_mem (dt : Nat) (p : Port) (k : Slot) (s : State) : MemSafe (execOutSlot dt p k s) s := by
  unfold execOutSlot
  refine State.sessionRow_mem (fun t r h => ?_)
  try dsimp only
  (repeat' split) <;> simp (maxDischargeDepth := 12) [*]

theorem execUnitMdl_mem (dt : Nat) (sess : SessionIx) (s : State) : MemSafe (execUnitMdl dt sess s) s := by
  unfold execUnitMdl
  refine State.unitRow_mem (fun t u n b hb h => ?_)
  try dsimp only at hb
  (repeat' split at hb) <;> simp_all
  all_goals (subst hb; simp (maxDischargeDepth := 12) [h])

theorem execUnitSeq_mem (dt : Nat) (sess : SessionIx) (s : State) : MemSafe (execUnitSeq dt sess s) s := by
  unfold execUnitSeq
  refine State.unitRow_mem (fun t u n b hb h => ?_)
  try dsimp only at hb
  (repeat' split at hb) <;> simp_all
  all_goals (subst hb; simp (maxDischargeDepth := 12) [h])

theorem execUnitPic_mem (dt : Nat) (sess : SessionIx) (s : State) : MemSafe (execUnitPic dt sess s) s := by
  unfold execUnitPic
  refine State.unitRow_mem (fun t u n b hb h => ?_)
  try dsimp only at hb
  (repeat' split at hb) <;> simp_all
  all_goals (subst hb; simp (maxDischargeDepth := 12) [h])

theorem execUnitRow_mem (dt : Nat) (sess : SessionIx) (s : State) : MemSafe (execUnitRow dt sess s) s := by
  unfold execUnitRow
  refine State.unitRow_mem (fun t u n b hb h => ?_)
  try dsimp only at hb
  (repeat' split at hb) <;> simp_all
  all_goals (subst hb; simp (maxDischargeDepth := 12) [h])

theorem execUnitLib_mem (dt : Nat) (sess : SessionIx) (s : State) : MemSafe (execUnitLib dt sess s) s := by
  unfold execUnitLib
  refine State.unitRow_mem (fun t u n b hb h => ?_)
  dsimp only at hb
  have ops : ∀ (p : Payload) (l : List (Nat × Nat × Bytes × Nat)) (v : State), v.memory.wf = true →
      (l.foldl (State.libOp sess.val u p) v).memory.wf = true :=
    fun p l v hv => State.foldl_memOk _ (fun w o hw => State.libOp_memOk _ _ _ _ _ hw) l v hv
  (repeat' split at hb) <;> simp at hb
  all_goals (subst hb; simp (maxDischargeDepth := 12) [ops, h])

theorem execUnitEnd_mem (dt : Nat) (sess : SessionIx) (s : State) : MemSafe (execUnitEnd dt sess s) s := by
  unfold execUnitEnd
  refine State.unitRow_mem (fun t u n b hb h => ?_)
  try dsimp only at hb
  (repeat' split at hb) <;> simp_all
  all_goals (subst hb; simp (maxDischargeDepth := 12) [h])

theorem execExtensionUnit_mem (dt : Nat) (sess : SessionIx) (s : State) : MemSafe (execExtensionUnit dt sess s) s := by
  unfold execExtensionUnit
  refine State.unitRow_mem (fun t u n b hb h => ?_)
  try dsimp only at hb
  (repeat' split at hb) <;> simp_all
  all_goals (subst hb; simp (maxDischargeDepth := 12) [h])

theorem execReservedUnitType_mem (dt : Nat) (sess : SessionIx) (s : State) : MemSafe (execReservedUnitType dt sess s) s := by
  unfold execReservedUnitType
  refine State.event_mem (fun t h => ?_)
  try dsimp only
  (repeat' split) <;> simp (maxDischargeDepth := 12) [*]

theorem execPictureWatchdog_mem (dt : Nat) (sess : SessionIx) (poc : W32) (s : State) : MemSafe (execPictureWatchdog dt sess poc s) s := by
  unfold execPictureWatchdog
  refine State.event_mem (fun t h => ?_)
  try dsimp only
  (repeat' split) <;> simp (maxDischargeDepth := 12) [*]

/-! ### Audio -/

theorem execAudioBlock_mem (dt : Nat) (p : Port) (k : Slot) (s : State) : MemSafe (execAudioBlock dt p k s) s := by
  unfold execAudioBlock
  refine State.sessionRow_mem (fun t r h => ?_)
  try dsimp only
  (repeat' split) <;> simp (maxDischargeDepth := 12) [*]

theorem execAudioFrameEncode_mem (dt : Nat) (sess : SessionIx) (group : GroupIx) (s : State) : MemSafe (execAudioFrameEncode dt sess group s) s := by
  unfold execAudioFrameEncode
  refine State.event_mem (fun t h => ?_)
  try dsimp only
  (repeat' split) <;> simp (maxDischargeDepth := 12) [*]

theorem execAudCommit_mem (dt : Nat) (sess : SessionIx) (s : State) : MemSafe (execAudCommit dt sess s) s := by
  unfold execAudCommit
  refine State.event_mem (fun t h => ?_)
  try dsimp only
  (repeat' split) <;> simp (maxDischargeDepth := 12) [*]

theorem execUnitAud_mem (dt : Nat) (sess : SessionIx) (s : State) : MemSafe (execUnitAud dt sess s) s := by
  unfold execUnitAud
  refine State.unitRow_mem (fun t u n b hb h => ?_)
  try dsimp only at hb
  (repeat' split at hb) <;> simp_all
  all_goals (subst hb; simp (maxDischargeDepth := 12) [h])

theorem execAudioSynthesisDone_mem (dt : Nat) (sess : SessionIx) (group : GroupIx) (s : State) : MemSafe (execAudioSynthesisDone dt sess group s) s := by
  unfold execAudioSynthesisDone
  refine State.event_mem (fun t h => ?_)
  try dsimp only
  (repeat' split) <;> simp (maxDischargeDepth := 12) [*]

theorem execAudioWatchdog_mem (dt : Nat) (sess : SessionIx) (group : GroupIx) (s : State) : MemSafe (execAudioWatchdog dt sess group s) s := by
  unfold execAudioWatchdog
  refine State.event_mem (fun t h => ?_)
  try dsimp only
  (repeat' split) <;> simp (maxDischargeDepth := 12) [*]

/-! ### Lanes -/

theorem execSubstreamDecode_mem (dt : Nat) (sess : SessionIx) (lane : LaneIx) (s : State) : MemSafe (execSubstreamDecode dt sess lane s) s := by
  unfold execSubstreamDecode
  refine State.event_mem (fun t h => ?_)
  try dsimp only
  (repeat' split) <;> simp (maxDischargeDepth := 12) [*]

theorem execDrain_mem (dt : Nat) (p : Port) (k : Slot) (s : State) : MemSafe (execDrain dt p k s) s := by
  unfold execDrain
  refine State.sessionRow_mem (fun t r h => ?_)
  refine State.sessionChecked_memOk _ _ _ _ _ _ (fun u hu => ?_) h
  simp (maxDischargeDepth := 12) [hu]

theorem execDrainComplete_mem (dt : Nat) (sess : SessionIx) (s : State) : MemSafe (execDrainComplete dt sess s) s := by
  unfold execDrainComplete
  refine State.event_mem (fun t h => ?_)
  try dsimp only
  (repeat' split) <;> simp (maxDischargeDepth := 12) [*]

/-! ### Regs -/

theorem execMirrorPush_mem (dt : Nat) (die : DieIx) (s : State) : MemSafe (execMirrorPush dt die s) s := by
  unfold execMirrorPush
  refine State.event_mem (fun t h => ?_)
  try dsimp only
  (repeat' split) <;> simp (maxDischargeDepth := 12) [*]

theorem execRegisterWrite_mem (dt : Nat) (w : Writer) (addr : Nat) (data : Bytes) (s : State) : MemSafe (execRegisterWrite dt w addr data s) s := by
  unfold execRegisterWrite
  exact State.event_mem (fun t h => State.writeReg_memOk _ _ _ _ h)

end Sys2Proof.Machine
end

