-- ==== Sys2Proof/Tests/Slice0.lean ====
section
/-! SUPPORT. The model's own tests, each about one command on a small state: the checks of WellFormed refuse an ill-formed command;
for every statement with hypotheses, and for every clause of it, a `witness_…` theorem shows states and operands that meet the
hypotheses together, at a boundary of their range where they have one; and worked examples that the spec itself gives. -/

namespace Sys2Proof.Tests

-- One theorem at a time: the checks by evaluation would else each hold a thread of their own.
set_option Elab.async false

open Sys2Proof.Machine

/-- The state after a command that answers a next state. -/
def after (c : Instr) (s : State) : State :=
  match exec c s with
  | .next t => t
  | _ => s

def runs (c : Instr) (s : State) : Bool :=
  match exec c s with
  | .next _ => true
  | _ => false

/-- Supplied, with REFCLK and 54 V good, and not powered. -/
def off : State :=
  { board := { aux := true, v54 := 5400, v54Removed := false }
    clocks := { refclkOk := true }
    boot := { calInvalid := true } }

/-- Booted and running: every rail on, memory trained, mailboxes served, 1 s of device time. -/
def up : State :=
  { wall := 1000000000
    time := 1000000000
    board := { aux := true, v54 := 5400, v54Removed := false, modResetN := true, perst0N := true, perst1N := true }
    clocks := { refclkOk := true }
    power := { railsOn := true, pwrGood := true, running := true }
    boot := { stage := 4, pcieReady := true, calInvalid := true }
    memory := { trained := true } }

/-! ## Ill-formed commands are refused, and no command has a table word -/

theorem test_wf_mbxOffset : Instr.wf (.mbxOffset 0 [0, 0] true) = false ∧ Instr.wf (.mbxOffset 0 [0, 0, 0] true) = true := by decide
theorem test_wf_mbxWrite : Instr.wf (.mbxWrite 0 [] true) = false ∧ Instr.wf (.mbxWrite 0 (List.replicate 33 0) true) = false ∧
    Instr.wf (.mbxWrite 0 (List.replicate 32 0) true) = true := by decide
theorem test_wf_bar2Write : Instr.wf (.bar2Write 0 0 0 []) = false ∧
    Instr.wf (.bar2Write 0 0 0 (List.replicate 4097 0)) = false := by decide +kernel
theorem test_wf_cascadeMbxWrite : Instr.wf (.cascadeMbxWrite 0 0x40000 [0]) = false ∧
    Instr.wf (.cascadeMbxWrite 0 0 (List.replicate 225 0)) = false ∧ Instr.wf (.cascadeMbxWrite 0 0x3FFFF [0]) = true := by decide +kernel
theorem test_wf_registerWrite : Instr.wf (.registerWrite 0 (.bar0 0) 0 []) = false ∧
    Instr.wf (.registerWrite 0 .smbus 0 [0]) = false ∧ Instr.wf (.registerWrite 0 .firmware 0 [0, 0, 0]) = false ∧
    Instr.wf (.registerWrite 0 .firmware 0 [0, 0, 0, 0]) = true := by decide
/-- A write of another length than the mailbox takes is answered on the bus; it stops nothing. -/
theorem test_short_mbxOffset_refused : exec (.mbxOffset 0 [0, 0] true) up = .next ((up.elapse 0).nackBus) := rfl
theorem test_decodeTableWord : decodeTableWord 16 0 = none ∧ up.withFetchWord 16 0 = up := by decide

/-! ## The queue, the memories and the fuses -/

theorem witness_StepRunsTheFrontCommand : ({ up with pending := [.timeLoRead 1] } : State).pending = [.timeLoRead 1] ∧
    up.pending = [] := by decide
theorem witness_WellFormedQueueRuns :
    let s : State := { up with pending := [.mbxOffset 0 [0, 0, 0] true, .timeLoRead 1] }
    s.queueWf = true ∧ s.pending = .mbxOffset 0 [0, 0, 0] true :: [.timeLoRead 1] := by decide
theorem witness_BlownFusesStayBlown : FusesBurn up.fuses { up.fuses with svnFused := 1, fwRevoked := 1 } ∧
    step { up with pending := [.timeLoRead 1] } = .next (after (.timeLoRead 1) up) :=
  ⟨⟨by decide, by decide, by decide, fun k h => absurd rfl h, rfl, rfl, rfl, rfl⟩, rfl⟩
theorem witness_MemoriesStayCanonical : up.memory.wf = true ∧
    step { up with pending := [.timeLoRead 1] } = .next (after (.timeLoRead 1) up) := ⟨by decide, rfl⟩

/-! ## Supplies, resets and clocks -/

/-- `up` with its auxiliary supply removed. -/
def dark : State := { up with board := { up.board with aux := false } }

/-- Held in reset with its power good. -/
def held : State :=
  { off with power := { railsOn := true, pwrGood := true } }

theorem witness_PowerAndResetPulsesReinitialise :
    dark.board.aux = !true ∧ up.board.aux = !false ∧ up.board.aux = true ∧
    (off.board.aux = true ∧ off.power.running = false ∧ off.power.railsOn = false) ∧
    (up.power.running = true ∨ up.power.railsOn = true) ∧ (held.power.running = true ∨ held.power.railsOn = true) ∧
    (off.board.aux = true ∧ off.board.modResetN = false ∧ (off.power.pwrGood && off.clocks.refclkOk) = false) ∧
    (held.board.aux = true ∧ held.board.modResetN = false ∧ held.power.pwrGood = true ∧ held.clocks.refclkOk = true) := by decide

/-- A die's own rail that failed in the power-up sequence. -/
def railFailed : State := { held with power := { held.power with dieRailOff := [3] } }
/-- 54 V good and one failed rail sequence behind it, with the retry due. -/
def retry : State := { off with wall := 1000, power := { railTry := 1, railRetryAt := 1001 } }
/-- A commanded standby that is due. -/
def standby : State := { up with power := { up.power with standbyAt := some 1000000001 } }

theorem witness_RailsFollowSuppliesAndConditions :
    (4499 < 4500 ∧ up.power.railsOn = true) ∧ (4499 < 4500 ∧ off.power.railsOn = false) ∧ (4800 ≤ 4800 ∧ 4800 ≤ 5800) ∧
    ((4799 < 4800 ∨ 5800 < 4799) ∧ up.power.railsOn = true) ∧ ((5801 < 4800 ∨ 5800 < 5801) ∧ up.power.railsOn = true) ∧
    (4500 ≤ 4500 ∧ 4500 < 4800 ∧ 5800 < 6000 ∧ 6000 ≤ 6000 ∧ up.power.railsOn = true ∧ up.power.running = true) ∧
    (∀ s ∈ [off, retry], s.board.aux = true ∧ s.clocks.refclkOk = true ∧ 4800 ≤ s.board.v54 ∧ s.board.v54 ≤ 5800 ∧
      s.board.v54Removed = false ∧ s.power.standby = false ∧ s.thermal.tripLatched.isSet = false ∧ s.power.railsOn = false) ∧
    (off.power.railTry = 0 ∧ ∀ r ∈ [Rail.cd 3, .sd 1], railDie r ≠ none) ∧
    (retry.power.railTry = 1 ∧ retry.power.railRetryAt ≤ retry.wall + 1) ∧
    (∃ r ∈ [Rail.v12], railDie r = none) ∧ (railDie (.cd 3) = some 3 ∧ up.power.railsOn = true) ∧
    (railDie .fab = none ∧ up.power.railsOn = true) ∧ (off.board.aux = true ∧ off.clocks.refclkOk = true) ∧
    (standby.power.running = true ∧ standby.power.standbyAt = some 1000000001 ∧ 1000000001 ≤ standby.wall + 1) := by decide

/-- Running, the boot ROM at work, domain `d` with this PLL. -/
def withPll (d : Nat) (p : Pll) : State :=
  { up with security := { extended := 1 }, clocks := { refclkOk := true, plls := [(d, p)] } }

/-- Every hub PLL stable but the last, which has three good windows. -/
def hubReady : State :=
  { up with
    boot := { calInvalid := true }
    clocks := { refclkOk := true, plls := [48, 49, 50, 51, 52].map (fun d => (d, { running := true, stable := true })) ++
                  [(59, { running := true, good := 3, starts := 1, startedAt := 1000 })] } }

/-- A PLL that has been started three times without becoming stable. -/
def late : Pll := { running := true, starts := 3, startedAt := 999500001 }

theorem witness_ClocksAreMonitored :
    (∀ d ∈ [0, 47, 53, 54, 57, 58, 48, 52, 59], let s := withPll d { running := true, stable := true }
      s.power.running = true ∧ (s.pll d).running = true ∧ (s.pll d).startedAt ≤ s.time + 1 ∧ s.security.extended ≠ 0 ∧
      (s.pll d).stable = true) ∧
    (let (n, stable, lost) := (withPll 0 {}).limitsOf 0
     0 < n ∧ (256 * (stable : Int)).natAbs ≤ 256 * stable ∧ 256 * stable < 256 * stable + 1 ∧ 256 * stable + 1 ≤ 256 * lost ∧
     256 * lost < n) ∧
    (∀ d ∈ [48, 59, 0, 23], let s := withPll d late
      (s.pll d).stable = false ∧ (s.pll d).startedAt + 500000 ≤ s.time + 1 ∧ 3 ≤ (s.pll d).starts) ∧
    (let s := withPll 30 { late with starts := 2 }
     (s.pll 30).stable = false ∧ (s.pll 30).startedAt + 500000 ≤ s.time + 1 ∧ (s.pll 30).starts < 3) ∧
    (let s := hubReady
     s.power.running = true ∧ (s.pll 59).running = true ∧ (s.pll 59).startedAt ≤ s.time + 1 ∧
     (((s.limitsOf 59).1 : Int) - (s.limitsOf 59).1).natAbs ≤ 256 * (s.limitsOf 59).2.1 ∧ (s.pll 59).stable = false ∧ (s.pll 59).good = 3 ∧
     s.boot.stage = 0 ∧ s.boot.trying = none ∧ s.security.extended = 0 ∧ 59 ∈ [48, 49, 50, 51, 52, 59] ∧
     ∀ e ∈ [48, 49, 50, 51, 52, 59], e ≠ 59 → (s.pll e).stable = true) ∧
    (up.board.aux = true ∧ up.clocks.refclkOk = true ∧ up.clocks.missing = false ∧ 63 < 64 ∧ up.power.railsOn = true ∧ off.power.railsOn = false) ∧
    (dark.clocks.refclkOk = true ∧ ({ off with clocks := {} } : State).clocks.refclkOk = false ∧
     (List.replicate 16 64).length = 16 ∧ ∀ w ∈ List.replicate 16 64, 64 ≤ w) := by decide

theorem witness_TapInstructionsSelectTheirRegister : off.board.aux = true := by decide

/-! ## PCIe, GDDR7 and CXL -/

/-- `up` with PCIe port `p` in this state. -/
def withPort (p : Nat) (x : PcieState) : State := { up with pcie := Tab.set {} [] p x }

/-- An owner on PCIe port 0. -/
def owned : State := { up with owner := { owned := true, nonce := 7, deadline := 4000000000 } }

theorem witness_PciePortsResetAndTrain :
    (∀ s ∈ [({ up with straps := 1 } : State), { owned with straps := 1 }], s.power.running = true ∧ s.portPresent 0 = true ∧ s.portPresent 1 = true ∧ s.board.perst0N = true ∧
      s.board.aux = true ∧ s.boot.pcieReady = true) ∧
    ((withPort 1 { linkUp := true }).pciePort 1).linkUp = true ∧ (up.owner.owned = false ∨ up.owner.port ≠ 0) ∧
    (owned.owner.owned = true ∧ owned.owner.port = 0) ∧
    (let s : State := { off with board := { off.board with perst1N := true } }
     s.board.aux = true ∧ s.board.perst1N = true ∧ (s.power.running = false ∨ s.portPresent 1 = false) ∧ s.board.perst0N = false) ∧
    (up.board.aux = true ∧ up.board.perst1N = true ∧ (up.power.running = false ∨ up.portPresent 1 = false)) ∧
    (let s : State := { up with time := 19999999, boot := {} }
     s.power.running = true ∧ s.boot.pcieReady = false ∧ 20000000 ≤ s.time + 1) ∧
    (let s := withPort 0 { training := true }
     s.power.running = true ∧ s.boot.pcieReady = true ∧ s.board.perst0N = true ∧ s.portPresent 0 = true ∧
     (s.pciePort 0).training = true ∧ 16 = 16 ∧ s.straps.getLsbD 0 = false ∧ 1 ≤ 6) := by decide

/-- Port 0 up, its BAR2 window opening on the last GiB of MD0 that a master can reach. -/
def atTop : State := withPort 0 { linkUp := true, bar2Gib := 1, winGib := 22 }

theorem witness_PciePortsConfigureAndReachMemory :
    (let x := (withPort 0 { linkUp := true, busMaster := true }).pciePort 0
     x.linkUp = true ∧ x.pending = [] ∧ x.busMaster = true) ∧
    (atTop.pciePort 0).linkUp = true ∧ (atTop.pciePort 0).d3hot = false ∧
    (let ps := atTop.pciePort 0
     let a := ps.winGib / ps.bar2Gib * ps.bar2Gib * 2 ^ 30 + (2 ^ 30 - 64)
     2 ^ 30 - 64 + 64 ≤ ps.bar2Gib * 2 ^ 30 ∧ atTop.memory.trained = true ∧ a + 64 ≤ 96 * 2 ^ 30 ∧
     a % (24 * 2 ^ 30) + 64 ≤ 23 * 2 ^ 30 ∧ atTop.dieRuns (24 + a / (24 * 2 ^ 30)) = true ∧
     ∀ w ∈ atTop.poisonList (a / (24 * 2 ^ 30)), w * 64 + 64 ≤ a ∨ a + 64 ≤ w * 64) ∧
    (let s : State := { atTop with memory := { atTop.memory with poison := [(0, [22 * 2 ^ 24])] } }
     let a := 22 * 2 ^ 30 + 63
     a % (24 * 2 ^ 30) + 1 ≤ 23 * 2 ^ 30 ∧ ¬ ∀ w ∈ s.poisonList (a / (24 * 2 ^ 30)), w * 64 + 64 ≤ a ∨ a + 1 ≤ w * 64) ∧
    (let s := withPort 0 { linkUp := true, bar2Gib := 1, winGib := 23 }
     let ps := s.pciePort 0
     0 < 1 ∧ 23 * 2 ^ 30 ≤ (ps.winGib / ps.bar2Gib * ps.bar2Gib * 2 ^ 30 + 0) % (24 * 2 ^ 30)) := by decide +kernel
theorem witness_PciePortsConfigureAndReachMemory_rings : (∀ e ∈ atTop.sessions, e.2.recHeld = [] ∧ e.2.outHeld = []) ∧
    ∀ i, (atTop.session i).recHeld = [] ∧ (atTop.session i).outHeld = [] :=
  ⟨by decide, fun _ => ⟨rfl, rfl⟩⟩

theorem witness_MemoriesTrainAndCountErrors :
    (up.power.running = true ∧ ({ up with boot := { stage := 2 } } : State).boot.stage = 2) ∧
    (let s : State := { up with memory := { up.memory with channels := [(31, { trained := true })] } }
     s.memory.trained = true ∧ (s.channel 3 7).trained = true ∧ s.dieRuns 27 = true) ∧
    (3 * (24 * 2 ^ 30) ≤ 4 * (24 * 2 ^ 30) - 1 ∧ 4 * (24 * 2 ^ 30) - 1 < (3 + 1) * (24 * 2 ^ 30) ∧
      gddrChannelOf (4 * (24 * 2 ^ 30) - 1) < 8) ∧
    (let s : State := { up with dies := [(24, { eccTimes := [5, 900000000] })] }
     ((s.die 24).eccTimes.filter (fun x => decide (s.time + 60000000000 < x + 60000000000))).length < 2) ∧
    (2 ≤ up.boot.stage ∧ up.boot.stage ≤ 4 ∧ (up.cxlPort 1).linkUp = false) ∧
    (({ up with cxl := [(0, { linkUp := true })] } : State).cxlPort 0).linkUp = true ∧
    (let c := ({ up with cxl := [(1, { portLost := { isSet := true }, tries := 2 })] } : State).cxlPort 1
     c.linkUp = false ∧ c.portLost.isSet = true ∧ (c.tries < 3 ∨ c.downAt + 10000000000 ≤ up.time + 0)) := by decide +kernel

/-! ## Throttling, sensors, trips and die faults -/

/-- The records of a valid calibration record are in effect, with no offset; the temperatures are `t`. -/
def calm (t : Thermal) : State := { up with boot := { up.boot with calInvalid := false }, thermal := t }

theorem witness_ThrottleLevelFollowsDemands :
    (let s := calm { k := 5, demandGddr := true, lastLower := some 900000001 }
     let th := s.thermal
     s.power.running = true ∧ (th.demandPower || th.demandOutlet || th.demandJunction || th.demandGddr) = true ∧ 4 < th.k ∧
     ∀ l ∈ th.lastLower, l + 100000000 ≤ s.time + 1) ∧ 2640 < 2641 ∧
    (let s := calm { k := 15, releaseSince := some 1 }
     let th := s.thermal
     s.power.running = true ∧ (th.demandPower || th.demandOutlet || th.demandJunction || th.demandGddr) = false ∧ th.k < 16 ∧
     th.releaseSince = some 1 ∧ 1 + 1000000000 ≤ s.time + 1) := by decide

/-- The die temperatures that these raw readings give, without correction, in 1/16 degree. -/
def readings (raw : List Int) (first : Nat) : List Int :=
  (List.range raw.length).map (fun i => (raw.getD i 0 + (calm {}).sensorOffset (first + i)).fdiv 4)

theorem witness_TemperatureReadingsThrottleAndTrip :
    (calm {}).boot.calInvalid = false ∧ (calm {}).power.running = true ∧ (calm {}).power.railsOn = true ∧
    (∀ d < 32, (calm {}).dieRuns d = true) ∧
    (let ts := readings [6719, -64, 0, 5] 92
     1679 ∈ ts ∧ (∀ x ∈ ts, x ≤ 1679) ∧ (1679 : Int) < 105 * 16 ∧ [6719, -64, 0, 5].length = 4) ∧
    (let ts := readings [6720, 0] 108
     1680 ∈ ts ∧ (∀ x ∈ ts, x ≤ 1680) ∧ (105 * 16 : Int) ≤ 1680) ∧
    (let ts := readings [6720] 110
     1680 ∈ ts ∧ (∀ x ∈ ts, x ≤ 1680)) ∧
    ((1599 : Int) < 100 * 16 ∧ (100 * 16 : Int) ≤ 1600 ∧ [1600, 0, 0, 0, 0, 0, 0, 1].length = 8) ∧
    ((calm {}).board.aux = true ∧ (calm {}).clocks.refclkOk = true ∧
     (15 * 16 : Int) ≤ ((960 : Int) + (calm {}).sensorOffset 111).fdiv 4 ∧ ((2560 : Int) + (calm {}).sensorOffset 111).fdiv 4 ≤ 40 * 16 ∧
     ((959 : Int) + (calm {}).sensorOffset 111).fdiv 4 < 15 * 16 ∧ (40 * 16 : Int) < ((2564 : Int) + (calm {}).sensorOffset 111).fdiv 4 ∧
     ((4159 : Int) + (calm {}).sensorOffset 112).fdiv 4 < 65 * 16 ∧ (65 * 16 : Int) ≤ ((4160 : Int) + (calm {}).sensorOffset 112).fdiv 4 ∧
     (calm {}).thermal.coolantWarn.isSet = false) ∧
    (let s := calm { outlet := 719, tripLatched := { isSet := true } }
     (s.elapse 1).mayClear .smbus = true ∧ s.thermal.outlet ≠ -32768 ∧ s.thermal.outlet < 45 * 16 ∧
     s.thermal.tripLatched.setAt ≠ s.wall + 1) ∧
    (let s := calm { outlet := 720, tripLatched := { isSet := true } }
     (s.elapse 1).mayClear .smbus = true ∧ 45 * 16 ≤ s.thermal.outlet) ∧
    (let s : State := { off with boot := {} }
     s.board.aux = true ∧ s.clocks.refclkOk = true ∧ s.power.railsOn = false ∧ s.power.running = false ∧
     (65 * 16 : Int) ≤ ((4160 : Int) + s.sensorOffset 112).fdiv 4) := by decide +kernel

theorem witness_DieFaultsFenceTheDieOrStopTheModule :
    (up.power.running = true ∧ neighbour 0 1 = some 1 ∧
      (let s : State := { up with dies := [(1, { crcTimes := List.replicate 27 999000001 })] }
       ((s.die 1).crcTimes.filter (fun x => decide (s.time + 1000000 < x + 1000000))).length + 4 < 32)) ∧
    (∃ e < 4, ∃ d < 32, neighbour d e = some 30 ∧ d ≠ 30) ∧ (up.dieFenced 0 = false ∧ up.dieFenced 31 = false ∧ up.dieFenced 30 = false) ∧
    (({ up with dies := [(2, { fenced := 3 })] } : State).die 2).fenced ≠ 0 ∧ (up.die 31).fenced = 0 ∧ 31 < 32 := by decide
theorem witness_DieFaults_faultsSessions :
    let x : Session := { st := .running, plan := { streamDie := 1, memDie := 2, cores := [(0, 5, 0)] } }
    let s : State := { up with sessions := [(9, x)] }
    (s.session 9).bound = true ∧ (s.session 9).recut = none ∧ s.cutUses (s.session 9).plan (.die 5) = true := by decide

/-! ## Mailbox slots, sequence numbers and commands for every master -/

/-- `s` with command `op` and this request sealed in slot 0 of port `p`, whose turn it is. -/
def sealed (s : State) (p op : Nat) (req : Bytes) : State :=
  let m : MbxSlot := { st := 1, opcode := BitVec.ofNat 16 op, reqLen := req.length, payload := Mem.writeBytes [] 0 req }
  { s with mbx := Tab.set {} s.mbx (p * 64) m, mbxTurn := p }

/-- The sealed command may be accepted, whatever the request's bytes. -/
theorem presents_sealed (s : State) (p : Port) (op : Nat) (req : Bytes) (hs : s.serves p.val = true) (hq : (s.port p.val).nextSeq = 0)
    (ho : op < 65536) (hl : req.length ≤ 4032) : (sealed s p.val op req).Presents p 0 op req := by
  have hk : (sealed s p.val op req).slot p.val (0 : Slot).val =
      { st := 1, opcode := BitVec.ofNat 16 op, reqLen := req.length, payload := Mem.writeBytes [] 0 req } := by
    exact Tab.get_set_same {} s.mbx (p.val * 64) _
  refine ⟨hs, ?_, ?_, ?_, ?_, ?_, ?_, by simp [State.turnOf, sealed]⟩ <;> rw [hk]
  · simp; omega
  · exact hq.symm
  · intro j hj; exact absurd hj (Nat.not_lt_zero j)
  · exact hl
  · exact (Mem.readBytes_writeBytes_same [] 0 req).symm

theorem witness_SlotsFollowSealsAndGaps : off.masterReaches 3 = false ∧
    (let s : State := { up with pcie := [(0, { linkUp := true })], mbx := [(1, { st := 1, seq := 63 }), (2, { st := 3 }), (3, { st := 2 })] }
     let inWindow (k : Nat) := ∀ j : Slot, j.val ≠ k → (s.slot 0 j.val).st = 1 → ((s.slot 0 j.val).seq - (s.port 0).nextSeq).toNat < 64
     s.masterReaches 0 = true ∧ s.serves 0 = true ∧ ((0 : W16) - (s.port 0).nextSeq).toNat < 64 ∧ inWindow 0 ∧ inWindow 1 ∧
     64 ≤ ((64 : W16) - (s.port 0).nextSeq).toNat ∧ (s.slot 0 0).st = 0 ∧ (s.slot 0 2).st = 3 ∧ (s.slot 0 3).st = 2 ∧ (s.slot 0 1).st = 1 ∧
     (4 : W32).toNat % 4 = 0 ∧ (5 : W32).toNat % 4 ≠ 0 ∧
     ∀ j : Slot, j.val ≠ 1 → (s.slot 0 j.val).st = 1 → (s.slot 0 j.val).seq ≠ 63 ∧ (s.slot 0 j.val).seq ∉ (s.port 0).consumed) ∧
    (let s : State := { up with mbx := [(1, { st := 1, seq := 63 })], ports := [(0, { gapSince := some 900000001 })] }
     s.serves 0 = true ∧ (s.port 0).gapSince = some 900000001 ∧ 900000001 + 100000000 ≤ s.time + 1 ∧ (s.slot 0 1).st = 1 ∧
     0 < ((s.slot 0 1).seq - (s.port 0).nextSeq).toNat ∧ (s.slot 0 1).seq ∉ (s.port 0).consumed ∧
     ∀ j : Slot, (s.slot 0 j.val).st = 1 → 63 ≤ ((s.slot 0 j.val).seq - (s.port 0).nextSeq).toNat ∧
       ((s.slot 0 j.val).seq - (s.port 0).nextSeq).toNat < 64) := by decide +kernel

/-- The 29 owner commands, each with a request byte string that begins with its operation. -/
def ownerOps : List (Nat × Bytes) :=
  [0x04, 0x05, 0x07, 0x10, 0x11, 0x1B, 0x20, 0x21, 0x22, 0x23, 0x24, 0x25, 0x26, 0x27, 0x30, 0x31, 0x32, 0x33, 0x40, 0x41].map (fun o => (o, [0])) ++
  [(0x18, [0]), (0x18, [1]), (0x18, [2]), (0x18, [3]), (0x18, [4]), (0x1C, [0]), (0x1C, [1]), (0x1C, [2]), (0x1C, [3])]

theorem witness_MastersReadAndOnlyTheOwnerCommands_reads :
    (sealed up 2 0x01 (zeros 4)).Presents 2 0 0x01 (zeros 4) ∧ (∀ b ∈ zeros 4, b = 0) ∧
    (sealed up 2 0x01 [0, 0, 1]).Presents 2 0 0x01 [0, 0, 1] ∧ ([0, 0, 1] : Bytes).getD 2 0 ≠ 0 ∧ (∀ i < 2, ([0, 0, 1] : Bytes).getD i 0 = 0) ∧
    (sealed up 3 0x02 []).Presents 3 0 0x02 [] ∧
    (sealed up 0 0x08 ([0, 0, 0, 0, 0, 0, 0, 0, 125, 0, 0, 0] : Bytes)).Presents 0 0 0x08 [0, 0, 0, 0, 0, 0, 0, 0, 125, 0, 0, 0] ∧ up.boot.stage ≠ 7 ∧
    leAt [0, 0, 0, 0, 0, 0, 0, 0, 125, 0, 0, 0] 8 2 = 125 := by dsimp only [State.Presents]; and_intros <;> decide +kernel
theorem witness_MastersReadAndOnlyTheOwnerCommands_owner : ownerOps.length = 29 ∧
    ∀ x ∈ ownerOps, let s := sealed owned 1 x.1 x.2
      s.Presents 1 0 x.1 x.2 ∧ ¬ (s.owner.owned = true ∧ (s.elapse 0).time ≤ s.owner.deadline ∧ s.owner.port = 1) ∧ s.boot.stage ≠ 7 ∧
      (0x20 ≤ x.1 → x.1 < 0x40 → leAt x.2 0 2 < 256 → (s.session (leAt x.2 0 2)).recut = none ∧ (s.session (leAt x.2 0 2)).parked = [] ∧
        (s.elapse 0).recutLate (leAt x.2 0 2) = false) := by
  have h1 : ∀ x ∈ ownerOps, x.1 < 65536 ∧ x.2.length ≤ 4032 := by decide
  have h2 : ∀ x ∈ ownerOps, let s := sealed owned 1 x.1 x.2
      ¬ (s.owner.owned = true ∧ (s.elapse 0).time ≤ s.owner.deadline ∧ s.owner.port = 1) ∧ s.boot.stage ≠ 7 ∧
      (0x20 ≤ x.1 → x.1 < 0x40 → leAt x.2 0 2 < 256 → (s.session (leAt x.2 0 2)).recut = none ∧ (s.session (leAt x.2 0 2)).parked = [] ∧
        (s.elapse 0).recutLate (leAt x.2 0 2) = false) := by decide +kernel
  exact ⟨rfl, fun x hx => ⟨presents_sealed owned 1 x.1 x.2 rfl rfl (h1 x hx).1 (h1 x hx).2, h2 x hx⟩⟩

/-! ## Ownership -/

/-- An owner on port 0 with nonce 7, priority 5 and a lease until 4 s. -/
def owner5 : State := { up with owner := { owned := true, nonce := 7, priority := 5, deadline := 4000000000, lastRenewal := 500000000 } }
/-- Its lease ends now. -/
def ending : State := { owner5 with owner := { owner5.owner with deadline := 1000000000 } }

/-- CLAIM's request. -/
def claimReq (priority nonce : Nat) : Bytes := natLE 1 priority ++ zeros 3 ++ natLE 4 nonce

theorem witness_ClaimsElectOneOwner :
    (∀ x ∈ [(up, 1, 5, 9), (ending, 1, 5, 9), (ending, 0, 4, 9), (ending, 0, 0, 7), (ending, 0, 5, 9)],
      let s := sealed x.1 x.2.1 0x03 (claimReq x.2.2.1 x.2.2.2)
      s.serves x.2.1 = true ∧ s.turnOf x.2.1 = true ∧ (s.slot x.2.1 0).st = 1 ∧ (s.slot x.2.1 0).opcode.toNat = 0x03 ∧ (s.slot x.2.1 0).seq = (s.port x.2.1).nextSeq ∧
      Mem.readBytes (s.slot x.2.1 0).payload 0 (s.slot x.2.1 0).reqLen = claimReq x.2.2.1 x.2.2.2 ∧
      (s.owner.owned = true → (s.elapse 0).time ≤ s.owner.deadline) ∧ s.owner.window = none ∧ s.owner.successor = none ∧
      8 ≤ (claimReq x.2.2.1 x.2.2.2).length ∧ leAt (claimReq x.2.2.1 x.2.2.2) 0 1 = x.2.2.1 ∧ leAt (claimReq x.2.2.1 x.2.2.2) 4 4 = x.2.2.2 ∧
      ∀ b ∈ ((claimReq x.2.2.1 x.2.2.2).drop 1).take 3 ++ (claimReq x.2.2.1 x.2.2.2).drop 8, b = 0) ∧
    (up.owner.owned = false ∧ ending.owner.owned = true ∧ ending.owner.port ≠ 1 ∧ (9 : W32) ≠ ending.owner.nonce ∧
      4 < ending.owner.priority ∧ (7 : W32) = ending.owner.nonce ∧ ending.owner.priority ≤ 5) ∧
    (let claims : List Claim := [{ port := 3, slot := 2, priority := 4, nonce := 1 }, { port := 1, slot := 63, priority := 5, nonce := 2 },
       { port := 3, slot := 4, priority := 5, nonce := 3 }]
     let standing (q : Nat) := (claims.filter (fun d => d.port = q)).getLast?
     (∀ d ∈ claims, d.port < 4 ∧ d.slot < 64) ∧ standing 1 = some { port := 1, slot := 63, priority := 5, nonce := 2 } ∧
     standing 3 = some { port := 3, slot := 4, priority := 5, nonce := 3 } ∧ 1 < 3 ∧ 1000000000 ≤ (up.elapse 0).time) := by decide +kernel

theorem witness_LeasesAreRenewedHandedOverAndLost :
    (∀ x ∈ [(0x04, natLE 4 7), (0x05, natLE 4 7 ++ [3, 0, 0, 0]), (0x07, natLE 4 7)],
      let s := sealed ending 0 x.1 x.2
      s.Presents 0 0 x.1 x.2 ∧ s.owner.owned = true ∧ (s.elapse 0).time ≤ s.owner.deadline ∧ s.owner.port = 0 ∧
      leAt x.2 0 4 = s.owner.nonce.toNat ∧ s.owner.successor = none) ∧
    leAt (natLE 4 7 ++ [3, 0, 0, 0] : Bytes) 4 1 = 3 ∧ (ending.elapse 0).time - ending.owner.lastRenewal ≤ 1000000000 ∧
    1000000000 < (owner5.elapse 500000001).time - owner5.owner.lastRenewal ∧
    (let s := sealed { owner5 with owner := { owner5.owner with successor := some 3, handoverBy := 1000000000 } } 3 0x06 (claimReq 1 9)
     s.Presents 3 0 0x06 (claimReq 1 9) ∧ s.owner.successor = some 3 ∧ (s.elapse 0).time ≤ s.owner.handoverBy ∧ s.owner.owned = true ∧
     (s.elapse 0).time ≤ s.owner.deadline) ∧
    ending.owner.deadline < (ending.elapse 1).time ∧
    (let s : State := { owner5 with owner := { owner5.owner with successor := some 3, handoverBy := 1000000000 } }
     s.owner.successor = some 3 ∧ s.owner.handoverBy < (s.elapse 1).time) := by dsimp only [State.Presents]; decide +kernel

/-! ## The model store, firmware update, attestation and calibration -/

/-- A byte string placed at GDDR7 address 0 is what the firmware fetches there. -/
theorem fetch_placed (s : State) (bs : Bytes) (hg : s.memory.gddr = Mem.writeBytes [] 0 bs) (hn : bs.length ≠ 0)
    (hs : s.gddrServes 0 = true) (hr : s.reachStatus 0 0 bs.length = tsOK) : s.fetchForm 0 bs.length = some bs := by
  have h1 : addrBad 0 = false := by decide
  have h2 : addrSpace 0 = 0 := by decide
  have h3 : addrOffset 0 = 0 := by decide
  have h4 : s.gddrRead 0 bs.length = bs := by
    rw [State.gddrRead, if_pos hs, hg, Mem.readBytes_writeBytes_same]
  simp [State.fetchForm, h1, h2, h3, hn, hr, State.readSpace, h4]

/-- One layer (ACT over one BF16 element) from tensor 0, an input, to tensor 1, an output. -/
def layerBytes : Bytes :=
  [0, 0, 0, 0, 0xFF, 0xFF, 1, 0, 0xFF, 0xFF, 0xFF, 0xFF, 0xFF, 0xFF, 0xFF, 0xFF, 0xFF, 0xFF, 0xFF, 0xFF] ++ (zeros 12 ++ ([5, 1, 1, 0] ++ zeros 124))
def tensorBytes (role binding : Byte) : Bytes := [role, 1, 0xFF, 0, 1, 0, 1, 0, 1, 0, binding, 0, 0, 0, 0, 0]
def programBytes : Bytes :=
  [2, 0, 1, 0, 32, 0, 0, 0, 64, 0, 0, 0, 224, 0, 0, 0, 0, 0, 0, 0] ++ (zeros 12 ++ (tensorBytes 1 1 ++ (tensorBytes 2 8 ++ layerBytes)))
def evenTable (n : Nat) : Bytes := natLE 2 n ++ (List.range n).flatMap (fun _ => natLE 2 (65536 / n))
def entropyBytes : Bytes :=
  [1, 0, 0, 0, 0, 0, 0, 0] ++ ((List.range 65).flatMap (fun _ => [2, 0, 0, 0x80, 0, 0x80]) ++ (evenTable 64 ++ evenTable 64))
def packageHeader : Bytes :=
  [0x4F, 0x4D, 0x44, 0x4C, 1, 0, 1, 1, 0, 0, 0, 0, 0xD2, 0x78, 0, 0] ++ (zeros 64 ++
  ([0x60, 0x75, 0, 0, 224, 0, 0, 0, 0, 0, 0, 0, 0, 0, 0, 0, 0x40, 0x76, 0, 0, 0x92, 0x02, 0, 0, 0, 0, 0, 0, 0, 0, 0, 0] ++ zeros 144))
/-- A signature, which the verdict operand stands for. -/
def signature : Bytes := zeros 29792
theorem signature_length : signature.length = 29792 := List.length_replicate
/-- A model package: header, signature, program and entropy sections. -/
def package : Bytes := packageHeader ++ (signature ++ (programBytes ++ entropyBytes))

theorem packageHeader_length : packageHeader.length = 256 := by decide +kernel
theorem package_length : package.length = 30930 := by
  have h2 : programBytes.length = 224 := by decide +kernel
  have h3 : entropyBytes.length = 658 := by decide +kernel
  rw [package, List.length_append, List.length_append, List.length_append, packageHeader_length, signature_length, h2, h3]

theorem package_head (o n : Nat) (h : o + n ≤ 256) : leAt package o n = leAt packageHeader o n :=
  leAt_append_left _ _ o n (by rw [packageHeader_length]; exact h)

theorem package_body (o n : Nat) : slice package (30048 + o) n = slice (programBytes ++ entropyBytes) o n := by
  rw [package, slice_append_right _ _ _ _ (by rw [packageHeader_length]; omega),
    slice_append_right _ _ _ _ (by rw [signature_length, packageHeader_length]; omega), signature_length, packageHeader_length,
    show 30048 + o - 256 - 29792 = o by omega]

theorem package_table : (List.range 4).map (pkgSection package) = [(30048, 224), (0, 0), (30272, 658), (0, 0)] := by
  have h : (List.range 4).map (pkgSection package) = (List.range 4).map (pkgSection packageHeader) :=
    List.map_congr_left fun i hi => by
      have := List.mem_range.1 hi
      simp only [pkgSection]
      rw [package_head _ _ (by omega), package_head _ _ (by omega)]
  rw [h]
  decide +kernel

theorem package_sections : pkgSectionBytes package 0 = programBytes ∧ pkgSectionBytes package 1 = [] ∧
    pkgSectionBytes package 2 = entropyBytes := by
  have h := package_table
  simp only [List.range, List.range.loop, List.map_cons, List.map_nil, List.cons.injEq] at h
  simp only [pkgSectionBytes, h]
  refine ⟨?_, rfl, ?_⟩
  · rw [show (30048 : Nat) = 30048 + 0 from rfl, package_body]; decide +kernel
  · rw [show (30272 : Nat) = 30048 + 224 from rfl, package_body]; decide +kernel

theorem package_sound : (∀ c ∈ packageChecks package 30930, c.1 = false) ∧ (∀ c ∈ contentChecks package, c.1 = false) := by
  obtain ⟨h0, h1, h2⟩ := package_sections
  have hh : package.take 0x100 = packageHeader := by
    rw [package, List.take_append_of_le_length (Nat.le_of_eq packageHeader_length.symm), List.take_of_length_le (Nat.le_of_eq packageHeader_length)]
  have hz : zeroAt package 0xA 2 = zeroAt packageHeader 0xA 2 := zeroAt_append_left _ _ _ _ (by decide +kernel)
  constructor
  · simp only [packageChecks, pkgHeaderFault, pkgSectionFault, package_table, package_length, hh, hz, package_head, Nat.reduceAdd, Nat.reduceLeDiff]
    decide +kernel
  · unfold contentChecks entropyFault entropyTables userTableFault programFault
    rw [h0, h1, h2, package_head 6 1 (by decide), package_head 7 1 (by decide)]
    decide +kernel

/-- A fused hash accepts the key that it is the hash of. -/
theorem fused_accepts (pub : Bytes) : keyAccepted (shake256 pub 32) false pub = true := by
  have h1 : (shake256 pub 32).isEmpty = false := by
    have := shake256_length pub 32
    cases h : shake256 pub 32 with
    | nil => rw [h] at this; contradiction
    | cons => rfl
  have h2 : slice (shake256 pub 32) 0 32 = shake256 pub 32 := by
    have := slice_all (shake256 pub 32)
    rwa [shake256_length] at this
  simp [keyAccepted, h1, h2]

/-- The owner's module with the package placed at GDDR7 address 0 and its key fused. -/
def stocked : State :=
  { owner5 with
    memory := { trained := true, gddr := Mem.writeBytes [] 0 package }
    fuses := { modelKeys := [(0, shake256 (zeros 64) 32)] } }

/-- MODEL_LOAD's request: the package's address and length, slot 31, no persistence. -/
def loadReq : Bytes := zeros 8 ++ natLE 4 30930 ++ natLE 2 31 ++ natLE 2 0

theorem package_key : leAt package 8 1 = 0 ∧ slice package 0x10 64 = zeros 64 := by
  refine ⟨by rw [package_head _ _ (by decide)]; decide +kernel, ?_⟩
  rw [package, slice_append_left _ _ _ _ (by rw [packageHeader_length]; decide)]
  decide +kernel

theorem firstFail_none (l : List (Bool × Answer)) (h : ∀ c ∈ l, c.1 = false) : firstFail l = none := by
  induction l with
  | nil => rfl
  | cons c l ih =>
    obtain ⟨bad, a⟩ := c
    have hb : bad = false := h (bad, a) (List.mem_cons_self ..)
    rw [firstFail, hb]
    exact ih fun c hc => h c (List.mem_cons_of_mem _ hc)
theorem firstFail_some (l : List (Bool × Answer)) (c : Bool × Answer) (hc : c ∈ l) (h : c.1 = true) : ∃ a, firstFail l = some a := by
  induction l with
  | nil => exact absurd hc (List.not_mem_nil)
  | cons d l ih =>
    obtain ⟨bad, a⟩ := d
    cases bad with
    | true => exact ⟨a, rfl⟩
    | false =>
      rcases List.mem_cons.1 hc with rfl | hc
      · exact absurd h (by simp)
      · exact ih hc

theorem witness_ModelStoreHoldsVerifiedPackages_load :
    let s := sealed stocked 0 0x10 loadReq
    s.Presents 0 0 0x10 loadReq ∧
    (s.owner.owned = true ∧ (s.elapse 0).time ≤ s.owner.deadline ∧ s.owner.port = 0 ∧ s.owner.successor = none ∧ s.boot.stage = 4 ∧
      16 ≤ loadReq.length ∧ addrBad (leAt loadReq 0 8) = false ∧ leAt loadReq 12 2 = 31 ∧ leAt loadReq 14 2 < 2 ∧
      (∀ b ∈ loadReq.drop 16, b = 0) ∧ s.modelInUse 31 = false) ∧
    (s.elapse 0).fetchForm (leAt loadReq 0 8) (leAt loadReq 8 4) = some package ∧
    (let trusted (sig : Bool) := keyAccepted (Tab.get [] s.fuses.modelKeys (leAt package 8 1)) (s.fuses.modelRevoked.getLsbD (leAt package 8 1)) (slice package 0x10 64) && sig
     let judged (sig : Bool) := firstFail (packageChecks package (leAt loadReq 8 4) ++
       [(s.modelInUse 31, { status := 6 }), (!trusted sig, { status := 8 })] ++ contentChecks package)
     trusted true = true ∧ judged true = none ∧ ∃ a, judged false = some a) := by
  have h8 : leAt loadReq 8 4 = 30930 := by decide +kernel
  have h0 : leAt loadReq 0 8 = 0 := by decide +kernel
  refine ⟨presents_sealed stocked 0 0x10 loadReq (by decide) (by decide) (by decide) (by decide), by decide +kernel, ?_, ?_⟩
  · rw [h0, h8, ← package_length]
    exact fetch_placed _ package rfl (by rw [package_length]; decide) (by decide +kernel) (by rw [package_length]; decide +kernel)
  · have hk : Tab.get ([] : Bytes) [(0, shake256 (zeros 64) 32)] 0 = shake256 (zeros 64) 32 := if_pos rfl
    have ht : (keyAccepted (Tab.get [] (sealed stocked 0 0x10 loadReq).fuses.modelKeys (leAt package 8 1))
        ((sealed stocked 0 0x10 loadReq).fuses.modelRevoked.getLsbD (leAt package 8 1)) (slice package 0x10 64) && true) = true := by
      rw [package_key.1, package_key.2, Bool.and_true]
      show keyAccepted (Tab.get ([] : Bytes) [(0, shake256 (zeros 64) 32)] 0) ((0 : BitVec 8).getLsbD 0) (zeros 64) = true
      rw [hk]
      exact fused_accepts (zeros 64)
    refine ⟨ht, firstFail_none _ ?_, firstFail_some _ (true, { status := 8 }) ?_ rfl⟩
    · intro c hc
      dsimp only at hc
      rw [ht, h8] at hc
      rcases List.mem_append.1 hc with hc | hc
      · rcases List.mem_append.1 hc with hc | hc
        · exact package_sound.1 c hc
        · simp at hc
          rcases hc with rfl | rfl
          · decide
          · rfl
      · exact package_sound.2 c hc
    · simp
theorem witness_ModelStoreHoldsVerifiedPackages_persist : (({} : Flash).persist 31 package).isSome = true ∧
    ({ models := [(0, { used := true, length := 39 * 1048576 })] } : Flash).persist 31 package = none ∧
    leAt (zeros 14 ++ natLE 2 1 : Bytes) 14 2 = 1 := by
  refine ⟨?_, ?_, by decide +kernel⟩
  · simp only [Flash.persist, package_length]; decide +kernel
  · simp only [Flash.persist, package_length]; decide +kernel
theorem witness_ModelStoreHoldsVerifiedPackages_rest :
    (let s := sealed { owner5 with models := [(31, { package := [1] })] } 0 0x11 [31, 0, 0, 0]
     s.Presents 0 0 0x11 [31, 0, 0, 0] ∧ leAt [31, 0, 0, 0] 0 2 = 31 ∧ (Tab.get {} s.models 31).package ≠ [] ∧
     (¬ ∃ e ∈ s.sessions, e.2.bound = true ∧ e.2.plan.modelSlot = 31) ∧ (Tab.get {} owner5.models 31).package = [] ∧
     (Tab.get {} owner5.flash.models 31).used = false) ∧
    ((sealed up 2 0x12 [0]).Presents 2 0 0x12 [0] ∧ up.boot.stage = 4) ∧
    (let s : State := { up with
       flash := { models := [(31, { used := true, length := 30930, package := package })] }
       security := { reloading := [31] } }
     s.power.running = true ∧ s.boot.stage = 4 ∧ 31 ∈ s.security.reloading ∧ (Tab.get {} s.flash.models 31).length = 30930) := by
  dsimp only [State.Presents]; and_intros <;> decide +kernel

/-- A firmware image of one body byte, its header, and a flash whose slot 1 holds it. -/
def imageHeader : Bytes := [0x4F, 0x4A, 0x46, 0x57, 1, 0, 0, 0, 7, 0, 0, 0, 1, 0, 0, 0, 1, 0, 0, 0] ++ zeros 236
def image : Bytes := imageHeader ++ (signature ++ [1])
theorem imageHeader_length : imageHeader.length = 256 := by decide +kernel
theorem image_length : image.length = 0x7560 + 1 := by
  have h : image.length = 256 + (29792 + 1) := by
    rw [image, List.length_append, List.length_append, imageHeader_length, signature_length, List.length_singleton]
  omega
theorem image_head (o n : Nat) (h : o + n ≤ 256) : leAt image o n = leAt imageHeader o n :=
  leAt_append_left _ _ o n (by rw [imageHeader_length]; exact h)
theorem image_zero (o n : Nat) (h : o + n ≤ 256) : zeroAt image o n = zeroAt imageHeader o n :=
  zeroAt_append_left _ _ o n (by rw [imageHeader_length]; exact h)
theorem image_ok : imageFormatFault image = none := by
  simp only [imageFormatFault, image_length, image_head, image_zero, Nat.reduceAdd, Nat.reduceLeDiff]
  decide +kernel
theorem image_trusted (s : State) (h : s.fuses = { fwKeys := [(0, shake256 (zeros 64) 32)] }) : s.imageTrusted image true = true := by
  have h1 : leAt image 0xD 1 = 0 := by rw [image_head _ _ (by decide)]; decide +kernel
  have h2 : leAt image 0xC 1 = 1 := by rw [image_head _ _ (by decide)]; decide +kernel
  have h3 : slice image 0x20 64 = zeros 64 := by
    rw [image, slice_append_left _ _ _ _ (by rw [imageHeader_length]; decide)]; decide +kernel
  simp only [State.imageTrusted, h, h1, h2, h3]
  have := fused_accepts (zeros 64)
  simp [Tab.get, bitAt, this]

/-- Bytes of a byte string placed at address 0. -/
theorem placed_slice (bs : Bytes) (o n : Nat) (h : o + n ≤ bs.length) :
    Mem.readBytes (Mem.writeBytes [] 0 bs) o n = slice bs o n := by
  rw [Mem.readBytes_eq]
  apply List.ext_getElem
  · simp
  · intro i h1 h2
    have hi : i < n := by simpa using h1
    have ho : o + i < bs.length := by omega
    simp only [slice, List.getElem_map, List.getElem_range, Mem.read_writeBytes]
    rw [if_pos ⟨Nat.zero_le _, by omega⟩, List.getElem_append_left (by simp; omega)]
    simp [List.getD_eq_getElem?_getD, ho]

def fwSlot1 : FwSlot := { valid := true, image := Mem.writeBytes [] 0 image }
theorem fwSlot1_bytes : fwSlot1.bytes = image := by
  have h : leNat (Mem.readBytes fwSlot1.image 0x10 4) = 1 := by
    rw [fwSlot1, placed_slice _ _ _ (by rw [image_length]; decide)]
    show leAt image 0x10 4 = 1
    rw [image_head _ _ (by decide)]
    decide +kernel
  rw [FwSlot.bytes, h, show 0x7560 + min 12552864 1 = image.length by rw [image_length]; rfl]
  exact Mem.readBytes_writeBytes_same [] 0 image
/-- The boot ROM verifying slot 1. -/
def rom : State :=
  { up with
    boot := { stage := 0, trying := some 1, calInvalid := true }
    flash := { slots := [(1, fwSlot1)] }
    fuses := { fwKeys := [(0, shake256 (zeros 64) 32)] } }

theorem witness_BootStartsTrustedFirmware :
    (rom.power.running = true ∧ rom.boot.stage = 0 ∧ rom.boot.trying = some 1 ∧ (Tab.get {} rom.flash.slots 1).valid = true) ∧
    imageFormatFault fwSlot1.bytes = none ∧ rom.imageTrusted fwSlot1.bytes true = true ∧ rom.imageTrusted fwSlot1.bytes false = false ∧
    rom.boot.fellBack = false ∧ (Tab.get {} rom.flash.slots 0).valid = false ∧ ({ up with boot := { stage := 3 } } : State).boot.stage = 3 := by
  refine ⟨by decide, by rw [fwSlot1_bytes]; exact image_ok, by rw [fwSlot1_bytes]; exact image_trusted rom rfl, ?_, by decide, by decide, by decide⟩
  simp [State.imageTrusted]

/-- FW_UPDATE's request: operation, key slot, key kind, GDDR7 address 0, length, hash. -/
def updateReq (op slot kind : Nat) : Bytes := natLE 1 op ++ natLE 1 slot ++ natLE 1 kind ++ [0] ++ zeros 8 ++ natLE 4 30049 ++ zeros 32
/-- The owner's module that holds the image at GDDR7 address 0 and in slot 1, and runs slot 0. -/
def updating : State :=
  { owner5 with
    memory := { trained := true, gddr := Mem.writeBytes [] 0 image }
    boot := { owner5.boot with svnRunning := 1 }
    flash := { slots := [(1, fwSlot1)] }
    fuses := { fwKeys := [(0, shake256 (zeros 64) 32)] } }

theorem witness_FirmwareUpdatesAreStagedAndFused :
    (∀ x ∈ [(0, 0, 0), (1, 0, 0), (2, 0, 0), (3, 7, 0), (4, 7, 1), (4, 3, 0)], let req := updateReq x.1 x.2.1 x.2.2
      let s := sealed updating 0 0x18 req
      s.serves 0 = true ∧ (s.slot 0 0).opcode = 0x18 ∧ s.owner.owned = true ∧ (s.elapse 0).time ≤ s.owner.deadline ∧ s.owner.port = 0 ∧
      s.owner.successor = none ∧ s.boot.stage = 4 ∧ 48 ≤ req.length ∧ leAt req 3 1 = 0 ∧ (∀ b ∈ req.drop 48, b = 0) ∧
      s.security.staging = none ∧ leAt req 0 1 = x.1 ∧ leAt req 1 1 = x.2.1 ∧ leAt req 2 1 = x.2.2 ∧ addrBad (leAt req 4 8) = false) ∧
    (updating.boot.trial = false ∧ updating.fuses.svnFused < updating.boot.svnRunning ∧ owner5.boot.svnRunning ≤ owner5.fuses.svnFused ∧
      Tab.get [] updating.fuses.modelKeys 7 = [] ∧ 3 ≠ updating.boot.keySlot ∧ updating.liveFwKeys ≠ [3] ∧
      (Tab.get {} updating.flash.slots (1 - updating.boot.slot)).valid = true) ∧
    (let s : State := { updating with security := { staging := some { port := 3, slot := 63, target := 1, image := image } } }
     s.power.running = true ∧ s.security.staging ≠ none) := by decide +kernel
theorem witness_FirmwareUpdates_image (op slot kind : Nat) :
    (sealed updating 0 0x18 (updateReq op slot kind)).Presents 0 0 0x18 (updateReq op slot kind) ∧
    ((sealed updating 0 0x18 (updateReq 0 0 0)).elapse 0).fetchForm 0 30049 = some image ∧ imageFormatFault image = none ∧
    updating.imageTrusted image true = true := by
  refine ⟨presents_sealed updating 0 0x18 _ (by decide) (by decide) (by decide) (by simp [updateReq, zeros]), ?_, image_ok, image_trusted updating rfl⟩
  have h : (30049 : Nat) = image.length := by rw [image_length]
  rw [h]
  exact fetch_placed _ image rfl (by rw [image_length]; decide) (by decide +kernel) (by rw [image_length]; decide +kernel)

/-- ATTEST's request with mask 0xFF, no nonce and chunk `n`. -/
def attestReq (op n : Nat) : Bytes := natLE 1 op ++ [0] ++ natLE 2 0xFF ++ zeros 32 ++ zeros 8 ++ natLE 2 n

theorem witness_QuotesAreSignedAndReadInChunks :
    (∀ x ∈ [(0, 0), (1, 1), (2, 0), (3, 65535)], let req := attestReq x.1 x.2
      let s := sealed up 3 0x19 req
      s.serves 3 = true ∧ (s.slot 3 0).opcode = 0x19 ∧ s.boot.stage = 4 ∧ 46 ≤ req.length ∧ (∀ b ∈ req.drop 46, b = 0) ∧ leAt req 0 1 = x.1 ∧
      leAt req 1 1 = 0 ∧ leAt req 2 2 < 256 ∧ addrBad (leAt req 36 8) = false ∧ leAt req 44 2 = x.2 ∧ s.security.signing = none) ∧
    (let j : SignJob := { port := 3, slot := 63, message := [], dest := 0 }
     let s : State := { up with security := { signing := some j } }
     s.power.running = true ∧ s.security.signing = some j ∧ s.security.signing ≠ none) := by decide +kernel
theorem witness_QuotesAreSigned_lengths : (sealed up 3 0x19 (attestReq 1 1)).Presents 3 0 0x19 (attestReq 1 1) ∧ (zeros 49856).length = 49856 ∧
    1 * 4000 < (zeros 4001).length ∧ (zeros 4000).length ≤ 1 * 4000 := by
  refine ⟨presents_sealed up 3 0x19 _ (by decide) (by decide) (by decide) (by decide), ?_⟩
  simp only [zeros, List.length_replicate]
  decide

theorem zeros_length (n : Nat) : (zeros n).length = n := List.length_replicate

/-- A calibration record with check `c` that trims every rail to its nominal and monitors every clock at its nominal. -/
def trims : Bytes := (List.range 64).flatMap (fun i => natLE 4 (railNominal.getD i 0))
def nominals : List Nat :=
  List.replicate 24 1966080 ++ List.replicate 6 2018509 ++ List.replicate 4 1310720 ++ List.replicate 4 2018509 ++ List.replicate 4 1310720 ++
  [1966080, 1966080, 1310720, 1966080, 1966080, 1310720, 1572864, 1310720, 1310720, 1310720, 1048576, 0] ++ List.replicate 4 1740800 ++
  [1966080, 2018509, 0, 0, 0, 0]
def windows : Bytes := nominals.flatMap (fun n => natLE 4 n ++ zeros 4)
def calTail : Bytes := zeros 256 ++ (trims ++ (zeros 384 ++ (windows ++ zeros 2048)))
def calRecord (c : Bytes) : Bytes := zeros 32 ++ (c ++ calTail)
def goodRecord : Bytes := calRecord (calCheck (calRecord (zeros 32)))

theorem trims_length : trims.length = 256 := by decide +kernel
theorem windows_length : windows.length = 512 := by decide +kernel
theorem calTail_length : calTail.length = 3456 := by
  simp only [calTail, List.length_append, trims_length, windows_length, zeros, List.length_replicate]
theorem goodRecord_length : goodRecord.length = 3520 := by
  rw [goodRecord, calRecord, calCheck, List.length_append, List.length_append, shake256_length, calTail_length]; decide

/-- Outside the check field the record is the same whatever the check. -/
theorem calRecord_low (c : Bytes) (o n : Nat) (h : o + n ≤ 32) : slice (calRecord c) o n = slice (zeros 32) o n :=
  slice_append_left _ _ _ _ h
theorem calRecord_high (c : Bytes) (hc : c.length = 32) (o n : Nat) (h : 64 ≤ o) : slice (calRecord c) o n = slice calTail (o - 64) n := by
  rw [calRecord, slice_append_right _ _ _ _ (show (zeros 32).length ≤ o by simp only [zeros_length]; omega),
    slice_append_right _ _ _ _ (by rw [hc]; simp only [zeros_length]; omega), hc]
  congr 1
theorem calRecord_same (c : Bytes) (hc : c.length = 32) (o n : Nat) (h : o + n ≤ 32 ∨ 64 ≤ o) :
    slice (calRecord c) o n = slice (calRecord (zeros 32)) o n := by
  rcases h with h | h
  · rw [calRecord_low _ _ _ h, calRecord_low _ _ _ h]
  · rw [calRecord_high _ hc _ _ h, calRecord_high _ (by decide) _ _ h]

theorem calCheck_calRecord (c : Bytes) (hc : c.length = 32) : calCheck (calRecord c) = calCheck (calRecord (zeros 32)) := by
  have h (x : Bytes) (hx : x.length = 32) : (calRecord x).take 0x20 = zeros 32 ∧ (calRecord x).drop 0x40 = calTail := by
    constructor
    · rw [calRecord, List.take_append_of_le_length (by decide), List.take_of_length_le (by decide)]
    · rw [calRecord, ← List.append_assoc, List.drop_append, List.drop_eq_nil_of_le (by simp [zeros, hx])]
      simp [zeros, hx]
  have hz := h (zeros 32) (by decide)
  simp only [calCheck, (h c hc).1, (h c hc).2, hz.1, hz.2]

theorem goodRecord_check : slice goodRecord 0x20 32 = calCheck goodRecord := by
  have hl : (calCheck (calRecord (zeros 32))).length = 32 := shake256_length _ _
  rw [goodRecord, calCheck_calRecord _ hl, calRecord, slice_append_right _ _ _ _ (by decide), slice_append_left _ _ _ _ (by rw [hl]; decide)]
  have := slice_all (calCheck (calRecord (zeros 32)))
  rwa [hl] at this

theorem calRecord_trims (c : Bytes) (hc : c.length = 32) (o n : Nat) (h : o + n ≤ 256) :
    slice (calRecord c) (0x140 + o) n = slice trims o n := by
  rw [calRecord_high _ hc _ _ (by omega), calTail, slice_append_right _ _ _ _ (by simp only [zeros_length]; omega),
    slice_append_left _ _ _ _ (by rw [trims_length]; simp only [zeros_length]; omega)]
  rw [show 0x140 + o - 64 - (zeros 256).length = o by rw [zeros_length]; omega]
theorem calRecord_windows (c : Bytes) (hc : c.length = 32) (o n : Nat) (h : o + n ≤ 512) :
    slice (calRecord c) (0x3C0 + o) n = slice windows o n := by
  rw [calRecord_high _ hc _ _ (by omega), calTail, slice_append_right _ _ _ _ (by simp only [zeros_length]; omega),
    slice_append_right _ _ _ _ (by rw [trims_length]; simp only [zeros_length]; omega), slice_append_right _ _ _ _ (by rw [trims_length]; simp only [zeros_length]; omega),
    slice_append_left _ _ _ _ (by rw [windows_length, trims_length]; simp only [zeros_length]; omega)]
  rw [show 0x3C0 + o - 64 - (zeros 256).length - trims.length - (zeros 384).length = o by
    rw [trims_length, zeros_length, zeros_length]; omega]

/-- A field of the `i`th of equally long parts. -/
theorem slice_parts {α : Type} (f : α → Bytes) (k : Nat) (hf : ∀ x, (f x).length = k) (d : α) (l : List α) (i o n : Nat) (hi : i < l.length)
    (ho : o + n ≤ k) : slice (l.flatMap f) (k * i + o) n = slice (f (l.getD i d)) o n := by
  induction l generalizing i with
  | nil => exact absurd hi (Nat.not_lt_zero i)
  | cons x xs ih =>
    cases i with
    | zero => simpa using slice_append_left (f x) (xs.flatMap f) o n (by rw [hf]; exact ho)
    | succ i =>
      rw [List.flatMap_cons, slice_append_right _ _ _ _ (by rw [hf, Nat.mul_succ]; omega), hf,
        show k * (i + 1) + o - k = k * i + o by rw [Nat.mul_succ]; omega, ih i (by simpa using hi)]
      rfl

def trimAt (i : Nat) : Bytes := natLE 4 (railNominal.getD ((List.range 64).getD i 0) 0)
def windowAt (d : Nat) : Bytes := natLE 4 (nominals.getD d 0) ++ zeros 4
theorem slice_trims (i o n : Nat) (hi : i < 64) (ho : o + n ≤ 4) : slice trims (4 * i + o) n = slice (trimAt i) o n :=
  slice_parts (fun i => natLE 4 (railNominal.getD i 0)) 4 (fun _ => natLE_length _ _) 0 _ i o n (by simpa using hi) ho
theorem slice_windows (i o n : Nat) (hi : i < 64) (ho : o + n ≤ 8) : slice windows (8 * i + o) n = slice (windowAt i) o n :=
  slice_parts (fun n => natLE 4 n ++ zeros 4) 8 (fun _ => by simp [zeros]) 0 nominals i o n (by simpa [nominals] using hi) ho
theorem trims_ok : ∀ i < 64, ∀ x ∈ (match railNominal[i]? with
    | some n => [(0x140 + 4 * i, decide (leNat (slice (trimAt i) 0 2) * 100 < n * 95) || decide (n * 105 < leNat (slice (trimAt i) 0 2) * 100)),
        (0x140 + 4 * i + 2, !(slice (trimAt i) 2 2).all (· == 0))]
    | none => [(0x140 + 4 * i, !(slice (trimAt i) 0 4).all (· == 0))]), x.2 = false := by decide +kernel
theorem windows_ok : ∀ d < 64, ∀ x ∈ (let (n, st, lo) := pllLimits d
    if d = 53 ∨ 60 ≤ d then [(0x3C0 + 8 * d, !(slice (windowAt d) 0 8).all (· == 0))]
    else [(0x3C0 + 8 * d, decide (n < 1000 * countError (leNat (slice (windowAt d) 0 4)) n)),
      (0x3C0 + 8 * d + 4, decide (st < leNat (slice (windowAt d) 4 2))), (0x3C0 + 8 * d + 6, decide (lo < leNat (slice (windowAt d) 6 2)))]),
    x.2 = false := by decide +kernel

/-- The first checks of CAL_WRITE, of fields that every record shares. -/
theorem first_ok : ∀ x ∈ ([(0x00, decide (slice (calRecord (zeros 32)) 0 4 ≠ slice (zeros 3520) 0 4)),
    (0x04, decide (slice (calRecord (zeros 32)) 4 2 ≠ slice (zeros 3520) 4 2)), (0x06, decide (slice (calRecord (zeros 32)) 6 2 ≠ slice (zeros 3520) 6 2)),
    (0x08, decide (slice (calRecord (zeros 32)) 8 8 ≠ slice (zeros 3520) 8 8)), (0x11, !(slice (calRecord (zeros 32)) 0x11 3).all (· == 0)),
    (0x18, !(slice (calRecord (zeros 32)) 0x18 8).all (· == 0)), (0x20, false),
    (0x122, !(slice (calRecord (zeros 32)) 0x122 30).all (· == 0))] : List (Nat × Bool)), x.2 = false := by decide +kernel

theorem goodRecord_ok : calFault (zeros 3520) goodRecord none = none := by
  have hl : (calCheck (calRecord (zeros 32))).length = 32 := shake256_length _ _
  have hs (o n : Nat) (h : o + n ≤ 32 ∨ 64 ≤ o) : slice goodRecord o n = slice (calRecord (zeros 32)) o n := calRecord_same _ hl o n h
  have ht : ∀ x ∈ (List.range 64).flatMap (trimBad goodRecord), x.2 = false := by
    intro x hx
    obtain ⟨i, hi, hx⟩ := List.mem_flatMap.1 hx
    have hi := List.mem_range.1 hi
    have h (o n : Nat) (h : o + n ≤ 4) : slice goodRecord (0x140 + 4 * i + o) n = slice (trimAt i) o n := by
      rw [Nat.add_assoc]
      exact (calRecord_trims _ hl _ n (by omega)).trans (slice_trims i o n hi h)
    have h0 (n : Nat) (hn : n ≤ 4) : slice goodRecord (0x140 + 4 * i) n = slice (trimAt i) 0 n := h 0 n (by omega)
    simp only [trimBad, leAt, zeroAt, h0 2 (by decide), h0 4 (by decide), h 2 2 (by decide)] at hx
    exact trims_ok i hi x hx
  have hw : ∀ x ∈ (List.range 64).flatMap (windowBad goodRecord), x.2 = false := by
    intro x hx
    obtain ⟨i, hi, hx⟩ := List.mem_flatMap.1 hx
    have hi := List.mem_range.1 hi
    have h (o n : Nat) (h : o + n ≤ 8) : slice goodRecord (0x3C0 + 8 * i + o) n = slice (windowAt i) o n := by
      rw [Nat.add_assoc]
      exact (calRecord_windows _ hl _ n (by omega)).trans (slice_windows i o n hi h)
    have h0 (n : Nat) (hn : n ≤ 8) : slice goodRecord (0x3C0 + 8 * i) n = slice (windowAt i) 0 n := h 0 n (by omega)
    simp only [windowBad, leAt, zeroAt, h0 8 (by decide), h0 4 (by decide), h 4 2 (by decide), h 6 2 (by decide)] at hx
    exact windows_ok i hi x hx
  simp only [calFault, goodRecord_check, zeroAt, hs 0 4 (by decide), hs 4 2 (by decide), hs 6 2 (by decide), hs 8 8 (by decide),
    hs 0x11 3 (by decide), hs 0x18 8 (by decide), hs 0x122 30 (by decide), ne_eq, not_true_eq_false, decide_false, List.append_nil]
  rw [Option.map_eq_none_iff, List.find?_eq_none]
  intro x hx
  rcases List.mem_append.1 hx with hx | hx
  · rcases List.mem_append.1 hx with hx | hx
    · simp [first_ok x hx]
    · simp [ht x hx]
  · simp [hw x hx]

/-- CAL_WRITE of a record. -/
def calWriting (rec : Bytes) : State := sealed owner5 0 0x1B rec
theorem presents_calWriting (rec : Bytes) (h : rec.length = 3520) : (calWriting rec).Presents 0 0 0x1B rec :=
  presents_sealed owner5 0 0x1B rec (by decide) (by decide) (by decide) (by omega)

/-- A record of another module. -/
def badRecord : Bytes := [1] ++ zeros 3519
theorem badRecord_length : badRecord.length = 3520 := by
  rw [badRecord, List.length_append, List.length_singleton, zeros, List.length_replicate]

theorem witness_CalibrationIsCheckedBeforeItIsWritten :
    (calWriting goodRecord).Presents 0 0 0x1B goodRecord ∧
    calFault (Mem.readBytes (calWriting goodRecord).flash.cal 0 3520) (goodRecord.take 3520) none = none ∧ (∀ b ∈ goodRecord.drop 3520, b = 0) ∧
    (owner5.owner.owned = true ∧ (owner5.elapse 0).time ≤ owner5.owner.deadline ∧ owner5.owner.port = 0 ∧ owner5.owner.successor = none ∧
      owner5.boot.stage = 4 ∧ 3520 ≤ goodRecord.length ∧ owner5.security.calJob = none) ∧
    (calWriting badRecord).Presents 0 0 0x1B badRecord ∧
    calFault (Mem.readBytes owner5.flash.cal 0 3520) (badRecord.take 3520) none = some 0 ∧
    (sealed up 3 0x1A []).Presents 3 0 0x1A [] ∧
    (let j : CalJob := { port := 3, slot := 63, record := goodRecord }
     let s : State := { up with security := { calJob := some j } }
     s.power.running = true ∧ s.security.calJob = some j ∧ j.record.length = 3520) := by
  have hg : goodRecord.take 3520 = goodRecord := List.take_of_length_le (Nat.le_of_eq goodRecord_length)
  have hd : goodRecord.drop 3520 = [] := List.drop_eq_nil_of_le (Nat.le_of_eq goodRecord_length)
  have hz : Mem.readBytes owner5.flash.cal 0 3520 = zeros 3520 := by
    rw [Mem.readBytes_eq]
    exact List.eq_replicate_iff.2 ⟨by simp, fun b hb => by
      obtain ⟨i, -, rfl⟩ := List.mem_map.1 hb
      rfl⟩
  refine ⟨presents_calWriting _ goodRecord_length, ?_, ?_, ?_, presents_calWriting _ badRecord_length, ?_,
    presents_sealed up 3 0x1A [] (by decide) (by decide) (by decide) (by decide), rfl, rfl, goodRecord_length⟩
  · rw [hg]; exact hz ▸ goodRecord_ok
  · rw [hd]; simp
  · exact ⟨by decide +kernel, by decide +kernel, by decide +kernel, by decide +kernel, by decide +kernel, Nat.le_of_eq goodRecord_length.symm, by decide +kernel⟩
  · rw [hz, List.take_of_length_le (Nat.le_of_eq badRecord_length)]; decide +kernel

/-! ## Power commands -/

/-- POWER's request. -/
def powerReq (op cap dies : Nat) : Bytes := natLE 1 op ++ [0] ++ natLE 2 cap ++ natLE 4 dies

theorem witness_PowerCommandsFollowTheOwner :
    (∀ x ∈ [(0, 600, 0), (0, 2400, 0), (0, 599, 0), (0, 2401, 0), (1, 0, 0x30FFFFFF), (2, 0, 0x30FFFFFF), (3, 0, 0)],
      let req := powerReq x.1 x.2.1 x.2.2
      let s := sealed owner5 0 0x1C req
      s.serves 0 = true ∧ (s.slot 0 0).opcode = 0x1C ∧ Mem.readBytes (s.slot 0 0).payload 0 (s.slot 0 0).reqLen = req ∧
      s.owner.owned = true ∧ (s.elapse 0).time ≤ s.owner.deadline ∧ s.owner.port = 0 ∧ s.owner.successor = none ∧ s.boot.stage = 4 ∧
      8 ≤ req.length ∧ leAt req 1 1 = 0 ∧ (∀ b ∈ req.drop 8, b = 0) ∧ leAt req 0 1 = x.1 ∧ leAt req 2 2 = x.2.1 ∧ leAt req 4 4 = x.2.2) ∧
    0x30FFFFFF &&& 0x30FFFFFF = 0x30FFFFFF ∧ (∀ d ∈ List.range 24 ++ [28, 29], owner5.sessionsOn (.die d) = [] ∧ (owner5.die d).fenced = 0) ∧
    (let x : Session := { st := .running, plan := { streamDie := 1, memDie := 2, cores := [(0, 5, 0)] } }
     let s : State := { owner5 with sessions := [(9, x)], dies := [(23, { fenced := 4 })] }
     s.sessionsOn (.die 5) ≠ [] ∧ (s.die 23).fenced ≠ 0) ∧
    (let s : State := { owner5 with dies := [(23, { off := true, poweringOn := [(3, 63), (0, 0)] }), (22, { off := true, poweringOn := [(0, 0)] })] }
     s.power.running = true ∧ (s.die 23).poweringOn ≠ [] ∧ (∀ w ∈ (s.die 23).poweringOn, w.1 < 4 ∧ w.2 < 64) ∧
     (3, 63) ∈ (s.die 23).poweringOn ∧ ∀ e ∈ s.dies, e.1 ≠ 23 → (3, 63) ∉ e.2.poweringOn) ∧
    (∀ e ∈ owner5.sessions, e.2.bound = false) := by decide +kernel

/-! ## The SMBus target, registers, the log and the firmware's housekeeping -/

/-- `up` with MBX_OFFSET at this place and slot 63 of port 2 in this state. -/
def smb (o st : Nat) : State := { up with smbOffset := o, mbx := Tab.set {} [] (2 * 64 + 63) { st := st } }

theorem witness_SmbusReachesBankTwo :
    up.board.aux = true ∧ up.clocks.refclkOk = true ∧ up.power.running = true ∧ (zeros 3).length = 3 ∧ leNat [0xFF, 0xFF, 3] < 0x40000 ∧
    0x40000 ≤ leNat [0, 0, 4] ∧ (1 ≤ (zeros 32).length ∧ (zeros 32).length ≤ 32) ∧
    (63 * 4096 + 0x40 ≤ 0x3FFE0 ∧ 0x3FFE0 + (zeros 32).length ≤ 63 * 4096 + 4096 ∧ ((smb 0x3FFE0 0).slot 2 63).st = 0 ∧
      ((smb 0x3FFE0 1).slot 2 63).st = 1 ∧ ((smb 0x3FFE0 2).slot 2 63).st = 2 ∧ ((smb 0x3FFE0 3).slot 2 63).st ≠ 2) ∧
    (smb (63 * 4096) 0).smbOffset = 63 * 4096 ∧ ({ up with alertPending := true } : State).alertPending = true ∧ up.alertPending = false := by
  decide +kernel

/-- The owner's port 0 with its link up. -/
def linked : State := { owner5 with pcie := [(0, { linkUp := true, linkLost := { isSet := true }, bar2Hole := { isSet := true } })] }

theorem witness_RegisterWritesTakeEffectOrAreDropped :
    (linked.power.running = true ∧ linked.pcieDecodes 0 = true ∧ 2 ^ 32 - 1 < 2 ^ 32) ∧
    (linked.owner.owned = true ∧ (linked.elapse 0).time ≤ linked.owner.deadline ∧ linked.owner.port = 0) ∧
    (let s : State := { linked with owner := {} }
     s.pcieDecodes 0 = true ∧ ¬ (s.owner.owned = true ∧ (s.elapse 0).time ≤ s.owner.deadline ∧ s.owner.port = 0)) ∧
    (0xA0F < 0xA10 ∧ ¬ ((zeros 4).length = 4 ∧ 0xA0F % 4 = 0) ∧ ¬ ((zeros 4).length = 8 ∧ 0xA0F % 8 = 0)) ∧ 0x3FFFC + 4 ≤ 0x40000 ∧
    (({ linked with owner := { linked.owner with changedAt := some (linked.wall + 1), before := some 0 } } : State).owner.changedAt =
      some (linked.wall + 1)) ∧
    (0xA08 < 0xA10 ∧ 0xA08 % 8 = 0) ∧ bitAt ({ linked with straps := 1 } : State).straps.toNat 0 = true ∧
    (linked.board.aux = true ∧ linked.clocks.refclkOk = true ∧ bitAt 0x800 10 = false) ∧
    (({ up with dies := [(31, { fenced := 2 })] } : State).die 31).fenced ≠ 0 ∧ ({ up with dies := [(3, { off := true })] } : State).diePowered 3 = false ∧
    (up.diePowered 27 = true ∧ 0x10000 + 0x40 * 63 + 0x10 < 0x2000000 ∧ (0x10000 + 0x40 * 63 + 0x10) % 4 = 0) ∧
    (up.diePowered 29 = true ∧ 0x20000 + 16 * 31 < 0x2000000 ∧ (0x20000 + 16 * 31) % 4 = 0) ∧
    (up.diePowered 23 = true ∧ 0x10000 + 16 * 159 < 0x2000000 ∧ (0x10000 + 16 * 159) % 4 = 0) := by decide +kernel

/-- An event of this time, die and order. -/
def ev (t die index severity : Nat) : LogEntry := { t := t, index := index, die := die, severity := severity, code := 1, arg := 0, info := 0 }
/-- Every die has reported progress up to `t`, and these events wait. -/
def progressed (t : Nat) (l : List LogEntry) : State :=
  { up with dies := (List.range 32).map (fun d => (d, { progress := t })), log := { pending := l } }

theorem witness_EventsAreCommittedInOrder :
    (let s := progressed 101 [ev 100 5 1 2, ev 100 5 0 1, ev 100 6 0 3]
     let e := ev 100 5 0 1
     s.power.running = true ∧ s.boot.stage = 4 ∧ e ∈ s.log.pending ∧
     (∀ f ∈ s.log.pending, f = e ∨ (e.t < f.t ∨ e.t = f.t ∧ (e.die < f.die ∨ e.die = f.die ∧ e.index < f.index))) ∧
     ∀ d, d < 32 → (s.die d).fenced = 0 → (s.die d).off = false → e.t < (s.die d).progress) ∧
    (let s := progressed 100 [ev 100 5 1 2]
     (s.die 31).fenced = 0 ∧ (s.die 31).off = false ∧ ev 100 5 1 2 ∈ s.log.pending ∧ (s.die 31).progress ≤ 100 ∧ s.dieRuns 31 = true) ∧ 2 ≤ (ev 100 6 0 3).severity := by decide +kernel

/-- A core of session 9 whose completion ring holds this record. -/
def ringed (r : Record) : State :=
  { up with sessions := [(9, { st := .running })], cores := [(23 * 160 + 159, { ring := [r], session := some 9 })] }

theorem witness_FirmwareCollectsAndPublishes :
    (∀ d < 32, up.dieRuns d = true) ∧
    (let s := ringed { status := 0x81, saturated := 3 }
     s.power.running = true ∧ s.coreLive 23 159 = true ∧ (s.core 23 159).ring = [{ status := 0x81, saturated := 3 }] ∧
     ((s.core 23 159).ring.all (fun r => r.sess = none) = true) ∧ (s.core 23 159).session = some 9 ∧ (s.session 9).bound = true) ∧
    (∀ e ∈ [false, true], let r : Record := { status := 0x80, sess := some 0, encOnly := e }
     (ringed r).coreLive 23 159 = true ∧ ((ringed r).core 23 159).ring = [r] ∧ r.sess = some 0) ∧
    (let s : State := { up with sessions := [(255, { vectorHeld := true, lastVector := some 999995000 })] }
     (s.session 255).vectorHeld = true ∧ (s.session 255).lastVector = some 999995000 ∧ 999995000 + 5000 ≤ (s.elapse 0).time) ∧
    (up.elapse 0).time < 999995001 + 5000 := by decide +kernel


/-! ## Sessions -/

/-- CONFIGURE's request: session 9, of this kind, 64 × 64 at 30 pictures per second, an output ring of 64 KiB. -/
def configReq (kind : Nat) : Bytes :=
  natLE 2 9 ++ natLE 1 kind ++ [0xFF, 0, 1, 0, 8] ++ natLE 2 64 ++ natLE 2 64 ++ natLE 4 30 ++ natLE 4 1 ++ [1, 0] ++ natLE 2 0 ++
    [0, 0, 0, 0] ++ natLE 2 64 ++ zeros 34
/-- A cut plan for session 9: recipe 1, model slot 0, these cores, one predictor, 16 MiB of reserve. -/
def planReq (kind gen flags : Nat) (cores : List Nat) : Bytes :=
  natLE 2 9 ++ natLE 1 kind ++ [1] ++ natLE 2 gen ++ natLE 1 flags ++ natLE 1 (if kind = 2 then 8 else if kind = 1 then 1 else 0) ++ natLE 2 0 ++
    natLE 2 cores.length ++ [0, 0] ++ natLE 2 1 ++ natLE 4 (if kind = 1 then 1 else 0) ++ natLE 4 (if kind < 3 then 1 else 0) ++ natLE 4 1 ++
    natLE 4 0 ++ natLE 8 0x1000000 ++ natLE 8 0x800000 ++ zeros 16 ++ cores.flatMap (natLE 2) ++ zeros (2 * (cores.length % 2))
/-- The owner's module with a model of the kind in slot 0. -/
def modelled : State := { owner5 with models := [(0, { package := [1], kind := 1, recipe := 1, hash := zeros 64 })] }
def cfgOf (kind : Nat) : SessionCfg := configOf (configReq kind) 0
def planIn (kind : Nat) : CutPlan := { modelled.planOf (planReq kind 0 0 [0]) with generation := 1 }
/-- Session 9 in a state, at generation 1, on core 0 of die 0. -/
def session9 (kind : Nat) (st : SessState) (pics : List Picture) : Session :=
  { st := st, cfg := cfgOf kind, gen := 1, plan := planIn kind, charge := 200000, fixedCharge := 200000, pics := pics }
def having (x : Session) : State :=
  { modelled with
    sessions := [(9, x)]
    cores := [(0, { session := some 9, recipe := 1, groups := [(0, { mode := 0, ready := true }), (1, { mode := 0, ready := true })] })]
    lanes := [(0, { session := 9 })] }
def configured (kind : Nat) : State := { modelled with sessions := [(9, { st := .configured, cfg := cfgOf kind })] }
def noLoads : Placement := { recBase := 4096, outBase := 0x40000, loads := [] }
/-- A command about session 9 at its generation. -/
def nineReq (gen : Nat) : Bytes := natLE 2 9 ++ natLE 2 gen

theorem witness_SessionsAreConfiguredBoundAndStarted_configure :
    (let req := configReq 2
     let s := sealed { modelled with sessions := [(9, { st := .configured })] } 0 0x20 req
     let a := (s.elapse 0).accept 0 0
     s.Presents 0 0 0x20 req ∧ (leAt req 0 2 = 9 ∧ (s.session 9).recut = none ∧ (s.session 9).parked = [] ∧ s.boot.stage = 4 ∧
       s.owner.owned = true ∧ (s.elapse 0).time ≤ s.owner.deadline ∧ s.owner.port = 0 ∧ s.owner.successor = none) ∧
     configLayout req ≤ req.length ∧ (∀ c ∈ a.configChecks req 0, c.1 = false) ∧ (s.session 9).st = .configured ∧ (s.session 8).st = .idle ∧
     a.audioFull 9 (configOf req 0) = false ∧ (configOf req 0).kind = 2) := by
  dsimp only [State.Presents]; and_intros <;> decide +kernel
theorem witness_SessionsAreConfiguredBoundAndStarted_bind :
    (let req := planReq 2 0 0 [0]
     let s := sealed (configured 2) 0 0x21 req
     let a := (s.elapse 0).accept 0 0
     let plan := a.planOf req
     s.Presents 0 0 0x21 req ∧ (leAt req 0 2 = 9 ∧ (s.session 9).recut = none ∧ (s.session 9).parked = [] ∧ s.boot.stage = 4 ∧
       s.owner.owned = true ∧ (s.elapse 0).time ≤ s.owner.deadline ∧ s.owner.port = 0 ∧ s.owner.successor = none) ∧
     (s.session 9).st = .configured ∧ planLayout req ≤ req.length ∧
     (∀ c ∈ a.planChecks req ++ a.fixedChecks plan none ++ a.planOwnChecks plan none, c.1 = false) ∧
     a.programRefused plan true noLoads.loads = none ∧ (s.core 0 0).session ≠ some 9 ∧ (s.rank, 0, 0) ∈ plan.cores ∧ (s.rank, 23, 159) ∉ plan.cores ∧
     bitAt plan.lanes.toNat 0 = true) := by
  dsimp only [State.Presents]; and_intros <;> decide +kernel
theorem witness_SessionsAreConfiguredBoundAndStarted_rest :
    (let s := sealed (having (session9 2 .bound [])) 0 0x22 (nineReq 1)
     s.Presents 0 0 0x22 (nineReq 1) ∧ (leAt (nineReq 1) 0 2 = 9 ∧ (s.session 9).recut = none ∧ (s.session 9).parked = [] ∧ s.boot.stage = 4 ∧
       s.owner.owned = true ∧ (s.elapse 0).time ≤ s.owner.deadline ∧ s.owner.port = 0 ∧ s.owner.successor = none) ∧
     (s.session 9).st = .bound ∧ 4 ≤ (nineReq 1).length ∧ leAt (nineReq 1) 2 2 = (s.session 9).gen ∧ (∀ b ∈ (nineReq 1).drop 4, b = 0)) ∧
    ((sealed up 3 0x28 (natLE 2 255 ++ zeros 2)).Presents 3 0 0x28 (natLE 2 255 ++ zeros 2) ∧ up.boot.stage = 4 ∧
      leAt (natLE 2 255 ++ zeros 2) 0 2 < 256 ∧ (∀ b ∈ (natLE 2 255 ++ zeros 2).drop 2, b = 0)) ∧
    (let s := sealed (configured 3) 0 0x27 (nineReq 0)
     s.Presents 0 0 0x27 (nineReq 0) ∧ (s.session 9).st = .configured ∧ s.owner.owned = true ∧ s.owner.port = 0 ∧
     (∀ b ∈ (nineReq 0).drop 2, b = 0)) := by
  dsimp only [State.Presents]; and_intros <;> decide +kernel

theorem witness_SessionsDrainAbortAndUnbind :
    (∀ e ∈ ([(0x22, [.bound], .start 0 0 0), (0x24, [.running], .drain 0 0 0), (0x25, [.running, .draining, .faulted], .abort 0 0 0),
        (0x26, [.bound, .faulted], .unbind 0 0 0)] : List (Nat × List SessState × Instr)),
      ((sealed (configured 1) 0 e.1 (nineReq 0)).session 9).st ∉ e.2.1 ∧ 4 ≤ (nineReq 0).length ∧ (∀ b ∈ (nineReq 0).drop 4, b = 0)) ∧
    (let s := sealed (having (session9 1 .faulted [])) 0 0x26 (nineReq 2)
     (s.session 9).st ∈ [SessState.bound, .faulted] ∧ ¬ leAt (nineReq 2) 2 2 = (s.session 9).gen) ∧
    (let s := sealed (having (session9 3 .running [])) 0 0x24 (nineReq 1)
     s.Presents 0 0 0x24 (nineReq 1) ∧ (s.session 9).st = .running ∧ leAt (nineReq 1) 2 2 = (s.session 9).gen ∧ (s.session 9).cfg.kind = 3 ∧
     (leAt (nineReq 1) 0 2 = 9 ∧ (s.session 9).recut = none ∧ (s.session 9).parked = [] ∧ s.boot.stage = 4 ∧
       s.owner.owned = true ∧ (s.elapse 0).time ≤ s.owner.deadline ∧ s.owner.port = 0 ∧ s.owner.successor = none)) ∧
    (let s := having (session9 1 .draining [])
     s.power.running = true ∧ (s.session 9).workDone = true ∧ ¬ ((s.session 9).cfg.kind = 3 ∧ (s.session 9).cfg.attach = none ∧ (s.session 9).sequenceOpen = true) ∧
     s.recRoom 9 = true ∧ (s.session 9).poolLost = false) ∧
    (let s := having { session9 3 .draining [] with cfg := { cfgOf 3 with attach := none }, dec := { mdls := [(0, 1, 2, [])] } }
     s.power.running = true ∧ (s.session 9).st = .draining ∧ (s.session 9).workDone = true ∧ (s.session 9).cfg.kind = 3 ∧
     (s.session 9).cfg.attach = none ∧ (s.session 9).sequenceOpen = true ∧ (s.session 9).poolLost = false) ∧
    (let s := sealed (having (session9 1 .draining [{ poc := 7 }, { poc := 8 }])) 0 0x25 (nineReq 1)
     s.Presents 0 0 0x25 (nineReq 1) ∧ (s.session 9).st = .draining ∧ leAt (nineReq 1) 2 2 = (s.session 9).gen) ∧
    (let s := sealed (having (session9 1 .bound [])) 0 0x26 (nineReq 1)
     s.Presents 0 0 0x26 (nineReq 1) ∧ (s.session 9).st = .bound ∧ (s.rank, 0, 0) ∈ (s.session 9).plan.cores ∧
     (s.rank, 23, 159) ∉ (s.session 9).plan.cores ∧ (∀ c ∈ (s.session 9).plan.cores, c.2.1 < 24 ∧ c.2.2 < 160) ∧
     ∀ c ∈ s.planCores (s.session 9).plan, (s.core c.1 c.2).session = some 9 ∧
       ∀ r ∈ (s.core c.1 c.2).ring ++ (s.core c.1 c.2).draining, r.sess = none ∨ r.sess = some 9) := by
  dsimp only [State.Presents]; and_intros <;> decide +kernel

/-- RECUT sealed for a session 9 of the kind. -/
def recutting (x : Session) (flags : Nat) (cores : List Nat) : State := sealed (having x) 0 0x23 (planReq x.cfg.kind 1 flags cores)

theorem witness_RecutsTakeEffectAtTheBoundary :
    (∀ e ∈ ([(session9 1 .running [{ poc := 1, phase1 := true }, { poc := 2 }], 0, [0, 1]), (session9 2 .bound [], 0, [0x179F]), (session9 1 .running [{ poc := 1, phase1 := true }], 2, [1]), (session9 1 .faulted [], 0, [0x100])] :
        List (Session × Nat × List Nat)),
      let s := recutting e.1 e.2.1 e.2.2
      let req := planReq e.1.cfg.kind 1 e.2.1 e.2.2
      let a := (s.elapse 0).accept 0 0
      let plan := a.planOf req
      let x := s.session 9
      (s.slot 0 0).st = 1 ∧ (s.slot 0 0).opcode = 0x23 ∧ (s.slot 0 0).reqLen = req.length ∧ leAt req 0 2 = 9 ∧ x.recut = none ∧ x.parked = [] ∧
      s.boot.stage = 4 ∧ s.owner.owned = true ∧ (s.elapse 0).time ≤ s.owner.deadline ∧ s.owner.port = 0 ∧ planLayout req ≤ req.length ∧
      plan.generation = x.gen ∧ x.lastRecut = none ∧
      (∀ c ∈ a.planChecks req ++ a.fixedChecks plan (some x.plan) ++ a.planOwnChecks plan (some x.plan), c.1 = false) ∧
      x.rerunning = false ∧ a.programRefused plan true [] = none ∧ plan.cores ≠ x.plan.cores ∧ x.poolLost = false ∧ (plan.now = true ↔ e.2.1 = 2)) ∧
    (∃ q ∈ (session9 1 .running [{ poc := 1, phase1 := true }, { poc := 2 }]).pics, q.phase1 = true) ∧
    (let s := recutting (session9 2 .bound []) 0 [0x179F]
     (s.session 9).pics = [] ∧ (s.session 9).groups = [] ∧ s.midUnit 9 = false) ∧
    (let new := ((recutting (session9 1 .running [{ poc := 1, phase1 := true }]) 2 [1]).elapse 0).planOf (planReq 1 1 2 [1])
     let old := planIn 1
     new.lanes = old.lanes ∧ new.streamDie = old.streamDie ∧ new.searchers = old.searchers ∧ new.predictors = old.predictors ∧
     new.guard = old.guard ∧ new.reserveBytes = old.reserveBytes ∧ new.memDie = old.memDie) ∧
    (let w : Recut := { plan := { planIn 1 with cores := [(0, 0, 0), (0, 23, 159)] }, port := 3, slot := 63, place := noLoads }
     let s := having { session9 1 .running [{ poc := 2 }] with recut := some w, lastRecut := some 999000000 }
     s.power.running = true ∧ (s.session 9).recut = some w ∧ (∀ r ∈ (s.session 9).pics, r.phase1 = false ∧ r.searched = 0 ∧ r.predicted = 0) ∧
     (s.session 9).groups = [] ∧ s.midUnit 9 = false ∧ (∀ at_, (s.session 9).lastRecut = some at_ → at_ + 1000000 ≤ (s.elapse 0).time)) ∧
    (let w : Recut := { plan := { planIn 1 with cores := [(0, 0, 0), (0, 23, 159)] }, port := 3, slot := 63, place := noLoads }
     let s := having { session9 1 .running [{ poc := 1, phase1 := true }] with recut := some w }
     (s.session 9).recut = some w ∧ w.plan.now = false ∧ w.plan.cores ≠ (s.session 9).plan.cores ∧ ∃ q ∈ (s.session 9).pics, q.phase1 = true) := by
  and_intros <;> decide +kernel

/-- PICTURE's request: POC 5, a random-access picture with target 100 and cap 1,000 bytes and its planes at the CXL spaces and GDDR7. -/
def pictureReq : Bytes :=
  nineReq 1 ++ natLE 4 77 ++ natLE 4 5 ++ natLE 4 100 ++ natLE 4 1000 ++ natLE 8 123 ++ [1, 0, 0, 0] ++ natLE 8 0 ++ natLE 8 4096 ++ natLE 8 8192 ++
    natLE 4 64 ++ natLE 4 64
def slotReq (len : Nat) : Bytes := nineReq 1 ++ natLE 4 77 ++ natLE 8 0x200000 ++ natLE 4 len ++ zeros 4
def outReq : Bytes := nineReq 1 ++ natLE 4 77 ++ zeros 24 ++ natLE 4 64 ++ natLE 4 128
def audioReq (n target cap : Nat) : Bytes :=
  nineReq 1 ++ natLE 4 77 ++ natLE 1 63 ++ natLE 1 n ++ zeros 6 ++ natLE 8 4096 ++ natLE 8 5 ++ natLE 4 target ++ natLE 4 cap
/-- A stereo group at index 63. -/
def group63 : GroupCfg := { group := 63, channels := 2, layout := 2, pcmBits := 16, frame := 0 }
/-- Session 9 of an audio kind with that group, running. -/
def audio9 (kind : Nat) (st : SessState) : Session :=
  let x := session9 kind st []
  { x with cfg := { x.cfg with groups := [group63] } }

theorem witness_WorkCommandsCompleteAtAcceptance :
    (∀ e ∈ ([(0x30, pictureReq, session9 1 .running []), (0x31, slotReq 1, session9 2 .running [{ poc := 0 }]), (0x32, outReq, session9 2 .running []),
        (0x33, audioReq 50 60 1344, audio9 3 .running), (0x33, audioReq 1 0 0, audio9 4 .running)] : List (Nat × Bytes × Session)),
      let s := sealed (having e.2.2) 0 e.1 e.2.1
      (s.slot 0 0).st = 1 ∧ (s.slot 0 0).opcode = BitVec.ofNat 16 e.1 ∧ (s.slot 0 0).reqLen = e.2.1.length ∧ leAt e.2.1 0 2 = 9 ∧
      (s.session 9).recut = none ∧ (s.session 9).parked = [] ∧ s.boot.stage = 4 ∧ s.owner.owned = true ∧ (s.elapse 0).time ≤ s.owner.deadline ∧
      s.owner.port = 0 ∧ s.owner.successor = none ∧ (s.session 9).st = .running ∧ leAt e.2.1 2 2 = (s.session 9).gen) ∧
    (let s := sealed (having (session9 1 .running [])) 0 0x30 pictureReq
     pictureLayout pictureReq ≤ pictureReq.length ∧ (∀ c ∈ pictureChecks pictureReq ++ ((s.elapse 0).accept 0 0).pictureOwn 9 pictureReq, c.1 = false)) ∧
    (∀ len ∈ [1, 16777216], 0x18 ≤ (slotReq len).length ∧ addrBad (leAt (slotReq len) 8 8) = false ∧ leAt (slotReq len) 0x10 4 = len ∧
      (∀ b ∈ (slotReq len).drop 0x14, b = 0)) ∧ (session9 2 .running [{ poc := 0 }]).takesStream = true ∧
    (0x28 ≤ outReq.length ∧ (∀ o ∈ [8, 0x10, 0x18], addrBad (leAt outReq o 8) = false) ∧ leAt outReq 0x20 4 % 64 = 0 ∧
      leAt outReq 0x24 4 % 64 = 0 ∧ (∀ b ∈ outReq.drop 0x28, b = 0)) ∧
    (∀ e ∈ [(50, 60, 1344), (1, 60, 60)], let req := audioReq e.1 e.2.1 e.2.2
      0x28 ≤ req.length ∧ leAt req 8 1 = 63 ∧ leAt req 9 1 = e.1 ∧ (∀ b ∈ (req.drop 0xA).take 6 ++ req.drop 0x28, b = 0) ∧
      addrBad (leAt req 0x10 8) = false ∧ 30 * group63.channels ≤ leAt req 0x20 4 ∧ leAt req 0x20 4 ≤ leAt req 0x24 4 ∧
      leAt req 0x24 4 ≤ 640 * group63.channels + 64) ∧
    (audio9 3 .running).cfg.groups.find? (fun y => y.group = 63) = some group63 := by
  dsimp only [State.Presents]; and_intros <;> decide +kernel
theorem witness_RecutsTakeEffectAtTheBoundary_mine :
    let s := recutting (session9 1 .running [{ poc := 1, phase1 := true }, { poc := 2 }]) 0 [0, 1]
    ∀ d c, (s.core d c).session = some 9 ∨ (s.rank, d, c) ∈ (s.session 9).plan.cores →
      (s.core d c).session = some 9 ∧ ∀ r ∈ (s.core d c).ring ++ (s.core d c).draining, r.sess = none ∨ r.sess = some 9 := by
  intro s d c h
  have hr : (s.core d c).ring ++ (s.core d c).draining = [] := by
    show (Tab.get ({} : Core) [(0, _)] (d * 160 + c)).ring ++ (Tab.get ({} : Core) [(0, _)] (d * 160 + c)).draining = []
    simp only [Tab.get]
    split <;> rfl
  rw [hr]
  refine ⟨h.elim id fun hm => ?_, fun _ h => absurd h List.not_mem_nil⟩
  have hp : (s.session 9).plan.cores = [(0, 0, 0)] := by decide +kernel
  rw [hp] at hm
  obtain ⟨-, rfl, rfl⟩ : s.rank = 0 ∧ d = 0 ∧ c = 0 := by simpa using hm
  decide +kernel

/-! ## Core descriptors -/

def tref (base c w h fmt : Nat) : Bytes := natLE 4 base ++ natLE 2 c ++ natLE 2 w ++ natLE 2 h ++ [0, 0] ++ natLE 1 fmt ++ zeros 3
/-- A descriptor of recipe 1 with tag 7, its conversion the identity for all but SORT and QUANT. -/
def descriptor (op : Nat) (x y z tail : Bytes) : Bytes :=
  natLE 1 op ++ [1, 1, 0] ++ natLE 4 7 ++ zeros 8 ++
    (if op = 8 ∨ op = 9 then zeros 16 else natLE 4 0x3F800000 ++ natLE 4 0 ++ natLE 4 0xFF800000 ++ natLE 4 0x7F800000) ++
    x ++ y ++ z ++ tail ++ zeros (48 - tail.length)
/-- CONV and POOL's window: its size, its stride, no padding. -/
def window (k stride expand kind : Nat) : Bytes :=
  natLE 1 k ++ natLE 1 k ++ natLE 1 stride ++ natLE 1 stride ++ [1, 1] ++ zeros 8 ++ natLE 1 expand ++ natLE 1 kind
/-- Z = X + X of a micro-program, and its place in bank 0. -/
def stepWord : Nat := 0x01 + 31 * 2 ^ 8 + 16 * 2 ^ 13 + 16 * 2 ^ 18
def entry (d : Bytes) : QueueEntry := { desc := d, boundary := zeros 32, encOnly := false }
/-- A running core: banks 0, 1 and 2 belong to the vector unit, the matrix array and the expander; values in banks 0 and 1. -/
def computing (q : List QueueEntry) : State :=
  let m := Mem.writeLE (Mem.writeBytes [] 65536 [1, 2, 3, 4]) 4096 8 stepWord
  let m := Mem.writeBytes (Mem.writeBytes m 65600 [3]) 65664 [0xFF]
  let m := Mem.writeBytes m 0 (natLE 4 0x3F800000 ++ natLE 4 0x40000000 ++ natLE 4 0xC0400000 ++ natLE 4 0x40800000)
  { up with
    cores := [(23 * 160 + 159,
      { queue := q, session := some 9, recipe := 1, scratch := m
        groups := [(0, { mode := 0, ready := true }), (1, { mode := 0, ready := true })]
        banks := [(0, { owner := 2 }), (1, { owner := 1 }), (2, { owner := 6 })] })] }
def convDesc : Bytes := descriptor 1 (tref 65536 1 2 2 3) (tref 65600 1 1 1 3) (tref 66048 1 2 2 5) (window 1 1 0xFF 0)
def wideConvDesc : Bytes := descriptor 1 (tref 131072 1 2 2 3) (tref 65600 1 1 4 3) (tref 66048 1 1 1 5) (window 2 1 2 0)
def matmulDesc : Bytes := descriptor 2 (tref 65536 2 1 1 3) (tref 65600 1 1 2 3) (tref 66048 1 1 1 5) []
def poolDesc : Bytes := descriptor 3 (tref 0 1 2 2 5) (zeros 16) (tref 128 1 1 1 5) (window 2 2 0xFF 0)
def elemDesc : Bytes := descriptor 4 (tref 0 2 2 1 5) (zeros 16) (tref 0 2 2 1 5) [0, 2, 0, 0, 0, 0, 0x80, 0x3F]
def actDesc : Bytes := descriptor 5 (tref 0 2 2 1 5) (zeros 16) (tref 128 2 2 1 5) [0, 0]
def softmaxDesc : Bytes := descriptor 6 (tref 0 2 2 1 5) (zeros 16) (tref 128 2 2 1 5) [0, 0]
def normDesc : Bytes := descriptor 7 (tref 0 2 2 1 5) (zeros 16) (tref 128 2 2 1 5) [0, 0]
def sortDesc : Bytes := descriptor 8 (tref 0 2 2 1 5) (zeros 16) (tref 128 2 1 1 7) ([2, 0, 0, 0] ++ natLE 4 256)
def quantDesc : Bytes := descriptor 9 (tref 0 2 2 1 5) (tref 0 2 2 1 5) (tref 128 2 2 1 4) ([0xFB, 0xFF, 5, 0] ++ natLE 4 0 ++ natLE 4 256 ++ [1])
def microDesc : Bytes := descriptor 10 (tref 0 2 2 1 5) (zeros 16) (tref 128 2 2 1 5) (natLE 4 4096 ++ [1, 0])

theorem witness_Descriptors :
    (∀ d ∈ [convDesc, wideConvDesc, matmulDesc, poolDesc, elemDesc, actDesc, softmaxDesc, normDesc, sortDesc, quantDesc, microDesc],
      let s := computing [entry d]
      let k := s.core 23 159
      d.length = 128 ∧ s.power.running = true ∧ s.coreUsable 23 159 = true ∧ k.queue = [entry d] ∧ k.mayValidate (entry d) = true ∧
      (entry d).d.validate k k.recipe = none) := by
  decide +kernel
theorem witness_DescriptorsExecuteOrStopTheQueue :
    (∀ e ∈ [(0 :: elemDesc.drop 1, 0, 0x01), (11 :: elemDesc.drop 1, 0, 0x01), (elemDesc.take 127 ++ [1], 0x7F, 0x05)],
      let s := computing [entry e.1]
      let k := s.core 23 159
      k.mayValidate (entry e.1) = true ∧ (entry e.1).d.validate k k.recipe = some e.2) ∧
    (entry convDesc).d.split ≠ 2 ∧ (entry wideConvDesc).d.split ≠ 2 ∧ (entry wideConvDesc).d.bypass = false ∧ (entry matmulDesc).d.split ≠ 2 := by
  decide +kernel
theorem witness_DescriptorsComputeTheirResults :
    (0 < (entry elemDesc).d.z.count ∧ (entry elemDesc).d.opcode = 4) ∧
    (let d := (entry matmulDesc).d
     0 < d.x.h ∧ 0 < d.y.c ∧ d.opcode = 2 ∧ d.split = 0 ∧ d.form = 2 ∧ d.chanSb = false) ∧
    (3 < (entry quantDesc).d.z.count ∧ (entry quantDesc).d.opcode = 9) ∧ (entry sortDesc).d.opcode = 8 ∧
    (let s : State := { up with cores := [(23 * 160 + 159, { finishing := some { status := 0x81 }, ring := List.replicate 15 {} })] }
     let k := s.core 23 159
     s.power.running = true ∧ s.coreUsable 23 159 = true ∧ k.finishing = some { status := 0x81 } ∧ k.ring.length < 16 ∧
     k.draining = [] ∧ s.txStalled 23 159 false = false ∧ s.txStalled 23 159 true = false) ∧
    (let s : State := { up with cores := [(23 * 160 + 159, { draining := [{ status := 0x80 }] })] }
     (s.core 23 159).finishing = none ∧ (s.core 23 159).draining = [{ status := 0x80 }] ∧ s.feederFills 23 159 = false) := by decide +kernel

/-- ELEM's ADD of the scalar 1, in place: 1.0 becomes 2.0 (R92). The matrix product 1·3 + 2·(−1) is 1 (R47). -/
theorem test_elem_matmul :
    Mem.readLE ((after (.elem 0 23 159) (computing [entry elemDesc])).core 23 159).scratch 0 4 = 0x40000000 ∧
    Mem.readLE ((after (.matmul 0 23 159) (computing [entry matmulDesc])).core 23 159).scratch 66048 4 = 0x3F800000 := by decide +kernel
/-- A micro-program step Z = X + X; SORT of 1, 2, −3, 4 gives indices 3 and 1 (R83, R95, R97, R117). -/
theorem test_micro_sort :
    Mem.readLE ((after (.micro 0 23 159) (computing [entry microDesc])).core 23 159).scratch 136 4 = 0xC0C00000 ∧
    Mem.readLE ((after (.sort 0 23 159) (computing [entry sortDesc])).core 23 159).scratch 128 4 = 3 + 65536 * 1 := by decide +kernel

/-! ## Micro-program steps, tables and banks -/

def stepOf (dst a b c imm : Nat) : StepOps :=
  { dst := Fin.ofNat 32 dst, a := Fin.ofNat 32 a, b := Fin.ofNat 32 b, c := Fin.ofNat 32 c, imm := BitVec.ofNat 32 imm }
/-- Slot 7 of the active table holds the entries 10, 20 and 30 at words 16 to 18; slot 0 one entry. -/
def tableImage : Mem :=
  Mem.writeBytes (Mem.writeBytes (Mem.writeBytes [] 0 (natLE 4 0x00010010)) 56 (natLE 4 0x00030010)) 64
    (natLE 4 0x41200000 ++ natLE 4 0x41A00000 ++ natLE 4 0x41F00000)
/-- A core whose lane 0 holds X = 2.0 and t0 = −1.0, and whose active copy is that table. -/
def stepping (x : Nat) : State :=
  { up with cores := [(23 * 160 + 159,
      { sfu := { copies := [(1, tableImage)], active := 1 }
        lanes := [{ x := { v := BitVec.ofNat 32 x }, temps := [{ v := 0xBF800000 }] }] })] }
/-- A legal step of each operation; LOOKUP2 writes t14 and t15 from the last pair it may read. -/
def legalSteps : List (Nat × StepOps) :=
  [(1, stepOf 31 16 0 0 0), (2, stepOf 31 16 20 0 0x3F800000), (3, stepOf 1 16 16 0 0), (4, stepOf 15 16 0 16 0), (5, stepOf 31 16 0 0 0),
   (6, stepOf 31 16 0 0 0), (7, stepOf 31 0 16 0 0), (8, stepOf 31 16 0 0 0), (9, stepOf 31 16 0 0 0), (10, stepOf 31 16 16 0 0),
   (11, stepOf 0 0 16 16 0), (12, stepOf 31 16 0 0 7), (13, stepOf 14 16 0 0 7), (14, stepOf 31 16 0 0 1), (14, stepOf 31 16 0 0 7)]

theorem witness_MicroStepsRunInEveryLane :
    (stepping 0x40000000).coreLive 23 159 = true ∧
    (∀ e ∈ legalSteps, stepFieldsOk ((stepping 0).core 23 159).sfu.table e.1 e.2 = true) ∧
    (∀ e ∈ ([(1, stepOf 16 16 0 0 0), (8, stepOf 31 16 1 0 0), (11, stepOf 31 0 16 16 0), (12, stepOf 31 16 0 0 1), (13, stepOf 14 16 0 0 0), (13, stepOf 15 16 0 0 7),
        (14, stepOf 31 16 0 0 8), (14, stepOf 31 16 0 0 0), (1, stepOf 31 16 21 0 0)] : List (Nat × StepOps)),
      stepFieldsOk ((stepping 0).core 23 159).sfu.table e.1 e.2 = false) ∧
    (tableSlot tableImage 7).2 - 1 = 2 ∧ (fp32.decode 0x40000000).isNaN = false ∧ (fp32.decode 0x40000000).lt (.ofInt 2) = false ∧
    (fp32.decode 0x7FC00000).isNaN = true ∧ (fp32.decode 0x3F800000).lt (.ofInt 1) = false ∧ (fp32.decode 0x3F800000).lt (.ofInt 2) = true := by
  decide +kernel

theorem witness_TableCopiesSwap :
    (let s : State := { up with cores := [(23 * 160 + 159, { sfu := { swapPending := true, held := [(4095, 7)], shadowValid := true } })] }
     let k := s.core 23 159
     s.coreLive 23 159 = true ∧ k.sfu.swapPending = true ∧ k.sfu.shadowValid = true ∧ k.finishing = none ∧ k.phase ≠ 3 ∧ k.atCinch = false) ∧
    (up.coreLive 0 0 = true ∧ (up.core 0 0).sfu.swapPending = false ∧ (up.core 0 0).sfu.shadowValid = false) := by decide +kernel

/-- A transfer of `n` bytes between two address forms. -/
def transfer (src dst n : Nat) : TransferDesc :=
  { src := BitVec.ofNat 64 src, dst := BitVec.ofNat 64 dst, counts := [n, 1, 1, 1, 1], fence := false, notify := false, press := 0, tag := 9
    reserved := false, srcStrides := [0, 0, 0, 0], dstStrides := [0, 0, 0, 0] }
/-- An address in bank 7 of core 159 on die 23. -/
def bank7 : Nat := 5 * 2 ^ 60 + 23 * 2 ^ 27 + 159 * 2 ^ 19 + 7 * 65536
/-- Core 159 of die 23 with bank 7 and its group in this condition, and perhaps a feeder transfer into the bank under way. -/
def banked (b : BankOwn) (g : BankGroup) (feeding : Bool) : State :=
  { up with
    cores := [(23 * 160 + 159, { banks := [(7, b)], groups := [(1, g)] })]
    feeders := if feeding then [(255, { inFlight := [{ desc := transfer 0 bank7 16, status := 0, started := true }] })] else [] }
def groupOn : BankGroup := { mode := 0, ready := true }

theorem witness_BanksChangeOwnerAndPower :
    (∀ s ∈ [banked {} {} false, banked { owner := 2 } groupOn false], s.coreLive 23 159 = true) ∧
    (let k := (banked {} {} false).core 23 159
     k.bankReady 7 = false ∧ ¬ (k.bank 7).pending = true ∧ ¬ k.bankOwner 7 ≠ 0) ∧
    (let k := (banked { owner := 2 } groupOn false).core 23 159
     k.bankReady 7 = true ∧ k.bankOwner 7 ≠ 6 ∧ k.bankOwner 7 = 2 ∧ (k.bank 7).pending = false) ∧
    (let s := banked { owner := 3, reqOwner := 6, next := 6, pending := true } groupOn false
     ((s.core 23 159).bank 7).pending = true ∧ s.feederBusy 23 159 7 = false ∧ (s.core 23 159).finishing = none) ∧
    (let s := banked { owner := 3, reqOwner := 6, next := 6, pending := true } groupOn true
     ((s.core 23 159).bank 7).pending = true ∧ (s.core 23 159).bankOwner 7 = 3 ∧ s.feederBusy 23 159 7 = true) ∧
    ((∀ b : Bank, b.val / 4 = 1 → (((banked {} groupOn false).core 23 159).bank b.val).owner = 0 ∧
        (((banked {} groupOn false).core 23 159).bank b.val).pending = false) ∧
      ¬ (∀ b : Bank, b.val / 4 = 1 → (((banked { owner := 1 } groupOn false).core 23 159).bank b.val).owner = 0)) ∧
    (((banked {} {} false).core 23 159).group 1).mode = 2 ∧
    (((banked {} { moving := true, mode := 0 } false).core 23 159).group 1).moving = true ∧
    (((banked {} { moving := true, mode := 1 } false).core 23 159).group 1).mode ≠ 0 := by decide +kernel

/-- Core 159 of die 23, bound into session 9, with `n` corrected errors of bank 7 in the last second. -/
def erring (n : Nat) (words : List Nat) : State :=
  { up with
    cores := [(23 * 160 + 159, { groups := [(1, groupOn)], session := some 9, queue := [entry elemDesc], errWords := words
                                 errTimes := List.replicate n (7, 999000000), errCount := [(7, 0xFFFF)] })]
    sessions := [(9, { st := .running, plan := { session := 9, cores := [(0, 23, 159)], streamDie := 1 } })] }

theorem witness_CorrectedErrorsRetireTheCore :
    (let s := erring 14 []
     let k := s.core 23 159
     s.coreLive 23 159 = true ∧ k.bankReady 7 = true ∧
     (k.errTimes.filter (fun x => decide (s.time < x.2 + 1000000000) && decide (x.1 = 7))).length + 1 < 16 ∧ 7 * 8192 + 8191 ∉ k.errWords) ∧
    (let s := erring 15 []
     let k := s.core 23 159
     16 ≤ (k.errTimes.filter (fun x => decide (s.time < x.2 + 1000000000) && decide (x.1 = 7))).length + 1 ∧ 159 ∉ (s.die 23).retired ∧
     (s.session 9).bound = true ∧ (s.session 9).recut = none ∧ (s.session 9).parked = [] ∧ s.cutUses (s.session 9).plan (.core 23 159) = true) ∧
    7 * 8192 + 8191 ∈ ((erring 0 [65535]).core 23 159).errWords := by decide +kernel

/-! ## Feeder queues, press and seams -/

/-- Queue 63 of memory die 3 with a ring of 16 entries at GDDR7 address 0x10000 and completions at 0x20000. -/
def queued (f : FeederQueue) : State := { up with feeders := [(255, { f with ringLo := 0x10004, cplLo := 0x20000, maxOut := 64, enable := true })] }
/-- Transfers in flight, the oldest running. -/
def flying (l : List TransferDesc) (status : Nat) : State :=
  let s := queued { inFlight := l.map (fun d => { desc := d, status := status, started := true }), cplIndex := 15 }
  { s with memory := { trained := true, gddr := Mem.writeBytes [] 4096 [1, 2, 3] } }

theorem witness_FeederQueuesFetchAndCancel :
    (let s := queued { head := 15, tail := 0 }
     let f := s.feeder 3 63
     s.queueLive 3 = true ∧ f.enable = true ∧ f.cancelling = false ∧ 1 ≤ f.maxOut ∧ f.maxOut ≤ 64 ∧ 4 ≤ f.logSize ∧ f.logSize ≤ 12 ∧
     f.head ≠ f.tail ∧ (transferDesc (s.gddrRead (f.ringBase + 64 * f.head) 64)).total ≤ 256) ∧
    (let s : State := { queued { head := 15, tail := 0, priority := 7 } with
       memory := { trained := true, gddr := Mem.writeBytes [] (0x10000 + 64 * 15) (zeros 16 ++ natLE 4 257 ++ [1, 0, 1, 0, 1, 0, 1, 0]) } }
     let f := s.feeder 3 63
     let d := transferDesc (s.gddrRead (f.ringBase + 64 * f.head) 64)
     d.total = 257 ∧ f.bulkOut < f.maxOut ∧ s.askers 3 true = [] ∧ s.nextGrant 3 = some 63 ∧ s.asks 3 63 = true ∧
     (s.nextTransfer 3 63).stitch = false ∧ (s.grantCount 3 + 1) % 32 ≠ 0) ∧
    ((queued {}).feeder 3 63).head = ((queued {}).feeder 3 63).tail ∧ { transfer 0 0 16 with press := 5 }.bad = true ∧
    ((queued { cancelling := true }).feeder 3 63).inFlight = [] ∧ ((queued { cancelling := true }).feeder 3 63).cancelling = true ∧
    (let s := queued { cancelling := true, inFlight := [{ desc := transfer 0 0 16, status := 0, started := true }, { desc := transfer 0 0 16, status := 0, started := false }] }
     let f := s.feeder 3 63
     f.inFlight.length = 2 ∧ (∀ y ∈ f.inFlight, y.entry = none) ∧ f.inFlight.length - 1 < 2 ^ f.logSize ∧
     ∀ j, j < 2 ^ f.logSize → s.gddrServes (f.cplBase + 16 * j) = true ∧ f.cplBase + 16 * j + 16 ≤ 96 * gib) := by decide +kernel

theorem witness_TransfersMoveBytesAndComplete :
    (∀ e ∈ ([([transfer 4096 8192 3, transfer 0 0 1], 0), ([transfer 4096 8192 3], 1)] : List (List TransferDesc × Nat)),
      let s := flying e.1 e.2
      let f := s.feeder 3 63
      let now := s.elapse 0
      s.queueLive 3 = true ∧ f.cancelling = false ∧ f.inFlight ≠ [] ∧ now.gddrServes (f.cplBase + 16 * f.cplIndex) = true ∧
      f.cplBase + 16 * f.cplIndex + 16 ≤ 96 * gib) ∧
    (let now := (flying [transfer 4096 8192 3] 0).elapse 0
     let d := transfer 4096 8192 3
     let x : Transfer := { desc := d, status := 0, started := true }
     now.landStatus x = 0 ∧ now.transferHeld x = false ∧ d.press = 0 ∧ d.counts = [3, 1, 1, 1, 1] ∧ d.total ≤ 256 ∧ d.stitch = true ∧ now.sourceEcc d false = false ∧
     (addrSpace d.dst.toNat = 0 → addrOffset d.dst.toNat + 3 ≤ 0x200F0)) ∧
    (let s : State := { flying [transfer (2 ^ 60) 8192 3] 0 with pcie := [(0, { linkUp := true, busMaster := true })] }
     let d := transfer (2 ^ 60) 8192 3
     (s.elapse 0).landStatus { desc := d, status := 0, started := true } = 0 ∧ addrSpace d.src.toNat = 1 ∧ (s.elapse 0).sourceEcc d true = false) ∧
    (let s : State := { flying [transfer (3 * 2 ^ 60) 8192 3] 0 with cxl := [(0, { linkUp := true, expanderOk := true, capacity := 2 ^ 40, capacityGib := 1024 })] }
     let d := transfer (3 * 2 ^ 60) 8192 3
     (s.elapse 0).landStatus { desc := d, status := 0, started := true } = 0 ∧ addrSpace d.src.toNat = 3) ∧
    (transfer 4096 8192 257).stitch = false ∧ (completionEntry 9 0 3 0 0).length = 16 := by decide +kernel

theorem witness_PressedBlocksAreLegal : (List.replicate 64 0x7FC0).length = 64 ∧ (∀ x ∈ List.replicate 64 0x7FC0, x < 65536) ∧
    (pressBlock true (List.replicate 64 0x7FC0)).2.2 = true ∧ (pressBlock false (List.replicate 64 0x0001)).2.2 = false := by decide +kernel

/-- A boundary entry: handovers before and after, rows received from above and below and their places in banks 6 and 7. -/
def boundary (pre post recvUp recvDn rowLen : Nat) : Bytes :=
  natLE 4 pre ++ natLE 4 post ++ natLE 1 recvUp ++ natLE 1 recvDn ++ [0, 0] ++ natLE 2 rowLen ++ natLE 2 1 ++ natLE 4 (6 * 65536) ++
    natLE 4 (7 * 65536) ++ zeros 8
def guardedEntry : QueueEntry := { desc := elemDesc, boundary := boundary 0x86 0x97 2 1 64, encOnly := false }
/-- Core 0 of die 0 before that descriptor, its banks 6 and 7 owned so, with these rows waiting at its seams. -/
def seaming (phase owner : Nat) (up down : List Bytes) : State :=
  { Tests.up with cores := [(0, { queue := [guardedEntry], phase := phase, groups := [(1, groupOn)], banks := [(6, { owner := owner }), (7, { owner := owner })]
                                  seamUp := { buffer := up }, seamDown := { buffer := down } })] }
/-- Core 0 of die 0 and a core of die 1 work neighbouring pleats of session 9; two rows wait at the far core's port, this many of their
three units sent. -/
def pleats (credits sent : Nat) : State :=
  { up with
    sessions := [(9, { st := .running, plan := { cores := [(0, 0, 0), (0, 1, 159)] } })]
    fabricSeq := 5
    cores := [(0, { session := some 9, seamDown := { credits := credits, freed := 3 } }),
      (319, { session := some 9, seamUp := { out := [zeros 65, [1]], sent := sent, order := if 2 ≤ sent then [4] else [] } })] }
/-- Core 0's up neighbour works on the device of rank 1. -/
def farPleats : State :=
  { up with
    sessions := [(9, { st := .running, plan := { cores := [(1, 0, 0), (0, 0, 0)] } })]
    cores := [(0, { session := some 9, seamUp := { credits := 511, freed := 3 } })] }

theorem witness_BoundariesCopySeamRowsIn :
    (∀ s ∈ [seaming 0 4 [] [], seaming 1 4 [zeros 64] [zeros 64], seaming 1 0 [zeros 64, zeros 64] [zeros 64], seaming 1 4 [zeros 64, zeros 64] [zeros 64], seaming 1 4 [zeros 64, zeros 64] []],
      let k := s.core 0 0
      s.power.running = true ∧ s.coreUsable 0 0 = true ∧ k.queue = [guardedEntry] ∧ k.stopped = false ∧ k.finishing = none ∧ k.atCinch = false ∧
      (∀ h ∈ guardedEntry.pre, (k.bank h.1).pending = false)) ∧ guardedEntry.plain = false ∧
    ¬ guardedEntry.recvUp ≤ ((seaming 1 4 [zeros 64] [zeros 64]).core 0 0).seamUp.buffer.length ∧
    (let k := (seaming 1 0 [zeros 64, zeros 64] [zeros 64]).core 0 0
     guardedEntry.recvUp ≤ k.seamUp.buffer.length ∧ guardedEntry.recvDn ≤ k.seamDown.buffer.length ∧ k.bankOwner 6 ≠ 4) ∧
    (let k := (seaming 1 4 [zeros 64, zeros 64] []).core 0 0
     guardedEntry.recvUp ≤ k.seamUp.buffer.length ∧ ¬ guardedEntry.recvDn ≤ k.seamDown.buffer.length) ∧
    (let k := { (seaming 1 4 [zeros 64, zeros 64] [zeros 64]).core 0 0 with banks := [(6, { owner := 4 }), (7, { owner := 4, pending := true })] }
     guardedEntry.recvDn ≤ k.seamDown.buffer.length ∧ k.bankOwner 6 = 4 ∧ (k.bank 7).pending = true) ∧
    (let k := (seaming 1 4 [zeros 64, zeros 64] [zeros 64]).core 0 0
     let e := guardedEntry
     (∀ r, r < e.recvUp → e.upBase + r * e.recvPitch + e.rowLen ≤ 7 * 65536) ∧
     (∀ r, r < e.recvDn → e.dnBase + r * e.recvPitch + e.rowLen ≤ 8 * 65536) ∧ e.upBase = 6 * 65536 ∧ e.dnBase = 7 * 65536 ∧
     (∀ b : Bank, 6 ≤ b.val → k.bankOwner b.val = 4 ∧ (k.bank b.val).pending = false) ∧
     e.rowLen ≤ e.recvPitch ∧ e.upBase + e.recvUp * e.recvPitch ≤ e.dnBase ∧ (∀ row ∈ k.seamUp.buffer, row.length = e.rowLen) ∧
     (∀ row ∈ k.seamDown.buffer, row.length = e.rowLen)) ∧
    (∀ sent ∈ [1, 2], let s := pleats 0 sent
     s.power.running = true ∧ s.coreUsable 0 0 = true ∧ s.seamPeer 0 0 true = some (s.rank, 1, 159) ∧
     s.seamPeer 1 159 false = some (s.rank, 0, 0) ∧ ((s.core 1 159).seam false).out = zeros 65 :: [[1]] ∧
     s.coreLive 0 0 = true ∧ 0 < ((s.core 0 0).seam true).freed) ∧
    (((pleats 0 2).core 1 159).seam false).order = 4 :: [] ∧ (pleats 0 2).firstOnFabric 1 0 4 = true ∧
    (((pleats 0 1).core 1 159).seam false).order = [] ∧
    (farPleats.coreLive 0 0 = true ∧ 0 < ((farPleats.core 0 0).seam false).freed ∧ farPleats.seamPeer 0 0 false = some (1, 0, 0) ∧
      farPleats.rank ≠ 1 ∧ farPleats.seamPeer 0 0 true = none) := by and_intros <;> decide +kernel

/-- A pour ring of `n` cores of die 0, each at this step, its home shards in bank 0 and its travel bank 7. -/
def pouring (n : Nat) (steps : List Nat) : State :=
  { up with cores := (List.range n).map (fun i => (i,
      { session := some 9, groups := [(0, groupOn), (1, groupOn)], banks := [(0, { owner := 5 }), (7, { owner := 5 })]
        pour := { ringSize := n, index := i, step := steps.getD i 0, homes := [(32768, 32768)], travelBank := some 7 } })) }

theorem witness_PourRingStepsMoveShards :
    (∀ e ∈ ([(2, [0, 0], 1, 1), (3, [1, 1, 2], 2, 1)] : List (Nat × List Nat × Nat × Nat)),
      let s := pouring e.1 e.2.1
      let k := s.core 0 0
      s.power.running = true ∧ s.coreUsable 0 0 = true ∧ s.ringCore 0 0 true = some e.2.2.1 ∧ s.ringCore 0 0 false = some e.2.2.2 ∧
      k.pour.step + 1 < k.pour.ringSize ∧ k.shardDone = true ∧ k.travelOwned = true ∧ (s.core 0 e.2.2.2).travelOwned = true ∧
      k.presents = true ∧ (s.core 0 e.2.2.1).presents = true ∧
      k.pour.step ≤ (s.core 0 e.2.2.1).pour.step ∧ k.pour.step ≤ (s.core 0 e.2.2.2).pour.step ∧
      (∀ b, (s.core 0 e.2.2.1).pour.travelBank = some b → (s.core 0 e.2.2.1).pour.home.1 + 32768 ≤ 65536 * b)) := by
  intro e h
  simp only [List.mem_cons, List.not_mem_nil, or_false] at h
  rcases h with rfl | rfl <;> dsimp only <;> and_intros <;> (first | decide +kernel | (intro b hb; cases hb; decide +kernel))

/-- Session 9 on cores 0 and 1 of die 0, of which these have arrived at the cinch. -/
def cinching (arrived : List (Nat × Nat)) (shadow : Bool) : State :=
  { up with
    sessions := [(9, { st := .running, plan := { cores := [(0, 0, 0), (0, 0, 1)] }, cinch := arrived, cinchAt := if arrived.isEmpty then none else some 995000000 })]
    cores := [(0, { session := some 9, phase := 3, sfu := { shadowValid := true } }),
      (1, { session := some 9, phase := 3, sfu := { shadowValid := shadow, swapPending := true, held := [(5, 7)] } })] }

theorem witness_CinchesReleaseTogetherOrTimeOut :
    (let s := cinching [(0, 0)] true
     let k := s.core 0 1
     s.power.running = true ∧ s.coreUsable 0 1 = true ∧ k.phase = 3 ∧ k.atCinch = false ∧ k.finishing = none ∧ k.seamUp.out = [] ∧
     k.seamDown.out = [] ∧ k.seamUp.flying = 0 ∧ k.seamDown.flying = 0 ∧ k.session = some 9 ∧ (s.session 9).plan.rootRank = s.rank ∧ (s.session 9).bound = true ∧
     (s.session 9).cinchAt = some 995000000 ∧ 995000000 + 5000000 ≤ (s.elapse 0).time) ∧
    (∀ f : Bool, let s := cinching [(0, 0), (0, 1)] f
      let cut := s.planCores (s.session 9).plan
      (s.session 9).bound = true ∧ (s.session 9).plan.cores = [(0, 0, 0), (0, 0, 1)] ∧
      (∀ y ∈ (s.session 9).plan.cores, (y.1 * 32 + y.2.1, y.2.2) ∈ (s.session 9).cinch) ∧ (cut.map (fun y => coreKey y.1 y.2)).Nodup ∧
      (s.session 9).plan.rootRank = s.rank ∧ (s.session 9).cinchUnready = false ∧ (cut.all (fun y => (s.core y.1 y.2).sfu.shadowValid) = f)) ∧
    (let s := cinching [(0, 0)] true
     ∀ y ∈ s.planCores (s.session 9).plan, (s.core y.1 y.2).session = some 9 ∧
       ∀ r ∈ (s.core y.1 y.2).ring ++ (s.core y.1 y.2).draining, r.sess = none ∨ r.sess = some 9) ∧
    (let s : State := { cinching [] true with cores := [(1, { session := some 9, phase := 1, waitFrom := some 1 })] }
     (0, 1) ∈ s.planCores (s.session 9).plan ∧ (s.core 0 1).waitFrom = some 1 ∧ 1 + 5000000 ≤ (s.elapse 0).time) := by decide +kernel

/-! ## The video pipeline -/

/-- A picture of session 9, granted, with its planes at GDDR7 address 0 and this many rows through each stage. -/
def picAt (landed searched predicted : Nat) : Picture :=
  { poc := 5, tag := 77, order := 1, target := 100, cap := 1000, addrs := [0, 4096, 8192], yPitch := 64, cPitch := 64, granted := true, need := 1
    landed := landed, searched := searched, predicted := predicted }
/-- A held short-term buffer with mid-grey planes and this carry. -/
def heldBuf (poc : W32) (mark : Nat) : FrameBuf :=
  { poc := poc, tag := 0, mark := mark, index := 0, order := 0, recon := List.replicate 3 (List.replicate 64 (List.replicate 64 128)), carry := []
    levels := [List.replicate 64 (List.replicate 64 128), List.replicate 16 (List.replicate 16 128), List.replicate 4 (List.replicate 4 128)]
    signature := [], tainted := false, readers := [5], bytes := 1 }
/-- Session 9 of a kind, running, with these pictures and one held buffer of POC 4. -/
def video (kind : Nat) (pics : List Picture) : State := having { session9 kind .running pics with bufs := [heldBuf 4 1] }
def refPoc4 : Ref := { kind := 0, id := 4 }

theorem witness_SourceRowsLandExtended :
    (∀ s ∈ [video 1 [picAt 0 0 0], video 1 [{ picAt 0 0 0 with addrs := [2 ^ 60, 4096, 8192] }]],
      let x := s.session 9
      s.power.running = true ∧ x.cfg.kind = 1 ∧ ((x.pic 5).any (fun p => p.granted && decide (p.landed < x.fmt.cbRows))) = true ∧
      (∀ q ∈ x.pics, 1 ≤ q.order)) ∧
    (let s := video 1 [picAt 0 0 0]
     ∀ k, k < 3 → ∀ y, y < 64 → ((s.elapse 0).fetchForm (((picAt 0 0 0).addrs.getD k 0).toNat + y * 64) 64).isSome = true) ∧
    ((video 1 [picAt 0 0 0]).elapse 0).fetchForm (2 ^ 60) 64 = none := by decide +kernel

/-- Session 8 is one row into a picture of two on the searcher that it shares with session 9. -/
def sharing : State :=
  let s := video 1 [picAt 1 0 0]
  let x := session9 1 .running [picAt 2 1 0]
  { s with sessions := (8, { x with cfg := { x.cfg with fmt := { x.cfg.fmt with height := 128 } } }) :: s.sessions }

theorem witness_RowsAreSearchedAndPredicted :
    (∀ p ∈ [picAt 1 0 0, { picAt 1 0 0 with refs := [refPoc4] }], let s := video 1 [p]
      let x := s.session 9
      s.power.running = true ∧ engineFor (engineList x.plan.searchers) x.fmt.cbRows 0 = some (0, 0, 1) ∧ s.searcherTurnOf 9 0 = true ∧
      x.cfg.kind = 1 ∧ x.pic 5 = some p ∧ p.searched < p.landed ∧ x.searchReady p = true ∧ x.recut = none ∧
      (∀ q ∈ x.pics, p.order ≤ q.order) ∧ x.fmt.width ≤ 4096) ∧
    (let s := sharing
     let holds (j : Nat) := (s.session j).pics.any (fun q => holdsEngine (engineList (s.session j).plan.searchers) (s.session j).fmt.cbRows q.searched 0)
     holds 9 = false ∧ s.sessions.any (fun y => holds y.1) = true ∧ s.searcherTurnOf 9 0 = false ∧ s.searcherTurnOf 8 1 = true) ∧
    (∀ p ∈ [picAt 1 1 0, { picAt 1 1 0 with refs := [refPoc4] }], let s := video 1 [p]
      let x := s.session 9
      engineFor (engineList x.plan.predictors) x.fmt.cbRows 0 = some (0, 0, 1) ∧ s.predictorTurnOf 9 0 = true ∧ x.recut = none ∧
      x.pic 5 = some p ∧ (x.refPics p).isSome = true ∧ p.concealed.contains 0 = false ∧ p.predicted < p.searched ∧
      (∀ q ∈ x.pics, p.order ≤ q.order)) ∧
    (let p : Picture := { picAt 0 0 0 with decoded := 1, concealed := [0] }
     let s := having { session9 2 .running [p] with dec := { seq := some (cfgOf 2).fmt } }
     let x := s.session 9
     s.predictorTurnOf 9 0 = true ∧ x.pic 5 = some p ∧ (x.refPics p).isSome = true ∧ p.concealMotion x.fmt 0 = some none ∧ p.predicted < p.decoded) := by
  and_intros <;> decide +kernel

theorem witness_LibraryEntriesAreFoundAndStaged :
    (∀ lib ∈ ([[], [(3, { held := true })]] : List (Tab LibEntry)),
      let s := having { session9 1 .running [{ picAt 1 0 0 with refs := [refPoc4, { kind := 2, id := 0 }] }] with
                          cfg := { cfgOf 1 with libSearch := true }, lib := lib }
      let x := s.session 9
      s.power.running = true ∧ x.cfg.kind = 1 ∧ x.cfg.libSearch = true ∧ ((x.pic 5).any (fun p => decide (p.landed = x.fmt.cbRows) && !p.sigDone)) = true ∧
      (x.lib.filter (fun e => e.2.held && decide ((picAt 1 0 0).point ≤ e.2.order))).length = lib.length ∧ lib.length ≤ 4) ∧
    (∀ e ∈ ([(1, true), (2, false)] : List (Nat × Bool)),
      let p : Picture := { picAt 1 0 0 with refs := [{ kind := 1, id := 3 }] }
      let s := having { session9 e.1 .running [p] with lib := [(3, { held := e.2 })] }
      let x := s.session 9
      x.stagingPic 3 = some p ∧ x.writesFirst 3 p.order = false ∧ x.cfg.libSearch = false ∧ x.pic p.poc = some p ∧ (Tab.get {} x.lib 3).held = e.2 ∧
      (∀ q ∈ x.pics, q.poc = p.poc) ∧
      s.guarded 9 = false ∧ p.reports < 64) := by decide +kernel

/-- Session 8 with 64 pictures in flight, beside session 9 with one that waits. -/
def crowded (kind : Nat) (p : Picture) : State :=
  let s := video kind [p]
  { s with sessions := s.sessions ++ [(8, { st := .running, pics := List.replicate 64 { poc := 0, phase1 := true } })] }
/-- The encoder's picture in its cores, its gains set, at its first row with this room. -/
def coding (phase2 : Nat) (room : Int) : Picture :=
  { picAt 1 1 1 with phase1 := true, phase2 := phase2, picDone := true, gainsDone := true, gains := [0], room := room, bytes := 20
                     substreams := [(0, [1, 2, 3]), (1, [4])], began := true }

theorem witness_PicturesPassThroughTheCores :
    (let s := video 1 [picAt 1 1 1]
     let x := s.session 9
     s.power.running = true ∧ x.pic 5 = some (picAt 1 1 1) ∧ x.phase1Due (picAt 1 1 1) = true ∧ x.recHeld = [] ∧ s.recRoom 9 = true ∧
     s.limitHolds 1 = false ∧ s.loadsPass 9 [] = true) ∧
    (let p := { picAt 1 1 1 with picDone := true }
     let s := crowded 2 p
     (s.session 9).pic 5 = some p ∧ (s.session 9).phase1Due p = true ∧ (s.session 9).recHeld = [] ∧ s.recRoom 9 = true ∧ 64 ≤ s.inFlightAll) ∧
    (crowded 1 (picAt 1 1 1)).inFlightAll = 64 ∧ (having { session9 1 .running [] with recProduced := 1024 }).recRoom 9 = false ∧
    ({ coding 0 0 with probRerun := true } : Picture).phase1 = true ∧
    (let p := { coding 0 0 with gainsDone := false }
     (video 1 [p]).session 9 |>.codingPic) = some { coding 0 0 with gainsDone := false } ∧
    ((coding 0 0).phase1 = true ∧ (coding 0 0).phase2 = 0 ∧ (coding 0 0).gainsDone = true ∧ (coding 0 0).floored = false ∧
      (video 1 [coding 0 0]).coresDone 9 = true) ∧
    (let p : Picture := { picAt 0 0 1 with decoded := 1, phase1 := true }
     let x : Session := { session9 2 .running [p] with dec := { seq := some (cfgOf 2).fmt } }
     x.pic 5 = some p ∧ p.phase2 = 0 ∧ p.decoded = x.fmt.cbRows ∧ p.predicted = x.fmt.cbRows) ∧
    (let p : Picture := { coding 2 0 with floored := true, rowsCommitted := 1, rowsFloor := [0] }
     let x := (video 1 [p]).session 9
     x.codingPic = some p ∧ p.rowsCommitted = x.fmt.cbRows ∧ x.outHeld = [] ∧ x.fmt.width ≤ 4096 ∧ (∀ r ∈ p.rowsFloor, r < x.fmt.cbRows)) ∧
    (∀ e ∈ ([(1, { coding 3 0 with floored := true, rowsCommitted := 1 }), (1, { coding 1 0 with rowsCommitted := 1 }), (2, coding 1 0)] : List (Nat × Picture)),
      let s := video e.1 [e.2]
      let x := s.session 9
      x.pic 5 = some e.2 ∧ s.coresDone 9 = true ∧ x.cfg.kind = e.1 ∧ x.outHeld = [] ∧ x.dec.outSlots = [] ∧
      (∀ c ∈ s.planCores x.plan, (s.core c.1 c.2).ring = [])) := by
  and_intros <;> decide +kernel

theorem witness_CommittedRowsKeepTheCap :
    (∀ cap ∈ [16, 1000],
      let p : Picture := { coding 0 0 with picDone := false, cap := cap }
      let s := video 1 [p]
      let x := s.session 9
      s.power.running = true ∧ x.pic 5 = some p ∧ x.codingPic = some p ∧ x.outHeld = [] ∧ s.streamServes 9 = true ∧ p.rowsCommitted = 0 ∧
      p.began = true ∧ p.substreams.length = p.subCount x.plan) ∧
    (∀ room ∈ [-1, 0, 1000], let p := coding 1 room
      let x := (video 1 [p]).session 9
      x.codingPic = some p ∧ p.picDone = true ∧ p.gainsDone = true ∧ p.rowsCommitted < x.fmt.cbRows ∧ p.substreams.length = p.subCount x.plan) ∧
    (let p : Picture := { coding 0 0 with picDone := false, began := false, rap := true }
     p.opens ((video 1 [p]).session 9) = true ∧ (video 1 [p]).audAhead 9 = false) ∧
    ((coding 1 1000).bytes : Int) + 1000 + 16 * (1 - 0) = ({ coding 1 1000 with cap := 1036 } : Picture).cap := by decide +kernel

/-- Session 9 of a kind with a library entry being written from a buffer, and an expander that serves or not. -/
def libWriting (kind : Nat) (serves : Bool) : State :=
  { having { session9 kind .running [] with
      lib := [(3, { writing := true })]
      bufs := [heldBuf 4 1, { heldBuf 6 3 with index := 3, readers := [] }, { heldBuf 7 0 with readers := [] }] } with
    cxl := if serves then [(0, { linkUp := true, expanderOk := true })] else [] }
/-- A decoder's picture whose watchdog has counted this long. -/
def watched (used : Nat) : Picture := { picAt 0 0 0 with wdUsed := used, wdFrom := some 1000000000, phase1 := true }

theorem witness_BuffersReturnAndLatePicturesAreLost :
    ((libWriting 2 true).power.running = true ∧ (heldBuf 7 0).mark = 0 ∧
      (∀ c ∈ [heldBuf 4 1, { heldBuf 6 3 with index := 3, readers := [] }], c.poc ≠ 7 ∨ c.mark ≠ 0 ∨ c.readers ≠ [])) ∧
    (∀ kind ∈ [1, 2], ∀ serves : Bool, let s := libWriting kind serves
      (Tab.get {} (s.session 9).lib 3).writing = true ∧ s.cxlServes (s.session 9).plan.cxlPort = serves ∧ (s.session 9).cfg.kind = kind ∧
      (s.session 9).pics = [] ∧ ((s.session 9).bufs.find? (fun b => decide (b.mark = 3) && decide (b.index = 3))).isSome = true) ∧
    (∀ e ∈ [(1, true), (subPoolBytes, false)],
      let s : State := { video 1 [{ picAt 0 0 0 with waiting := true, granted := false }] with grants := [(0, [{ session := 9, order := 1, need := e.1 + 0x1000000 }])] }
      let y := s.session 9
      s.grantQueue 0 = [{ session := 9, order := 1, need := e.1 + 0x1000000 }] ∧
      (decide ((y.charge + (e.1 + 0x1000000) - y.plan.reserveBytes) - (y.charge - y.plan.reserveBytes) ≤ s.poolFreeBytes 0)) = e.2) ∧
    (∀ since ∈ [1000000000 - 1000000, 1000000000 - 1000001],
      let s := having { session9 1 .running [] with stallSince := some since }
      (s.session 9).cfg.kind = 1 ∧ (s.session 9).stallSince = some since ∧ (s.session 9).plan.drainBoundMs = 1) ∧
    (let s := having { session9 1 .faulted [picAt 0 0 0, { picAt 0 0 0 with poc := 6 }] with faultedAt := 500000000, parked := [{ port := 3, slot := 63 }] }
     let x := s.session 9
     x.st = .faulted ∧ x.abandoned = false ∧ x.faultedAt + x.plan.remapGraceMs * 1000000 < (s.elapse 1).time ∧ (x.pics.map (·.poc)).Nodup ∧ x.parked = [{ port := 3, slot := 63 }] ∧ (s.elapse 0).time ≤ x.faultedAt + x.plan.remapGraceMs * 1000000) ∧
    (∀ used ∈ [266666666, 266666667], let s := having { session9 2 .draining [watched used] with dec := { seq := some (cfgOf 2).fmt } }
      let x := s.session 9
      x.cfg.kind = 2 ∧ x.pic 5 = some (watched used) ∧ (watched used).wholeConcealed = false ∧ (watched used).reports < 64 ∧ s.guarded 9 = false ∧ x.st = .draining ∧
      (watched used).wdUsed + ((s.elapse 0).time - 1000000000) = used ∧
      max 20000000 (x.cfg.wdPeriods * x.fmt.rateDen * 1000000000 / x.fmt.rateNum) = 266666666) ∧
    (∀ granted : Bool, let p : Picture := { watched 266666667 with granted := granted, waiting := !granted }
      let s : State := { having (session9 2 .running [p]) with guards := [(0, some 9)] }
      s.guarded 9 = true ∧ (s.session 9).pic 5 = some p ∧ (∀ q ∈ (s.session 9).pics, q.wholeConcealed = false)) ∧
    (let p : Picture := { picAt 0 0 0 with waiting := true, granted := false, wholeConcealed := true }
     let s : State := { video 2 [p] with grants := [(0, [{ session := 9, order := 1, need := 1 }])] }
     (s.session 9).pics = [p] ∧ (s.session 9).cfg.kind = 2 ∧ p.order = 1 ∧ s.grantQueue 0 = [{ session := 9, order := 1, need := 1 }] ∧
     (s.session 9).dec.outSlots = []) := by and_intros <;> decide +kernel

/-! ## The stream -/

/-- A decoder's input: one unit, and the start code of the next. -/
def streamOf (ty : Nat) (payload : Bytes) : Decoder := { input := [{ tag := 7, bytes := unitBytes ty payload ++ [0, 0, 1, 0x45] }], offset := 100 }
/-- Tables of two and of 64 symbols whose frequencies sum to 65,536. -/
def twoSymbols : List Nat := [65535, 1]
def motionTable : List Nat := List.replicate 63 1 ++ [65473]
def tables : EntropyTables := { means := [], latent := [twoSymbols], hyper := [twoSymbols], mx := motionTable, my := motionTable, length := 0 }
def someElems : List Elem := [.raw 16 65535, .hyper 0 (-32768), .latent 0 32767, .motionX (-8192), .motionY 8192]

theorem witness_StreamsDecodeToWhatWasEncoded :
    ((streamOf 0x52 [0, 0, 0]).bytes = unitBytes 0x52 [0, 0, 0] ++ ([0, 0, 1] ++ [0x45])) ∧
    (twoSymbols.sum = 65536 ∧ (∀ f ∈ twoSymbols, 1 ≤ f) ∧ twoSymbols.length % 2 = 0) ∧
    (motionTable.sum = 65536 ∧ (∀ f ∈ motionTable, 1 ≤ f) ∧ motionTable.length = 64) ∧
    tables.hyper.getD 0 [] = twoSymbols ∧ tables.latent.getD 0 [] = twoSymbols := by decide +kernel
/-- Escapes of both signs come back (R217, R218). -/
theorem test_rans_round_trip :
    (decodeSubstream tables 0 (someElems.map (fun e => match e with
      | .raw k _ => .raw k 0
      | .hyper c _ => .hyper c 0
      | .latent c _ => .latent c 0
      | .motionX _ => .motionX 0
      | .motionY _ => .motionY 0)) (ransEncode (someElems.flatMap (elemSymbols tables)))).elems.map (·.1) = someElems := by decide +kernel

/-- A decoder's session 9 in the middle of its stream. -/
def decoding (d : Decoder) (pics : List Picture) : State := having { session9 2 .running pics with dec := d, bufs := [heldBuf 4 1] }
/-- Its format, with a library of four entries. -/
def fmt9 : SeqFmt := { (cfgOf 2).fmt with libSize := 4 }
def rowUnit : UnitJob :=
  { kind := 0x52, row := 0, owner := 9, tag := 7, map := [], specs := [.raw 2 0], sCount := 2
    jobs := [{ index := 0, pos := 5, bytes := ransEncode [rawSymbol 2 3] }, { index := 1, pos := 9, bytes := ransEncode [] }] }

theorem witness_LanesCodeAndDecodeSubstreams :
    (∀ e ∈ ([(1, 0, []), (0, 1, [(0, [0, 1, 0, 0])])] : List (Nat × Nat × List (Nat × Bytes))),
      let p : Picture := { coding e.1 0 with substreams := e.2.2 }
      let s := video 1 [p]
      let x := s.session 9
      x.codingPic = some p ∧ x.pic p.poc = some p ∧ x.outHeld = [] ∧ p.gainsDone = true ∧ p.floored = false ∧ p.rowsCommitted < x.fmt.cbRows ∧
      (p.phase2 ≠ 0 ∨ s.coresDone 9 = true) ∧ e.2.1 < p.subCount x.plan ∧ x.plan.laneOf e.2.1 = some 0 ∧
      (∀ j, j < e.2.1 → j ∈ p.substreams.map (·.1)) ∧ e.2.1 ∉ p.substreams.map (·.1) ∧ s.laneTurnOf 9 x.plan.streamDie 0 = true) ∧
    (∀ kind ∈ [0x50, 0x52], ∀ jobs ∈ [rowUnit.jobs, rowUnit.jobs.drop 1],
      let u : UnitJob := { rowUnit with kind := kind, jobs := jobs }
      let p : Picture := { poc := 5, phase1 := true }
      let s := decoding { unit := some u, seq := some fmt9 } [p]
      let x := s.session 9
      let read (j : SubJob) := decodeSubstream (entropyTables (s.sessionModel x).package) j.pos (substreamElems u.sCount j.index u.specs) j.bytes
      x.st = .running ∧ x.dec.unit = some u ∧ u.owner = 9 ∧ u.again = false ∧ (∀ j ∈ jobs, (planIn 2).laneOf j.index = some 0) ∧ x.pics = [p] ∧
      s.laneMayStart u = true ∧ s.laneTurnOf 9 x.plan.streamDie 0 = true ∧ p.wholeConcealed = false ∧ (∀ j ∈ jobs, (read j).errors = []) ∧
      (rowMotion x.fmt 0 0 [] []).errors = [] ∧ (rowMotion x.fmt 0 0 [] []).refBad = false) ∧
    (let u : UnitJob := { rowUnit with kind := 0x50, jobs := rowUnit.jobs.drop 1, again := true }
     let s := decoding { unit := some u, seq := some fmt9 } [{ poc := 5, phase1 := true }]
     (s.session 9).dec.unit = some u ∧ u.again = true ∧ s.laneTurnOf 9 (s.session 9).plan.streamDie 0 = true) := by and_intros <;> decide +kernel

/-- What a decoder in this state takes next is a whole unit of the type with this payload, and nothing stands before it. -/
def takes (s : State) (ty : Nat) (payload : Bytes) : Bool :=
  s.power.running && decide ((s.session 9).st = .running) && decide ((s.session 9).cfg.kind = 2) && (s.session 9).dec.hunting.isNone &&
  ((s.elapse 0).unitAhead 9).any (fun u => !u.junk && !u.tooLong && decide (u.type = some ty) && decide (u.payload.bytes = payload) &&
    u.payload.emulation.isNone)
def sub : Bytes := ransEncode []
def opened (ty : Nat) (payload : Bytes) (group : Option W32) : Decoder :=
  { streamOf ty payload with seq := some fmt9, mdls := [(0, 1, 1, zeros 64)], seenMdl := true, group := group }

theorem witness_SequencesAndPicturesAreOpened :
    (let s := decoding (streamOf 0x4D (mdlPayload 7 2 2 (zeros 64))) []
     let t := decoding (streamOf 0x4D (mdlPayload 0 1 1 (zeros 64))) []
     takes s 0x4D (mdlPayload 7 2 2 (zeros 64)) = true ∧ takes t 0x4D (mdlPayload 0 1 1 (zeros 64)) = true ∧ (t.session 9).dec.mdls = [] ∧
     (t.session 9).dec.seq = none ∧ (t.session 9).dec.group = none ∧ (zeros 64).length = 64 ∧
     (t.elapse 0).holdsModel (t.session 9) (0, 1, 1, zeros 64) = true) ∧
    (let d : Decoder := { streamOf 0x51 (seqPayload (cfgOf 2).fmt 0) with mdls := [(0, 1, 1, zeros 64)] }
     let s := decoding d []
     let h := (cfgOf 2).fmt
     takes s 0x51 (seqPayload h h.mdlId) = true ∧ h.mdlId < 0xFF ∧ (s.elapse 0).holdsModel (s.session 9) (0, 1, 1, zeros 64) = true ∧
     d.mdls.find? (fun m => decide (m.1 = h.mdlId)) = some (0, 1, 1, zeros 64) ∧ h.profile = 1 ∧ h.chroma ≤ 1 ∧ h.bitDepth = 8 ∧ h.width = 64 ∧
     h.height = 64 ∧ h.rateNum = 30 ∧ h.rateDen = 1 ∧ h.maxShort = 1 ∧ h.press < 4 ∧ h.libSize = 0) ∧
    (∀ subs ∈ [[], [sub, sub]],
      let m : Mark := { op := 2, arg := 3 }
      let s := decoding (opened 0x50 (picPayload 5 [refPoc4] [m] false subs) none) []
      takes s 0x50 (picPayload 5 [refPoc4] [m] false subs) = true ∧ (s.session 9).fmt.mdlId ≠ 0xFF ∧
      (∀ b ∈ (s.session 9).bufs, b.poc ≠ 5 ∧ b.poc - 5 ≠ 0x80000000) ∧ (s.session 9).holdsRef refPoc4 = true ∧ m.arg.toNat < (s.session 9).fmt.libSize ∧
      sub.length % 2 = 0 ∧ 4 ≤ sub.length ∧ sub.length < 2 ^ 24) ∧
    (let s := decoding (opened 0x50 (picPayload 6 [] [] false []) (some 5)) [{ poc := 5, phase1 := true }]
     takes s 0x50 (picPayload 6 [] [] false []) = true ∧ ((s.session 9).pic 5).isSome = true ∧ (s.session 9).dec.nextRow < (s.session 9).fmt.cbRows) := by
  decide +kernel

theorem witness_RowsAndOtherUnitsAreTaken :
    (∀ payload ∈ [rowPayload 0 5 [sub, sub], floorRowPayload 0 5],
      let s := decoding (opened 0x52 payload (some 5)) [{ poc := 5, phase1 := true }]
      takes s 0x52 payload = true ∧ ((s.session 9).pic 5).any (·.phase1) = true ∧ (s.session 9).dec.nextRow < (s.session 9).fmt.cbRows ∧
      (s.session 9).fmt.width ≤ 4096) ∧
    (∀ payload ∈ [[1, 1] ++ natBE 2 3, libCheckPayload 3 (zeros 8)],
      let s := decoding (opened 0x4C payload none) []
      takes s 0x4C payload = true ∧ (s.session 9).fmt.mdlId ≠ 0xFF ∧ 3 < (s.session 9).fmt.libSize ∧ (Tab.get {} (s.session 9).lib 3).held = false) ∧
    (let s := decoding (opened 0x45 [0x80] none) []
     takes s 0x45 [0x80] = true ∧ (s.session 9).dec.seq.isSome = true) ∧
    (∀ ty ∈ [0x60, 0x7F, 0x80, 0x01],
      let s := decoding (opened ty [] (some 5)) []
      takes s ty [] = true ∧ (s.session 9).dec.seq.isSome = true ∧ s.guarded 9 = false ∧ (s.session 9).pic 0xFFFFFFFF = none) ∧
    (let s : State := { decoding (streamOf 0x60 []) [] with guards := [(0, some 9)] }
     takes s 0x60 [] = true ∧ s.guarded 9 = true ∧ (s.session 9).dec.seenMdl = false ∧ (s.session 9).dec.mdls = []) ∧
    (let check := libCheck fmt9.bitDepth []
     let s := having { session9 2 .running [] with dec := opened 0x4C (libCheckPayload 3 check) none, lib := [(3, { held := true })] }
     takes s 0x4C (libCheckPayload 3 check) = true ∧ check.length = 8 ∧ (Tab.get {} (s.session 9).lib 3).held = true ∧
     libCheck (s.session 9).fmt.bitDepth (Tab.get {} (s.session 9).lib 3).recon = check) ∧
    (let s := decoding { opened 0x80 [] none with hunting := some { skipped := 0, tag := 7, cause := 1, cls := 1, unitType := 0x51, offset := 100 } } []
     s.power.running = true ∧ (s.session 9).dec.hunting.isSome = true ∧ (s.session 9).dec.seq.isSome = true ∧
     ((s.elapse 0).unitAhead 9).any (fun u => !u.junk && !u.tooLong && decide (u.type = some 0x80)) = true) := by and_intros <;> decide +kernel

/-! ## Audio -/

/-- Session 9 of an audio kind with a stream or encoder of its own, its group 63 in this condition. -/
def audible (kind : Nat) (a : AudioGroup) (d : Decoder) : State :=
  let x := audio9 kind .running
  having { x with cfg := { x.cfg with attach := none }, groups := [(63, a)], dec := d }
def block : AudioBlock := { tag := 7, addr := 0, left := 2, time := 5, syncs := [] }
/-- An encoder attached to the video encoder of session 8, in whose picture group two AUD bytes wait for their commit. -/
def attached : State :=
  let x := audio9 3 .running
  let s := having { x with cfg := { x.cfg with attach := some 8 }, groups := [(63, { busy := true, coded := true, unitBytes := [0, 0, 1, 0x41, 0], syncPoc := 5 })] }
  { s with sessions := s.sessions ++ [(8, { session9 1 .running [{ coding 0 0 with substreams := [] }] with dec := { mdls := [(0, 1, 2, zeros 64)] } })] }

theorem witness_AudioFramesAreCodedAndCommitted :
    (let s := audible 3 { blocks := [block], target := 60, cap := 1344 } {}
     let x := s.session 9
     (s.elapse 0).streamServes 9 = true ∧ x.st = .running ∧ x.cfg.kind = 3 ∧ x.groupCfg 63 = some group63 ∧ (x.audio 63).blocks = [block] ∧
     (x.audio 63).busy = false ∧ x.plan.laneOf 0 = some 0 ∧ ((s.elapse 0).fetchForm 0 group63.frameBytes).isSome = true) ∧
    (let s := audible 3 { busy := true, coded := true, unitBytes := [1, 2] } {}
     (s.elapse 0).streamServes 9 = true ∧ (s.session 9).cfg.kind = 3 ∧ (s.elapse 0).commitGroup 9 = some 63 ∧ (s.session 9).cfg.attach = none) ∧
    ((attached.elapse 0).streamServes 9 = true ∧ (attached.session 9).st = .running ∧ (attached.elapse 0).commitGroup 9 = some 63 ∧
      (attached.session 9).cfg.attach = some 8) := by decide +kernel

/-- An AUD of frame 7, and the decoder that takes it. -/
def audUnit (floor reset : Bool) : Bytes := audPayload 0 63 7 2 2 16 floor reset 15 0xFFFFFFFF 0 (if floor then [[0, 1, 0, 0]] else [sub])
def audDecoder (floor reset : Bool) : Decoder := { streamOf 0x41 (audUnit floor reset) with mdls := [(0, 1, 2, zeros 64)], seenMdl := true, seq := some audioSeq }

theorem witness_AudioFramesAreDecodedAndPlayed :
    (∀ floor reset : Bool, ∀ b ∈ ([{ seen := true, frame := 7 }, { seen := false }, { seen := true, muted := true, frame := 7 }, { seen := true, frame := 6 }, { seen := true, frame := 0xFFFFFFD5 }] : List AudioGroup),
      let s := audible 4 b (audDecoder floor reset)
      s.power.running = true ∧ (s.session 9).st = .running ∧ (s.session 9).dec.hunting = none ∧ (s.session 9).dec.seq.isSome = true ∧
      ((s.elapse 0).unitAhead 9).any (fun u => !u.junk && !u.tooLong && decide (u.type = some 0x41) &&
        decide (u.payload.bytes = audUnit floor reset) && u.payload.emulation.isNone) = true ∧
      s.audOwner 9 63 = some (9, group63) ∧ layoutFits 2 group63.channels = true ∧ sub.length % 2 = 0 ∧ 4 ≤ sub.length ∧ sub.length < 2 ^ 24 ∧
      (s.sessionModel (s.session 9)).hash = zeros 64 ∧ ((s.session 9).audio 63).busy = false ∧ ((s.session 9).audio 63).blocks = []) ∧
    (let s := audible 4 { busy := true, toConceal := 50, blocks := [block] } {}
     (s.session 9).groupCfg 63 = some group63 ∧ (s.session 9).cfg.kind = 4 ∧ ((s.session 9).audio 63).busy = true ∧ 0 < ((s.session 9).audio 63).toConceal ∧
     (s.groupCores 9 63 ≠ []) ∧ (∀ y ∈ s.groupCores 9 63, (s.core y.1 y.2).idle = true ∧ (s.core y.1 y.2).session = some 9 ∧
       (s.core y.1 y.2).ring = [] ∧ (s.core y.1 y.2).draining = [])) ∧
    (let a := ((audible 4 { busy := true, concealed := true } {}).session 9).audio 63
     a.busy = true ∧ a.toConceal = 0 ∧ a.concealed = true) ∧
    (let a := ((audible 3 { busy := true } {}).session 9).audio 63
     a.busy = true ∧ a.coded = false ∧ a.concealed = false) ∧
    (let a := ((audible 4 { busy := true, coded := true } {}).session 9).audio 63
     a.toConceal = 0 ∧ a.coded = true ∧ a.concealed = false) ∧
    (∀ e ∈ [(920000000, true), (920000001, false)],
      let s := audible 4 { busy := true, parsedAt := some e.1 } {}
      let a := (s.session 9).audio 63
      (s.session 9).cfg.kind = 4 ∧ a.busy = true ∧ a.parsedAt = some e.1 ∧ (s.session 9).pics = [] ∧
      (decide (e.1 + 80000000 ≤ (s.elapse 0).time)) = e.2) := by
  and_intros <;> decide +kernel

/-! ## Cascade -/

/-- Rank 2 of a formed mesh whose ranks 0 and 1 hang at ports 1 and 0. -/
def meshed : State :=
  { up with
    straps := 4
    cascade :=
      { formed := true, members := 7, heardMaster := 900000000, lastReply := 900000000
        ports := [(0, { up := true, peerRank := 1, peerPort := 3 }), (1, { up := true, peerRank := 0, peerPort := 2 })] } }
def withPort0 (f : CascadePort → CascadePort) : State := meshed.updCascadePort 0 f
def withPort1 (f : CascadePort → CascadePort) : State := meshed.updCascadePort 1 f
/-- A flit from rank 1 to rank 2. -/
def flit : Flit := { emptyFlit with srcRank := 1, dstRank := 2, ack := 4095, credit := 3, creditVc := 1, fec := 5 }
/-- An entry of a replay buffer. -/
def sentFlit (n seq : Nat) : Nat × Nat × Flit := (1, n, { emptyFlit with seq := Fin.ofNat 4096 seq })
/-- A reply to the request of stamp t1, its stamps t2 and t3 in ns. -/
def reply (t1 t2 t3 : Nat) : Flit := { flit with vc := 3, payload := [1] ++ natLE 8 t1 ++ [0] ++ natLE 8 t2 ++ [0] ++ natLE 8 t3 ++ [0] }
/-- This device asked at 1 s less 1000 ns. -/
def asked (stepped locked : Bool) (good : Nat) : State :=
  { meshed with cascade := { meshed.cascade with requestT1 := some (999999000 * 256), stepped := stepped, timeLocked := locked, goodExchanges := good } }

/-- Rank 0, the master of a formed mesh of ranks 0 to 2, with a port to each. -/
def hosting : State :=
  { owner5 with cascade := { formed := true, members := 7, ports := [(0, { up := true, peerRank := 1, peerPort := 3 }), (1, { up := true, peerRank := 2, peerPort := 2 })] } }

theorem witness_FlitsFollowTheLinkRules_link :
    meshed.linkAlive = true ∧ (meshed.cascadePort 0).up = true ∧
    (let o := withPort0 (fun p => { p with replayBuf := [sentFlit 0 4094, sentFlit 0 4095, sentFlit 6 0] })
     (o.cascadePort 0).up = true ∧ ¬ 64 ≤ (o.cascadePort 0).replayTimes.length) ∧
    (let o := withPort0 (fun p => { p with replayBuf := [sentFlit 7 0] })
     (o.cascadePort 0).up = true ∧ ∃ e ∈ (o.cascadePort 0).replayBuf, 8 ≤ e.2.1 + 1) ∧
    (let o := withPort0 (fun p => { p with replayTimes := List.replicate 63 999000001 })
     (o.cascadePort 0).up = true ∧ ((o.cascadePort 0).replayTimes.filter (fun x => decide ((o.elapse 0).time < x + 1000000))).length = 63) ∧
    ¬ ({ flit with seq := 1 }.seq.val = ((meshed.cascadePort 0).rxSeq + 1) % 4096) ∧
    flit.seq.val = ((meshed.cascadePort 0).rxSeq + 1) % 4096 ∧ flit.dstRank.val = meshed.rank ∧
    (let f : Flit := { flit with dstRank := 0 }
     f.dstRank.val ≠ meshed.rank ∧ (meshed.elapse 0).relayHop f = some (1, false) ∧ (1 : Nat) ≠ (0 : Fin 4).val ∧
     0 < Tab.get 64 (meshed.cascadePort 1).credits 0 ∧ (meshed.cascadePort 1).replayBuf.length < 2048 ∧ (meshed.cascadePort 1).waiting = []) ∧
    (Tab.get 64 ((withPort1 (fun p => { p with credits := [(0, 0)] })).cascadePort 1).credits 0 = 0) := by
  decide +kernel

/-- The target of a DATA flit: a die, a core and the bits 8 (the lower port), 9 (a row ends) and 10 (credits). -/
def flitTarget (die core down last credit : Nat) : Nat := die + 256 * (core + 256 * down + 512 * last + 1024 * credit)

theorem witness_FlitsFollowTheLinkRules_data :
    (let usable (s : State) (target : Nat) : Bool := let core := target / 256 % 256
       decide (target % 32 < 24) && decide (core < 160) && (s.elapse 0).coreUsable (target % 32) core
     usable meshed (flitTarget 23 159 0 0 0) = true ∧ usable meshed (flitTarget 23 159 1 1 0) = true ∧
     usable meshed (flitTarget 23 159 1 0 1) = true ∧ ((meshed.core 23 159).seam true).out = [] ∧
     usable meshed (flitTarget 24 0 0 0 0) = false ∧ usable meshed (flitTarget 0 160 0 0 0) = false ∧
     usable { meshed with dies := [(0, { fenced := 5 })] } (flitTarget 0 0 0 0 0) = false ∧
     usable { meshed with dies := [(0, { retired := [7] })] } (flitTarget 0 7 0 0 0) = false) ∧
    (∀ e ∈ ([(flitTarget 0 0 0 0 0, false, false, false), (flitTarget 0 255 1 0 0, true, false, false), (flitTarget 0 255 0 1 0, false, true, false),
        (flitTarget 0 255 0 0 1, false, false, true)] : List (Nat × Bool × Bool × Bool)),
      Nat.testBit (e.1 / 256) 8 = e.2.1 ∧ Nat.testBit (e.1 / 256) 9 = e.2.2.1 ∧ Nat.testBit (e.1 / 256) 10 = e.2.2.2) ∧
    (({ flit with vc := 1, target := 23 } : Flit).target % 32 < 24 ∧ 24 ≤ ({ flit with vc := 1, target := 24 } : Flit).target % 32 ∧
     ({ flit with vc := 1, target := 27 } : Flit).target % 32 < 28 ∧ 28 ≤ ({ flit with vc := 1, target := 28 } : Flit).target % 32) ∧
    (let s := having (session9 1 .running [])
     (∀ f ∈ ([{ flit with vc := 3, payload := [9, 0, 0, 0, 1, 0] }, { flit with vc := 3, payload := [9, 0, 0, 0, 0, 1] }] : List Flit),
       f.vc.val = 3 ∧ (s.session (leAt f.payload 0 2)).bound = true) ∧
     Nat.testBit (leAt [9, 0, 0, 0, 1, 0] 5 1) 0 = false ∧ Nat.testBit (leAt [9, 0, 0, 0, 0, 1] 5 1) 0 = true ∧
     coreKey 0 0 ∈ (s.planCores (s.session 9).plan).map (fun y => coreKey y.1 y.2) ∧
     coreKey 0 1 ∉ (s.planCores (s.session 9).plan).map (fun y => coreKey y.1 y.2)) := by decide +kernel

theorem witness_FlitsFollowTheLinkRules_waiting :
    meshed.cascade.ports.all (fun e => e.2.waiting.isEmpty) = true ∧
    (∀ n ∈ [0, 63], let o := (withPort0 (fun p => { p with waiting := [(3, { emptyFlit with vc := 1 }), (1, emptyFlit)], credits := [(1, n)] })).cascadePort 0
      o.up = true ∧ 0 < min 64 (Tab.get 64 o.credits 1 + flit.credit.val) ∧ o.replayBuf.length < 2048) ∧
    (let o := (withPort0 (fun p => { p with waiting := [(2, { emptyFlit with vc := 2 })], credits := [(2, 0)] })).cascadePort 0
     o.up = true ∧ Tab.get 64 o.credits 2 = 0 ∧ 2 ≠ 0 + flit.creditVc.val) := by decide +kernel

theorem witness_FlitsFollowTheLinkRules_time :
    (let f : Flit := { flit with vc := 3, payload := [0] ++ natLE 8 5 ++ [0] }
     f.seq.val = ((meshed.cascadePort 0).rxSeq + 1) % 4096 ∧ leAt f.payload 0 1 = 0 ∧ (meshed.cascadePort 0).replayBuf.length < 2048 ∧
     0 < Tab.get 64 (meshed.cascadePort 0).credits 3) ∧
    (∀ e ∈ ([(false, false, 0, 999999310, 999999317), (true, false, 15, 999999500, 999999500), (true, true, 0, 999999489, 999999490),
        (true, false, 3, 1000000000, 1000000000), (true, true, 20, 1000000000, 1000000000)] : List (Bool × Bool × Nat × Nat × Nat)),
      let s := asked e.1 e.2.1 e.2.2.1
      let f := reply 999999000 e.2.2.2.1 e.2.2.2.2
      leAt f.payload 0 1 ≠ 0 ∧ s.cascade.requestT1 = some (leAt f.payload 1 8 * 256 + leAt f.payload 9 1)) ∧
    (∀ e ∈ ([(1000000000, true), (999000000, false), (999000001, true)] : List (Nat × Bool)),
      let s := asked true true 20
      let s := { s with cascade := { s.cascade with lastReply := e.1 } }
      s.isMember = true ∧ s.cascade.timeLocked = true ∧ decide ((s.elapse 0).time < s.cascade.lastReply + 1000000) = e.2) ∧
    (∀ e ∈ ([(none, true), (some (999984000 * 256), true), (some (999984001 * 256), false)] : List (Option Nat × Bool)),
      let s := { meshed with cascade := { meshed.cascade with requestT1 := e.1 } }
      s.isMember = true ∧ s.nextHop s.cascade.masterRank = some (1, false) ∧ (s.cascadePort 1).replayBuf.length < 2048 ∧
      (s.cascadePort 1).waiting = [] ∧ 0 < Tab.get 64 (s.cascadePort 1).credits 3 ∧
      (match e.1 with | some t1 => decide (t1 + 16000 * 256 ≤ (s.elapse 0).time * 256) | none => true) = e.2) := by
  decide +kernel

def routeReq (sr ss kr ks what : Nat) : Bytes := natLE 1 sr ++ [0] ++ natLE 2 ss ++ natLE 1 kr ++ [0] ++ natLE 2 ks ++ natLE 1 what ++ zeros 3
def routed : State :=
  { hosting with cascade := { hosting.cascade with routes := [(0, { used := true, srcRank := 1, srcSession := 9, sinkRank := 2, sinkSession := 255, what := 1 })] } }

theorem witness_CascadesFormAndServeTheirMaster_links :
    (let fresh := { up with straps := 4 }
     fresh.linkAlive = true ∧ (2 : Fin 8).val = fresh.rank ∧ (1 : Fin 8).val ≠ fresh.rank ∧ fresh.cascade.formed = false ∧
     (fresh.cascade.members ||| BitVec.ofNat 8 (2 ^ fresh.rank) ||| 1).getLsbD 0 = true) ∧
    (let t := after (.cascadePortTrained 0 2 3 1) hosting
     hosting.linkAlive = true ∧ (3 : Fin 8).val ≠ hosting.rank ∧ hosting.cascade.members.getLsbD 3 = false ∧ t.cascade.formed = true ∧
     t.cascade.masterRank = hosting.rank ∧ t.nextHop 3 = some ((2 : Fin 4).val, false)) ∧
    (let s := { meshed with sessions := [(9, { session9 1 .running [] with plan := { planIn 1 with cores := [(2, 0, 0), (1, 0, 0)] } })] }
     (s.session 9).bound = true ∧ (s.session 9).recut.isNone = true ∧ (s.session 9).parked = [] ∧
     (s.session 9).plan.cores.any (fun x => (s.ranksBeyond 0).contains x.1) = true) ∧
    (let s := { meshed with
       cascade := { meshed.cascade with routes := [(0, { used := true, srcRank := 2, srcSession := 9, sinkRank := 1, sinkSession := 255 })] }
       sessions := [(9, { session9 1 .running [] with plan := { planIn 1 with cores := [(2, 0, 0)] } })] }
     s.rank = 2 ∧ (s.session 9).bound = true ∧ (s.session 9).recut.isNone = true ∧ (s.session 9).parked = [] ∧
     ((after (.linkLost 0 0) s).session 9).st = .faulted ∧ ((after (.linkLost 0 1) s).session 9).st = .running) ∧
    (meshed.cascadePort 0).up = true ∧ meshed.ranksBeyond 0 = [1] ∧ meshed.ranksBeyond 1 = [0] ∧
    ({ meshed with cascade := { meshed.cascade with members := 4 } } : State).ranksBeyond 0 = [] ∧
    (∀ e ∈ ([(9, 0, true), (9, 1, false), (10, 0, false)] : List (Nat × Nat × Bool)),
      let s := withPort0 (fun p => { p with up := false, attempts := e.1, lostAt := e.2.1 })
      (s.cascadePort 0).up = false ∧ decide ((s.cascadePort 0).lostAt + (if (s.cascadePort 0).attempts < 10 then 1000000000 else 10000000000) ≤
        (s.elapse 0).time) = e.2.2) ∧
    (∀ e ∈ ([(990000000, true), (990000001, false)] : List (Nat × Bool)),
      let s := { meshed with cascade := { meshed.cascade with heardMaster := e.1 } }
      s.cascade.formed = true ∧ s.cascade.masterRank ≠ s.rank ∧ s.cascade.masterLost = false ∧
      decide (s.cascade.heardMaster + 10000000 ≤ (s.elapse 0).time) = e.2) ∧
    (∀ e ∈ ([(980000000, true), (980000001, false)] : List (Nat × Bool)),
      let s := { meshed with cascade := { meshed.cascade with electing := some e.1, masterLost := true } }
      s.cascade.electing = some e.1 ∧ decide (e.1 + 20000000 ≤ (s.elapse 0).time) = e.2) ∧
    (let reach : List (Fin 8 × List (Fin 8)) := [(2, [1, 3]), (1, [2]), (3, [1, 2])]
     let reaches (a b : Nat) : Bool := b == a || reach.any (fun x => x.1.val == a && x.2.any (fun y => y.val == b))
     reaches 2 1 = true ∧ reaches 2 2 = true ∧ (∀ r < 8, reaches 2 r = true → reaches 2 r = true) ∧
     (reaches 2 3 = true ∧ reaches 1 3 = false) ∧ reaches 2 0 = false) ∧
    (let s := { hosting with cascade := { hosting.cascade with electing := some 980000000, masterRank := 2 } }
     s.linkAlive = true ∧ s.rank = 0 ∧ s.cascade.formed = true ∧ 980000000 + 20000000 ≤ (s.elapse 0).time) := by
  decide +kernel

theorem witness_CascadesFormAndServeTheirMaster_mailbox :
    (∀ e ∈ ([(0, 0x1040, 1), (1, 0x1FFF, 1), (2, 0x1040, 224)] : List (Nat × Nat × Nat)),
      let s := { meshed with mbx := Tab.set {} meshed.mbx (3 * 64 + 1) { st := e.1 } }
      s.linkAlive = true ∧ s.cascade.formed = true ∧ s.cascade.masterRank ≠ s.rank ∧ (s.slot 3 1).st = e.1 ∧
      1 * 4096 + 0x40 ≤ e.2.1 ∧ e.2.1 + e.2.2 ≤ 1 * 4096 + 4096) ∧
    (let s := { meshed with cascade := { meshed.cascade with readAsked := some (0x1040, 3), notices := [(1, 9)] } }
     s.cascade.readAsked = some (0x1040, 3) ∧ s.cascade.notices = [(1, 9)] ∧ s.nextHop s.cascade.masterRank = some (1, false) ∧
     (s.cascadePort 1).replayBuf.length < 2048 ∧ (s.cascadePort 1).waiting = [] ∧ 0 < Tab.get 64 (s.cascadePort 1).credits 2 ∧ (s.slot 3 1).st ≠ 2) := by
  decide +kernel

theorem witness_CascadesFormAndServeTheirMaster_routes :
    (∀ e ∈ ([(hosting, 0, 0, 1, false), (routed, 0, 255, 1, false), (routed, 2, 255, 1, true)] : List (State × Nat × Nat × Nat × Bool)),
      let s := sealed e.1 0 0x40 (routeReq e.2.1 e.2.2.1 e.2.2.2.1 9 1)
      s.Presents 0 0 0x40 (routeReq e.2.1 e.2.2.1 e.2.2.2.1 9 1) ∧ s.linkAlive = true ∧ s.cascade.formed = true ∧ s.cascade.masterRank = s.rank ∧
      s.owner.owned = true ∧ (s.elapse 0).time ≤ s.owner.deadline ∧ s.owner.port = 0 ∧ s.owner.successor = none ∧ s.boot.stage = 4 ∧
      (1 : Nat) ≠ e.2.1 ∧ s.memberRank e.2.1 = true ∧ s.memberRank 1 = true ∧ s.reaches e.2.1 = true ∧ s.reaches 1 = true ∧
      s.routeLoops (e.2.1, e.2.2.1) (1, 9) = e.2.2.2.2 ∧ (s.route 0).used = !s.cascade.routes.isEmpty ∧ (s.route s.cascade.routes.length).used = false) ∧
    (∀ e ∈ ([(0, true), (1, false), (65535, false)] : List (Nat × Bool)),
      let s := sealed routed 0 0x41 (natLE 2 e.1 ++ zeros 2)
      s.Presents 0 0 0x41 (natLE 2 e.1 ++ zeros 2) ∧ s.cascade.masterRank = s.rank ∧ (s.route e.1).used = e.2) := by
  dsimp only [State.Presents]; decide +kernel

/-! ## Fences -/

/-- Running with die 3 fenced, a read waiting. -/
def fencedWaiting : State := { up with dies := [(3, { fenced := 5 })], pending := [.timeLoRead 1] }
/-- In reset with die 3 fenced, ready to boot. -/
def fencedInReset : State :=
  { off with board := { off.board with modResetN := false }, power := { pwrGood := true }, dies := [(3, { fenced := 5 })] }

theorem witness_FencedDiesStayFenced :
    (step fencedWaiting = .next (after (.timeLoRead 1) { fencedWaiting with pending := [] }) ∧
     (after (.timeLoRead 1) { fencedWaiting with pending := [] }).power.running = true ∧
     (after (.timeLoRead 1) { fencedWaiting with pending := [] }).boot.boots = fencedWaiting.boot.boots ∧ (fencedWaiting.die 3).fenced ≠ 0) ∧
    (up.board.aux = true ∧ up.power.running = true ∧ fencedWaiting.power.running = true) ∧
    (fencedInReset.board.aux = true ∧ fencedInReset.board.modResetN = false ∧ fencedInReset.power.pwrGood = true ∧
     fencedInReset.clocks.refclkOk = true ∧ fencedInReset.power.dieRailOff = []) ∧
    (up.power.running = true ∧ (0 : DieIx).val ≠ 30 ∧ (up.die 0).fenced = 0) := by
  refine ⟨⟨rfl, ?_⟩, ?_⟩ <;> decide +kernel

/-! ## Worked examples of the spec -/

/-- The six conversions worked under R46: pattern, saturated, flushed on output. -/
def conv (scale bias lo hi : Nat) : Conv := { scale := fp32.decode scale, bias := fp32.decode bias, lo := fp32.decode lo, hi := fp32.decode hi }
def written (c : Conv) (k : Nat) (a : Nat) : Nat × Bool × Bool :=
  ((c.write k (fp32Num a)).1, (c.write k (fp32Num a)).2.saturated, (c.write k (fp32Num a)).2.flushedOut)
def plain : Conv := conv 0x3F800000 0 0xFF800000 0x7F800000
theorem test_six_conversions :
    written (conv 0x40000000 0x3C000000 0xFF800000 0x7F800000) fmtBF16 0x3F800000 = (0x4001, false, false) ∧
    written plain fmtFP16 0x49742400 = (0x7BFF, true, false) ∧ written plain fmtINT8 0xC3028000 = (0x80, true, false) ∧
    written plain fmtINT8 0x40200000 = (0x03, false, false) ∧ written plain fmtFP16 0x38000000 = (0, false, true) ∧
    written (conv 0x3F800000 0 0xC1000000 0x41000000) fmtBF16 0x7F800000 = (0x4100, false, false) := by decide +kernel

def bfs (l : List Nat) : List Machine.Num := l.map (fun b => .ofExt (bf16.decode b))
/-- One dot product under both recipes (the example under R54), and overflow meeting a NaN (the example under R58). -/
theorem test_dot_products :
    let a := bfs ([0x7F7F, 0x7F7F] ++ List.replicate 6 0x3F80 ++ [0xFF7F, 0xFF7F] ++ List.replicate 6 0x3F80)
    let b := bfs (List.replicate 16 0x3F80)
    let n (recipe : Nat) := dotFloat recipe (bfs [0x7F7F, 0x7FC1, 0x4000, 0x4040]) (bfs [0x4000, 0x3F80, 0x3F80, 0x3F80])
    fp32.encode (dotFloat 1 a b).v = 0x7F800000 ∧ (dotFloat 1 a b).inf = true ∧
    fp32.encode (dotFloat 2 a b).v = 0x41400000 ∧ (dotFloat 2 a b).inf = false ∧
    fp32.encode (n 1).v = 0x7FC00000 ∧ (n 1).inf = true ∧ (n 1).nan = true ∧
    fp32.encode (n 2).v = 0x7FC00000 ∧ (n 2).inf = true ∧ (n 2).nan = true := by decide +kernel

/-- One step of SOFTMAX's correction (the example under R125), and a constant row through Welford (R128 to R131). -/
theorem test_softmax_norm :
    (let y := softmaxRow 2 (fp32Num 0x3F800000) ((List.range 128).map (fun i => if i = 100 then fp32Num 0x40400000 else .zero))
     [y[99]?, y[100]?].map (fun x => (x.map (fun v => (bf16.narrow v.v).1))) = [some 0x3BF3, some 0x3D73]) ∧
    ((normRow 2 0 0 (fp32Num 0x35800000) none (List.replicate 128 (fp32Num 0x49742404))).1.all (fun v => fp32.encode v.v == 0)) = true := by
  decide +kernel

/-- The sigmoid micro-program (the example under R101): its first step's word, and sigmoid 0 = 0.5. -/
theorem test_sigmoid :
    let prog := [0xBFB8AA3B00520003, 0x000000010000010E, 0x3F80000000502201, 0x0000000300005F0E].map decodeStep
    (bf16.narrow (LaneRegs.run [] prog {}).z.num.v).1 = 0x3F00 := by decide +kernel

/-- The block pressed at both rates under R171. -/
theorem test_press_block :
    let raw := [0x3FC0, 0xBEC0, 0x3C24, 0x3D40] ++ List.replicate 28 0 ++ [0x40C0, 0x40FE] ++ List.replicate 30 0
    let two := (pressBlock false raw).1
    let four := (pressBlock true raw).1
    two.length = 64 ∧ four.length = 32 ∧ leAt two 0 8 = 0xCE81 ∧
    (unpressBlock false two).1 = [0x3FC0, 0xBEC0, 0, 0x3D80] ++ List.replicate 28 0 ++ [0x40C0, 0x40FC] ++ List.replicate 30 0 ∧
    (unpressBlock true four).1 = [0x3FC0, 0xBF00, 0, 0] ++ List.replicate 28 0 ++ [0x40C0, 0x40C0] ++ List.replicate 30 0 := by decide +kernel

/-- Four symbols through one substream (the example under R220), and a payload's trailing byte (R223). -/
theorem test_four_symbols :
    ransEncode ([rawSymbol 2 2] ++ latentSymbols [2048, 12288, 36864, 12288, 1920, 128] 0 ++ latentSymbols [2048, 12288, 36864, 12288, 1920, 128] 300) =
      [0x15, 0x6A, 0x97, 0xAC, 0, 0] ∧
    protect [0x12, 0] = [0x12, 0, 3] ∧ protect [0, 0] = [0, 0, 3] := by decide +kernel

/-- The exchange worked under R383: θ = −186.5 ns, d = 150.5 ns. -/
theorem test_time_exchange :
    let ns := 256
    timeOffset (5000000000 * ns) (4999999964 * ns) (5000000964 * ns) (5000001301 * ns) = -373 * 128 ∧
    pathDelay (5000000000 * ns) (4999999964 * ns) (5000000964 * ns) (5000001301 * ns) = 301 * 128 := by decide +kernel
end Sys2Proof.Tests
end

/-! # The fences of the dies (R30)

Which operations leave the fences alone, what those that fence or stop the module do, and from this, command by command, that no
step short of a stop or a boot lifts a fence. -/

namespace Sys2Proof.Machine

/-! ## The fences, and the operations that leave them alone

One equation for each operation that changes a die's record and no fence in it: most only count an event of the hub. An operation
that leaves the dies alone has its equation in `Laws/Fields`. -/

/-- The FENCE cause of each die (R22), 0 for one that is not fenced. -/
def Tab.fences (dies : Tab Die) (d : Nat) : Nat := (Tab.get {} dies d).fenced

theorem State.fences_die (s : State) (d : Nat) : (s.die d).fenced = s.dies.fences d := rfl

@[simp] theorem Tab.fences_nil (d : Nat) : Tab.fences [] d = 0 := rfl

/-- An update of a die's record that leaves its fence alone leaves every fence alone. -/
@[simp] theorem Tab.upd_fences (dies : Tab Die) (i : Nat) (f : Die → Die) (hf : ∀ x, (f x).fenced = x.fenced) :
    (Tab.upd {} dies i f).fences = dies.fences := by
  funext d
  unfold Tab.fences
  by_cases h : d = i
  · rw [h, Tab.get_upd_same, hf]
  · rw [Tab.get_upd_other _ _ _ _ _ h]

@[simp] theorem Tab.fences_ite (c : Prop) [Decidable c] (a b : Tab Die) :
    (if c then a else b).fences = if c then a.fences else b.fences := by split <;> rfl

/-- A fold of operations that leave every fence alone leaves every fence alone. -/
@[simp] theorem State.foldl_fences {α : Type} (f : State → α → State) (hf : ∀ t x, (f t x).dies.fences = t.dies.fences)
    (l : List α) (s : State) : (l.foldl f s).dies.fences = s.dies.fences := State.foldl_same (fun s => s.dies.fences) f hf l s

@[simp] theorem State.foldl_updPll_dies (f : State → Nat → Pll → Pll) (ds : List Nat) (s : State) :
    (ds.foldl (fun t d => t.updPll d (f t d)) s).dies = s.dies := State.foldl_dies _ (by intros; rfl) ds s

@[simp] theorem State.foldl_updPll_power (f : State → Nat → Pll → Pll) (ds : List Nat) (s : State) :
    (ds.foldl (fun t d => t.updPll d (f t d)) s).power = s.power := State.foldl_power _ (by intros; rfl) ds s

/-! ### Ops -/

@[simp] theorem State.dieEvent_fences (s : State) (owner die severity code : Nat) (arg : W32) (info : Nat) :
    (s.dieEvent owner die severity code arg info).dies.fences = s.dies.fences := by simp [State.dieEvent]

@[simp] theorem State.moduleEvent_fences (s : State) (severity code : Nat) (arg : W32) (info : Nat) :
    (s.moduleEvent severity code arg info).dies.fences = s.dies.fences := by simp [State.moduleEvent]

/-! ### SessionOps -/

@[simp] theorem State.recordStall_fences (s : State) (i : Nat) :
    (s.recordStall i).dies.fences = s.dies.fences := by simp [State.recordStall]

@[simp] theorem State.ringPut_fences (s : State) (i type : Nat) (rec : Bytes) :
    (s.ringPut i type rec).dies.fences = s.dies.fences := by simp [State.ringPut]

@[simp] theorem State.report_fences (s : State) (i : Nat) (r : Report) :
    (s.report i r).dies.fences = s.dies.fences := by
  unfold State.report
  split <;> simp

@[simp] theorem State.sessionEvent_fences (s : State) (i cause die : Nat) :
    (s.sessionEvent i cause die).dies.fences = s.dies.fences := by simp [State.sessionEvent]

@[simp] theorem State.takeRecord_fences (d c : Nat) (holder : Option Nat) (s : State) (r : Record) :
    (State.takeRecord d c holder s r).dies.fences = s.dies.fences := by
  unfold State.takeRecord
  dsimp only
  (repeat' split) <;> simp

@[simp] theorem State.collect_fences (s : State) (d c : Nat) :
    (s.collect d c).dies.fences = s.dies.fences := by simp [State.collect]

@[simp] theorem State.cancelCore_fences (s : State) (d c : Nat) :
    (s.cancelCore d c).dies.fences = s.dies.fences := by simp [State.cancelCore]

@[simp] theorem State.cancelCores_fences (s : State) (i : Nat) (cs : List (Nat × Nat)) :
    (s.cancelCores i cs).dies.fences = s.dies.fences := by simp [State.cancelCores]

@[simp] theorem State.abandon_fences (s : State) (i : Nat) :
    (s.abandon i).dies.fences = s.dies.fences := by simp [State.abandon]

@[simp] theorem State.leaveCore_fences (s : State) (d c : Nat) :
    (s.leaveCore d c).dies.fences = s.dies.fences := by simp [State.leaveCore]

@[simp] theorem State.bindCores_fences (s : State) (i : Nat) (old : List (Nat × Nat)) (pl : CutPlan) :
    (s.bindCores i old pl).dies.fences = s.dies.fences := by simp [State.bindCores]

@[simp] theorem State.takeCut_fences (s : State) (i : Nat) (pl : CutPlan) (place : Placement) (moved : Bool) :
    (s.takeCut i pl place moved).dies.fences = s.dies.fences := by simp [State.takeCut]

@[simp] theorem State.finishRecut_fences (s : State) (i : Nat) :
    (s.finishRecut i).dies.fences = s.dies.fences := by
  unfold State.finishRecut
  split <;> simp

@[simp] theorem State.finishParked_fences (s : State) (i : Nat) :
    (s.finishParked i).dies.fences = s.dies.fences := by
  unfold State.finishParked
  refine State.foldl_fences _ (fun t k => ?_) _ _
  split
  · rfl
  · dsimp only
    split <;> simp

@[simp] theorem State.loseFrom_fences (s : State) (loss : Loss) (cause die i : Nat) :
    (s.loseFrom loss cause die i).dies.fences = s.dies.fences := by simp [State.loseFrom]

@[simp] theorem State.settleRecuts_fences (s : State) (loss : Loss) :
    (s.settleRecuts loss).dies.fences = s.dies.fences := by simp [State.settleRecuts]

@[simp] theorem State.applyLoss_fences (s : State) (loss : Loss) (cause die : Nat) :
    (s.applyLoss loss cause die).1.dies.fences = s.dies.fences := by simp [State.applyLoss]

@[simp] theorem State.retire_fences (s : State) (d c : Nat) :
    (s.retire d c).dies.fences = s.dies.fences := by simp [State.retire]

/-! ### Owner -/

@[simp] theorem State.setOwner_fences (s : State) (port : Nat) (nonce : W32) (priority cause : Nat) :
    (s.setOwner port nonce priority cause).dies.fences = s.dies.fences := by simp [State.setOwner]

@[simp] theorem State.loseOwner_fences (s : State) (cause : Nat) :
    (s.loseOwner cause).dies.fences = s.dies.fences := by simp [State.loseOwner]

@[simp] theorem State.expireLease_fences (s : State) :
    s.expireLease.dies.fences = s.dies.fences := by simp [State.expireLease]

@[simp] theorem State.closeWindow_fences (s : State) :
    s.closeWindow.dies.fences = s.dies.fences := by
  unfold State.closeWindow
  dsimp only
  (repeat' split) <;> simp

@[simp] theorem State.settleOwner_fences (s : State) :
    s.settleOwner.dies.fences = s.dies.fences := by simp [State.settleOwner]

@[simp] theorem State.claim_fences (s : State) (p k priority : Nat) (nonce : W32) :
    (s.claim p k priority nonce).dies.fences = s.dies.fences := by simp [State.claim]

@[simp] theorem State.heartbeat_fences (s : State) :
    s.heartbeat.dies.fences = s.dies.fences := by simp [State.heartbeat]

/-! ### Mailbox -/

@[simp] theorem State.skipGap_fences (s : State) (p : Nat) :
    (s.skipGap p).dies.fences = s.dies.fences := by
  unfold State.skipGap
  split <;> simp

/-! ### Pcie -/

@[simp] theorem State.losePortOwner_fences (s : State) :
    s.losePortOwner.dies.fences = s.dies.fences := by simp [State.losePortOwner]

@[simp] theorem State.portReset_fences (s : State) (p : Nat) :
    (s.portReset p).dies.fences = s.dies.fences := by simp [State.portReset]

/-! ### Routes -/

@[simp] theorem State.loseCascadePort_fences (s : State) (q : Nat) :
    (s.loseCascadePort q).dies.fences = s.dies.fences := by simp [State.loseCascadePort]

@[simp] theorem State.loseLink_fences (s : State) (q : Nat) :
    (s.loseLink q).dies.fences = s.dies.fences := by simp [State.loseLink]

/-! ### Power -/

@[simp] theorem State.pllDead_fences (s : State) (d : Nat) :
    (s.pllDead d).dies.fences = s.dies.fences := by simp [State.pllDead]

@[simp] theorem State.updateDemands_fences (s : State) :
    s.updateDemands.dies.fences = s.dies.fences := by simp [State.updateDemands]

@[simp] theorem State.dieOff_fences (s : State) (d : Nat) :
    (s.dieOff d).dies.fences = s.dies.fences := by
  unfold State.dieOff
  dsimp only
  split
  · rfl
  · split <;> simp

@[simp] theorem State.diePowerEvent_fences (s : State) :
    s.diePowerEvent.dies.fences = s.dies.fences := by simp [State.diePowerEvent]

/-! ### Thermal -/

@[simp] theorem State.setThrottle_fences (s : State) (k : Nat) :
    (s.setThrottle k).dies.fences = s.dies.fences := by simp [State.setThrottle]

/-! ### Security -/

@[simp] theorem State.fallBack_fences (s : State) (slot : Nat) :
    (s.fallBack slot).dies.fences = s.dies.fences := by simp [State.fallBack]

@[simp] theorem State.fuseWritten_fences (s : State) (op kind slot : Nat) :
    (s.fuseWritten op kind slot).dies.fences = s.dies.fences := by simp [State.fuseWritten]

/-! ### Cascade -/

@[simp] theorem State.unlockTime_fences (s : State) :
    s.unlockTime.dies.fences = s.dies.fences := by simp [State.unlockTime]

@[simp] theorem State.stepTime_fences (s : State) (theta : Int) :
    (s.stepTime theta).dies.fences = s.dies.fences := by simp [State.stepTime]

@[simp] theorem State.takeOffset_fences (s : State) (theta : Int) :
    (s.takeOffset theta).dies.fences = s.dies.fences := by simp [State.takeOffset]

@[simp] theorem State.takeTime_fences (s : State) (q : Nat) (f : Flit) :
    (s.takeTime q f).dies.fences = s.dies.fences := by
  unfold State.takeTime
  dsimp only
  (repeat' split) <;> simp

/-! ### Models -/

@[simp] theorem State.installModel_fences (s : State) (slot source : Nat) (pkg : Bytes) :
    (s.installModel slot source pkg).dies.fences = s.dies.fences := by simp [State.installModel]

@[simp] theorem State.modelRefused_fences (s : State) (a : Answer) (slot : Nat) :
    (s.modelRefused a slot).dies.fences = s.dies.fences := by simp [State.modelRefused]

@[simp] theorem State.loadModel_fences (s : State) (p k slot : Nat) (persist : Bool) (pkg : Bytes) :
    (s.loadModel p k slot persist pkg).dies.fences = s.dies.fences := by
  unfold State.loadModel
  dsimp only
  (repeat' split) <;> simp

/-! ### Sessions -/

@[simp] theorem State.bindPlan_fences (s : State) (i : Nat) (pl : CutPlan) (place : Placement) :
    (s.bindPlan i pl place).dies.fences = s.dies.fences := by simp [State.bindPlan]

@[simp] theorem State.endFault_fences (s : State) (i : Nat) :
    (s.endFault i).dies.fences = s.dies.fences := by simp [State.endFault]

@[simp] theorem State.retireAll_fences (s : State) (l : List (CoreDie × CoreIx)) :
    (s.retireAll l).dies.fences = s.dies.fences := by simp [State.retireAll]

@[simp] theorem State.remap_fences (s : State) (p k i : Nat) (pl : CutPlan) (place : Placement)
    (mismatch : List (CoreDie × CoreIx)) :
    (s.remap p k i pl place mismatch).dies.fences = s.dies.fences := by simp [State.remap]

@[simp] theorem State.recut_fences (s : State) (p k i : Nat) (pl : CutPlan) (place : Placement)
    (mismatch : List (CoreDie × CoreIx)) :
    (s.recut p k i pl place mismatch).dies.fences = s.dies.fences := by simp [State.recut]

@[simp] theorem State.abandonAll_fences (s : State) (i : Nat) :
    (s.abandonAll i).dies.fences = s.dies.fences := by simp [State.abandonAll]

@[simp] theorem State.unbind_fences (s : State) (i : Nat) :
    (s.unbind i).dies.fences = s.dies.fences := by simp [State.unbind]

/-! ### Motion -/

@[simp] theorem State.reportMissingLib_fences (s : State) (i : Nat) (p : Picture) (index : Nat) :
    (s.reportMissingLib i p index).dies.fences = s.dies.fences := by simp [State.reportMissingLib]

/-! ### Video -/

@[simp] theorem State.reportMarks_fences (s : State) (i : Nat) (p : Picture) (missing : List Mark) :
    (s.reportMarks i p missing).dies.fences = s.dies.fences := by simp [State.reportMarks]

@[simp] theorem State.finishPicture_fences (s : State) (i : Nat) (p : Picture) (recon : List Plane)
    (carry : List (List (List W16))) (trouble : Bool) :
    (s.finishPicture i p recon carry trouble).dies.fences = s.dies.fences := by simp [State.finishPicture]

@[simp] theorem State.collectCores_fences (s : State) (i : Nat) :
    (s.collectCores i).dies.fences = s.dies.fences := by simp [State.collectCores]

@[simp] theorem State.reportWriteFail_fences (s : State) (i index : Nat) :
    (s.reportWriteFail i index).dies.fences = s.dies.fences := by simp [State.reportWriteFail]

/-! ### Tutik -/

@[simp] theorem State.dropPicture_fences (s : State) (i : Nat) (poc : W32) (r : Report) :
    (s.dropPicture i poc r).dies.fences = s.dies.fences := by
  unfold State.dropPicture
  dsimp only
  (repeat' split) <;> simp

@[simp] theorem State.truncateGroup_fences (s : State) (i : Nat) (tag : W32) (offset : Nat) :
    (s.truncateGroup i tag offset).dies.fences = s.dies.fences := by
  unfold State.truncateGroup
  dsimp only
  (repeat' split) <;> simp

@[simp] theorem State.concealWhole_fences (s : State) (i : Nat) (p : Picture) :
    (s.concealWhole i p).dies.fences = s.dies.fences := by simp [State.concealWhole]

@[simp] theorem State.settleLost_fences (s : State) (i : Nat) :
    (s.settleLost i).dies.fences = s.dies.fences := by
  unfold State.settleLost
  split <;> simp

@[simp] theorem State.settleEnd_fences (s : State) (i : Nat) :
    (s.settleEnd i).dies.fences = s.dies.fences := by simp [State.settleEnd]

@[simp] theorem State.settleDecode_fences (s : State) (i : Nat) :
    (s.settleDecode i).dies.fences = s.dies.fences := by simp [State.settleDecode]

@[simp] theorem State.skipUnit_fences (s : State) (i : Nat) (u : NextUnit) (r : Report) :
    (s.skipUnit i u r).dies.fences = s.dies.fences := by simp [State.skipUnit]

@[simp] theorem State.misplaced_fences (s : State) (i : Nat) (u : NextUnit) (r : Report) :
    (s.misplaced i u r).dies.fences = s.dies.fences := by simp [State.misplaced]

@[simp] theorem State.dropGroup_fences (s : State) (i : Nat) (u : NextUnit) (r : Report) :
    (s.dropGroup i u r).dies.fences = s.dies.fences := by
  unfold State.dropGroup
  split <;> simp

@[simp] theorem State.endHunt_fences (s : State) (i : Nat) :
    (s.endHunt i).dies.fences = s.dies.fences := by
  unfold State.endHunt
  split <;> simp

@[simp] theorem State.settleRefused_fences (s : State) (i : Nat) :
    (s.settleRefused i).dies.fences = s.dies.fences := by
  unfold State.settleRefused
  dsimp only
  (repeat' split) <;> simp

@[simp] theorem State.reportRefs_fences (s : State) (i : Nat) (u : NextUnit) (poc : W32) (refs : List Ref) :
    (s.reportRefs i u poc refs).dies.fences = s.dies.fences := by simp [State.reportRefs]

@[simp] theorem State.acceptPic_fences (s : State) (i : Nat) (u : NextUnit) (p : Payload) (lost : Option Damage) :
    (s.acceptPic i u p lost).dies.fences = s.dies.fences := by
  unfold State.acceptPic
  split <;> simp

@[simp] theorem State.concealNext_fences (s : State) (i : Nat) (poc : W32) (u : NextUnit) (d : Damage) :
    (s.concealNext i poc u d).dies.fences = s.dies.fences := by simp [State.concealNext]

@[simp] theorem State.skipRows_fences (s : State) (i : Nat) (poc : W32) (u : NextUnit) (p : Payload) :
    (s.skipRows i poc u p).dies.fences = s.dies.fences := by simp [State.skipRows]

@[simp] theorem State.libOp_fences (i : Nat) (u : NextUnit) (p : Payload) (s : State) (o : Nat × Nat × Bytes × Nat) :
    (State.libOp i u p s o).dies.fences = s.dies.fences := by simp [State.libOp]

/-! ### Audio -/

@[simp] theorem State.muteFrame_fences (s : State) (i g : Nat) (c : GroupCfg) (x : FrameInfo) :
    (s.muteFrame i g c x).dies.fences = s.dies.fences := by simp [State.muteFrame]

@[simp] theorem State.muteFrames_fences (s : State) (i g : Nat) (c : GroupCfg) (tag frame : W32) (n : Nat) :
    (s.muteFrames i g c tag frame n).dies.fences = s.dies.fences := by simp [State.muteFrames]

@[simp] theorem State.startFrame_fences (s : State) (i j g : Nat) (c : GroupCfg) (u : NextUnit) (p : Payload) (missing : Nat) :
    (s.startFrame i j g c u p missing).dies.fences = s.dies.fences := by simp [State.startFrame]

@[simp] theorem State.takeFrame_fences (s : State) (i j g : Nat) (c : GroupCfg) (u : NextUnit) (p : Payload) :
    (s.takeFrame i j g c u p).dies.fences = s.dies.fences := by simp [State.takeFrame]

/-! ### Lanes -/

@[simp] theorem State.acceptFlags_fences (s : State) (i : Nat) (u : UnitJob) (poc : W32) (row : Nat) :
    (s.acceptFlags i u poc row).dies.fences = s.dies.fences := by
  unfold State.acceptFlags
  split <;> simp

@[simp] theorem State.finishPic_fences (s : State) (i : Nat) (u : UnitJob) (p : Picture) :
    (s.finishPic i u p).dies.fences = s.dies.fences := by
  unfold State.finishPic
  dsimp only
  (repeat' split) <;> simp

@[simp] theorem State.finishRow_fences (s : State) (i : Nat) (u : UnitJob) (p : Picture) :
    (s.finishRow i u p).dies.fences = s.dies.fences := by
  unfold State.finishRow
  dsimp only
  (repeat' split) <;> simp

@[simp] theorem State.finishAud_fences (s : State) (i : Nat) (u : UnitJob) :
    (s.finishAud i u).dies.fences = s.dies.fences := by
  unfold State.finishAud
  dsimp only
  (repeat' split) <;> simp

@[simp] theorem State.finishUnit_fences (s : State) (i : Nat) (u : UnitJob) :
    (s.finishUnit i u).dies.fences = s.dies.fences := by
  unfold State.finishUnit
  dsimp only
  (repeat' split) <;> simp

/-! ## What a fence does -/

theorem State.dieFenced_iff (s : State) (d : Nat) : s.dieFenced d = true ↔ s.dies.fences d ≠ 0 := decide_eq_true_iff

@[simp] theorem Tab.mark_fences (dies : Tab Die) (d cause : Nat) :
    (Tab.upd {} dies d (fun x => { x with fenced := cause })).fences = fun e => if e = d then cause else dies.fences e := by
  funext e
  unfold Tab.fences
  by_cases he : e = d
  · rw [he, Tab.get_upd_same, if_pos rfl]
  · rw [Tab.get_upd_other _ _ _ _ _ he, if_neg he]

/-- What `State.fence` does to the fences: nothing for the hub or a die already fenced (R28), otherwise the die takes its cause. -/
theorem State.fence_fences (s : State) (d cause : Nat) :
    (s.fence d cause).dies.fences =
      if d = hubDie ∨ s.dies.fences d ≠ 0 then s.dies.fences else fun e => if e = d then cause else s.dies.fences e := by
  have guard : (d = hubDie || s.dieFenced d) = true ↔ d = hubDie ∨ s.dies.fences d ≠ 0 := by simp [State.dieFenced_iff]
  unfold State.fence
  by_cases h : d = hubDie ∨ s.dies.fences d ≠ 0
  · rw [if_pos h, if_pos (guard.mpr h)]
  · rw [if_neg h, if_neg (mt guard.mp h)]
    dsimp only
    (repeat' split) <;> simp

/-- A live die other than the hub takes the cause it is fenced with. -/
theorem State.fence_fences_self (s : State) (d cause : Nat) (hd : d ≠ hubDie) (h : s.dies.fences d = 0) :
    (s.fence d cause).dies.fences d = cause := by
  rw [State.fence_fences, if_neg (by simp [hd, h]), if_pos rfl]

/-! ## Keeping the fences

A command keeps the fences when its next state is stopped or holds every fence of the state before it. The relation composes, so
each operation is looked at once. -/

/-- From `s` to `t` neither a fence nor whether the module runs changed. -/
@[simp] def SameFences (s t : State) : Prop := t.power.running = s.power.running ∧ t.dies.fences = s.dies.fences

/-- If the module runs in `t`, it ran in `s`, and every die fenced in `s` is fenced in `t` for the same cause. -/
def KeepsFences (s t : State) : Prop :=
  t.power.running = true → s.power.running = true ∧ ∀ d, s.dies.fences d ≠ 0 → t.dies.fences d = s.dies.fences d

theorem SameFences.keeps {s t : State} (h : SameFences s t) : KeepsFences s t := by
  obtain ⟨hr, hf⟩ := h
  intro ht
  exact ⟨hr ▸ ht, fun d _ => by rw [hf]⟩

theorem KeepsFences.refl (s : State) : KeepsFences s s := SameFences.keeps ⟨rfl, rfl⟩

theorem KeepsFences.of_stopped {s t : State} (h : t.power.running = false) : KeepsFences s t := by
  intro ht
  rw [h] at ht
  cases ht

theorem KeepsFences.trans {s t u : State} (h₁ : KeepsFences s t) (h₂ : KeepsFences t u) : KeepsFences s u := by
  intro hu
  obtain ⟨ht, hf₂⟩ := h₂ hu
  obtain ⟨hs, hf₁⟩ := h₁ ht
  refine ⟨hs, fun d hd => ?_⟩
  rw [hf₂ d (by rwa [hf₁ d hd]), hf₁ d hd]

/-- An operation that changes no fence may follow one that keeps them. -/
theorem KeepsFences.andSame {s t u : State} (h : KeepsFences s t) (hu : SameFences t u) : KeepsFences s u := h.trans hu.keeps

theorem KeepsFences.updateDemands {s t : State} (h : KeepsFences s t) : KeepsFences s t.updateDemands := h.andSame (by simp)

theorem KeepsFences.ite {c : Prop} [Decidable c] {s t u : State} (ht : KeepsFences s t) (hu : KeepsFences s u) :
    KeepsFences s (if c then t else u) := by
  split
  · exact ht
  · exact hu

/-- A fold of operations that keep the fences keeps them. -/
theorem State.foldl_keepsFences {α : Type} (f : State → α → State) (hf : ∀ t x, KeepsFences t (f t x))
    (l : List α) (s : State) : KeepsFences s (l.foldl f s) := by
  induction l generalizing s with
  | nil => exact .refl s
  | cons a l ih => exact (hf s a).trans (ih _)

/-! ### Operations that fence -/

theorem State.fence_keepsFences (s : State) (d cause : Nat) : KeepsFences s (s.fence d cause) := by
  intro h
  refine ⟨by simpa using h, fun e he => ?_⟩
  rw [State.fence_fences]
  split
  · rfl
  · next hd =>
    have : e ≠ d := fun hed => hd (.inr (hed ▸ he))
    exact if_neg this

theorem State.fencePair_keepsFences (s : State) (x : Nat × Nat) : KeepsFences s (s.fencePair x) := by
  unfold State.fencePair
  split
  · exact State.fence_keepsFences s _ 7
  · exact .refl s

theorem State.fenceUnreachable_keepsFences (s : State) : KeepsFences s s.fenceUnreachable :=
  State.foldl_keepsFences _ State.fencePair_keepsFences _ s

theorem State.edgeFault_keepsFences (s : State) (a b : Nat) : KeepsFences s (s.edgeFault a b) := by
  unfold State.edgeFault
  have faulty : SameFences s { s with faultyEdges := if s.faultyEdges.contains (min a b, max a b) then s.faultyEdges
                                                     else s.faultyEdges ++ [(min a b, max a b)] } := ⟨rfl, rfl⟩
  exact ((faulty.keeps.trans (State.fence_keepsFences _ a 3)).trans (State.fence_keepsFences _ b 3)).trans
    (State.fenceUnreachable_keepsFences _)

theorem State.countRetries_keepsFences (s : State) (d n : Nat) : KeepsFences s (s.countRetries d n) := by
  unfold State.countRetries
  dsimp only
  split
  · exact (SameFences.keeps (by simp)).trans (State.fence_keepsFences _ d 3)
  · exact SameFences.keeps (by simp)

theorem State.uncorrectable_keepsFences (s : State) (md ch : Nat) : KeepsFences s (s.uncorrectable md ch) := by
  unfold State.uncorrectable
  dsimp only
  split
  · exact (SameFences.keeps (by simp)).trans (State.fence_keepsFences _ (memDieIx md) 2)
  · exact SameFences.keeps (by simp)

theorem State.gddrError_keepsFences (s : State) (md addr : Nat) (e : GddrError) : KeepsFences s (s.gddrError md addr e) := by
  cases e with
  | corrected => exact SameFences.keeps (by simp [State.gddrError])
  | uncorrectable => exact (SameFences.keeps (by simp)).trans (State.uncorrectable_keepsFences (s.poisonWord md (addr / 64)) md _)
  | poisonedRead =>
    simp only [State.gddrError]
    split
    · exact State.uncorrectable_keepsFences s md _
    · exact .refl s

theorem State.dieTrip_keepsFences (s : State) (d : Nat) (temp : Int) : KeepsFences s (s.dieTrip d temp) := by
  unfold State.dieTrip
  split
  · exact .refl s
  · exact (SameFences.keeps (by simp)).trans (State.fence_keepsFences _ d 5)

theorem State.countEcc_keepsFences (s : State) (d : TransferDesc) : KeepsFences s (s.countEcc d) := by
  unfold State.countEcc
  split
  · split
    · exact State.uncorrectable_keepsFences s _ _
    · exact .refl s
  all_goals exact SameFences.keeps (by simp)

/-! ### Operations that stop the module -/

@[simp] theorem State.loseVolatile_stops (s : State) : s.loseVolatile.power.running = false := rfl
@[simp] theorem State.railsOff_stops (s : State) (reason : Nat) : (s.railsOff reason).power.running = false := rfl
@[simp] theorem State.hubFault_stops (s : State) (cause : Nat) : (s.hubFault cause).power.running = false := by
  simp [State.hubFault]
@[simp] theorem State.unpowered_stops (s : State) (aux : Bool) : (s.unpowered aux).power.running = false := rfl
@[simp] theorem State.moduleResetState_stops (s : State) : s.moduleResetState.power.running = false := rfl

theorem State.supplyFault_keepsFences (s : State) : KeepsFences s s.supplyFault := by
  unfold State.supplyFault
  split
  · exact .of_stopped (by simp)
  · exact .refl s

theorem State.sequenceRails_keepsFences (s : State) (failing : List Rail) : KeepsFences s (s.sequenceRails failing) := by
  unfold State.sequenceRails
  split
  · exact .of_stopped (by simp)
  · exact SameFences.keeps ⟨rfl, rfl⟩

theorem State.moduleTrip_keepsFences (s : State) (reason cause : Nat) : KeepsFences s (s.moduleTrip reason cause) := by
  unfold State.moduleTrip
  split
  · exact .of_stopped (by simp)
  · exact SameFences.keeps (by simp)

theorem State.pllLossEffect_keepsFences (s : State) (d : Nat) : KeepsFences s (s.pllLossEffect d) := by
  unfold State.pllLossEffect
  split
  · exact .of_stopped (by simp)
  · split <;> exact SameFences.keeps (by simp)

theorem State.pllFailEffect_keepsFences (s : State) (d : Nat) : KeepsFences s (s.pllFailEffect d) := by
  unfold State.pllFailEffect
  dsimp only
  split
  · exact .of_stopped (by simp)
  split
  · exact State.fence_keepsFences s d 6
  split
  · exact State.foldl_keepsFences _ (fun t c => State.fence_keepsFences t c 6) _ s
  split
  · exact State.fence_keepsFences s _ 6
  split
  · exact State.fence_keepsFences s _ 6
  split
  · exact State.fence_keepsFences s linkDie 6
  · exact SameFences.keeps (by simp)

/-! ### Transfers, and the operations that touch the power state alone -/

theorem State.finishTransfer_keepsFences (s : State) (md q : Nat) (t : Transfer) (badRead : Bool) (landed : Nat) :
    KeepsFences s (s.finishTransfer md q t badRead landed) := by
  unfold State.finishTransfer
  split
  · exact SameFences.keeps (by simp)
  · dsimp only
    split
    · exact (SameFences.keeps (by simp)).trans (State.countEcc_keepsFences _ t.desc)
    · exact SameFences.keeps (by simp)

theorem State.landStitch_keepsFences (s : State) (md q : Nat) (badRead : Bool) (landed : Nat) :
    KeepsFences s (s.landStitch md q badRead landed) := by
  unfold State.landStitch
  dsimp only
  split
  · exact .refl s
  split
  · exact .refl s
  · next t _ =>
    split
    · exact (SameFences.keeps (by simp)).trans (State.countEcc_keepsFences _ t.desc)
    · exact SameFences.keeps (by simp)

@[simp] theorem State.wakeUp_running (s : State) : s.wakeUp.power.running = s.power.running := rfl

@[simp] theorem State.writeSmbus_running (s : State) (code v : Nat) : (s.writeSmbus code v).power.running = s.power.running := by
  unfold State.writeSmbus
  (repeat' split) <;> simp

@[simp] theorem State.writeReg_running (s : State) (w : Writer) (addr : Nat) (data : Bytes) :
    (s.writeReg w addr data).power.running = s.power.running := by
  unfold State.writeReg
  (repeat' split) <;> simp

/-! ## The rows -/

/-- Where the row answers a next state, it keeps the fences. -/
def FencesKept (r : Result) (s : State) : Prop := ∀ t, r = .next t → KeepsFences s t

theorem FencesKept.next {s t : State} (h : KeepsFences s t) : FencesKept (.next t) s := by
  intro u hu
  cases hu
  exact h

theorem State.elapse_keepsFences (s : State) (dt : Nat) : KeepsFences s (s.elapse dt) := SameFences.keeps ⟨rfl, rfl⟩

theorem State.checked_keepsFences {s : State} {p k : Nat} {checks : List (Bool × Answer)} {ok : State → State}
    (h : ∀ t, KeepsFences t (ok t)) : KeepsFences s (s.checked p k checks ok) := by
  unfold State.checked
  split
  · exact SameFences.keeps (by simp)
  · exact h s

theorem State.sessionChecked_keepsFences {s : State} {p k i : Nat} {checks : List (Bool × Answer)} {ok : State → State}
    (h : ∀ t, KeepsFences t (ok t)) : KeepsFences s (s.sessionChecked p k i checks ok) := by
  unfold State.sessionChecked
  split
  · exact SameFences.keeps (by simp)
  · exact h s

theorem State.takeSequenced_keepsFences {s : State} {q n : Nat} {f : Flit} {effect : State → State}
    (h : ∀ t, KeepsFences t (effect t)) : KeepsFences s (s.takeSequenced q n f effect) := by
  unfold State.takeSequenced
  split
  · exact SameFences.keeps (by simp)
  · dsimp only
    split
    · exact SameFences.keeps (by simp)
    · exact (SameFences.keeps (by simp)).trans (h _)

theorem State.command_keepsFences {s : State} {p k : Nat} {mine : Nat → Bytes → Bool} {body : State → Bytes → State}
    (h : ∀ t r, KeepsFences t (body t r)) : KeepsFences s (s.command p k mine body) := by
  unfold State.command
  dsimp only
  split
  · exact .refl s
  split
  · exact SameFences.keeps (by simp)
  split
  · exact SameFences.keeps (by simp)
  split
  · exact (SameFences.keeps (by simp)).trans (h (s.accept p k) _)
  · exact .refl s

theorem State.event_keepsFences {s : State} {dt : Nat} {ready : State → Bool} {effect : State → State}
    (h : ∀ t, KeepsFences t (effect t)) : FencesKept (s.event dt ready effect) s := by
  refine FencesKept.next ((s.elapse_keepsFences dt).trans ?_)
  split
  · exact h _
  · exact .refl _

theorem State.coreEvent_keepsFences {s : State} {dt d c : Nat} {ready : Core → Bool} {effect : Core → Core} :
    FencesKept (s.coreEvent dt d c ready effect) s := State.event_keepsFences fun _ => SameFences.keeps ⟨rfl, rfl⟩

theorem State.microStep_keepsFences {s : State} {dt op : Nat} {d : CoreDie} {c : CoreIx} {st : StepOps} :
    FencesKept (s.microStep dt op d c st) s := State.coreEvent_keepsFences

theorem State.descRow_keepsFences {s : State} {dt : Nat} {die : CoreDie} {core : CoreIx} {op : Nat} {run : Desc → Core → Done} :
    FencesKept (s.descRow dt die core op run) s := State.event_keepsFences fun _ => SameFences.keeps (by simp)

theorem State.mailboxRow_keepsFences {s : State} {dt : Nat} {p : Port} {k : Slot} {mine : Nat → Bytes → Bool}
    {body : State → Bytes → State} (h : ∀ t r, KeepsFences t (body t r)) : FencesKept (s.mailboxRow dt p k mine body) s :=
  FencesKept.next ((s.elapse_keepsFences dt).trans (State.command_keepsFences h))

theorem State.sessionRow_keepsFences {s : State} {dt : Nat} {p : Port} {k : Slot} {op : Nat} {late : State → Nat → Bool}
    {body : State → Bytes → State} {ask : State → Bytes → Option (Recut × Bool)} (h : ∀ t r, KeepsFences t (body t r)) :
    FencesKept (s.sessionRow dt p k op late body ask) s := by
  unfold State.sessionRow
  dsimp only
  split
  · split
    · exact FencesKept.next ((SameFences.keeps ⟨rfl, rfl⟩).trans (h _ _))
    · exact FencesKept.next (s.elapse_keepsFences dt)
  · refine FencesKept.next ((s.elapse_keepsFences dt).trans (State.command_keepsFences fun t r => ?_))
    split
    · exact SameFences.keeps ⟨rfl, rfl⟩
    · exact h t r

/-- A unit that is taken changes no fence. -/
@[simp] def SameIfTaken (s : State) : Option State → Prop
  | none => True
  | some b => SameFences s b

theorem State.unitRow_keepsFences {s : State} {dt i : Nat} {want : Nat → Bool} {body : State → NextUnit → Nat → Option State}
    (h : ∀ t u n, SameIfTaken t (body t u n)) : FencesKept (s.unitRow dt i want body) s := by
  refine FencesKept.next ((s.elapse_keepsFences dt).trans ?_)
  split
  · exact .refl _
  split
  · exact .refl _
  dsimp only
  split
  · exact .refl _
  split
  · exact SameFences.keeps (by simp)
  split
  · exact SameFences.keeps (by simp)
  split
  · exact .refl _
  · next b hb =>
    have taken : SameIfTaken ((s.elapse dt).settleRefused i) (some b) := hb ▸ h _ _ _
    exact ((SameFences.keeps (by simp)).trans taken.keeps).andSame (by simp)


/-! ### Commands that fence no die -/

theorem execClaim_keepsFences (dt : Nat) (p : Port) (k : Slot) (s : State) : FencesKept (execClaim dt p k s) s :=
  State.mailboxRow_keepsFences fun t r => (SameFences.keeps (by simp)).trans
    (State.checked_keepsFences fun u => SameFences.keeps (by simp))

theorem execSessionStatus_keepsFences (dt : Nat) (p : Port) (k : Slot) (s : State) : FencesKept (execSessionStatus dt p k s) s :=
  State.mailboxRow_keepsFences fun t r => State.sessionChecked_keepsFences fun u => SameFences.keeps (by simp)

theorem execDiesOn_keepsFences (dt : Nat) (p : Port) (k : Slot) (s : State) : FencesKept (execDiesOn dt p k s) s := by
  refine State.mailboxRow_keepsFences fun t r => State.checked_keepsFences fun u => ?_
  dsimp only
  split
  · exact SameFences.keeps (by simp)
  · refine State.foldl_keepsFences _ (fun v d => ?_) _ u
    split <;> exact SameFences.keeps (by simp)

theorem execDiePowerOnComplete_keepsFences (dt : Nat) (die : DieIx) (mismatch : List CoreIx) (s : State) :
    FencesKept (execDiePowerOnComplete dt die mismatch s) s := by
  refine State.event_keepsFences fun t => SameFences.keeps ?_
  dsimp only
  split <;> simp

theorem execCascadeData_keepsFences (dt : Nat) (q : Fin 4) (f : Flit) (s : State) : FencesKept (execCascadeData dt q f s) s :=
  State.event_keepsFences fun t => (SameFences.keeps (by simp)).trans
    (State.takeSequenced_keepsFences (s := t.decoded q.val f) fun u => SameFences.keeps (by simp))

theorem execCascadeTime_keepsFences (dt : Nat) (q : Fin 4) (f : Flit) (s : State) : FencesKept (execCascadeTime dt q f s) s :=
  State.event_keepsFences fun t => (SameFences.keeps (by simp)).trans
    (State.takeSequenced_keepsFences (s := t.decoded q.val f) fun u => SameFences.keeps (by simp))

/-! ### Commands that can fence a die or stop the module -/

theorem execAuxPowerOn_keepsFences (dt : Nat) (s : State) : FencesKept (execAuxPowerOn dt s) s :=
  State.event_keepsFences fun _ => .of_stopped (by simp)

theorem execAuxPowerOff_keepsFences (dt : Nat) (s : State) : FencesKept (execAuxPowerOff dt s) s :=
  State.event_keepsFences fun _ => .of_stopped (by simp)

theorem execSupply54vRemoved_keepsFences (dt mv10 : Nat) (s : State) : FencesKept (execSupply54vRemoved dt mv10 s) s :=
  State.event_keepsFences fun t => ((SameFences.keeps (by simp)).trans (t.setV54 mv10).supplyFault_keepsFences).andSame (by simp)

theorem execRailSequence_keepsFences (dt : Nat) (failing : List Rail) (s : State) : FencesKept (execRailSequence dt failing s) s :=
  State.event_keepsFences fun t => t.sequenceRails_keepsFences failing

theorem execRailSequenceRetry_keepsFences (dt : Nat) (failing : List Rail) (s : State) :
    FencesKept (execRailSequenceRetry dt failing s) s :=
  State.event_keepsFences fun t => t.sequenceRails_keepsFences failing

theorem execRailFault_keepsFences (dt : Nat) (rail : Rail) (s : State) : FencesKept (execRailFault dt rail s) s := by
  refine State.event_keepsFences fun t => ?_
  split
  · exact SameFences.keeps ⟨rfl, rfl⟩
  · exact .of_stopped rfl

theorem execSupplyFault_keepsFences (dt mv10 : Nat) (s : State) : FencesKept (execSupplyFault dt mv10 s) s :=
  State.event_keepsFences fun t => (SameFences.keeps (by simp)).trans (t.setV54 mv10).supplyFault_keepsFences

theorem execModuleReset_keepsFences (dt : Nat) (s : State) : FencesKept (execModuleReset dt s) s := by
  refine State.event_keepsFences fun t => ?_
  dsimp only
  split
  · exact .of_stopped (by simp)
  split
  · exact .of_stopped (by simp)
  · exact SameFences.keeps ⟨rfl, rfl⟩

theorem execPllWindow_keepsFences (dt : Nat) (domain : Fin 60) (count256 : Nat) (s : State) :
    FencesKept (execPllWindow dt domain count256 s) s := by
  refine State.event_keepsFences fun t => ?_
  dsimp only
  split
  · exact (SameFences.keeps (by simp)).trans ((t.pllDead domain.val).pllLossEffect_keepsFences domain.val)
  · split <;> exact SameFences.keeps (by simp)

theorem execPllStartTimeout_keepsFences (dt : Nat) (domain : Fin 60) (s : State) :
    FencesKept (execPllStartTimeout dt domain s) s := by
  refine State.event_keepsFences fun t => ?_
  split
  · exact SameFences.keeps ⟨rfl, rfl⟩
  · exact (SameFences.keeps (by simp)).trans ((t.pllDead domain.val).pllFailEffect_keepsFences domain.val)

theorem execRefclkMissing_keepsFences (dt cycles : Nat) (s : State) : FencesKept (execRefclkMissing dt cycles s) s := by
  refine State.event_keepsFences fun t => ?_
  dsimp only
  split
  · exact .of_stopped (by simp)
  · exact SameFences.keeps (by simp)

theorem execFlitCrcFail_keepsFences (dt : Nat) (die : DieIx) (edge : Fin 4) (attempts : Fin 6) (s : State) :
    FencesKept (execFlitCrcFail dt die edge attempts s) s := by
  refine State.event_keepsFences fun t => ?_
  split
  · exact .refl t
  · next other _ =>
    dsimp only
    refine KeepsFences.trans (((SameFences.keeps ?_).trans (State.countRetries_keepsFences _ die.val (min 4 attempts.val))).trans
      (State.countRetries_keepsFences _ other (min 4 attempts.val))) (KeepsFences.ite (State.edgeFault_keepsFences _ _ _) (.refl _))
    simp

theorem execSramUncorrectableEcc_keepsFences (dt : Nat) (die : DieIx) (core : Option CoreIx) (s : State) :
    FencesKept (execSramUncorrectableEcc dt die core s) s := by
  refine State.event_keepsFences fun t => ?_
  split
  · exact .of_stopped (by simp)
  split
  · dsimp only
    split
    · exact ((SameFences.keeps (by simp)).trans (t.draw.fence_keepsFences die.val 1)).andSame (by simp)
    · exact t.fence_keepsFences die.val 1
  · exact t.fence_keepsFences die.val 1

theorem execDieWatchdogExpiry_keepsFences (dt : Nat) (die : DieIx) (s : State) : FencesKept (execDieWatchdogExpiry dt die s) s := by
  refine State.event_keepsFences fun t => ?_
  split
  · exact .of_stopped (by simp)
  · exact t.fence_keepsFences die.val 4

theorem execHubWatchdogExpiry_keepsFences (dt : Nat) (s : State) : FencesKept (execHubWatchdogExpiry dt s) s :=
  State.event_keepsFences fun _ => .of_stopped (by simp)

theorem execStandbyEntry_keepsFences (dt : Nat) (s : State) : FencesKept (execStandbyEntry dt s) s :=
  State.event_keepsFences fun _ => .of_stopped rfl

theorem execJunctionSensorRead_keepsFences (dt : Nat) (die : DieIx) (raw : List Int) (inputW inputMv10 : Nat) (s : State) :
    FencesKept (execJunctionSensorRead dt die raw inputW inputMv10 s) s := by
  refine State.event_keepsFences fun t => ?_
  dsimp only
  split
  · exact SameFences.keeps (by simp)
  split
  · exact (SameFences.keeps (by simp)).trans (State.moduleTrip_keepsFences _ _ _)
  · refine KeepsFences.updateDemands ?_
    exact (SameFences.keeps (by simp)).trans (State.dieTrip_keepsFences _ _ _)

theorem execGddr7TempRead_keepsFences (dt : Nat) (md : MemDie) (temps : List Int) (s : State) :
    FencesKept (execGddr7TempRead dt md temps s) s := by
  refine State.event_keepsFences fun t => ?_
  dsimp only
  split
  · exact SameFences.keeps (by simp)
  · refine KeepsFences.updateDemands ?_
    exact (SameFences.keeps (by simp)).trans (State.dieTrip_keepsFences _ _ _)

theorem execCoolantSensorRead_keepsFences (dt : Nat) (inlet outlet : Option Int) (s : State) :
    FencesKept (execCoolantSensorRead dt inlet outlet s) s := by
  refine State.event_keepsFences fun t => ?_
  dsimp only
  refine KeepsFences.ite (KeepsFences.trans ?_ (State.moduleTrip_keepsFences _ _ _)) ?_ <;> exact SameFences.keeps (by simp)

theorem execBar2Read_keepsFences (dt : Nat) (p : PciePort) (offset : Nat) (len : Fin 65) (s : State) :
    FencesKept (execBar2Read dt p offset len s) s := by
  refine State.event_keepsFences fun t => ?_
  dsimp only
  split
  · exact SameFences.keeps (by simp)
  split
  · exact (t.uncorrectable_keepsFences _ _).andSame ⟨rfl, rfl⟩
  · exact SameFences.keeps (by simp)

theorem execGddr7AccessError_keepsFences (dt : Nat) (md : MemDie) (addr : Nat) (err : GddrError) (s : State) :
    FencesKept (execGddr7AccessError dt md addr err s) s :=
  State.event_keepsFences fun t => t.gddrError_keepsFences md.val addr err

theorem execPatrolScrub_keepsFences (dt : Nat) (md : MemDie) (addr : Nat) (found : Option GddrError) (s : State) :
    FencesKept (execPatrolScrub dt md addr found s) s := by
  refine State.event_keepsFences fun t => ?_
  split
  · exact .refl t
  · exact t.gddrError_keepsFences md.val addr _

theorem execMemoryTrained_keepsFences (dt : Nat) (seedFail trainFail : List (MemDie × Fin 8))
    (mismatch : List (CoreDie × CoreIx)) (s : State) : FencesKept (execMemoryTrained dt seedFail trainFail mismatch s) s := by
  refine State.event_keepsFences fun t => ?_
  refine KeepsFences.trans ?_ (State.foldl_keepsFences _ (fun u x => ?_) mismatch _)
  · exact (SameFences.keeps (by simp)).trans (State.foldl_keepsFences _ (fun u x => u.fence_keepsFences _ 6) trainFail _)
  · split
    · exact SameFences.keeps (by simp)
    · exact .refl u

theorem execTransferComplete_keepsFences (dt : Nat) (md : MemDie) (q : QueueIx) (stitch badRead : Bool) (landed : Nat) (s : State) :
    FencesKept (execTransferComplete dt md q stitch badRead landed s) s := by
  refine State.event_keepsFences fun t => ?_
  split
  · exact t.landStitch_keepsFences md.val q.val badRead landed
  split
  · exact .refl t
  · next x _ _ => exact (t.finishTransfer_keepsFences md.val q.val x badRead landed).andSame (by simp)

/-- Every command but BOOT keeps the fences. -/
theorem exec_keepsFences (c : Instr) (s : State) (hc : ∀ dt straps, c ≠ .boot dt straps) : FencesKept (exec c s) s := by
  cases c with
  | boot dt straps => exact absurd rfl (hc dt straps)
  -- Descriptors, micro-program steps and events of one core change that core alone.
  | conv | matmul | pool | elem | act | softmax | norm | sort | quant | micro =>
    simp only [exec]
    exact State.descRow_keepsFences
  | stepAdd | stepSub | stepMul | stepFma | stepMin | stepMax | stepDiv | stepSqrt | stepFloor | stepLdexp | stepSellt
  | stepLookup | stepLookup2 | stepCall =>
    simp only [exec]
    exact State.microStep_keepsFences
  | shadowWrite | shadowValidSet | swapNow | explicitSwap | bankOn | bankRetain | bankOff | bankGroupReady =>
    simp only [exec]
    exact State.coreEvent_keepsFences
  -- Events whose effect changes no fence, whichever way it goes.
  | supply54vRestored | perstAssert | perstRelease | refclkPresent | tapReset | bypass | idcode | samplePreload | extest
  | completionRecord | scratchCorrectedError | rowCancelRead | handoverEffect | queueEnable | feederDescriptorFetch | queueCancel
  | creditReturn | boundaryPre | cinchRelease | cinchTimeout | searchRow | predictRow | librarySearch | gainAllocation | phase2Start
  | phase2Rerun | frameBufferRelease | libraryWriteComplete | outputStall | remapGraceExpiry | recutCoreRelease | mailboxSeal
  | slotStateWrite | seqGap | electionWindowClose | leaseExpired | handoverLapsed | mbxOffset | mbxWrite | mbxRead | alertResponse
  | wake | tripLatchedClear | timeLoRead | logNextLoRead | registerWrite | eventCommit | dieProgressReport | completionRingCollect
  | mirrorPush | counterWindowRefresh | pcieLinkUp | flr | surpriseLinkDown | pmStateWrite | bar2Write | cxlPortUp | cxlDown
  | cxlRetrain | gddr7Retrain | cascadeRetry | cascadeId | cascadeIdle | cascadeCrcFail | cascadeMbxWrite | cascadeMbxRead
  | timeUnlocked | cascadePortTrained | linkLost | linkRetrain | masterLost | throttleLower | throttleFastDrop | throttleRaise
  | mailboxServiceStart | sessionVectorCoalesce | pcieControllersReady | configurationWrite =>
    simp only [exec]
    exact State.event_keepsFences fun t => SameFences.keeps (by simp)
  | cancelDrained | pourStepAdvance | seamRowArrival | copyIn | cinchArrive | poolGrant | mbxData | notice | masterElection
  | imageVerified | stageComplete | calWriteComplete | quoteSigned =>
    simp only [exec]
    refine State.event_keepsFences fun t => SameFences.keeps ?_
    split <;> simp
  | supplyWarn | libraryStageComplete | phase1Start | picCommit | rowCommit | phase2Done | pictureWatchdog | modelReload
  | timeRequest =>
    simp only [exec]
    refine State.event_keepsFences fun t => SameFences.keeps ?_
    dsimp only
    (repeat' split) <;> simp
  | handoverRequest | feederRowLanded | substreamEncode | substreamDecode | audioFrameEncode | audCommit | audioSynthesisDone
  | audioWatchdog | drainComplete | reservedUnitType =>
    dsimp only [exec, execHandoverRequest, execFeederRowLanded, execSubstreamEncode, execSubstreamDecode,
      execAudioFrameEncode, execAudCommit, execAudioSynthesisDone, execAudioWatchdog,
      execDrainComplete, execReservedUnitType]
    refine State.event_keepsFences fun t => SameFences.keeps ?_
    (repeat' split) <;> simp
  -- Mailbox commands: the checks answer, or the body changes no fence.
  | ping | deviceInfo | heartbeat | handover | accept | release | eventRead | modelUnload | modelList | stage | activate
  | commitSvn | enrolModelKey | revokeKey | signQuote | readQuoteChunk | readLogChunk | readCertChunk | calRead | calWrite | setCap
  | diesOff | moduleStandby | routeAdd | routeRemove =>
    simp only [exec]
    exact State.mailboxRow_keepsFences fun t r => State.checked_keepsFences fun u => SameFences.keeps (by simp)
  | modelLoad =>
    simp only [exec]
    exact State.mailboxRow_keepsFences fun t r => State.checked_keepsFences fun u => SameFences.keeps (by split <;> simp)
  | configure | bind | start | recut | drain | abort | unbind | close | picture | streamSlot | outSlot | audioBlock =>
    simp only [exec]
    exact State.sessionRow_keepsFences fun t r => State.sessionChecked_keepsFences fun u => SameFences.keeps (by simp)
  -- Units of a session's stream.
  | unitMdl | unitSeq | unitPic | unitRow | unitAud | unitLib | unitEnd | extensionUnit =>
    simp only [exec]
    refine State.unitRow_keepsFences fun t u n => ?_
    dsimp only
    (repeat' split) <;> simp
  -- The commands that can fence a die or stop the module, and those that need a lemma of their own.
  | auxPowerOn dt => exact execAuxPowerOn_keepsFences dt s
  | auxPowerOff dt => exact execAuxPowerOff_keepsFences dt s
  | supply54vRemoved dt mv10 => exact execSupply54vRemoved_keepsFences dt mv10 s
  | railSequence dt failing => exact execRailSequence_keepsFences dt failing s
  | railFault dt rail => exact execRailFault_keepsFences dt rail s
  | supplyFault dt mv10 => exact execSupplyFault_keepsFences dt mv10 s
  | moduleReset dt => exact execModuleReset_keepsFences dt s
  | pllStartTimeout dt domain => exact execPllStartTimeout_keepsFences dt domain s
  | pllWindow dt domain count256 => exact execPllWindow_keepsFences dt domain count256 s
  | refclkMissing dt cycles => exact execRefclkMissing_keepsFences dt cycles s
  | flitCrcFail dt die edge attempts => exact execFlitCrcFail_keepsFences dt die edge attempts s
  | sramUncorrectableEcc dt die core => exact execSramUncorrectableEcc_keepsFences dt die core s
  | dieWatchdogExpiry dt die => exact execDieWatchdogExpiry_keepsFences dt die s
  | hubWatchdogExpiry dt => exact execHubWatchdogExpiry_keepsFences dt s
  | transferComplete dt md q stitch badRead landed => exact execTransferComplete_keepsFences dt md q stitch badRead landed s
  | claim dt port slot => exact execClaim_keepsFences dt port slot s
  | diesOn dt port slot => exact execDiesOn_keepsFences dt port slot s
  | diePowerOnComplete dt die mismatch => exact execDiePowerOnComplete_keepsFences dt die mismatch s
  | standbyEntry dt => exact execStandbyEntry_keepsFences dt s
  | sessionStatus dt port slot => exact execSessionStatus_keepsFences dt port slot s
  | bar2Read dt p offset len => exact execBar2Read_keepsFences dt p offset len s
  | memoryTrained dt seedFail trainFail mismatch => exact execMemoryTrained_keepsFences dt seedFail trainFail mismatch s
  | gddr7AccessError dt md addr err => exact execGddr7AccessError_keepsFences dt md addr err s
  | patrolScrub dt md addr found => exact execPatrolScrub_keepsFences dt md addr found s
  | cascadeData dt q f => exact execCascadeData_keepsFences dt q f s
  | cascadeTime dt q f => exact execCascadeTime_keepsFences dt q f s
  | junctionSensorRead dt die raw inputW inputMv10 => exact execJunctionSensorRead_keepsFences dt die raw inputW inputMv10 s
  | gddr7TempRead dt md temps => exact execGddr7TempRead_keepsFences dt md temps s
  | coolantSensorRead dt inlet outlet => exact execCoolantSensorRead_keepsFences dt inlet outlet s
  | railSequenceRetry dt failing => exact execRailSequenceRetry_keepsFences dt failing s

/-! ## A step -/

/-- BOOT is ignored and changes no die, or it counts a boot. -/
theorem execBoot_keepsFences_or_boots (dt : Nat) (straps : BitVec 4) (s t : State) (h : execBoot dt straps s = .next t) :
    KeepsFences s t ∨ t.boot.boots ≠ s.boot.boots := by
  unfold execBoot State.event at h
  injection h with h
  subst h
  split
  · dsimp only
    split
    · exact .inl (SameFences.keeps ⟨rfl, rfl⟩)
    · refine .inr ?_
      rw [State.foldl_boot _ (by simp)]
      show (s.boot.boots + 1) % 65536 ≠ s.boot.boots
      omega
  · exact .inl (s.elapse_keepsFences dt)

theorem exec_keepsFences_or_boots (c : Instr) (s t : State) (h : exec c s = .next t) :
    KeepsFences s t ∨ t.boot.boots ≠ s.boot.boots := by
  by_cases hc : ∃ dt straps, c = .boot dt straps
  · obtain ⟨dt, straps, rfl⟩ := hc
    exact execBoot_keepsFences_or_boots dt straps s t h
  · exact .inl (exec_keepsFences c s (fun dt straps e => hc ⟨dt, straps, e⟩) t h)

theorem step_keepsFences_or_boots (s t : State) (h : step s = .next t) : KeepsFences s t ∨ t.boot.boots ≠ s.boot.boots := by
  unfold step at h
  split at h
  · cases h
    exact .inl (.refl s)
  · next c rest _ => exact exec_keepsFences_or_boots c { s with pending := rest } t h

/-! ## The reset that clears the fences, and the fault that sets one again -/

theorem State.event_of_ready (s : State) (dt : Nat) {ready : State → Bool} (effect : State → State)
    (h : ready (s.elapse dt) = true) : s.event dt ready effect = .next (effect (s.elapse dt)) := by
  unfold State.event
  dsimp only
  rw [if_pos h]

/-- A module reset leaves no die fenced (R30). -/
theorem execModuleReset_unfences (dt : Nat) (s : State) (haux : s.board.aux = true)
    (hon : s.power.running = true ∨ s.power.railsOn = true) :
    ∃ t, execModuleReset dt s = .next t ∧ ∀ d, t.dies.fences d = 0 := by
  refine ⟨_, s.event_of_ready dt _ haux, fun d => ?_⟩
  dsimp only
  split
  · rfl
  · next stopped =>
    have rails : (s.elapse dt).power.railsOn = true := hon.resolve_left stopped
    rw [if_pos rails]
    rfl

/-- A boot with every die's rail on starts the module with no die fenced. -/
theorem execBoot_unfences (dt : Nat) (straps : BitVec 4) (s : State) (haux : s.board.aux = true) (hreset : s.board.modResetN = false)
    (hgood : s.power.pwrGood = true) (hclk : s.clocks.refclkOk = true) (hrails : s.power.dieRailOff = []) :
    ∃ t, execBoot dt straps s = .next t ∧ t.power.running = true ∧ ∀ d, t.dies.fences d = 0 := by
  refine ⟨_, s.event_of_ready dt _ (by simp [haux, hreset]), ?_⟩
  simp [State.loseVolatile, hgood, hclk, hrails]

theorem execDieWatchdogExpiry_fences (dt : Nat) (die : DieIx) (s : State) (hrun : s.power.running = true) (hd : die.val ≠ hubDie)
    (hlive : s.dies.fences die.val = 0) : ∃ t, execDieWatchdogExpiry dt die s = .next t ∧ t.dies.fences die.val = 4 := by
  refine ⟨_, s.event_of_ready dt _ hrun, ?_⟩
  rw [if_neg hd]
  exact State.fence_fences_self _ _ 4 hd hlive

theorem execSramUncorrectableEcc_fences (dt : Nat) (die : DieIx) (core : Option CoreIx) (s : State) (hrun : s.power.running = true)
    (hd : die.val ≠ hubDie) (hlive : s.dies.fences die.val = 0) :
    ∃ t, execSramUncorrectableEcc dt die core s = .next t ∧ t.dies.fences die.val = 1 := by
  have live : (s.elapse dt).dieFenced die.val = false := by
    rw [← Bool.not_eq_true, State.dieFenced_iff]
    exact not_not_intro hlive
  refine ⟨_, s.event_of_ready dt _ (by simp [hrun, live]), ?_⟩
  rw [if_neg hd]
  split
  · dsimp only
    split <;> exact State.fence_fences_self _ _ 1 hd hlive
  · exact State.fence_fences_self _ _ 1 hd hlive

/-- Settles O60: a step that does not boot keeps every fence or stops the module, looked at command by command; a module reset and
a boot drop the dies' records, and an ECC error or a silent watchdog fences a live die. -/
theorem fencedDiesStayFenced : Obligations.FencedDiesStayFenced := by
  unfold Obligations.FencedDiesStayFenced
  simp only [State.fences_die]
  refine ⟨fun s t hstep hrun hboots d hd => ?_, fun s dt haux => ⟨fun hon => ?_, fun straps hreset hgood hclk hrails => ?_⟩,
    fun s dt die core hrun hd hlive => ⟨?_, ?_⟩⟩
  · obtain hkeeps | hbooted := step_keepsFences_or_boots s t hstep
    · exact (hkeeps hrun).2 d hd
    · exact absurd hboots hbooted
  · exact execModuleReset_unfences dt s haux hon
  · exact execBoot_unfences dt straps s haux hreset hgood hclk hrails
  · obtain ⟨t, ht, hf⟩ := execSramUncorrectableEcc_fences dt die core s hrun hd hlive
    exact ⟨t, ht, fun h => by rw [hf] at h; cases h⟩
  · obtain ⟨t, ht, hf⟩ := execDieWatchdogExpiry_fences dt die s hrun hd hlive
    exact ⟨t, ht, fun h => by rw [hf] at h; cases h⟩

end Sys2Proof.Machine

/-! # The cap of a picture (R201, R203, R226)

O50 fails at one clause, about the sessions that PIC_COMMIT does not name, in a session table that is not canonical; in a canonical table
that clause holds (`execPicCommit_session_other`). What R203 says of the cap needs no such table: PIC_COMMIT and ROW_COMMIT keep it
(`execPicCommit_keepsCap`, `execRowCommit_keepsCap`). -/

namespace Sys2Proof.Machine

/-! ## Mapping a table -/

/-- A function that fixes the element at a key leaves it there, where a key whose element is the default is not listed. -/
theorem Tab.get_mapAll_of_fixed {α : Type} [DecidableEq α] (d : α) (t : Tab α) (f : Nat → α → α) (k : Nat)
    (hd : Tab.get d t k = d → ∀ p ∈ t, p.1 ≠ k) (hf : f k (Tab.get d t k) = Tab.get d t k) :
    Tab.get d (Tab.mapAll d t f) k = Tab.get d t k := by
  induction t with
  | nil => rfl
  | cons p t ih =>
    obtain ⟨k', v⟩ := p
    unfold Tab.mapAll at ih ⊢
    by_cases hk : k' = k
    · subst hk
      simp only [Tab.get, if_true] at hd hf ⊢
      have hv : v ≠ d := fun e => hd e (k', v) List.mem_cons_self rfl
      simp [hf, hv, Tab.get]
    · simp only [Tab.get, hk, if_false] at hd hf ⊢
      rw [← ih (fun e q hq => hd e q (List.mem_cons_of_mem _ hq)) hf, List.filterMap_cons]
      dsimp only
      by_cases hfv : f k' v = d
      · simp [hfv]
      · simp [hfv, Tab.get, hk]

/-- A canonical table does not list a key whose element is the default. -/
theorem Tab.not_listed_of_wf {α : Type} [DecidableEq α] (d : α) (t : Tab α) (k : Nat) (hwf : Tab.wf d t = true)
    (hk : Tab.get d t k = d) : ∀ p ∈ t, p.1 ≠ k := by
  have elements := ((Tab.wf_iff d t).mp hwf).2
  clear hwf
  induction t with
  | nil => simp
  | cons p t ih =>
    obtain ⟨k', v⟩ := p
    obtain ⟨hv, htail⟩ := List.forall_mem_cons.mp elements
    by_cases hkk : k' = k
    · simp only [Tab.get, hkk, if_true] at hk
      exact absurd hk hv
    · simp only [Tab.get, hkk, if_false] at hk
      exact List.forall_mem_cons.mpr ⟨hkk, ih hk htail⟩

theorem State.mapSessions_session_of_fixed (s : State) (j : Nat) (f : Nat → Session → Session)
    (hd : s.session j = {} → ∀ p ∈ s.sessions, p.1 ≠ j) (hf : f j (s.session j) = s.session j) :
    ({ s with sessions := Tab.mapAll {} s.sessions f } : State).session j = s.session j :=
  Tab.get_mapAll_of_fixed ({} : Session) s.sessions f j hd hf

/-! ## Pictures and the output ring -/

theorem Session.pic_congr {x y : Session} (h : x.pics = y.pics) (poc : W32) : x.pic poc = y.pic poc := by
  unfold Session.pic
  rw [h]

/-- An update of the pictures of a POC that keeps their POC is seen in the one found there. -/
theorem Session.pic_updPic (x : Session) (poc : W32) (f : Picture → Picture) (p : Picture) (hf : ∀ q, (f q).poc = q.poc)
    (hp : x.pic poc = some p) : (x.updPic poc f).pic poc = some (f p) := by
  have found : p.poc = poc := by simpa using List.find?_some hp
  have same : (fun q : Picture => decide (q.poc = poc)) ∘ (fun q => if q.poc = poc then f q else q) = fun q => decide (q.poc = poc) := by
    funext q
    by_cases hq : q.poc = poc <;> simp [hq, hf]
  unfold Session.pic at hp
  unfold Session.pic Session.updPic
  rw [List.find?_map, same, hp]
  simp [found]

/-- From `s` to `t` no session but this one changed, and its pictures stayed. -/
def KeepsPics (s t : State) (i : Nat) : Prop := OnlySession s t i ∧ (t.session i).pics = (s.session i).pics

theorem KeepsPics.of_sessions {s t : State} {i : Nat} (h : t.sessions = s.sessions) : KeepsPics s t i := by
  simp [KeepsPics, OnlySession, State.session, h]

theorem KeepsPics.updSession (s : State) (i : Nat) (f : Session → Session) (hf : ∀ x, (f x).pics = x.pics) :
    KeepsPics s (s.updSession i f) i :=
  ⟨fun j hj => State.session_updSession_other s i j f hj, by rw [State.session_updSession_same, hf]⟩

theorem KeepsPics.trans {s t u : State} {i : Nat} (h₁ : KeepsPics s t i) (h₂ : KeepsPics t u i) : KeepsPics s u i :=
  ⟨fun j hj => (h₂.1 j hj).trans (h₁.1 j hj), h₂.2.trans h₁.2⟩

theorem State.notify_keepsPics (s : State) (i : Nat) : KeepsPics s (s.notify i) i := .of_sessions (by simp)

theorem State.signalSession_keepsPics (s : State) (i : Nat) : KeepsPics s (s.signalSession i) i := by
  unfold State.signalSession
  extract_lets recent
  split
  · exact .updSession s i _ fun _ => rfl
  · refine KeepsPics.trans ?_ (State.notify_keepsPics _ i)
    exact .updSession s i _ fun _ => rfl

theorem State.watchRing_keepsPics (s : State) (i : Nat) : KeepsPics s (s.watchRing i) i := .updSession s i _ fun _ => rfl

theorem State.flushOutput_keepsPics (n i : Nat) (s : State) : KeepsPics s (State.flushOutput n i s) i := by
  induction n generalizing s with
  | zero => exact .of_sessions rfl
  | succ n ih =>
    unfold State.flushOutput
    split
    · exact s.watchRing_keepsPics i
    extract_lets room written counted controlled
    split
    · exact s.watchRing_keepsPics i
    · have hwritten : KeepsPics s written i := .of_sessions (by simp [written])
      have hcounted : KeepsPics written counted i := .updSession written i _ fun _ => rfl
      have hcontrolled : KeepsPics counted controlled i := .of_sessions (by simp [controlled])
      exact ((hwritten.trans hcounted).trans hcontrolled).trans ((controlled.signalSession_keepsPics i).trans (ih _))

theorem State.outPut_keepsPics (s : State) (i pos : Nat) (bs : Bytes) : KeepsPics s (s.outPut i pos bs) i := by
  unfold State.outPut
  extract_lets cur fresh held
  split
  · exact .of_sessions rfl
  · have hheld : KeepsPics s held i := .updSession s i _ fun _ => rfl
    exact hheld.trans (State.flushOutput_keepsPics _ i held)

theorem State.commitUnit_onlySession (s : State) (i : Nat) (poc : W32) (n : Nat) (bs : Bytes) :
    OnlySession s (s.commitUnit i poc n bs) i := by
  intro j hj
  unfold State.commitUnit
  split
  · rfl
  · exact (State.session_updSession_other _ i j _ hj).trans ((s.outPut_keepsPics i _ _).1 j hj)

/-- Committing a unit counts its bytes in the picture and changes nothing else of it. -/
theorem State.commitUnit_pic (s : State) (i : Nat) (poc : W32) (n : Nat) (bs : Bytes) (p : Picture)
    (hp : (s.session i).pic poc = some p) :
    ∃ w, ((s.commitUnit i poc n bs).session i).pic poc = some { p with written := w } := by
  unfold State.commitUnit
  rw [hp]
  dsimp only
  rw [State.session_updSession_same]
  exact ⟨_, Session.pic_updPic _ poc _ p (fun _ => rfl) ((Session.pic_congr (s.outPut_keepsPics i _ _).2 poc).trans hp)⟩

/-! ## Cancelled cores -/

theorem State.updSession_pics (s : State) (i j : Nat) (f : Session → Session) (hf : ∀ x, (f x).pics = x.pics) :
    ((s.updSession i f).session j).pics = (s.session j).pics := by
  by_cases hj : j = i
  · rw [hj, State.session_updSession_same, hf]
  · rw [State.session_updSession_other s i j f hj]

@[simp] theorem State.dieEvent_session (s : State) (owner die severity code : Nat) (arg : W32) (info j : Nat) :
    (s.dieEvent owner die severity code arg info).session j = s.session j := by simp [State.session]

theorem State.takeRecord_pics (d c : Nat) (holder : Option Nat) (s : State) (r : Record) (j : Nat) :
    ((State.takeRecord d c holder s r).session j).pics = (s.session j).pics := by
  unfold State.takeRecord
  dsimp only
  cases r.sess.orElse fun _ => holder with
  | none => split <;> simp [State.session]
  | some k =>
    split
    · exact s.updSession_pics k j _ fun x => by split <;> rfl
    · rw [State.dieEvent_session]
      exact s.updSession_pics k j _ fun x => by split <;> rfl

theorem State.collect_pics (s : State) (d c j : Nat) : ((s.collect d c).session j).pics = (s.session j).pics :=
  State.foldl_same (fun t => (t.session j).pics) _ (fun t r => t.takeRecord_pics d c _ r j) _ s

theorem State.cancelCore_pics (s : State) (d c j : Nat) : ((s.cancelCore d c).session j).pics = (s.session j).pics := by
  unfold State.cancelCore
  rw [State.collect_pics, ← s.collect_pics d c j]
  simp [State.session]

theorem State.cancelCores_pics (s : State) (i : Nat) (cs : List (Nat × Nat)) (j : Nat) :
    ((s.cancelCores i cs).session j).pics = (s.session j).pics := by
  refine State.foldl_same (fun t => (t.session j).pics) _ (fun t x => ?_) cs s
  dsimp only
  split
  · exact t.cancelCore_pics x.1 x.2 j
  · rfl

/-! ## The start of a picture -/

theorem State.updSession_canonical (s : State) (i : Nat) (f : Session → Session) (hwf : Tab.wf {} s.sessions = true) :
    Tab.wf {} (s.updSession i f).sessions = true := Tab.wf_upd ({} : Session) s.sessions i f hwf

/-- A picture that opens a sequence changes, of the other sessions in a canonical table, only attached ones (R226). -/
theorem State.beginPicture_session_other (s : State) (i j : Nat) (p : Picture) (hwf : Tab.wf {} s.sessions = true) (h : j ≠ i)
    (hj : (s.session j).cfg.attach ≠ some i) : (s.beginPicture i p).session j = s.session j := by
  unfold State.beginPicture
  split
  · rfl
  extract_lets ss fresh mdls head opened
  have stays : opened.session j = s.session j := State.session_updSession_other s i j _ h
  have canonical : Tab.wf {} opened.sessions = true := s.updSession_canonical i _ hwf
  split
  · refine (opened.mapSessions_session_of_fixed j _ (Tab.not_listed_of_wf _ _ j canonical) ?_).trans stays
    simp [stays, hj]
  · exact stays

/-- The start of an encoder's picture keeps its session's configuration, and of the picture all but its place and its head. -/
theorem State.beginPicture_pic (s : State) (i : Nat) (poc : W32) (p : Picture) (hkind : (s.session i).cfg.kind = 1)
    (hp : (s.session i).pic poc = some p) :
    ((s.beginPicture i p).session i).cfg = (s.session i).cfg ∧
    ∃ b o h, ((s.beginPicture i p).session i).pic poc = some { p with began := b, outStart := o, head := h } := by
  obtain rfl : p.poc = poc := by simpa using List.find?_some hp
  unfold State.beginPicture
  split
  · exact ⟨rfl, p.began, p.outStart, p.head, hp⟩
  extract_lets ss fresh mdls head opened
  have began : (opened.session i).cfg = (s.session i).cfg ∧
      ∃ b o h, (opened.session i).pic p.poc = some { p with began := b, outStart := o, head := h } := by
    unfold opened
    rw [State.session_updSession_same]
    extract_lets w x y z
    have kept : z.cfg = (s.session i).cfg ∧ z.pics = (s.session i).pics := by
      unfold z y x w Session.clearRefs
      (repeat' split) <;> exact ⟨rfl, rfl⟩
    obtain ⟨hcfg, hpics⟩ := kept
    exact ⟨hcfg, _, _, _, Session.pic_updPic z p.poc _ p (fun _ => rfl) ((Session.pic_congr hpics p.poc).trans hp)⟩
  split
  · have hk : (opened.session i).cfg.kind = 1 := by rw [began.1, hkind]
    rw [opened.mapSessions_session_of_fixed i _ (fun e => by rw [e] at hk; cases hk) (by simp [hk])]
    exact began
  · exact began

/-! ## PIC_COMMIT and the other sessions -/

/-- Where the session table is canonical, PIC_COMMIT leaves every session that is neither its own nor attached to it. -/
theorem execPicCommit_session_other (dt : Nat) (i : SessionIx) (poc : W32) (s t : State) (hwf : Tab.wf {} s.sessions = true)
    (ht : execPicCommit dt i poc s = .next t) (j : Nat) (h : j ≠ i.val) (hj : (s.session j).cfg.attach ≠ some i.val) :
    t.session j = s.session j := by
  unfold execPicCommit State.event at ht
  injection ht with ht
  subst ht
  split
  · dsimp only
    split
    · rfl
    · rw [State.commitUnit_onlySession _ _ _ _ _ j h, State.session_updSession_other _ _ _ _ h]
      exact State.beginPicture_session_other (s.elapse dt) i.val j _ hwf h hj
  · rfl

/-- A session table that lists session 1 twice, an idle slot first: session 0's encoder is about to commit the PIC unit of a picture that
opens a sequence. -/
def twiceListed : State :=
  { power := { running := true }
    sessions := [(0, { cfg := { kind := 1 }, poolLost := true, pics := [{ poc := 0, phase1 := true }] }), (1, {}), (1, { gen := 1 })] }

/-- Refutes O50: the session table need not be canonical. Of a session listed twice, an idle slot first, PIC_COMMIT drops the idle slot as
it opens a sequence, and the entry behind it comes to light, though the session is not attached. -/
theorem not_committedRowsKeepTheCap : ¬ Obligations.CommittedRowsKeepTheCap := by
  unfold Obligations.CommittedRowsKeepTheCap
  intro h
  obtain ⟨hpic, -⟩ := h twiceListed 0 0 0 { poc := 0, phase1 := true } rfl rfl rfl rfl (by decide)
  obtain ⟨t, ht, -, hothers, -⟩ := hpic rfl rfl rfl (.inr (.inr (by decide)))
  have before : (twiceListed.session 1).gen = 0 := rfl
  have after : (t.session 1).gen = 1 := by
    injection ht with ht
    subst ht
    decide +kernel
  rw [hothers 1 (by decide) (by decide), before] at after
  cases after

/-! ## What R203 says of the cap -/

/-- Once the PIC unit is committed, the bytes committed, the room and 16 bytes for each row to come make the cap, and the room is not
negative (R203). -/
def Picture.KeepsCap (rows : Nat) (q : Picture) : Prop :=
  q.picDone = true → (q.bytes : Int) + q.room + 16 * ((rows : Int) - q.rowsCommitted) = q.cap ∧ 0 ≤ q.room ∧ q.rowsCommitted ≤ rows

/-- A picture whose PIC unit of `n` bytes, its header `h` of them, leaves room for floor rows keeps the cap. -/
theorem Picture.keepsCap_of_unit (q : Picture) (rows h n : Nat) (header : h ≤ n) (fits : n + 16 * rows ≤ q.cap)
    (first : q.rowsCommitted = 0) (bytes : q.bytes = n) (room : q.room = (q.cap : Int) - h - (n - h : Nat) - 16 * (rows : Int)) :
    q.KeepsCap rows := by
  intro _
  omega

theorem Picture.KeepsCap.bytes_le_cap {rows : Nat} {q : Picture} (h : q.KeepsCap rows) (done : q.picDone = true) : q.bytes ≤ q.cap := by
  obtain ⟨sum, room, committed⟩ := h done
  omega

/-- A floor row takes 16 bytes whatever its index and POC: nothing in it asks for an emulation prevention byte (R223, R235). -/
theorem floorRow_length (r : Nat) (poc : W32) : (unitBytes tROW (floorRowPayload r poc)).length = 16 := by
  have bytes (a b c : Byte) : (protect ([a, 0x81, b, c] ++ List.replicate 8 0xFF)).length = 12 := by
    by_cases ha : a = 0#8 <;> by_cases hb : b = 0#8 <;> by_cases hc : c = 0#8 <;>
      simp [protect, protectFrom, List.replicate, ha, hb, hc]
  simpa [unitBytes, floorRowPayload, natBE, natLE] using bytes _ _ _

/-- The coding picture's session is a video encoder's (R180). -/
theorem Session.kind_of_codingPic {x : Session} {p : Picture} (h : x.codingPic = some p) : x.cfg.kind = 1 := by
  unfold Session.codingPic at h
  split at h
  · assumption
  · cases h

theorem Session.fmt_of_encoder {x : Session} (h : x.cfg.kind = 1) : x.fmt = x.cfg.fmt := by simp [Session.fmt, h]

/-- The picture of this POC keeps its cap. -/
def State.PicKeepsCap (s : State) (i : Nat) (poc : W32) (rows : Nat) : Prop :=
  ∃ q, (s.session i).pic poc = some q ∧ q.KeepsCap rows

theorem State.commitUnit_picKeepsCap {s : State} {i n rows : Nat} {poc : W32} {bs : Bytes} (h : s.PicKeepsCap i poc rows) :
    (s.commitUnit i poc n bs).PicKeepsCap i poc rows := by
  obtain ⟨q, hq, hcap⟩ := h
  obtain ⟨w, hw⟩ := s.commitUnit_pic i poc n bs q hq
  exact ⟨_, hw, hcap⟩

theorem State.cancelCores_picKeepsCap {s : State} {i rows : Nat} {poc : W32} {cs : List (Nat × Nat)} (h : s.PicKeepsCap i poc rows) :
    (s.cancelCores i cs).PicKeepsCap i poc rows := by
  obtain ⟨q, hq, hcap⟩ := h
  exact ⟨q, (Session.pic_congr (s.cancelCores_pics i cs i) poc).trans hq, hcap⟩

theorem State.updPic_picKeepsCap {s : State} {i rows : Nat} {poc : W32} {f : Picture → Picture} {p : Picture}
    (hp : (s.session i).pic poc = some p) (hf : ∀ q, (f q).poc = q.poc) (h : (f p).KeepsCap rows) :
    (s.updSession i (fun x => x.updPic poc f)).PicKeepsCap i poc rows := by
  refine ⟨f p, ?_, h⟩
  rw [State.session_updSession_same]
  exact Session.pic_updPic _ poc f p hf hp

/-- PIC_COMMIT keeps the cap, where the cap admits the floor size (R201) and the coded PIC unit is at least as long as its floor form. -/
theorem execPicCommit_keepsCap (dt : Nat) (i : SessionIx) (poc : W32) (s t : State) (p : Picture)
    (hp : (s.session i.val).pic poc = some p) (hcoding : (s.session i.val).codingPic = some p)
    (hcap : p.KeepsCap (s.session i.val).fmt.cbRows) (hrows : p.picDone = false → p.rowsCommitted = 0)
    (admits : hPic p.poc p.refs p.marks p.nonref + 16 * (s.session i.val).fmt.cbRows ≤ p.cap)
    (longer : hPic p.poc p.refs p.marks p.nonref ≤ (unitBytes tPIC (picPayload p.poc p.refs p.marks p.nonref p.subsInOrder)).length)
    (ht : execPicCommit dt i poc s = .next t) : t.PicKeepsCap i.val poc (s.session i.val).fmt.cbRows := by
  have hkind := Session.kind_of_codingPic hcoding
  have hp' : ((s.elapse dt).session i.val).pic poc = some p := hp
  unfold execPicCommit State.event at ht
  injection ht with ht
  subst ht
  split
  case isFalse => exact ⟨p, hp, hcap⟩
  case isTrue ready =>
    have hcoding' : ((s.elapse dt).session i.val).codingPic = some p := hcoding
    simp only [hcoding', picReady, Bool.and_eq_true, Bool.not_eq_true'] at ready
    obtain ⟨-, ⟨⟨⟨-, fresh⟩, -⟩, -⟩, -⟩ := ready
    dsimp -zeta only
    extract_lets k
    simp -zeta only [k, hp']
    extract_lets begun q rows h full floor unit hyper counted
    obtain ⟨hcfg, b, o, head, hbegun⟩ := (s.elapse dt).beginPicture_pic i.val poc p hkind hp
    have hq : q = { p with began := b, outStart := o, head := head } := by
      unfold q begun
      rw [hbegun, Option.getD_some]
    have hrows' : rows = (s.session i.val).fmt.cbRows := by
      unfold rows begun
      rw [Session.fmt_of_encoder hkind, Session.fmt_of_encoder (by rw [hcfg]; exact hkind), hcfg]
      rfl
    rw [← hrows'] at admits ⊢
    have hh : h = hPic p.poc p.refs p.marks p.nonref := by unfold h; rw [hq]
    have hfull : full = unitBytes tPIC (picPayload p.poc p.refs p.marks p.nonref p.subsInOrder) := by
      unfold full
      rw [hq]
      rfl
    have hadmits : h + 16 * rows ≤ q.cap := by rw [hh, hq]; exact admits
    have hlonger : h ≤ full.length := by rw [hh, hfull]; exact longer
    have hunit : h ≤ unit.length ∧ unit.length + 16 * rows ≤ q.cap := by
      unfold unit
      split
      · exact ⟨Nat.le_refl h, hadmits⟩
      · next hfloor => exact ⟨hlonger, Nat.not_lt.mp fun hover => hfloor (decide_eq_true hover)⟩
    apply State.commitUnit_picKeepsCap
    refine State.updPic_picKeepsCap (hbegun.trans (congrArg some hq.symm)) ?same ?kept
    case same => exact fun _ => rfl
    case kept => exact Picture.keepsCap_of_unit _ rows h unit.length hunit.1 hunit.2 (by rw [hq]; exact hrows fresh) rfl rfl

/-- ROW_COMMIT keeps the cap, whether its row is committed as coded or in floor mode (R203). -/
theorem execRowCommit_keepsCap (dt : Nat) (i : SessionIx) (poc : W32) (s t : State) (p : Picture)
    (hp : (s.session i.val).pic poc = some p) (hcoding : (s.session i.val).codingPic = some p)
    (hcap : p.KeepsCap (s.session i.val).fmt.cbRows) (ht : execRowCommit dt i poc s = .next t) :
    t.PicKeepsCap i.val poc (s.session i.val).fmt.cbRows := by
  have hp' : ((s.elapse dt).session i.val).pic poc = some p := hp
  unfold execRowCommit State.event at ht
  injection ht with ht
  subst ht
  split
  case isFalse => exact ⟨p, hp, hcap⟩
  case isTrue ready =>
    have hcoding' : ((s.elapse dt).session i.val).codingPic = some p := hcoding
    simp only [hcoding', picReady, Session.rowReady, Bool.and_eq_true, decide_eq_true_eq] at ready
    obtain ⟨-, -, ⟨⟨⟨done, -⟩, -⟩, next⟩, -⟩ := ready
    obtain ⟨sum, room, -⟩ := hcap done
    dsimp -zeta only
    extract_lets k
    simp -zeta only [k, hp']
    extract_lets r full fits unit stops counted stopped
    have hnext : r < (s.session i.val).fmt.cbRows := next
    have hcounted : counted.PicKeepsCap i.val poc (s.session i.val).fmt.cbRows := by
      refine State.updPic_picKeepsCap hp' ?same ?kept
      case same => exact fun _ => rfl
      intro _
      by_cases hfits : fits = true
      · have hunit : unit = full := if_pos hfits
        have hroom : (full.length : Int) - 16 ≤ p.room := of_decide_eq_true (Bool.and_eq_true_iff.mp hfits).2
        simp only [hfits, hunit, if_true]
        omega
      · have hunit : unit.length = 16 := by
          unfold unit
          rw [if_neg hfits]
          exact floorRow_length r p.poc
        simp only [hunit, if_neg hfits]
        omega
    apply State.commitUnit_picKeepsCap
    unfold stopped
    split
    · exact State.cancelCores_picKeepsCap hcounted
    · exact hcounted

end Sys2Proof.Machine

/-! # Blown fuses stay blown (R419)

Three commands write fuses, each only blowing some (`execCommitSvn_burns`, `execEnrolModelKey_burns`, `execRevokeKey_burns`); every other
command leaves them as they are (`exec_keeps`). Burning is transitive, so what a step adds to the fuses does not undo what was blown
before it. -/

namespace Sys2Proof.Machine

/-- Keeping set bits is transitive. -/
theorem bits_and_trans {n : Nat} {a b c : BitVec n} (hab : a &&& b = a) (hbc : b &&& c = b) : a &&& c = a := by
  calc a &&& c = a &&& b &&& c := by rw [hab]
    _ = a &&& (b &&& c) := BitVec.and_assoc a b c
    _ = a := by rw [hbc, hab]

theorem FusesBurn.trans {a b c : Fuses} (hab : FusesBurn a b) (hbc : FusesBurn b c) : FusesBurn a c := by
  obtain ⟨svn, fw, model, keys, fwKeys, debug, secret, identity⟩ := hab
  obtain ⟨svn', fw', model', keys', fwKeys', debug', secret', identity'⟩ := hbc
  refine ⟨Nat.le_trans svn svn', bits_and_trans fw fw', bits_and_trans model model', fun k held => ?_, fwKeys'.trans fwKeys,
    debug'.trans debug, secret'.trans secret, identity'.trans identity⟩
  have kept : Tab.get [] b.modelKeys k = Tab.get [] a.modelKeys k := keys k held
  exact (keys' k (kept ▸ held)).trans kept

/-! ## The commands, one by one -/

/-- The FW_UPDATE operations that blow fuses (R441, R442). -/
def writesFuses : Instr → Bool
  | .commitSvn .. | .enrolModelKey .. | .revokeKey .. => true
  | _ => false

theorem execMemoryTrained_keeps (dt : Nat) (seedFail trainFail : List (MemDie × Fin 8)) (mismatch : List (CoreDie × CoreIx))
    (s : State) : Keeps (execMemoryTrained dt seedFail trainFail mismatch s) s := by
  unfold execMemoryTrained
  refine State.event_keeps fun t => ?_
  dsimp only
  rw [State.foldl_fixed _ (fun u x => by split <;> simp), State.foldl_fixed _ (fun u x => by simp)]
  simp

/-- No other command changes a fuse. -/
theorem exec_keeps (c : Instr) (s : State) (hc : writesFuses c = false) : Keeps (exec c s) s := by
  cases c with
  | commitSvn | enrolModelKey | revokeKey => cases hc
  | auxPowerOn => exact execAuxPowerOn_keeps ..
  | auxPowerOff => exact execAuxPowerOff_keeps ..
  | supply54vRemoved => exact execSupply54vRemoved_keeps ..
  | supply54vRestored => exact execSupply54vRestored_keeps ..
  | railSequence => exact execRailSequence_keeps ..
  | railFault => exact execRailFault_keeps ..
  | supplyWarn => exact execSupplyWarn_keeps ..
  | supplyFault => exact execSupplyFault_keeps ..
  | moduleReset => exact execModuleReset_keeps ..
  | boot => exact execBoot_keeps ..
  | pllStartTimeout => exact execPllStartTimeout_keeps ..
  | pllWindow => exact execPllWindow_keeps ..
  | perstAssert => exact execPerstAssert_keeps ..
  | perstRelease => exact execPerstRelease_keeps ..
  | refclkMissing => exact execRefclkMissing_keeps ..
  | refclkPresent => exact execRefclkPresent_keeps ..
  | tapReset => exact execTapReset_keeps ..
  | bypass => exact execBypass_keeps ..
  | idcode => exact execIdcode_keeps ..
  | samplePreload => exact execSamplePreload_keeps ..
  | extest => exact execExtest_keeps ..
  | flitCrcFail => exact execFlitCrcFail_keeps ..
  | sramUncorrectableEcc => exact execSramUncorrectableEcc_keeps ..
  | dieWatchdogExpiry => exact execDieWatchdogExpiry_keeps ..
  | hubWatchdogExpiry => exact execHubWatchdogExpiry_keeps ..
  | conv => exact execConv_keeps ..
  | matmul => exact execMatmul_keeps ..
  | pool => exact execPool_keeps ..
  | elem => exact execElem_keeps ..
  | act => exact execAct_keeps ..
  | softmax => exact execSoftmax_keeps ..
  | norm => exact execNorm_keeps ..
  | sort => exact execSort_keeps ..
  | quant => exact execQuant_keeps ..
  | micro => exact execMicro_keeps ..
  | completionRecord => exact execCompletionRecord_keeps ..
  | stepAdd | stepSub | stepMul | stepFma | stepMin | stepMax | stepDiv | stepSqrt | stepFloor
  | stepLdexp | stepSellt | stepLookup | stepLookup2 | stepCall => exact State.microStep_keeps
  | scratchCorrectedError => exact execScratchCorrectedError_keeps ..
  | shadowWrite => exact execShadowWrite_keeps ..
  | shadowValidSet => exact execShadowValidSet_keeps ..
  | swapNow => exact execSwapNow_keeps ..
  | explicitSwap => exact execExplicitSwap_keeps ..
  | rowCancelRead => exact execRowCancelRead_keeps ..
  | handoverRequest => exact execHandoverRequest_keeps ..
  | handoverEffect => exact execHandoverEffect_keeps ..
  | bankOn => exact execBankOn_keeps ..
  | bankRetain => exact execBankRetain_keeps ..
  | bankOff => exact execBankOff_keeps ..
  | bankGroupReady => exact execBankGroupReady_keeps ..
  | queueEnable => exact execQueueEnable_keeps ..
  | feederDescriptorFetch => exact execFeederDescriptorFetch_keeps ..
  | transferComplete => exact execTransferComplete_keeps ..
  | queueCancel => exact execQueueCancel_keeps ..
  | cancelDrained => exact execCancelDrained_keeps ..
  | pourStepAdvance => exact execPourStepAdvance_keeps ..
  | seamRowArrival => exact execSeamRowArrival_keeps ..
  | creditReturn => exact execCreditReturn_keeps ..
  | boundaryPre => exact execBoundaryPre_keeps ..
  | copyIn => exact execCopyIn_keeps ..
  | cinchArrive => exact execCinchArrive_keeps ..
  | cinchRelease => exact execCinchRelease_keeps ..
  | cinchTimeout => exact execCinchTimeout_keeps ..
  | feederRowLanded => exact execFeederRowLanded_keeps ..
  | searchRow => exact execSearchRow_keeps ..
  | predictRow => exact execPredictRow_keeps ..
  | librarySearch => exact execLibrarySearch_keeps ..
  | libraryStageComplete => exact execLibraryStageComplete_keeps ..
  | phase1Start => exact execPhase1Start_keeps ..
  | picCommit => exact execPicCommit_keeps ..
  | gainAllocation => exact execGainAllocation_keeps ..
  | phase2Start => exact execPhase2Start_keeps ..
  | rowCommit => exact execRowCommit_keeps ..
  | phase2Rerun => exact execPhase2Rerun_keeps ..
  | phase2Done => exact execPhase2Done_keeps ..
  | frameBufferRelease => exact execFrameBufferRelease_keeps ..
  | libraryWriteComplete => exact execLibraryWriteComplete_keeps ..
  | poolGrant => exact execPoolGrant_keeps ..
  | substreamEncode => exact execSubstreamEncode_keeps ..
  | substreamDecode => exact execSubstreamDecode_keeps ..
  | unitMdl => exact execUnitMdl_keeps ..
  | unitSeq => exact execUnitSeq_keeps ..
  | unitPic => exact execUnitPic_keeps ..
  | unitRow => exact execUnitRow_keeps ..
  | unitAud => exact execUnitAud_keeps ..
  | unitLib => exact execUnitLib_keeps ..
  | unitEnd => exact execUnitEnd_keeps ..
  | extensionUnit => exact execExtensionUnit_keeps ..
  | pictureWatchdog => exact execPictureWatchdog_keeps ..
  | audioFrameEncode => exact execAudioFrameEncode_keeps ..
  | audCommit => exact execAudCommit_keeps ..
  | audioSynthesisDone => exact execAudioSynthesisDone_keeps ..
  | audioWatchdog => exact execAudioWatchdog_keeps ..
  | outputStall => exact execOutputStall_keeps ..
  | remapGraceExpiry => exact execRemapGraceExpiry_keeps ..
  | recutCoreRelease => exact execRecutCoreRelease_keeps ..
  | drainComplete => exact execDrainComplete_keeps ..
  | mailboxSeal => exact execMailboxSeal_keeps ..
  | slotStateWrite => exact execSlotStateWrite_keeps ..
  | seqGap => exact execSeqGap_keeps ..
  | ping => exact execPing_keeps ..
  | deviceInfo => exact execDeviceInfo_keeps ..
  | claim => exact execClaim_keeps ..
  | heartbeat => exact execHeartbeat_keeps ..
  | handover => exact execHandover_keeps ..
  | accept => exact execAccept_keeps ..
  | release => exact execRelease_keeps ..
  | electionWindowClose => exact execElectionWindowClose_keeps ..
  | leaseExpired => exact execLeaseExpired_keeps ..
  | handoverLapsed => exact execHandoverLapsed_keeps ..
  | eventRead => exact execEventRead_keeps ..
  | modelLoad => exact execModelLoad_keeps ..
  | modelUnload => exact execModelUnload_keeps ..
  | modelList => exact execModelList_keeps ..
  | modelReload => exact execModelReload_keeps ..
  | stage => exact execStage_keeps ..
  | activate => exact execActivate_keeps ..
  | signQuote => exact execSignQuote_keeps ..
  | readQuoteChunk => exact execReadQuoteChunk_keeps ..
  | readLogChunk => exact execReadLogChunk_keeps ..
  | readCertChunk => exact execReadCertChunk_keeps ..
  | calRead => exact execCalRead_keeps ..
  | calWrite => exact execCalWrite_keeps ..
  | setCap => exact execSetCap_keeps ..
  | diesOff => exact execDiesOff_keeps ..
  | diesOn => exact execDiesOn_keeps ..
  | diePowerOnComplete => exact execDiePowerOnComplete_keeps ..
  | moduleStandby => exact execModuleStandby_keeps ..
  | standbyEntry => exact execStandbyEntry_keeps ..
  | configure => exact execConfigure_keeps ..
  | bind => exact execBind_keeps ..
  | start => exact execStart_keeps ..
  | recut => exact execRecut_keeps ..
  | drain => exact execDrain_keeps ..
  | abort => exact execAbort_keeps ..
  | unbind => exact execUnbind_keeps ..
  | close => exact execClose_keeps ..
  | sessionStatus => exact execSessionStatus_keeps ..
  | picture => exact execPicture_keeps ..
  | streamSlot => exact execStreamSlot_keeps ..
  | outSlot => exact execOutSlot_keeps ..
  | audioBlock => exact execAudioBlock_keeps ..
  | routeAdd => exact execRouteAdd_keeps ..
  | routeRemove => exact execRouteRemove_keeps ..
  | mbxOffset => exact execMbxOffset_keeps ..
  | mbxWrite => exact execMbxWrite_keeps ..
  | mbxRead => exact execMbxRead_keeps ..
  | alertResponse => exact execAlertResponse_keeps ..
  | wake => exact execWake_keeps ..
  | tripLatchedClear => exact execTripLatchedClear_keeps ..
  | timeLoRead => exact execTimeLoRead_keeps ..
  | logNextLoRead => exact execLogNextLoRead_keeps ..
  | registerWrite => exact execRegisterWrite_keeps ..
  | eventCommit => exact execEventCommit_keeps ..
  | dieProgressReport => exact execDieProgressReport_keeps ..
  | completionRingCollect => exact execCompletionRingCollect_keeps ..
  | mirrorPush => exact execMirrorPush_keeps ..
  | counterWindowRefresh => exact execCounterWindowRefresh_keeps ..
  | pcieLinkUp => exact execPcieLinkUp_keeps ..
  | flr => exact execFlr_keeps ..
  | surpriseLinkDown => exact execSurpriseLinkDown_keeps ..
  | pmStateWrite => exact execPmStateWrite_keeps ..
  | bar2Read => exact execBar2Read_keeps ..
  | bar2Write => exact execBar2Write_keeps ..
  | cxlPortUp => exact execCxlPortUp_keeps ..
  | cxlDown => exact execCxlDown_keeps ..
  | cxlRetrain => exact execCxlRetrain_keeps ..
  | memoryTrained => exact execMemoryTrained_keeps ..
  | gddr7Retrain => exact execGddr7Retrain_keeps ..
  | gddr7AccessError => exact execGddr7AccessError_keeps ..
  | patrolScrub => exact execPatrolScrub_keeps ..
  | cascadeData => exact execCascadeData_keeps ..
  | cascadeTime => exact execCascadeTime_keeps ..
  | cascadeRetry => exact execCascadeRetry_keeps ..
  | cascadeId => exact execCascadeId_keeps ..
  | cascadeIdle => exact execCascadeIdle_keeps ..
  | cascadeCrcFail => exact execCascadeCrcFail_keeps ..
  | cascadeMbxWrite => exact execCascadeMbxWrite_keeps ..
  | cascadeMbxRead => exact execCascadeMbxRead_keeps ..
  | mbxData => exact execMbxData_keeps ..
  | notice => exact execNotice_keeps ..
  | timeRequest => exact execTimeRequest_keeps ..
  | timeUnlocked => exact execTimeUnlocked_keeps ..
  | cascadePortTrained => exact execCascadePortTrained_keeps ..
  | linkLost => exact execLinkLost_keeps ..
  | linkRetrain => exact execLinkRetrain_keeps ..
  | masterLost => exact execMasterLost_keeps ..
  | masterElection => exact execMasterElection_keeps ..
  | throttleLower => exact execThrottleLower_keeps ..
  | throttleFastDrop => exact execThrottleFastDrop_keeps ..
  | throttleRaise => exact execThrottleRaise_keeps ..
  | junctionSensorRead => exact execJunctionSensorRead_keeps ..
  | gddr7TempRead => exact execGddr7TempRead_keeps ..
  | coolantSensorRead => exact execCoolantSensorRead_keeps ..
  | imageVerified => exact execImageVerified_keeps ..
  | mailboxServiceStart => exact execMailboxServiceStart_keeps ..
  | stageComplete => exact execStageComplete_keeps ..
  | calWriteComplete => exact execCalWriteComplete_keeps ..
  | quoteSigned => exact execQuoteSigned_keeps ..
  | sessionVectorCoalesce => exact execSessionVectorCoalesce_keeps ..
  | railSequenceRetry => exact execRailSequenceRetry_keeps ..
  | pcieControllersReady => exact execPcieControllersReady_keeps ..
  | reservedUnitType => exact execReservedUnitType_keeps ..
  | configurationWrite => exact execConfigurationWrite_keeps ..

theorem exec_burns (c : Instr) (s : State) : Burns (exec c s) s := by
  cases writes : writesFuses c with
  | false => exact (exec_keeps c s writes).burns
  | true =>
    unfold writesFuses at writes
    split at writes
    · exact execCommitSvn_burns ..
    · exact execEnrolModelKey_burns ..
    · exact execRevokeKey_burns ..
    · cases writes

/-! ## A step -/

theorem step_burns (s t : State) (h : step s = .next t) : FusesBurn s.fuses t.fuses := by
  unfold step at h
  split at h
  · cases h
    exact .refl s.fuses
  · next c rest _ =>
    obtain ⟨u, hu, -, burn⟩ := exec_burns c { s with pending := rest }
    rw [h] at hu
    cases hu
    exact burn

/-- Settles O3: a step only blows fuses, command by command, and burning is transitive. -/
theorem blownFusesStayBlown : Obligations.BlownFusesStayBlown := by
  unfold Obligations.BlownFusesStayBlown
  exact fun _ s t blown hstep => blown.trans (step_burns s t hstep)

end Sys2Proof.Machine
